-- ==== Sys2Proof/Word.lean ====
section
/-! DEFINITION. The word types of the YJ640 model and their plainest arithmetic (R10, R49, R71). -/

namespace Sys2Proof

/-- One byte of a payload, a frame or a mailbox slot. -/
abbrev Byte := BitVec 8
/-- A 32-bit register, stamp or epoch number. -/
abbrev Word := BitVec 32

/-- The signed comparison of two epoch numbers: the signed value of a − b modulo 2^32 (R49). -/
def epochDiff (a b : Word) : Int := (a - b).toInt

/-- A counter step that saturates at 0xFFFF_FFFF (R130, R177, R385, R410, R443, R473, R513). -/
def satAdd (n k : Nat) : Nat := min (n + k) 0xFFFFFFFF

/-- One count of a 32-bit saturating counter. -/
def satInc (n : Nat) : Nat := satAdd n 1

/-- The low `w` bits of an integer as a natural number (two's complement truncation, R10). -/
def intBits (w : Nat) (i : Int) : Nat := (i % (2 ^ w : Nat)).toNat

/-- The signed value of the low `w` bits of `n` (R10, two's complement). -/
def sext (w n : Nat) : Int :=
  let m := n % 2 ^ w
  if w = 0 then 0 else if m < 2 ^ (w - 1) then (m : Int) else (m : Int) - (2 ^ w : Nat)

/-- Narrowing to int32 by saturation (sat32 of R282). -/
def sat32 (i : Int) : Int := max (-2147483648) (min 2147483647 i)

end Sys2Proof
end

