-- ==== Sys2Proof/Syntax.lean ====
section
/-! DEFINITION. The operand types of the commands and events, and Instr: one constructor per row of the operation table. -/

namespace Sys2Proof

/-- The DMA descriptor of Table 14.8, but for the request address and length, whose bytes are the payload (R452). -/
structure Dma where
  reqAddr : BitVec 64 := 0
  rspAddr : BitVec 64 := 0
  reqLen  : Nat := 0
  rspMax  : Nat := 0
  deriving DecidableEq, Repr

/-- The path on which a mailbox request arrived: PCIe slot, UDP source, or relay from a manager (R455, R480). -/
inductive Path where
  | slot (n : Fin 31)
  | udp (mac : Fin 2) (src : Word) (port : BitVec 16)
  | relay (mgr : Fin 64) (seq : BitVec 16)
  /-- A slot whose endpoint was reset while its command was in progress: the response is discarded (R446). -/
  | gone
  deriving DecidableEq, Repr

/-- A mailbox request that the device executes: the slot header fields of Table 14.7 that its execution reads, and
the request payload (fetched by DMA when `dma` is some). -/
structure Req where
  path    : Path
  tag     : BitVec 16 := 0
  target  : BitVec 8 := 0xFF
  notify  : Bool := false
  dma     : Option Dma := none
  payload : List Byte := []
  deriving DecidableEq, Repr

/-- One watched heartbeat path (R459). -/
inductive Watch where
  | pcie
  | udp (src : Word)
  deriving DecidableEq, Repr

/-- A contribution record: the header of Table 11.3 and a body of `len` 8-byte units, little-endian (R362). -/
structure Contrib where
  epoch   : Word
  kind    : Nat
  src     : Nat
  subject : Nat := 0xFF
  len     : Nat := 1
  late    : Bool := false
  body    : Nat := 0
  deriving DecidableEq, Repr

/-- One section of an image: its code, its size in bytes and its bits (R359). -/
structure Sec where
  code  : Nat
  bytes : Nat
  val   : Nat
  deriving DecidableEq, Repr

/-- A Board epoch image: the fields of Table 11.2 and its sections (R359, R360). The committed records are carried
both as the COMMIT section's bytes and as records. -/
structure Image where
  epoch     : Word
  dpCycle   : Word := 0
  closeNs   : Word := 0
  flags     : BitVec 8 := 0
  publisher : Nat := 0
  presence  : BitVec 16 := 0
  ontime    : Nat := 0
  lateRecs  : Nat := 0
  secs      : List Sec := []
  commit    : List Contrib := []
  deriving DecidableEq, Repr

/-- An event record's content but for its ring number, SEQ and CRC (Table 17.1). -/
structure EvRec where
  code  : BitVec 16
  sev   : Nat
  supp  : Nat := 0
  src   : Nat := 0
  epoch : Word := 0
  ns    : Word := 0
  p1    : Word := 0
  p2    : Word := 0
  p3    : Word := 0
  p4    : Word := 0
  deriving DecidableEq, Repr

/-- A MEMBER payload (Table 12.5); ports in the order A0, A1, B0, B1. -/
structure Member where
  device     : Nat
  addressee  : Nat := 0xFF
  subtype    : Nat := 1
  status     : Nat := 0
  role       : Nat := 0
  epoch      : Word := 0
  portStates : List Nat := [1, 1, 1, 1]
  neighbours : List Nat := [0xFF, 0xFF, 0xFF, 0xFF]
  hifState   : Nat := 3
  variant    : Nat := 1
  boot       : BitVec 16 := 0
  fwver      : Word := 0
  units      : Word := 0
  deriving DecidableEq, Repr

/-- What the JOIN handshake transfers (R45, R48, R91, R94, R185, R329, R401, R490, R592). The track goes to a manager. Scenarios, weights and fallback data, for a manager, are
payloads of CONSEQ_CONFIG, DP_WEIGHTS and FALLBACK_LOAD; an empty one transfers nothing. -/
structure Handshake where
  epochLen   : Nat := 20
  cycleLen   : Nat := 5
  closeOff   : Nat := 60
  timeNs     : Nat := 0
  /-- Epoch 0 has begun; before it there is no number to adopt (R48). -/
  holds      : Bool := true
  epoch      : Word := 0
  ticks      : Nat := 0
  dpCycle    : Word := 0
  jumpUs     : Nat := 100
  active     : Nat := 0xFF
  timeGen    : BitVec 16 := 0
  track      : List (List Int) := []
  trackLeg   : Nat := 0
  thrusters  : List (List Byte) := []
  power      : List Byte := []
  flows      : List (List Byte) := []
  /-- Counters of chapter 6 that the Board does not carry: good cycles, milliseconds of the joystick timeout, POWER_RESERVE runs and alarms
  by section (R185). -/
  goodCycles : Nat := 0
  joyMs      : Nat := 0
  reserve    : List (Nat × Nat × Bool) := []
  conseq     : List Byte := []
  weights    : List (List Byte) := []
  fallback   : List (List Byte) := []
  deriving DecidableEq, Repr

/-- A frame header (Table 12.2); `hcrcOk` is the result of its HCRC check. -/
structure Hdr where
  type    : Nat
  ver     : Nat := 1
  first   : Bool := true
  last    : Bool := true
  src     : Nat := 0
  dst     : Nat := 0xFF
  flow    : Nat := 0
  hops    : Nat := 0
  epoch16 : BitVec 16 := 0
  seq     : BitVec 16 := 0
  len     : Nat := 0
  late    : Bool := false
  shifted : Bool := false
  replay  : Bool := false
  prio    : Nat := 0
  net     : Bool := false
  hcrcOk  : Bool := true
  deriving DecidableEq, Repr

/-- A frame: its header and its payload bytes (R390). -/
structure Frame where
  hdr     : Hdr
  payload : List Byte := []
  deriving DecidableEq, Repr

/-- How a frame ends on the cable (R392, R394, Table 12.7). -/
inductive FrameEnd where
  | intact
  | crcOrLength
  | abort
  deriving DecidableEq, Repr

/-- A NAK payload (Table 12.8). -/
structure Nak where
  code       : Nat
  port       : Nat := 0
  origType   : Nat := 0
  origSrc    : Nat := 0
  origFlow   : Nat := 0
  origSeq    : BitVec 16 := 0
  origEpoch  : BitVec 16 := 0
  origLen    : Nat := 0
  suppressed : Nat := 0
  deriving DecidableEq, Repr

/-- A thruster command record (Table 6.8). -/
structure CmdRec where
  thr      : Nat
  flags    : BitVec 8 := 0
  mode     : Nat := 0
  /-- Bits [31:24], which the comparison covers too (R341). -/
  rsvd     : BitVec 8 := 0
  srcCycle : Word := 0
  thrust   : Word := 0
  angle    : Word := 0
  deriving DecidableEq, Repr

/-- A CAN frame as received, its own-frame mark included (Table 13.4). -/
structure CanFrame where
  id   : Nat
  ide  : Bool := false
  rtr  : Bool := false
  fdf  : Bool := false
  brs  : Bool := false
  esi  : Bool := false
  self : Bool := false
  dlc  : Nat := 0
  data : List Byte := []
  deriving DecidableEq, Repr

/-- How a transmit attempt ends (R428, R431). -/
inductive CanEnd where
  | success
  | lostArbitration
  /-- An error frame: 0 bit, 1 stuff, 2 form, 3 ack, 4 crc; `afterArb` when the attempt had passed arbitration. -/
  | error (kind : Fin 5) (afterArb : Bool)
  deriving DecidableEq, Repr

/-- How a frame of another node ends on the bus (R418): complete without error, or in an error frame; `primary` when a dominant bit follows
this node's own error flag. -/
inductive RxEnd where
  | ok
  | error (kind : Fin 5) (primary : Bool)
  deriving DecidableEq, Repr

/-- When a frame of another node began, as a stamp of the time counter, and how it ends. -/
structure CanRx where
  stamp : Nat
  ends  : RxEnd := .ok
  deriving DecidableEq, Repr

/-- Levels that a safety output's readback pin has shown within a check window (R312). -/
structure SeenLevels where
  low  : Bool := false
  high : Bool := false
  deriving DecidableEq, Repr

/-- One sentence of an IEC 61162-450 datagram: its source parameter, whether it has a tag block and whether that
block's checksum holds, and its characters (R441). -/
structure LanSentence where
  source : Option (List Byte) := none
  tag    : Bool := false
  tagOk  : Bool := true
  chars  : List Byte := []
  deriving DecidableEq, Repr

/-- A PTP message with its measured quantities: the raw receive stamp, the fields the servo reads (R77 to R84). -/
structure PtpMsg where
  kind      : Nat
  domain    : Nat := 0
  transport : Nat := 0
  supported : Bool := true
  fast      : Bool := true
  raw       : Nat := 0
  offset    : Option Int := none
  utcOffset : Int := 0
  fields    : List Nat := []
  deriving DecidableEq, Repr

/-- The result of one self-test (R330, R334). -/
structure TestResult where
  code   : Nat
  passed : Bool
  unit   : Word := 0
  detail : Word := 0
  ms     : Nat := 0
  deriving DecidableEq, Repr

/-- A rail as its monitor reads it (Table 9.1 bit 8, Table 18.1). -/
inductive RailLevel where
  | within4
  | within5
  | outside5
  deriving DecidableEq, Repr

/-- What an archive mount found (R531, R535, R538, events 0x0A10 and 0x0A16): the fitted part, and at the first mount its blocks
and the factory bad ones. -/
structure Mount where
  qualified : Bool := true
  tableOk   : Bool := true
  timedOut  : Bool := false
  blocks    : Nat := 0
  badBlocks : List Nat := []
  pageChunks : Nat := 1
  blockPages : Nat := 1
  endurance : Nat := 0
  torn      : Nat := 0
  deriving DecidableEq, Repr

/-- What a code word found uncorrectable is used for (R518, Table 16.4). -/
inductive MemUse where
  | none_
  /-- Data, working set, or DDR4 description copy of a stall. -/
  | stall (n : Nat)
  /-- The image being assembled. -/
  | assembling
  /-- A stored history image. -/
  | history (epoch : Word)
  /-- A frame being forwarded or delivered; one that this device originated. -/
  | forwarded (port : Fin 4)
  | originated (port : Fin 4)
  | context (n : Nat)
  | filter (ch : Nat)
  /-- Word `i` of a trace buffer. -/
  | trace (u i : Nat)
  /-- A mailbox DMA descriptor; a Board stream descriptor. -/
  | descriptor
  | streamImage
  /-- MRAM: an event record, the head number of the ring, a configuration bank, histograms, the change log, the failed-start counter. -/
  | record (num : Word)
  | ringHead
  | configBank (second : Bool)
  | histograms (n : Nat)
  | changeLog (seq : BitVec 16)
  | failCount
  /-- Archive staging: the chunk in hand at a place of the staging list, and whether its source remains. -/
  | staging (i : Nat) (again : Bool)
  deriving DecidableEq, Repr

/-- The commands and events of the block, one constructor per row of the operation table, in the table's order. -/
inductive Instr where
  /-- IDENTIFY (R481). -/
  | identify (r : Req)
  /-- HEARTBEAT (R459). -/
  | heartbeat (r : Req)
  /-- HOST_CONFIG (R462). -/
  | hostConfig (r : Req)
  /-- HOST_STATUS (R473). -/
  | hostStatus (r : Req)
  /-- BOARD_READ (R373). -/
  | boardRead (r : Req)
  /-- BOARD_STREAM_START (R374). -/
  | boardStreamStart (r : Req)
  /-- BOARD_STREAM_STOP (R375). -/
  | boardStreamStop (r : Req)
  /-- BOARD_STATUS (R385). -/
  | boardStatus (r : Req)
  /-- JOIN_PERMIT (R377). -/
  | joinPermit (r : Req)
  /-- LEAVE (R379). -/
  | leave (r : Req)
  /-- MEMBER_CONFIG (R482). -/
  | memberConfig (r : Req)
  /-- INSTALL_TABLE (R482). -/
  | installTable (r : Req)
  /-- STREAM_DEFINE (R141). -/
  | streamDefine (r : Req)
  /-- STREAM_READ (R483). -/
  | streamRead (r : Req)
  /-- TRANSFORM_LOAD (R147). -/
  | transformLoad (r : Req)
  /-- REF_PREFER (R163). -/
  | refPrefer (r : Req)
  /-- OBSERVER_CONFIG (R166). -/
  | observerConfig (r : Req)
  /-- STREAM_STATUS (R177). -/
  | streamStatus (r : Req)
  /-- STALL_LOAD_STRUCTURE (R236). -/
  | stallLoadStructure (r : Req)
  /-- STALL_DELTA (R246). -/
  | stallDelta (r : Req)
  /-- STALL_CONFIG (R268). -/
  | stallConfig (r : Req)
  /-- STALL_SOLVE (R249). -/
  | stallSolve (r : Req)
  /-- STALL_STATUS (R269). -/
  | stallStatus (r : Req)
  /-- STALL_READ (R486). -/
  | stallRead (r : Req)
  /-- LOOP_DEFINE (R278). -/
  | loopDefine (r : Req)
  /-- LOOP_COEF_WRITE (R285). -/
  | loopCoefWrite (r : Req)
  /-- LOOP_CONTROL (R284). -/
  | loopControl (r : Req)
  /-- TRACE_ARM (R296). -/
  | traceArm (r : Req)
  /-- TRACE_READ (R297). -/
  | traceRead (r : Req)
  /-- LOOP_STATUS (R298). -/
  | loopStatus (r : Req)
  /-- FILTER_CONFIG (R105). -/
  | filterConfig (r : Req)
  /-- FILTER_BANK_LOAD (R110). -/
  | filterBankLoad (r : Req)
  /-- FILTER_BANK_SWAP (R112). -/
  | filterBankSwap (r : Req)
  /-- DCB_FREEZE (R115). -/
  | dcbFreeze (r : Req)
  /-- FILTER_STATUS (R130). -/
  | filterStatus (r : Req)
  /-- AO_CONFIG (R133). -/
  | aoConfig (r : Req)
  /-- CAN_CONFIG (R416). -/
  | canConfig (r : Req)
  /-- CAN_AUTOBAUD (R433). -/
  | canAutobaud (r : Req)
  /-- CAN_TX (R427). -/
  | canTx (r : Req)
  /-- CAN_CANCEL (R430). -/
  | canCancel (r : Req)
  /-- CAN_STATUS (R443). -/
  | canStatus (r : Req)
  /-- CAN_RX_READ (R422). -/
  | canRxRead (r : Req)
  /-- CAN_ROUTE_DEFINE (R423). -/
  | canRouteDefine (r : Req)
  /-- UART_CONFIG (R436). -/
  | uartConfig (r : Req)
  /-- UART_STATUS (R443). -/
  | uartStatus (r : Req)
  /-- UART_RX_READ (R439). -/
  | uartRxRead (r : Req)
  /-- UART_TX (R440). -/
  | uartTx (r : Req)
  /-- LAN61162_CONFIG (R441). -/
  | lan61162Config (r : Req)
  /-- TIME_CONFIG (R491). -/
  | timeConfig (r : Req)
  /-- TIME_ACCEPT_STEP (R86). -/
  | timeAcceptStep (r : Req)
  /-- TIME_STATUS (R490). -/
  | timeStatus (r : Req)
  /-- SAFE_CONFIG (R307). -/
  | safeConfig (r : Req)
  /-- SAFE_STATUS (R302). -/
  | safeStatus (r : Req)
  /-- UNLOCK (R326). -/
  | unlock (r : Req)
  /-- CHANGELOG_READ (R327). -/
  | changelogRead (r : Req)
  /-- SAFE_REQUEST (R328). -/
  | safeRequest (r : Req)
  /-- RECORD_CURSOR_SET (R527). -/
  | recordCursorSet (r : Req)
  /-- RECORD_WINDOW_READ (R527). -/
  | recordWindowRead (r : Req)
  /-- HISTO_READ (R530). -/
  | histoRead (r : Req)
  /-- QUOTA_SET (R525). -/
  | quotaSet (r : Req)
  /-- HISTO_CONFIG (R529). -/
  | histoConfig (r : Req)
  /-- ARCHIVE_STATUS (R538). -/
  | archiveStatus (r : Req)
  /-- ARCHIVE_READ (R533). -/
  | archiveRead (r : Req)
  /-- FLOW_DEFINE (R401). -/
  | flowDefine (r : Req)
  /-- LINK_STATUS (R410). -/
  | linkStatus (r : Req)
  /-- LINK_PORT_CONTROL (R411). -/
  | linkPortControl (r : Req)
  /-- ROLE_STATUS (R495). -/
  | roleStatus (r : Req)
  /-- ROLE_SWAP (R353). -/
  | roleSwap (r : Req)
  /-- MGR_SILENCE (R345). -/
  | mgrSilence (r : Req)
  /-- REDUNDANCY_CONFIG (R357). -/
  | redundancyConfig (r : Req)
  /-- MEM_STATUS (R513). -/
  | memStatus (r : Req)
  /-- SCRUB_CONFIG (R514). -/
  | scrubConfig (r : Req)
  /-- SELFTEST_RUN (R331). -/
  | selftestRun (r : Req)
  /-- SELFTEST_STATUS (R496). -/
  | selftestStatus (r : Req)
  /-- DEVICE_RESET (R498). -/
  | deviceReset (r : Req)
  /-- FW_LOAD (R499). -/
  | fwLoad (r : Req)
  /-- FAILCOUNT_CLEAR (R558). -/
  | failcountClear (r : Req)
  /-- SAFE_IMAGE_LOAD (R325). -/
  | safeImageLoad (r : Req)
  /-- DP_MODE_SET (R182). -/
  | dpModeSet (r : Req)
  /-- SETPOINT_SET (R186). -/
  | setpointSet (r : Req)
  /-- THRUSTER_DEFINE (R206). -/
  | thrusterDefine (r : Req)
  /-- POWER_DEFINE (R210). -/
  | powerDefine (r : Req)
  /-- CONSEQ_CONFIG (R217). -/
  | conseqConfig (r : Req)
  /-- DP_WEIGHTS (R503). -/
  | dpWeights (r : Req)
  /-- FALLBACK_LOAD (R226). -/
  | fallbackLoad (r : Req)
  /-- DP_STATUS (R501). -/
  | dpStatus (r : Req)
  /-- JOYSTICK_DEMAND (R192). -/
  | joystickDemand (r : Req)
  /-- TRACK_LOAD (R191). -/
  | trackLoad (r : Req)
  /-- HIF_DOORBELL (R453). -/
  | hifDoorbell (v : Word)
  /-- HIF_MBX_DONE (R454). -/
  | hifMbxDone (v : Word)
  /-- HIF_IRQ_STAT (R457). -/
  | hifIrqStat (v : Word)
  /-- HIF_IRQ_EN (R457). -/
  | hifIrqEn (v : Word)
  /-- HIF_HEARTBEAT (R459). -/
  | hifHeartbeat (v : Word)
  /-- BAR0_OTHER_WRITE (R447). -/
  | bar0OtherWrite (off : Nat) (bytes : List Byte)
  /-- UDP_MAILBOX_DATAGRAM (R463). -/
  | udpMailboxDatagram (mac : Fin 2) (dst src : Word) (port : BitVec 16) (checksumOk : Bool) (bytes : List Byte)
  /-- UDP_RESPONSE_EXPIRY (R464). -/
  | udpResponseExpiry (src : Word) (port tag : BitVec 16)
  /-- NOTIFICATION (R458). -/
  | notification
  /-- ENDPOINT_RESET (R446). -/
  | endpointReset (kind : Fin 4)
  /-- DMA_READ_DONE (R452). -/
  | dmaReadDone (ok : Bool) (bytes : List Byte)
  /-- DMA_READ_TIMEOUT (R452). -/
  | dmaReadTimeout
  /-- MBX_RELAY_FRAME (R469). -/
  | mbxRelayFrame (src : Fin 64) (seq : BitVec 16) (replay : Bool) (bytes : List Byte)
  /-- RELAY_ANSWER (R466). -/
  | relayAnswer (src : Fin 64) (seq : BitVec 16) (bytes : List Byte)
  /-- RELAY_RESEND (R467). -/
  | relayResend (seq : BitVec 16)
  /-- DEVICE_RESET_DELAY (R498). -/
  | deviceResetDelay
  /-- HOST_LOST (R460). -/
  | hostLost (path : Watch)
  /-- COPY_CONFIRM (R239). -/
  | copyConfirm (mgr : Fin 3) (status : Nat) (signature : Word)
  /-- COPY_CONFIRM_TIMEOUT (R239). -/
  | copyConfirmTimeout
  /-- SOURCE_DEV_CONFIRM_TIMEOUT (R483). -/
  | sourceDevConfirmTimeout
  /-- POWER_ON_RESET (R544). -/
  | powerOnReset
  /-- BROWN_OUT (R544). -/
  | brownOut
  /-- SYSRST_N (R544). -/
  | sysrstN
  /-- SUP_WATCHDOG (R546). -/
  | supWatchdog
  /-- START_TIMEOUT (R557). -/
  | startTimeout
  /-- RESET_RELEASE (R545). -/
  | resetRelease (straps : BitVec 12) (trimOk : Bool)
  /-- RELEASE_GAP_EXPIRY (R547). -/
  | releaseGapExpiry
  /-- PLL_LOCK (R547). -/
  | pllLock
  /-- BOOT_ROM_DONE (R554). -/
  | bootRomDone
  /-- PCIE_BOOT_POLL (R555). -/
  | pcieBootPoll (fetched : Option (List Byte))
  /-- DDR4_TRAINING_DONE (R547). -/
  | ddr4TrainingDone
  /-- FAILED_START_CLEAR_TIMER (R558). -/
  | failedStartClearTimer
  /-- SELFTEST_COMPLETE (R332). -/
  | selftestComplete (r : TestResult)
  /-- PERIODIC_SELFTEST (R330). -/
  | periodicSelftest (r : TestResult)
  /-- MITTEN_MISMATCH (R43). -/
  | mittenMismatch (pair : Fin 8)
  /-- CLOCK_FAULT (R62). -/
  | clockFault (domain : Fin 17) (inRange : Bool)
  /-- REF_CRYSTAL_FAULT (R335). -/
  | refCrystalFault
  /-- SUPPLY_FAULT (R301). -/
  | supplyFault (rail : Fin 9) (level : RailLevel)
  /-- OVERTEMP (R301). -/
  | overtemp (celsius : Int)
  /-- SC_DISAGREE (R301). -/
  | scDisagree (agree : Bool)
  /-- FAULT_REACTION_COUNTER (R304). -/
  | faultReactionCounter (path : Fin 4)
  /-- GLOVE_PULSE_START (R311). -/
  | glovePulseStart (out : Fin 16)
  /-- GLOVE_OFF_WINDOW_END (R312). -/
  | gloveOffWindowEnd (out : Fin 16) (seen : SeenLevels)
  /-- GLOVE_PULSE_END (R311). -/
  | glovePulseEnd (out : Fin 16)
  /-- GLOVE_RETURN_WINDOW_END (R312). -/
  | gloveReturnWindowEnd (out : Fin 16) (high : Bool)
  /-- STATIC_READBACK_MISMATCH (R310). -/
  | staticReadbackMismatch (out : Fin 16) (high : Bool)
  /-- SI_CHANNEL_CHANGE (R316). -/
  | siChannelChange (ch : Fin 16) (high : Bool)
  /-- SI_DISCREPANCY (R316). -/
  | siDiscrepancy (pair : Fin 8)
  /-- SAFE_RESET_N_FALL (R319). -/
  | safeResetNFall
  /-- SAFE_RESET_N_RISE (R319). -/
  | safeResetNRise (lowMs : Nat)
  /-- RESET_STUCK (R320). -/
  | resetStuck
  /-- STRAP_SAMPLE (R322). -/
  | strapSample (pins : BitVec 12)
  /-- UNLOCK_EXPIRY (R326). -/
  | unlockExpiry
  /-- LOCKOUT_END (R326). -/
  | lockoutEnd
  /-- TICK (R47). -/
  | tick
  /-- EPOCH_INSTANT (R48). -/
  | epochInstant
  /-- EPOCH_CLOSE (R363). -/
  | epochClose
  /-- FUSION_RESULT_READY (R367). -/
  | fusionResultReady
  /-- PUBLICATION_DEADLINE (R367). -/
  | publicationDeadline
  /-- POS_LOST (R168). -/
  | posLost (heading : Bool)
  /-- PREFERENCE_RELEASE (R163). -/
  | preferenceRelease
  /-- BOARD_CONTRIB_FRAME (R363). -/
  | boardContribFrame (src : Fin 64) (seq : BitVec 16) (recs : List Contrib)
  /-- BOARD_IMAGE_INSTALL (R368). -/
  | boardImageInstall (img : Image)
  /-- PUB_INCOMPLETE (R369). -/
  | pubIncomplete (epoch : Word) (missing : Nat)
  /-- BOARD_STREAM_SLOT (R374). -/
  | boardStreamSlot (consumed : Word)
  /-- MISSED_EPOCHS (R379). -/
  | missedEpochs (dev : Fin 64)
  /-- FEEDBACK_LOST (R383). -/
  | feedbackLost (thr : Fin 24)
  /-- QUORUM_LOST (R382). -/
  | quorumLost
  /-- POWER_RESERVE (R212). -/
  | powerReserve (group : Fin 6)
  /-- MINORITY_LIMIT (R343). -/
  | minorityLimit (mgr : Fin 3)
  /-- SPLIT_CLEAR (R344). -/
  | splitClear
  /-- ALARM_ENTRY_CLEAR (R354). -/
  | alarmEntryClear (code : BitVec 16) (subject : BitVec 8)
  /-- CONSEQ_FAIL (R222). -/
  | conseqFail (scen : Fin 16)
  /-- CONSEQ_STALE (R222). -/
  | conseqStale (scen : Fin 16)
  /-- DEGRADED_PLAN (R259). -/
  | degradedPlan
  /-- SOLVER_STALE (R224). -/
  | solverStale
  /-- FORMATION_WINDOW_END (R30). -/
  | formationWindowEnd
  /-- JOIN_REQUEST_TIMER (R377). -/
  | joinRequestTimer
  /-- TAKEOVER_DECISION (R347). -/
  | takeoverDecision
  /-- OUTCOME_INSTANT (R256). -/
  | outcomeInstant
  /-- SOLVE_DONE (R251). -/
  | solveDone (stall : Fin 32)
  /-- DERIVED_BUILD_COMPLETE (R263). -/
  | derivedBuildComplete
  /-- SCENARIO_BUILD_COMPLETE (R240). -/
  | scenarioBuildComplete (scen : Fin 16)
  /-- THROTTLE_SAMPLE (R271). -/
  | throttleSample (celsius : Int)
  /-- JOY_TIMEOUT (R192). -/
  | joyTimeout
  /-- CMD_FRAME (R340). -/
  | cmdFrame (mgr : Fin 3) (epoch16 : BitVec 16) (recs : List CmdRec)
  /-- CMD_WAIT_EXPIRY (R341). -/
  | cmdWaitExpiry
  /-- MEMBER_PRESENT (R400). -/
  | memberPresent (net port : Bool) (m : Member)
  /-- JOIN_FRAME (R377). -/
  | joinFrame (net port : Bool) (m : Member)
  /-- JOIN_ANSWER_FRAME (R469). -/
  | joinAnswerFrame (m : Member) (hs : Option Handshake)
  /-- LEAVE_FRAME (R379). -/
  | leaveFrame (m : Member)
  /-- SILENT_FRAME (R346). -/
  | silentFrame (m : Member)
  /-- RECOVERY_FRAME (R400). -/
  | recoveryFrame (m : Member)
  /-- MAP_EXPIRY (R402). -/
  | mapExpiry (dev : Fin 64)
  /-- SYNC_SEND (R92). -/
  | syncSend
  /-- SYNC_FRAME (R93). -/
  | syncFrame (net port : Bool) (h : Hdr) (rest : List Byte) (corr : Nat) (offset : Int)
  /-- LINK_DELAY_EXCHANGE (R92). -/
  | linkDelayExchange (port : Fin 4) (ns : Nat)
  /-- SYNC_LOSS (R95). -/
  | syncLoss
  /-- PTP_MESSAGE (R83). -/
  | ptpMessage (mac : Fin 2) (m : PtpMsg)
  /-- MAC_TX_DONE (R81). -/
  | macTxDone (mac : Fin 2) (fast : Bool) (kind : Fin 16) (oneStep : Bool) (status : Fin 3) (raw : Nat)
  /-- PPS_IN_EDGE (R97). -/
  | ppsInEdge (stamp : Nat)
  /-- PPS_IN_MISSING (R97). -/
  | ppsInMissing
  /-- PPS_OUT_RISE (R96). -/
  | ppsOutRise
  /-- PPS_OUT_FALL (R96). -/
  | ppsOutFall
  /-- REF10_LOST (R98). -/
  | ref10Lost (hz : Nat)
  /-- HELLO_SEND (R389). -/
  | helloSend
  /-- HELLO_RECEIVE (R389). -/
  | helloReceive (port : Fin 4) (dev : Fin 64) (net pnum : Bool) (nbState : Fin 8) (errorFree : Bool)
  /-- PORT_DOWN (R404). -/
  | portDown (port : Fin 4)
  /-- LINK_FRAME_HEADER (R405). -/
  | linkFrameHeader (port : Fin 4) (h : Hdr)
  /-- LINK_FRAME_END (R394). -/
  | linkFrameEnd (port : Fin 4) (hseq : BitVec 8) (f : Frame) (outcome : FrameEnd)
  /-- ACK_RECEIVE (R392). -/
  | ackReceive (port : Fin 4) (hseq : BitVec 8)
  /-- ACK_TIMER (R392). -/
  | ackTimer (port : Fin 4)
  /-- RESEND_RECEIVE (R393). -/
  | resendReceive (port : Fin 4) (hseq : BitVec 8)
  /-- RESEND_TIMEOUT (R393). -/
  | resendTimeout (port : Fin 4) (hseq : BitVec 8)
  /-- QUARANTINE_END (R407). -/
  | quarantineEnd (port : Fin 4)
  /-- DEGRADED_RESTORE (R393). -/
  | degradedRestore (port : Fin 4)
  /-- NAK_FRAME (R406). -/
  | nakFrame (port : Fin 4) (src : Fin 64) (n : Nak)
  /-- DATA_FRAME (R398). -/
  | dataFrame (src : Fin 64) (flow : BitVec 8) (seq : BitVec 16) (bytes : List Byte)
  /-- RECORD_FRAME (R524). -/
  | recordFrame (src : Fin 64) (recs : List (Word × EvRec × BitVec 16))
  /-- TRACE_FRAME (R399). -/
  | traceFrame (src : Fin 64) (words : List Word)
  /-- TOKEN_REFILL (R525). -/
  | tokenRefill (code : BitVec 16)
  /-- CAN_FRAME_RX (R418). -/
  | canFrameRx (ch : Fin 8) (f : CanFrame) (rx : CanRx)
  /-- CAN_ATTEMPT_START (R426). -/
  | canAttemptStart (ch : Fin 8) (stamp : Nat)
  /-- CAN_ATTEMPT_END (R428). -/
  | canAttemptEnd (ch : Fin 8) (e : CanEnd)
  /-- BUS_OFF_RECOVERY (R417). -/
  | busOffRecovery (ch : Fin 8)
  /-- CAN_RX_OVERRUN (R421). -/
  | canRxOverrun (ch : Fin 8) (lost : Nat)
  /-- AUTOBAUD_DWELL_END (R433). -/
  | autobaudDwellEnd (ch : Fin 8) (onError : Bool)
  /-- UART_SENTENCE (R437). -/
  | uartSentence (u : Fin 8) (noise : Nat) (restarts : Nat) (chars : List Byte) (framing : Bool) (stamp : Nat)
  /-- UART_TX_SENTENCE_DONE (R440). -/
  | uartTxSentenceDone (u : Fin 8)
  /-- LAN61162_DATAGRAM (R441). -/
  | lan61162Datagram (mac : Fin 2) (fast : Bool) (group : Word) (port : BitVec 16) (headerOk : Bool) (sentences : List LanSentence) (raw : Nat)
  /-- SENSOR_DATAGRAM (R484). -/
  | sensorDatagram (mac : Fin 2) (fast : Bool) (src : Word) (port : BitVec 16) (bytes : List Byte) (raw : Nat)
  /-- FILTER_OUTPUT_SAMPLE (R120): the modulator bits of the sample's block, the oldest in bit 0. -/
  | filterOutputSample (ch : Fin 16) (stream : Nat) (done spacing : Nat)
  /-- MODULATOR_RESET (R126). -/
  | modulatorReset (ch : Fin 16)
  /-- AFE_FIFO_OVERRUN (R127). -/
  | afeFifoOverrun (ch : Fin 16) (lost : Nat)
  /-- LOOP_RANGE_PERSIST (R128). -/
  | loopRangePersist (ch : Fin 16)
  /-- AO_READBACK_SAMPLE (R135). -/
  | aoReadbackSample (out : Fin 8) (mv : Int)
  /-- AO_MISMATCH (R136). -/
  | aoMismatch (out : Fin 8)
  /-- LOOP_GRID_INSTANT (R274). -/
  | loopGridInstant
  /-- INPUT_CEASED (R281). -/
  | inputCeased (ctx : Fin 128)
  /-- HOLD_EXPIRY (R281). -/
  | holdExpiry (ctx : Fin 128)
  /-- SCRUB_READ (R514). -/
  | scrubRead (region : Fin 9) (addr : Nat) (word : Nat) (use : MemUse)
  /-- WRITE_BACK (R511). -/
  | writeBack (region : Fin 9) (addr : Nat) (overtaken : Bool)
  /-- MERGE_BUFFER_EVICT (R516). -/
  | mergeBufferEvict (region : Fin 9) (addr : Nat) (writes : Nat) (parityOk : Bool) (use : MemUse)
  /-- NAND_PROGRAM_DONE (R539). -/
  | nandProgramDone (ok : Bool)
  /-- ARCHIVE_MOUNT_DONE (R538). -/
  | archiveMountDone (m : Mount)
  /-- ARCHIVE_PATROL (R537). -/
  | archivePatrol (block bits retries ageDays : Nat)
  /-- HISTO_HOURLY_SNAPSHOT (R539). -/
  | histoHourlySnapshot
  /-- INCIDENT_CAPTURE_CLOSE (R540). -/
  | incidentCaptureClose
  /-- POWER_FAIL_N_FALL (R541). -/
  | powerFailNFall
  /-- POWER_FAIL_N_RISE (R541). -/
  | powerFailNRise
  /-- ARCHIVE_RESUME (R541). -/
  | archiveResume
  /-- TIME_SOURCE_LOST (R74). -/
  | timeSourceLost
  /-- SOURCE_DEV_CONFIRM (R483). -/
  | sourceDevConfirm (dev : Fin 64) (status : Nat) (rejected : Nat)
  /-- NAND_ERASE_DONE (R535). -/
  | nandEraseDone (block : Nat) (ok : Bool)
  deriving DecidableEq, Repr

end Sys2Proof
end

