-- ==== Sys2Proof/Config.lean ====
section
/-! DEFINITION. What an implementation fixes and what the spec leaves open, as constants with no body: a claim that
mentions one holds whatever its value is. Notes: assumption rows 1 to 6. -/

namespace Sys2Proof.Config

/-- The n-th free 32-bit value: a result the spec says exists and gives no value for (row 1). -/
opaque freeWord : Nat → Word

/-- The n-th free byte: what a read the spec calls undefined delivers (row 1). -/
opaque freeByte : Nat → Byte

/-- Whether a value `a / b` that lies between two values of its format is stored as the upper one, at a rounding whose rule the spec
does not state; the first argument names the rounding (row 2). -/
opaque roundUp : Nat → Int → Int → Bool

/-- The value in 24-bit LSB that a modulator's constant bit stream stands for, less one: its feedback level, which fixes the normalisation of
R108, is not stated (row 2). -/
opaque modFull : Nat

/-- The salted SHA-256 digest of a password (R326: salt and encoding are not stated, row 3). -/
opaque passDigest : List Byte → Nat

/-- Whether the ECDSA P-256 signature of an image is valid under the key whose digest is in OTP (R499, R554; row 3). -/
opaque sigValid : List Byte → Bool

/-- HIF_FWVER of a valid image, in the layout of Table 14.3 (row 3). -/
opaque imageVersion : List Byte → Word

/-- A raw word of one iteration's factorisation and back-solve (R250), before pivot replacement, from all that the iteration reads, the block type,
the stage and the place: the elimination order and the intermediate exponents are not stated (row 4). -/
opaque factor : List Int → Nat → Nat → Nat → Int

/-- Fraction bits of the fixed-point number in which the device holds a result of chapters 5 and 6; the first argument names it (row 5). -/
opaque fracBits : Nat → Nat

/-- The discrete model of a continuous one, x' = A·x + B·u, over a step in seconds: how the device discretises is not stated (R166, R197; row 5).
The first argument is 0 for the observer, 1 for the DP problem. -/
opaque discrete : Nat → Rat → List (List Rat) → List (List Rat) → List (List Rat) × List (List Rat)

/-- The observer's process noise for a step in seconds, its covariance before the first measurement, and its covariance after an estimate is reset
(group 1 position, 2 heading) or taken from an image (group 0): their values are not stated (R166, R169, R351; row 5). -/
opaque processNoise : Rat → List (List Rat)
opaque firstCov : List (List Rat)
opaque resetCov : Nat → Rat → List (List Rat) → List (List Rat)

/-- The innovation of a stream of kinds 7 to 10, for which the observer has no state, from its kind, its values and those before (Table 5.5; row 5). -/
opaque innovation : Nat → List Rat → List Rat → Rat

/-- Whether a finite-difference tangent is the mean of the two slopes beside a sample, else the slope between its neighbours (R153; row 5). -/
opaque tangentMean : Bool

/-- A published sensor quantity of an epoch in which no stream of its kind is usable: its value is not stated (Table 5.10; row 5). -/
opaque noSensor : Nat → Word → Int

/-- The share (AVAIL − planned)/AVAIL of a group whose AVAIL is 0, from its number: not stated (R220; row 5). -/
opaque zeroAvail : Nat → Rat

/-- Whether an 8 Mbit/s lock writes its ten quanta as 1 + 7 + 2 (else 1 + 6 + 3): Table 13.9 gives 75 %, which ten quanta
do not reach (row 2). -/
opaque split8M : Bool

/-- The fixed die data in OTP: serial number, key digest, factory filter set (row 6). -/
opaque otp : Nat → Word

/-- The symbol code's field polynomial over GF(2), the field element whose powers locate the symbols, and the exponent of the first of its two
roots (R508): none is stated (row 6). -/
opaque rsPoly : Nat
opaque rsElement : Nat
opaque rsFirst : Nat

/-- The die stepping in HIF_ID[7:0] (row 6). -/
opaque stepping : BitVec 8

/-- Result of the IEEE 1588 best master clock algorithm and port state machine for a MAC, from the state code and the
message fields (R77: as the standard; row 5). -/
opaque bmca : Nat → List Nat → Nat

end Sys2Proof.Config
end

