-- ==== Sys2Proof/Machine/State.lean ====
section
/-! DEFINITION. The state of one YJ640 device as plain data: every register, table, queue, counter and pin the spec
gives it, in nested records by unit; default values are the values at power-on reset. -/

namespace Sys2Proof.Machine

/-- No step of this block faults: no constructor. -/
inductive Fault where
  deriving DecidableEq, Repr

/-- Why a command is refused by the model. -/
inductive Refusal where
  /-- A command whose meaning is not written yet; raised by exec alone; safe. -/
  | notModelled (mnemonic : String)
  deriving DecidableEq, Repr

/-- A stored loop context definition: Table 8.3 and its coefficients, value and shift (R278, R285, R591). -/
structure LoopCfg where
  desc  : BitVec 384 := 0
  coefs : List (Int × Nat) := []
  deriving DecidableEq, Repr

/-- AO_CONFIG settings of one output (R133, R135, R136). -/
structure AoCfg where
  en     : Bool := false
  gain   : Int := 0x10000000
  offset : Int := 0
  tol    : Nat := 100
  time   : Nat := 20
  action : Nat := 1
  deriving DecidableEq, Repr

/-- One weight set of DP_WEIGHTS in units of 0.001 (R205, Table 15.21). -/
structure Weights where
  pos : Nat := 1000
  hdg : Nat := 400000
  vel : Nat := 2000
  yaw : Nat := 800000
  thrust : Nat := 500
  power : Nat := 200
  smooth : Nat := 1000
  force : Nat := 0
  term : Nat := 10000
  deriving DecidableEq, Repr

/-- The weight set of mode 2 + n at reset (Table 6.4). -/
def Weights.ofMode (n : Nat) : Weights :=
  if n = 0 then { pos := 0, force := 50000 } else if n = 1 then { pos := 0 }
  else if n = 4 then { power := 2000, smooth := 8000 } else {}

/-- CAN channel word at reset (Table 13.3). -/
def canReset : BitVec 96 :=
  BitVec.ofNat 96 (30 * 2 ^ 89 + 2 ^ 88 + 9 * 2 ^ 84 + 9 * 2 ^ 80 + 28 * 2 ^ 75 + 31 * 2 ^ 63 + 31 * 2 ^ 56 + 126 * 2 ^ 48)
/-- CH_CFG at reset (Table 4.2). -/
def chCfgReset : BitVec 64 := BitVec.ofNat 64 (10 * 2 ^ 48 + 9 * 2 ^ 35 + 3 * 2 ^ 32 + 64 * 2 ^ 23)
/-- A CAN route at reset (Table 13.5). -/
def routeReset : BitVec 128 := BitVec.ofNat 128 (0x1FFFFFFF * 2 ^ 99 + 100 * 2 ^ 48 + 2 ^ 40 + 2 ^ 38)
/-- A UART word at reset (Table 13.10). -/
def uartReset : BitVec 64 := BitVec.ofNat 64 (4800 * 2 ^ 40 + 2 ^ 10)
/-- A transform entry at reset: the identity (Table 5.4). -/
def transformReset : BitVec 384 :=
  BitVec.ofNat 384 (0x40000000 * 2 ^ 352 + 0x40000000 * 2 ^ 224 + 0x40000000 * 2 ^ 96)
/-- OBSERVER_CONFIG at reset (Table 15.6). -/
def observerReset : BitVec 384 :=
  BitVec.ofNat 384 (10 * 2 ^ 96 + 60 * 2 ^ 80 + 1000 * 2 ^ 64 + 3 * 2 ^ 48 + 4 * 2 ^ 40 + 2 ^ 32 + 10 * 2 ^ 16 + 80)
/-- STALL_CFG at reset (Table 7.13). -/
def stallCfgReset : BitVec 64 :=
  BitVec.ofNat 64 (0xF0 * 2 ^ 56 + 0xF0 * 2 ^ 48 + 0xEC * 2 ^ 32 + 60 * 2 ^ 24 + 25 * 2 ^ 16 + 3)
/-- A TIME_CONFIG MAC block at reset (Table 15.12). -/
def macBlockReset : BitVec 128 := BitVec.ofNat 128 (128 * 2 ^ 48 + 128 * 2 ^ 40)
/-- The safety output words at reset: SO0 DPE0, SO1 DPE1, GLOVE_EN set (Table 9.5). -/
def soReset : List (BitVec 16) := [0x41, 0x42] ++ List.replicate 14 0x40

/-- Every configuration table of the manual (R551 to R553): what a configuration bank stores. -/
structure Cfg where
  /-- Installation table: device, expected role, variant code (R27, Table 15.3). -/
  table      : List (Nat × Nat × Nat) := []
  tableGen   : Word := 0
  autoJoin   : Bool := false
  window     : Nat := 500
  epochLen   : Nat := 20
  cycleLen   : Nat := 5
  closeOff   : Nat := 60
  notifySev  : Nat := 3
  hostEntries : List (BitVec 64) := []
  sources    : List Nat := [1, 2, 0xFF]
  jumpUs     : Nat := 100
  ppsWidth   : Nat := 100
  use10m     : Bool := false
  macBlocks  : List (BitVec 128) := [macBlockReset, macBlockReset]
  safeGlobal : BitVec 64 := BitVec.ofNat 64 (1000 * 2 ^ 48 + 250 * 2 ^ 32)
  so         : List (BitVec 16) := soReset
  si         : List (BitVec 16) := List.replicate 8 0x0500
  /-- THRUSTER_DEFINE payloads, T1 first; an empty list is an undefined thruster (R206, R592). -/
  thrusters  : List (List Byte) := List.replicate 24 []
  /-- POWER_DEFINE payload; empty when none (R210, R502). -/
  power      : List Byte := []
  loops      : List (Option LoopCfg) := List.replicate 128 none
  filters    : List (BitVec 64) := List.replicate 16 chCfgReset
  ao         : List AoCfg := List.replicate 8 {}
  can        : List (BitVec 96) := List.replicate 8 canReset
  routes     : List (BitVec 128) := List.replicate 64 routeReset
  uarts      : List (BitVec 64) := List.replicate 8 uartReset
  lan450     : List (BitVec 128) := List.replicate 16 0
  /-- STREAM_DEFINE payloads of streams 0 to 47; empty when undefined (R141). -/
  streams    : List (List Byte) := List.replicate 48 []
  transforms : List (BitVec 384) := List.replicate 64 transformReset
  observer   : BitVec 384 := observerReset
  stalls     : List (BitVec 64) := List.replicate 32 stallCfgReset
  nScen      : Nat := 0
  /-- CONSEQ_CONFIG records, 16 bytes each; empty when undefined (R217). -/
  scens      : List (List Byte) := List.replicate 16 []
  horizon    : Nat := 64
  stageMs    : Nat := 1000
  trust      : Nat := 20
  weights    : List Weights := (List.range 6).map Weights.ofMode
  joyTimeout : Nat := 500
  fbGains    : List Int := List.replicate 9 0
  fbMatrices : List (Word × List Int) := []
  /-- FLOW_DEFINE descriptors by flow number (R401). -/
  flows      : List (Nat × BitVec 128) := []
  redundancy : BitVec 64 := BitVec.ofNat 64 (10 * 2 ^ 32 + 3 * 2 ^ 16 + 1000)
  /-- QUOTA_SET settings: code, burst, refill ms (R525). -/
  quotas     : List (BitVec 16 × Nat × Nat) := []
  /-- HISTO_CONFIG payloads; empty when unbound (R529). -/
  histos     : List (List Byte) := List.replicate 64 []
  scrubMin   : Nat := 480
  deriving DecidableEq, Repr

/-- The class 0x10 definitions of a safety image (R325, R500). -/
structure SafeImage where
  thrusters : List (List Byte) := List.replicate 24 []
  power     : List Byte := []
  deriving DecidableEq, Repr

/-- A configuration bank of MRAM (Table 18.4): generation, safety image and body; `valid` is its CRC check. -/
structure Bank where
  gen    : Word := 0
  /-- The safety image from which the bank's protected values come. -/
  image  : Option SafeImage := none
  valid  : Bool := false
  body   : Cfg := {}
  deriving DecidableEq, Repr

/-- A change-log entry (Table 9.11), its CRC apart (an entry is stored whole). -/
structure LogEntry where
  command : BitVec 16
  field   : BitVec 16
  old     : Word := 0
  new     : Word := 0
  epoch   : Word := 0
  ns      : Word := 0
  session : BitVec 16 := 0
  path    : Nat := 0
  srcIp   : Word := 0
  seq     : BitVec 16 := 0
  deriving DecidableEq, Repr

/-- What MRAM keeps across resets and power (R326, R327, R400, R512, R522, R551, R558). -/
structure Mram where
  boot       : BitVec 16 := 0
  failCount  : Nat := 0
  failOk     : Bool := true
  bank0      : Bank := {}
  bank1      : Bank := {}
  passDigest : Option Nat := none
  /-- Powered milliseconds since each counted wrong attempt (R326). -/
  wrong      : List Nat := []
  lockoutMs  : Nat := 0
  log        : List LogEntry := []
  logSeq     : BitVec 16 := 0
  /-- Entries whose CRC fails, by SEQ (R327). -/
  logBad     : List (BitVec 16) := []
  /-- The record ring: record number and content, newest first (R522). -/
  ring       : List (Word × EvRec) := []
  head       : Word := 0
  /-- The head number passes its check; a ring has been formatted (R523); damaged records by number (R518). -/
  ringOk     : Bool := true
  ringMade   : Bool := false
  ringBad    : List Word := []
  archNext   : Word := 0
  /-- Distinct hard sites by region: code word address and position (R512); HARD_SITES counts them. -/
  hardSites  : List (List (Nat × Nat)) := List.replicate 9 []
  /-- Histogram data: count, min, max, epoch of min, epoch of max, bins (R529). -/
  histo      : List (List Int) := List.replicate 64 []
  badTable   : List Nat := []
  deriving DecidableEq, Repr

/-- Firmware images in QSPI NOR and what runs (R499, R554, R555). -/
structure Fw where
  imgA    : List Byte := []
  imgB    : List Byte := []
  validA  : Bool := false
  validB  : Bool := false
  prefB   : Bool := false
  /-- HIF_FWVER (Table 14.3). -/
  version : Word := 0
  source  : Nat := 0
  /-- FW_LOAD in progress: image, total length, bytes written as offset and value runs. -/
  load    : Option (Nat × Nat) := none
  chunks  : List (Nat × List Byte) := []
  deriving DecidableEq, Repr

/-- Life states (Table 18.6); HIF_STATE is computed from it and from the causes. -/
inductive Life where
  | reset | loading | selftest | ready | run | cloakroom
  deriving DecidableEq, Repr

/-- Role codes of Table 11.5. -/
inductive Role where
  | none | active | standby | silent | worker | pending
  deriving DecidableEq, Repr

/-- Reset and start-up (R544 to R560). -/
structure Rst where
  life      : Life := .reset
  /-- Step of Table 18.2 in which the device stands; in step 1 a reset source is asserted until the release. -/
  step      : Nat := 1
  /-- Sources asserted since the previous release (Table 18.1), bit by code. -/
  asserted  : BitVec 8 := 1
  cause     : Nat := 0
  prevState : Nat := 0
  pllLocked : Bool := false
  trimOk    : Bool := true
  /-- A DEVICE_RESET answered, its reset 10 ms later: the reset code 4 or 6 (R498). -/
  delayed   : Option Nat := none
  reason    : Nat := 0
  /-- Latched straps (R321). -/
  straps    : BitVec 12 := 0
  strapChanged : Bool := false
  /-- Pins that differed from their latch at the latest sample (R322). -/
  strapDiff  : BitVec 12 := 0
  mgrIgnored : Bool := false
  /-- Configuration loaded into the shadows (R552). -/
  shadow    : Option Bank := Option.none
  /-- Events held in the AON domain until SUP runs (R561): code, severity, parameters. -/
  held      : List (Nat × Nat × List Nat) := [(0x0910, 4, [1, 1, 0, 0])]
  /-- The boot descriptor rejected last (R555). -/
  badDesc   : List Byte := []
  /-- Once-per-power-on notices recorded: 0x0C10, 0x0C11, 0x0C12 (R8, R23, R24). -/
  noticed   : Bool := false
  deriving DecidableEq, Repr

/-- The glove test of one safety output (R311 to R314). -/
structure Glove where
  /-- 0 no pulse; 1 pin high, off window open; 2 pin high, off window ended; 3 pin low again, off window open;
  4 pin low again, off window ended. -/
  phase   : Nat := 0
  /-- Time at which the output was last energised, ns. -/
  onSince : Nat := 0
  /-- Device time at which the latest pulse was due, and its GLOVE_PULSE_US (R311, R314). -/
  pulseAt : Option Nat := none
  pulseUs : Nat := 0
  deriving DecidableEq, Repr

/-- The safety controller (chapter 9). -/
structure Safe where
  causes     : BitVec 16 := 1
  firstCause : Nat := 1
  resetStuck : Bool := false
  groupTrip  : BitVec 3 := 0
  injected   : Bool := false
  mittenMask : BitVec 8 := 0
  /-- Pairs with a mismatch that no reset has re-initialised since (Table 9.1 bit 1). -/
  mittenOpen : BitVec 8 := 0
  memOpen    : Bool := false
  /-- The gates of the two halves: outputs that each half energises (R306). -/
  gateA      : BitVec 16 := 0
  gateB      : BitVec 16 := 0
  /-- Pins driven low: outputs that both halves energise (R306). -/
  outs       : BitVec 16 := 0
  /-- Readbacks reading energised, FB_INV applied (R306). -/
  sofb       : BitVec 16 := 0
  glove      : List Glove := List.replicate 16 {}
  /-- A global-word change waits for the pulse in progress; device time from which pulses start (R314). -/
  gloveWait  : Bool := false
  gloveFrom  : Nat := 0
  siLevels   : BitVec 16 := 0
  /-- Pair states: 0 UNUSED, 1 NORMAL, 2 ASSERTED, 3 DISCREPANT (Table 15.13). -/
  pairs      : List Nat := List.replicate 8 0
  /-- A DISCREPANT pair has been high on both channels since (R316). -/
  pairHigh   : BitVec 8 := 0
  /-- Monitored clocks outside their range, in the order of Table 2.6 with one bit for each receive clock: REF, CORE, SOL, DDR, LNK, LNK
  receive A0, A1, B0, B1, PCIE, ETH0, ETH1, TIME, AFE, CAN, NAND, QSPI (R62). -/
  clockBad   : BitVec 17 := 0
  railBad    : BitVec 9 := 0
  /-- Rails not within ±4 % (clearing condition of SUPPLY). -/
  railNot4   : BitVec 9 := 0
  celsius    : Int := 25
  halvesAgree : Bool := true
  refOk      : Bool := true
  /-- Failed self-tests that have not passed since, by code (Table 9.1 bit 13). -/
  testsBad   : List Nat := []
  /-- Epochs since a frame carried the device's own number (Table 9.1 bit 12). -/
  dupQuiet   : Nat := 3
  dupPending : Bool := false
  pinLow     : Bool := false
  /-- Causes latched before the falling edge (R319). -/
  atFall     : BitVec 16 := 0
  /-- Reaction counters running, rows of Table 9.3 (R304). -/
  counters   : BitVec 4 := 0
  takeoverEpochs : Nat := 0
  /-- Outputs whose failed pulse started the second counter (R304). -/
  gloveBad   : BitVec 16 := 0
  /-- Epochs since differing records were compared, and whether their report is latched (R304). -/
  compareEpochs : Nat := 0
  compareLatched : Bool := false
  unlockOpen : Bool := false
  unlockMs   : Nat := 0
  session    : BitVec 16 := 0
  supTestLatch : Bool := false
  /-- Pairs that the injection in progress has made mismatch (R332). -/
  injMask    : BitVec 8 := 0
  silentCause : Nat := 0
  deriving DecidableEq, Repr

/-- One sensor-LAN MAC's time state (R79 to R82, Table 3.4, Table 15.11). -/
structure MacTime where
  lastStamp   : Nat := 0
  offset      : Int := 0
  portState   : Nat := 0
  unsupported : Nat := 0
  /-- Half milliseconds since the port's last Sync or Pdelay_Req; milliseconds since its last Announce sent and received (R77). -/
  syncAge     : Nat := 0
  announceAge : Nat := 0
  heardAge    : Nat := 0
  /-- Words 0 to 3 of the last transmit descriptor write-back (Table 3.4). -/
  desc        : List Word := [0, 0, 0, 0]
  deriving DecidableEq, Repr

/-- Device time (chapter 3). -/
structure Time where
  /-- The TIME counter: 64 bits of nanoseconds and the accumulator in units of 2^-32 ns (R70). -/
  ns        : Nat := 0
  frac      : Word := 0
  /-- Whole millisecond whose crossing was the last tick (R47). -/
  tickNs    : Nat := 0
  /-- Counter value just before its latest step, and the step (R73, R90). -/
  stepped   : Option (Nat × Int) := none
  /-- Frequency adjustment, Q16.16 ppm, and its value at each of the last 64 seconds, newest first. -/
  freq      : Int := 0
  freqHist  : List Int := []
  /-- The adjustment to which a slew at 100 ppm returns (R87, R88). -/
  freqBase  : Int := 0
  state     : Nat := 0
  source    : Nat := 0
  everPtp   : Bool := false
  refused   : Bool := false
  stepAt    : Option Word := none
  stepMs    : Int := 0
  stepRest  : Int := 0
  freqLimit : Bool := false
  ppsMissing : Bool := false
  ref10Lost : Bool := false
  /-- The 10 MHz input: selected, its frequency as the monitor last found it, and whether the TIME PLL runs from it (R98). -/
  ref10Sel  : Bool := false
  ref10Hz   : Nat := 0
  ref10Run  : Bool := false
  srcChanged : Bool := false
  slewLeft  : Int := 0
  gen       : BitVec 16 := 0
  /-- Last measured source offset, ns. -/
  offset    : Int := 0
  srcPresent : Bool := false
  holdoverMs : Nat := 0
  ppsErr    : Int := 0
  utc       : Int := 0
  mac       : List MacTime := [{}, {}]
  ppsHigh   : Bool := false
  /-- An accepted STEP waits for the next close (R87). -/
  stepWanted : Bool := false
  skewRuns  : Nat := 0
  /-- Last 16 link delays by port, newest first, ns (R92). -/
  linkDelay : List (List Nat) := [[], [], [], []]
  /-- Hops of the latest SYNC by port A0, A1, B0, B1; 255 = none (R92). -/
  syncHops  : List Nat := [255, 255, 255, 255]
  /-- Ticks since a SYNC arrived by port (R92). -/
  syncQuiet : List Nat := [40, 40, 40, 40]
  /-- Steps applied, newest first: STEP_AT and STEP_MS (R90). -/
  steps     : List (Word × Int) := []
  deriving DecidableEq, Repr

/-- The cycle (chapter 2): parameters in force, epoch and DP cycle numbers. -/
structure Cyc where
  e        : Nat := 20
  k        : Nat := 5
  c        : Nat := 60
  holds    : Bool := false
  epoch    : Word := 0
  /-- Device time of the instant of the current epoch (TAI_NS of Table 3.6). -/
  instant  : Nat := 0
  /-- Ticks and 100 µs grid instants since the instant of the current epoch. -/
  ticks    : Nat := 0
  grid     : Nat := 0
  /-- Device time of the last 100 µs grid instant. -/
  gridNs   : Nat := 0
  dpCycle  : Word := 0
  dpFirst  : Word := 0
  /-- Latest epoch closed here, or on a device that does not close, installed. -/
  closed   : Option Word := none
  deriving DecidableEq, Repr

/-- A DEVICES record (Table 11.5). -/
structure DevRec where
  role      : Nat := 0
  variant   : Nat := 0
  netB      : Bool := false
  netA      : Bool := false
  timeState : Nat := 0
  hifState  : Nat := 0
  missed    : Nat := 0
  causes    : BitVec 16 := 0
  joinEpoch : Word := 0
  drops     : Nat := 0
  lates     : Nat := 0
  /-- Epoch of the latest leave (R380). -/
  left      : Option Word := none
  deriving DecidableEq, Repr

/-- A THRUSTERS record (Table 11.6). -/
structure ThrRec where
  number  : Nat := 0
  kind    : Nat := 0
  dev     : Nat := 0
  section_ : Nat := 0
  avail   : Nat := 0
  reason  : Nat := 0
  flags   : BitVec 8 := 0
  cmp     : Nat := 0
  fbThrust : Word := 0
  fbAngle : Word := 0
  fbKw    : Word := 0
  cmdThrust : Word := 0
  cmdAngle : Word := 0
  cmdEpoch : Word := 0
  /-- Consecutive epochs without THRUSTER_FB (R383). -/
  quiet   : Nat := 0
  /-- The DP cycle in hand offers it to allocation (R208). -/
  offered : Bool := false
  deriving DecidableEq, Repr

/-- A POWER record (Table 6.9) and the run of epochs over or within reserve (R212). -/
structure PowRec where
  number  : Nat := 0
  group   : Nat := 0
  genOn   : BitVec 16 := 0
  online  : Nat := 0
  reserve : Nat := 0
  hotel   : Nat := 0
  thr     : Nat := 0
  avail   : Nat := 0
  plan    : Nat := 0
  flags   : BitVec 8 := 0
  factor  : Nat := 0x7FFF
  load    : Nat := 0
  overRun : Nat := 0
  okRun   : Nat := 0
  alarm   : Bool := false
  deriving DecidableEq, Repr

/-- A merged alarm entry (Table 10.3), with the reporters whose latest report stands (R354, R356). -/
structure Alarm where
  code    : BitVec 16
  subject : Nat := 0xFF
  sev     : Nat := 0
  detail  : Word := 0
  first   : Word := 0
  last    : Word := 0
  reporters : BitVec 64 := 0
  standing : BitVec 64 := 0
  everStanding : Bool := false
  supp    : Nat := 0
  quiet   : Nat := 0
  deriving DecidableEq, Repr

/-- A received contribution waiting for its close (R363): link SEQ, position, record. -/
structure Held where
  seq : Nat := 0
  pos : Nat := 0
  rec_ : Contrib
  deriving DecidableEq, Repr

/-- The Board stream (R374, R375). -/
structure Stream where
  on       : Bool := false
  base     : BitVec 64 := 0
  slots    : Nat := 0
  consumedAddr : BitVec 64 := 0
  written  : Nat := 0
  skipped  : Nat := 0
  /-- Epoch of the first image skipped since the previous slot. -/
  firstSkip : Word := 0
  /-- Images waiting for their slot. -/
  queue    : List Image := []
  deriving DecidableEq, Repr

/-- The Board (chapters 10 and 11). -/
structure Brd where
  /-- Installed or published images, newest first (R368, R372). -/
  images    : List Image := []
  damaged   : List Word := []
  held      : List Held := []
  /-- The closed epoch that waits for its fusion result or deadline. -/
  open_     : Option Image := none
  unpublished : Bool := false
  devices   : List DevRec := List.replicate 64 {}
  memberGen : BitVec 16 := 0
  changeEpoch : Word := 0
  memberChange : Bool := false
  active    : Nat := 0xFF
  swapAt    : Word := 0
  swapTarget : Nat := 0xFF
  swapOn    : Bool := false
  thr       : List ThrRec := List.replicate 24 {}
  pow       : List PowRec := List.replicate 6 {}
  alarms    : List Alarm := []
  alarmGen  : BitVec 16 := 0
  /-- Section records by section number: the latest SECTION_STATUS body. -/
  sections  : List Nat := List.replicate 6 0
  plan      : Option Nat := none
  conseq    : Option Nat := none
  /-- Counters of R385 in the order listed. -/
  counts    : List Nat := List.replicate 10 0
  stream    : Stream := {}
  deriving DecidableEq, Repr

/-- Membership, roles and takeover on this device (chapters 1, 10, 11). -/
structure Mem where
  role       : Role := .none
  /-- Latest MEMBER payload held by device (R402). -/
  heard      : List (Option Member) := List.replicate 64 none
  /-- Epochs since each device was heard, by network A then B. -/
  quietA     : List Nat := List.replicate 64 3
  quietB     : List Nat := List.replicate 64 3
  /-- Ring states of networks A and B (Table 12.11). -/
  ringA      : Nat := 3
  ringB      : Nat := 3
  joining    : Bool := false
  /-- Devices admitted, waiting for the join epoch (R378). -/
  admitted   : List Nat := []
  /-- Devices that request to join and await JOIN_PERMIT, with the milliseconds since their latest request (R377). -/
  pendingJoin : List (Nat × Nat) := []
  /-- JOIN requests of devices whose leave the next close commits (R379). -/
  joinAfter  : List Member := []
  recovering : List Nat := []
  /-- Leaves declared, waiting for the close (R379). -/
  leaving    : List Nat := []
  leaveSelf  : Bool := false
  quorumRuns : Nat := 0
  noQuorum   : Bool := false
  /-- Lower-numbered managers past their self-test heard in the formation window (R30). -/
  lowerSeen  : BitVec 3 := 0
  /-- Takeover decided: reason 0 SILENT frame, 1 no publication (R347). -/
  takeover   : Option Nat := none
  /-- Device time of that decision, ns: the takeover epoch's close lies at least 1 ms after it (R347). -/
  takeoverAt : Nat := 0
  /-- The ACTIVE manager that the decision replaces (R347). -/
  takeoverFrom : Nat := 0xFF
  silentSeen : BitVec 3 := 0
  /-- An installation table accepted in RUN and its generation, for the next epoch boundary (R482). -/
  tableNext  : Option (List (Nat × Nat × Nat) × Word) := none
  /-- A redundancy word accepted for the next epoch to close, with the instant of acceptance (R357). -/
  redNext    : Option (BitVec 64 × Nat) := none
  /-- Consecutive command epochs in which a manager was named minority (R343); the latest command epochs, newest first, and those of them in which
  reports have named each manager. -/
  minority   : List Nat := [0, 0, 0]
  cmdEpochs  : List Word := []
  named      : List (List Word) := [[], [], []]
  splitOn    : Bool := false
  splitLeft  : Nat := 0
  /-- MGR_SILENCE accepted: managers and epochs. -/
  silencing  : List (Nat × Word) := []
  /-- STANDBY managers not yet counted, with the structure copies that they have still to confirm (R351). -/
  uncounted  : List (Nat × Nat) := []
  answerSrc  : Option Nat := none
  /-- Standing alarms raised here: code, subject, severity, detail (R356). -/
  standing   : List (BitVec 16 × Nat × Nat × Word) := []
  clearing   : List (BitVec 16 × Nat × Nat × Word) := []
  /-- One-shot reports for the next contribution: code, severity, subject, first parameter. -/
  reports    : List (Nat × Nat × Nat × Nat) := []
  compares   : List Nat := []
  /-- Stream sample bodies waiting for the next contribution (Table 5.3). -/
  samples    : List Nat := []
  deriving DecidableEq, Repr

/-- One thruster in one stage of the agreed solution: thrust in kN, reference angle and deviation in radians, power in MW (R195, R258). -/
structure PlanPt where
  thrust : Rat
  ref    : Rat
  delta  : Rat
  power  : Rat
  deriving DecidableEq, Repr

/-- Class 0x10 values accepted and not yet in effect (R180): none keeps what is in force. -/
structure DpPend where
  pos    : Option (Int × Int) := none
  hdg    : Option Int := none
  speed  : Option Nat := none
  rate   : Option Nat := none
  radius : Option Nat := none
  window : Option Nat := none
  origin : Option (Word × Word) := none
  joy    : Option (List Int) := none
  /-- AUTO_HDG of the demand or of the pending mode. -/
  auto   : Option Bool := none
  track  : Option (List (List Int)) := none
  deriving DecidableEq, Repr

/-- What was pending at a STANDBY manager when a copied command was accepted there: the time of acceptance and its code (R180, R268, R329). -/
structure Ahead where
  time   : Nat := 0
  code   : Nat := 0
  pend   : DpPend := {}
  cfg    : Option Cfg := none
  deriving DecidableEq, Repr

/-- DP mode, set-points, plan and joystick (chapter 6). -/
structure Dp where
  mode       : Nat := 0
  pendingMode : Option Nat := none
  pend       : DpPend := {}
  /-- The copies not yet in effect, newest first (R180, R268, R329). -/
  copies     : List Ahead := []
  autoHdg    : Bool := false
  /-- TARGET_N, TARGET_E, TARGET_HDG. -/
  target     : List Int := [0, 0, 0]
  ramp       : List Int := [0, 0, 0]
  /-- What the first epoch's publication does with the ramp: 0 advance; bit 0 the ramp at the estimate, bits 1 and 2 a new position and a
  new heading target (R187, R188). -/
  rampDue    : Nat := 0
  /-- Where the ramp started, and DP cycles since (R188). -/
  rampFrom   : List Int := [0, 0, 0]
  rampAge    : Nat := 0
  /-- The track leg on which the ramp started (R191). -/
  rampLeg    : Nat := 0
  /-- The last published heading with HDG_VALID set (R193). -/
  lastHdg    : Option Int := none
  rampSpeed  : Nat := 300
  rampRate   : Nat := 300
  radius     : Nat := 300
  hdgWindow  : Nat := 200
  originLat  : Word := 0
  originLon  : Word := 0
  originGen  : BitVec 16 := 0
  flags      : BitVec 8 := 0
  joy        : List Int := [0, 0, 0]
  joyTimer   : Nat := 0
  joyLost    : Bool := false
  /-- Track waypoints: north, east, speed, heading, follows leg (R191). -/
  track      : List (List Int) := []
  trackLeg   : Nat := 0
  /-- Cycles in a row whose stall 0 converged unshifted (R182). -/
  goodCycles : Nat := 0
  shiftRun   : Nat := 0
  srcCycle   : Word := 0
  /-- Fallback decision committed for the cycle, applied at its command epoch (R258). -/
  decision   : Option Bool := none
  /-- The cycle's first epoch lacked STATE: no problem was built (R367). -/
  abandoned  : Bool := false
  fbMgrs     : BitVec 3 := 0
  fbCause    : BitVec 8 := 0
  degradedPlan : Bool := false
  /-- STANDBY has taken effect; the frames with DISENGAGE leave at the cycle's command epoch (R184). -/
  disengage  : Bool := false
  /-- The thrusters' part of the agreed solution: every thruster number by stage, stage 1 first (R258). -/
  agreed     : Option (List (List PlanPt)) := none
  unavail    : BitVec 24 := 0
  structSource : Nat := 0
  builds     : Nat := 0
  building   : Option (BitVec 24) := none
  /-- Derived signature of a build completed here, contributed until its report is committed (R263). -/
  derived    : Option Word := none
  /-- Build reports by manager: UNAVAIL and derived signature (R263). -/
  built      : List (Option (Nat × Word)) := [none, none, none]
  /-- Signatures of truncated scenario structures reported by each manager (R240). -/
  scenBuilt  : List (List Word) := [[], [], []]
  counted    : BitVec 3 := 0
  /-- Scenario results: result, fail run, cycles without evaluation, margins, cycle (R220 to R222). -/
  scen       : List (List Int) := List.replicate 16 [0, 0, 0, 0, 0, 0, 0, 0]
  conseqFail : Bool := false
  /-- Scenarios whose FAIL_RUN has reached 3 with event 0x1013 recorded (R222). -/
  conseqFailed : BitVec 16 := 0
  conseqStale : BitVec 16 := 0
  /-- Fallback law: integrals of the error and the error of the epoch before, in vessel axes, none yet where empty (R225). -/
  integ      : List Rat := []
  prevErr    : List Rat := []
  fbCmd      : List (Int × Int) := []
  fbEpoch    : Word := 0
  /-- The approximated matrix last noted: signature and thruster mask (R226). -/
  fbNoted    : Option (Word × BitVec 24) := none
  deriving DecidableEq, Repr

/-- One stage of a solution: the blocks Z, LAM, NU and the active set, one place for each inequality, lower and upper bound (R250, R251). -/
structure StageSol where
  z   : List Int := []
  lam : List Int := []
  nu  : List Int := []
  act : List Bool := []
  deriving DecidableEq, Repr

/-- One stall (chapter 7): description, data copies, solutions and counters. -/
structure Stall where
  /-- Code of Table 7.14. -/
  state    : Nat := 0
  kind     : Nat := 0
  /-- Description in force; of stall 0 also the main structure's; signature, removed thrusters and CERT in force; main signature. -/
  desc     : List Byte := []
  mainDesc : List Byte := []
  sig      : Word := 0
  lossThr  : BitVec 24 := 0
  mainSig  : Word := 0
  cert     : Word := 0
  pending  : Bool := false
  pendDesc : List Byte := []
  pendSig  : Word := 0
  /-- Entries written since the load, by key (stage, block, row, column), of the working, next and PENDING copies (R246 to R248). -/
  data     : List (Nat × Int) := []
  next     : List (Nat × Int) := []
  pendData : List (Nat × Int) := []
  /-- Device time at which the PENDING description was agreed here (R239). -/
  pendAt   : Nat := 0
  batchSeq : Nat := 0
  /-- Last agreed solution by stage, with its cycle and signature (R253). -/
  sol      : List StageSol := []
  solCycle : Word := 0
  solSig   : Word := 0
  /-- Thrusters that the structure of that solution lacks. -/
  solLoss  : BitVec 24 := 0
  hasSol   : Bool := false
  /-- The next solve starts cold (R267). -/
  coldNext : Bool := false
  /-- Start of the solve in hand: the shifted source; empty starts cold (R253 to R255). -/
  start    : List StageSol := []
  /-- The latest solve's own result, unagreed. -/
  cand     : List StageSol := []
  candOk   : Bool := false
  candCycle : Word := 0
  flags    : BitVec 16 := 0
  sticky   : BitVec 16 := 0
  iter     : Nat := 0
  pivStage : Nat := 0
  /-- FAULT: the working copy, and also the DDR4 copy, are uncorrectable (R267). -/
  damaged  : Bool := false
  lost     : Bool := false
  /-- Counters of Table 7.15 in row order. -/
  counts   : List Nat := List.replicate 13 0
  deriving DecidableEq, Repr

/-- The solver array (chapter 7). -/
structure Sol where
  stalls   : List Stall := List.replicate 32 {}
  /-- Stall running on each SOL pair. -/
  pairs    : List (Option Nat) := [none, none, none, none]
  queue    : List Nat := []
  /-- A DP cycle's problem has been built and its outcome instant is still to come. -/
  running  : Bool := false
  /-- DP cycle of that problem; its reference thrusts (kN) and angles (rad) of every thruster number, by stage (R198); the plant of its first
  epoch (R202, R203). -/
  cycle    : Word := 0
  refs     : List (List (Rat × Rat)) := []
  plant    : List PowRec := []
  /-- S0_FLAGS, PRE_OK and SCEN_OK gathered for the outcome word (Table 7.11). -/
  s0Flags  : BitVec 8 := 0
  s0Iter   : Nat := 0
  preOk    : BitVec 16 := 0
  scenOk   : BitVec 16 := 0
  throttle : Nat := 0
  /-- Milliseconds more than 5 °C below the threshold of the present level. -/
  coolMs   : Nat := 0
  /-- Outcome words committed for the cycle, by manager (R258, R261). -/
  outcomes : List (Option Nat) := [none, none, none]
  /-- Stall 0 switched its structure in this cycle: STRUCT_SWITCH (Table 7.12). -/
  switched : Bool := false
  deriving DecidableEq, Repr

/-- What a commit may replace, as it stood before, and the records it took (R364, R370). -/
structure Undo where
  held      : List Held := []
  devices   : List DevRec := []
  thr       : List ThrRec := []
  pow       : List PowRec := []
  sections  : List Nat := []
  plan      : Option Nat := none
  conseq    : Option Nat := none
  alarms    : List Alarm := []
  alarmGen  : BitVec 16 := 0
  mem       : Mem := {}
  dp        : Dp := {}
  sol       : Sol := {}
  deriving DecidableEq, Repr

/-- One fusion stream at run time (chapter 5). -/
structure StreamRt where
  /-- Enabled in the fusion of the last epoch. -/
  on         : Bool := false
  confidence : Nat := 128
  state      : Nat := 0
  mask       : BitVec 8 := 0
  penalty    : BitVec 8 := 0
  ageMs      : Nat := 0
  held       : Bool := false
  agreeRun   : Nat := 0
  recover    : Nat := 0
  /-- Committed samples, newest first: stamp ns, V1, V2, V3, sigma, epoch (R153). -/
  samples    : List (List Int) := []
  /-- Anchor north and east, in units of 2^−16 m (R149). -/
  anchor     : Option (Int × Int) := none
  /-- Counters of R177 in the order listed, REJECTED that of the parsing device. -/
  counts     : List Nat := List.replicate 9 0
  rejected   : Nat := 0
  /-- Quantities at the last change by more than 1 LSB, and the time without one (Table 5.5). -/
  frozenRef  : List Int := []
  frozenMs   : Nat := 0
  /-- Squared innovations of the last 16 used samples, and distances from the group's median over the last 60 s, newest first (Table 5.5). -/
  innov      : List Rat := []
  drift      : List Rat := []
  /-- Its value at the epoch instant: north and east (m), heading (rad), or the quantities as sampled; empty when it has none (R153). -/
  meas       : List Rat := []
  /-- Masked by confidence and not yet unmasked (R158). -/
  lowMasked  : Bool := false
  /-- Samples committed in the epoch in hand. -/
  news       : Nat := 0
  /-- Enabled by a definition that fusion has still to take (R143). -/
  renew      : Bool := false
  deriving DecidableEq, Repr

/-- The fusion configuration in force (R139). -/
structure FusCfg where
  streams    : List (List Byte) := List.replicate 48 []
  transforms : List (BitVec 384) := List.replicate 64 transformReset
  observer   : BitVec 384 := observerReset
  deriving DecidableEq, Repr

/-- What a fusion change found: when it was accepted, and the configuration, preference and pending enables before it (R139). -/
structure FusBefore where
  time    : Nat
  cfg     : FusCfg
  prefer  : Option Nat
  pending : Bool
  renew   : List Bool
  deriving DecidableEq, Repr

/-- The observer: fifteen states and their covariance (R166); empty before the first epoch of fusion. -/
structure Kal where
  x : List Rat := []
  p : List (List Rat) := []
  deriving DecidableEq, Repr

/-- What the ring keeps of one stream (R170, R172): STATE and MASK, and what its value was computed from. -/
structure RingStream where
  state      : Nat := 0
  mask       : Nat := 0
  confidence : Nat := 128
  samples    : List (List Int) := []
  anchor     : Option (Int × Int) := none
  deriving DecidableEq, Repr

/-- One entry of the 8-epoch ring (R170): prior, posterior, what the epoch was computed from, and its decisions. -/
structure RingEnt where
  epoch   : Word
  prior   : Kal := {}
  post    : Kal := {}
  /-- Thrust and moment of the epoch's THRUSTERS section. -/
  tau     : List Rat := []
  /-- The bias before the epoch's propagation (R168). -/
  bias    : List Rat := []
  /-- Headings and position references combined; whether the estimate of each group was reset (R169). -/
  hdgs    : List Nat := []
  refs    : List Nat := []
  resetHdg : Bool := false
  resetPos : Bool := false
  /-- Streams that gave the attitude (R150). -/
  attHdgs : List Nat := []
  attMotion : Option Nat := none
  streams : List RingStream := []
  deriving DecidableEq, Repr

/-- Fusion and observer (chapter 5). -/
structure Fus where
  cfg       : FusCfg := {}
  /-- A preference accepted, for the next close (R163). -/
  prefer    : Option Nat := none
  streams   : List StreamRt := List.replicate 48 {}
  preferred : Option Nat := none
  cfgGen    : BitVec 16 := 0
  cfgPending : Bool := false
  /-- What the changes accepted since the last close found, newest first (R139). -/
  before    : List FusBefore := []
  lateDrop  : Nat := 0
  lateUsed  : Nat := 0
  lateApplied : Bool := false
  posValid  : Bool := false
  hdgValid  : Bool := false
  drPos     : Bool := false
  drHdg     : Bool := false
  drPosEpochs : Nat := 0
  drHdgEpochs : Nat := 0
  posLost   : Bool := false
  hdgLost   : Bool := false
  /-- A heading fix was formed since reset (R169): the first one sets the estimate. -/
  hdgSeen   : Bool := false
  conflict  : Bool := false
  few       : Bool := false
  noMotion  : Bool := false
  refUsed   : Nat := 0
  hdgUsed   : Nat := 0
  /-- Streams used in the last epoch with a used position stream (event 0x0316). -/
  lastUsed  : Nat := 0
  kal       : Kal := {}
  /-- Headings and motion stream used in the last epoch, from which the attitude at a stamp is interpolated (R150). -/
  attHdgs   : List Nat := []
  attMotion : Option Nat := none
  /-- The STATE quantities, indexed as in Table 5.10 from POS_N to DRAFT. -/
  est       : List Int := List.replicate 20 0
  estEpoch  : Word := 0
  originFixed : Bool := false
  /-- The last 8 epochs, newest first (R170). -/
  ring      : List RingEnt := []
  /-- Committed records of the closed epoch that fusion has still to take (Table 5.7). -/
  todo      : Option (List Contrib) := none
  deriving DecidableEq, Repr

/-- One loop context at run time (chapter 8). -/
structure Ctx where
  state   : Nat := 0
  u       : Int := 0
  r       : Int := 0
  target  : Int := 0
  raw     : Int := 0
  x       : Int := 0
  p       : Int := 0
  i       : Int := 0
  d       : Int := 0
  w1      : Int := 0
  v       : Int := 0
  /-- Histories: LEADLAG q1 v1; BIQUAD2 q1 q2 y1 y2 of sections 1 and 2. -/
  hist    : List Int := List.replicate 8 0
  /-- Coefficient writes waiting for the next sample: index, value, shift. -/
  writes  : List (Nat × Int × Nat) := []
  gen     : BitVec 16 := 0
  armed   : Bool := false
  gated   : Bool := false
  inLost  : Bool := false
  flagHeld : Bool := false
  satArith : Bool := false
  satOut  : Bool := false
  suppressed : Bool := false
  ceased  : Bool := false
  /-- HOLD after an input loss goes on to LOST when parked. -/
  toLost  : Bool := false
  parkAt  : Int := 0
  /-- What began the parking in progress: the cause of event 0x0510 (R299). -/
  parkCause : Nat := 0
  /-- The coefficients in effect, value and shift (R285). -/
  coefs   : List (Int × Nat) := List.replicate 10 (0, 0)
  /-- An accepted target restarts r at x at the next sample (R284). -/
  restart : Bool := false
  /-- Episodes of events 0x0511 and 0x0512. -/
  epOut   : Bool := false
  epSat   : Bool := false
  /-- Due instants that the sample in progress still covers (R277): how long a sample through the on-chip network lasts is a free value. -/
  late    : Nat := 0
  /-- Counters of Table 8.9 in row order. -/
  counts  : List Nat := List.replicate 7 0
  deriving DecidableEq, Repr

/-- One trace unit (R295 to R297). -/
structure Trace where
  state   : Nat := 0
  word    : BitVec 128 := 0
  /-- Captured words, newest first. -/
  buf     : List Word := []
  skip    : Nat := 0
  left    : Nat := 0
  /-- A trigger not taken on a sample waits for the trigger sample. -/
  await   : Bool := false
  preValid : Nat := 0
  trigStamp : Word := 0
  trigEpoch : Word := 0
  trigGen : BitVec 16 := 0
  deriving DecidableEq, Repr

/-- Fast load reduction of one section on this device (R214 to R216). -/
structure Flr where
  si      : Bool := false
  can     : Bool := false
  brd     : Bool := false
  inForce : Bool := false
  /-- Epoch and device time of the trigger. -/
  epoch   : Word := 0
  since   : Nat := 0
  deriving DecidableEq, Repr

/-- One applied command record and its comparison (R340 to R342). -/
structure Applied where
  rec_   : Option CmdRec := none
  engaged : Bool := false
  cmp    : Nat := 0
  cmdEpoch : Word := 0
  /-- Epochs since the application (Table 8.4). -/
  age    : Nat := 0
  deriving DecidableEq, Repr

/-- The loop engine, trace units, command paths (chapters 8 and 10). -/
structure Loop where
  ctx     : List Ctx := List.replicate 128 {}
  trace   : List Trace := List.replicate 8 {}
  flr     : List Flr := List.replicate 6 {}
  applied : List Applied := List.replicate 24 {}
  /-- CMD records received, by manager: command epoch and records. -/
  cmds    : List (Option (BitVec 16 × List CmdRec)) := [none, none, none]
  /-- EPOCH16 of the command epoch compared last; whether the current epoch's records have been compared (R340, R349). -/
  cmdLatest : BitVec 16 := 0
  cmdDone : Bool := false
  lateCmd : Nat := 0
  /-- The command records that this manager sent last, by epoch, newest first (R383). -/
  sent    : List (BitVec 16 × List CmdRec) := []
  reselect : Bool := false
  /-- Flow payloads written by contexts: flow and bytes. -/
  flowBuf : List (Nat × List Byte) := []
  /-- DATA payloads received, by flow. -/
  flowRx  : List (Nat × List Byte) := []
  deriving DecidableEq, Repr

/-- The factory compensation set in OTP, taps h[0] to h[31] (R111; row 6). -/
def factorySet : List Int := (List.range 32).map fun i => sext 32 (Config.otp (32 + i)).toNat

/-- One filter channel (chapter 4). -/
structure Filt where
  /-- Taps h[0] to h[31] of banks A and B. -/
  bankA   : List Int := factorySet
  bankB   : List Int := factorySet
  active  : Bool := false
  swapPending : Bool := false
  frozen  : Bool := false
  /-- DC estimate m in units of 2^-47, the 48-bit Q1.47 (R114). -/
  m       : Int := 0
  mLoad   : Bool := false
  /-- CIC registers: four integrators, four comb delays, in 64 bits (Table 4.1). -/
  cicInt  : List (BitVec 64) := List.replicate 4 0
  cicComb : List (BitVec 64) := List.replicate 4 0
  firHist : List Int := List.replicate 64 0
  medHist : List Int := []
  seq     : BitVec 16 := 0
  lastSeq : BitVec 16 := 0
  settle  : Nat := 0
  dcbSettle : Nat := 0
  modOvr  : Nat := 0
  /-- Newest delivered sample: value, stamp, epoch, flags of Table 4.5 from bit 112. -/
  value   : Int := 0
  stamp   : Nat := 0
  epoch   : Word := 0
  flags   : BitVec 9 := 0
  clipEp  : Bool := false
  /-- Range episode: LOOP_LOW or LOOP_HIGH standing, and already counted. -/
  rangeOn : Bool := false
  rangeDone : Bool := false
  /-- The word in force until the output-sample boundary, while a written one waits for it (R107). -/
  inForce : Option (BitVec 64) := none
  /-- EN was cleared and the sample in progress is still to come, from this bank (R129). -/
  ending  : Option Bool := none
  hasSample : Bool := false
  /-- Counters of Table 4.7 in row order. -/
  counts  : List Nat := List.replicate 5 0
  deriving DecidableEq, Repr

/-- One analog output (R132 to R136). -/
structure Ao where
  powered : Bool := false
  test    : Bool := false
  testCode : Nat := 0
  /-- Code written last since the enable; latched code. -/
  written : Nat := 0
  code    : Nat := 0
  /-- Codes latched at the last 20 grid instants, 2 ms, newest first. -/
  recent  : List Nat := []
  readback : Int := 0
  /-- Samples in a row outside and inside the band, 1 ms each (R135, R136). -/
  outMs    : Nat := 0
  inMs     : Nat := 0
  mismatch : Bool := false
  heldZero : Bool := false
  deriving DecidableEq, Repr

/-- One CAN transmit buffer (R426 to R431). -/
structure CanBuf where
  header  : BitVec 64 := 0
  data    : List Byte := []
  status  : Nat := 0
  bound   : Bool := false
  cancel  : Bool := false
  collision : Bool := false
  run     : Nat := 0
  attempts : Nat := 0
  retryLeft : Nat := 0
  stamp   : Word := 0
  epoch   : Word := 0
  held    : Option (List Byte) := none
  deriving DecidableEq, Repr

/-- A stored CAN receive record (Table 13.4). -/
structure CanRec where
  f     : CanFrame
  lost  : Bool := false
  seq   : BitVec 16 := 0
  epoch : Word := 0
  stamp : Word := 0
  deriving DecidableEq, Repr

/-- Automatic rate detection (R433, R434). -/
structure Autobaud where
  dwell   : Nat := 1000
  passes  : Nat := 3
  cand    : Nat := 0
  good    : Nat := 0
  pass    : Nat := 0
  /-- Nominal locked; data candidate; frames; dwells since the nominal lock. -/
  nominal : Option Nat := none
  dcand   : Nat := 0
  dgood   : Nat := 0
  dwells  : Nat := 0
  /-- A BRS frame has appeared since the nominal lock. -/
  brsSeen : Bool := false
  deriving DecidableEq, Repr

/-- One CAN FD channel (chapter 13). -/
structure Can where
  /-- 0 DISABLED, 1 ERROR_ACTIVE, 2 ERROR_PASSIVE, 3 BUS_OFF, 4 LISTEN, 5 DETECTING, 6 LOCKED, 7 FAILED (R443). -/
  state   : Nat := 0
  dataUnknown : Bool := false
  tec     : Nat := 0
  rec_    : Nat := 0
  bufs    : List CanBuf := List.replicate 32 {}
  onBus   : Option (Fin 32) := none
  /-- Device time of the start of frame of the attempt on the bus, in the time now kept (R419). -/
  sofNs   : Nat := 0
  ring    : List CanRec := []
  seq     : BitVec 16 := 0
  lostNext : Bool := false
  auto    : Option Autobaud := none
  /-- Device time known at the last disable, while the frame in progress then may still enter the ring (R432). -/
  offAt   : Option Nat := none
  /-- Counters of R443 in the order listed. -/
  counts  : List Nat := List.replicate 13 0
  deriving DecidableEq, Repr

/-- A sentence record (Table 13.11). -/
structure SentRec where
  text  : List Byte := []
  flags : BitVec 8 := 0
  seq   : BitVec 16 := 0
  epoch : Word := 0
  stamp : Word := 0
  deriving DecidableEq, Repr

/-- One UART or one MAC's sentence ring (R435 to R441). -/
structure Uart where
  ring   : List SentRec := []
  seq    : BitVec 16 := 0
  tx     : List (List Byte) := []
  errEp  : Bool := false
  /-- SENTENCES, INCOMPLETE, OVERLONG, FRAMING, CHECKSUM_ERR, NOISE_CHARS; a MAC: DATAGRAMS_450, UNSUPPORTED_450,
  SFI_MISMATCH_COUNT. -/
  counts : List Nat := List.replicate 6 0
  deriving DecidableEq, Repr

/-- Fieldbus, serial and their routes (chapter 13). -/
structure Bus where
  can    : List Can := List.replicate 8 {}
  /-- Newest value of each route, whether any frame has been routed, and whether its timeout has run out. -/
  routes : List (Int × Bool) := List.replicate 64 (0, false)
  uart   : List Uart := List.replicate 8 {}
  lan    : List Uart := [{}, {}]
  deriving DecidableEq, Repr

/-- A frame held for acknowledgement (R392, R393). -/
structure HeldFrame where
  hseq   : BitVec 8
  f      : Frame
  /-- Its bytes on the cable between SOF and EOF, as it was last sent (R390). -/
  bytes  : List Byte := []
  resent : Nat := 0
  /-- Clear while the frame is a copy started at its header whose end has not been received intact (R394). -/
  whole  : Bool := true
  deriving DecidableEq, Repr

/-- A frame in a port's queue, with its place in the order of arrival (R395). -/
structure Queued where
  f  : Frame
  at_ : Nat := 0
  deriving DecidableEq, Repr

/-- One Station Link port (chapter 12). -/
structure Port where
  /-- Port state code: 0 DISABLED … 7 FAULT. -/
  state   : Nat := 1
  nb      : Nat := 0xFF
  nbPort  : Bool := false
  /-- State that the latest HELLO names for the far end. -/
  nbState : Nat := 0
  hellos  : Nat := 0
  queue   : List Queued := []
  /-- Frames that have arrived in the queue (R395). -/
  arrived : Nat := 0
  held    : List HeldFrame := []
  hseq    : BitVec 8 := 0
  rxNext  : BitVec 8 := 0
  missing : List (BitVec 8) := []
  unacked : Nat := 0
  /-- Device time at which the quarantine ends (R407). -/
  quarEnd : Nat := 0
  /-- Violations of the last second: device time and code (R407). -/
  viols   : List (Nat × Nat) := []
  /-- NAKs sent in the last second; suppressed counts by target; rate NAKs by source, flow and time (R405, R406). -/
  nakTimes : List Nat := []
  nakSupp : List (Nat × Nat) := []
  rateNak : List (Nat × Nat × Nat) := []
  degradedErr : Bool := false
  /-- Header of the frame in receipt, accepted (R394, R405). -/
  cut     : Option Hdr := none
  /-- First-hop frames of the last 100 ms: source, flow, device time (R405). -/
  rate    : List (Nat × Nat × Nat) := []
  /-- Counters of Table 12.12, paired names apart, in the order written: FRAMES_RX FRAMES_TX CRC_ERR ABORT_RX RESEND_TX
  RESEND_RX VIOL_HCRC VIOL_TYPE VIOL_EPOCH VIOL_SIZE VIOL_RATE NAK_TX NAK_RX TXQ_DROP DEGRADES QUARANTINES. -/
  counts  : List Nat := List.replicate 16 0
  deriving DecidableEq, Repr

/-- A receive window (R398): newest SEQ, how many SEQ values it holds, and those delivered. -/
structure Window where
  src     : Nat
  flow    : Nat
  newest  : BitVec 16
  span    : Nat := 1
  got     : List (BitVec 16) := []
  deriving DecidableEq, Repr

/-- Station Link (chapter 12). -/
structure Link where
  ports   : List Port := List.replicate 4 {}
  /-- Next SEQ by flow (R398). -/
  txSeq   : List (Nat × BitVec 16) := []
  windows : List Window := []
  /-- BOOT of the last MEMBER frame held of each source, which stays when the source leaves the map (R398). -/
  boots   : List (Nat × BitVec 16) := []
  /-- DUP_DROP, E2E_GAP, NO_ROUTE, UNBOUND_DROP, LOOP_DROP. -/
  counts  : List Nat := List.replicate 5 0
  /-- FLOW_TX, FLOW_RX, FLOW_POLICED by flow. -/
  flows   : List (Nat × Nat × Nat × Nat) := []
  /-- Flow definitions from the ACTIVE manager that take effect at the next epoch. -/
  flowsNew : List (Nat × BitVec 128) := []
  deriving DecidableEq, Repr

/-- A response kept for repeats on the UDP path (R464). -/
structure UdpHeld where
  src  : Word
  port : BitVec 16
  tag  : BitVec 16
  head : List Byte
  resp : Option (List Byte) := none
  deriving DecidableEq, Repr

/-- A relayed request in flight (R466, R467). -/
structure Relay where
  code   : Nat
  req    : Req
  target : Nat
  seq    : BitVec 16
  repeats : Nat := 0
  deriving DecidableEq, Repr

/-- A watched heartbeat path (R459, R460). -/
structure WatchSt where
  path    : Watch
  timeout : Nat := 0
  count   : BitVec 16 := 0
  lost    : Bool := false
  lostAt  : Nat := 0
  deriving DecidableEq, Repr

/-- An answer that waits for other devices: copies to STANDBY managers, or a stream's source device (R239, R329, R483); or, at a STANDBY manager,
a copy that it has confirmed and that the other STANDBY managers have still to confirm. -/
structure Job where
  code   : Nat
  req    : Req
  wait   : List Nat := []
  sig    : Word := 0
  field  : Nat := 0
  /-- The first manager that confirmed another signature, and that signature (R239). -/
  differs : Option (Nat × Word) := none
  copy    : Bool := false
  deriving DecidableEq, Repr

/-- What the device emits besides its pins' levels and Station Link frames: the model's own record of outputs. -/
inductive Out where
  | msix (vector : Nat)
  | hostWrite (addr : BitVec 64) (bytes : List Byte)
  | hostRead (addr : BitVec 64) (len : Nat)
  | udp (mac : Fin 2) (dst : Word) (port : BitVec 16) (bytes : List Byte)
  | ordered (port : Fin 4) (name : Nat) (value : Nat)
  | abort (port : Fin 4)
  /-- A PTP message: IEEE 1588 message type and device time. -/
  | ptp (mac : Fin 2) (kind : Nat) (ns : Nat)
  /-- A one-step insertion (R82): the stamp into correctionField (else originTimestamp), the frame check recomputed, the UDP checksum zeroed. -/
  | txStamp (mac : Fin 2) (correction : Bool) (ns : Nat) (udpZero : Bool)
  /-- What a JOIN_ANSWER hands to a device beside its MEMBER payload (R45, R94, R378, R401, R592). -/
  | handshake (dev : Nat) (h : Handshake)
  | canSend (ch : Fin 8) (buf : Nat)
  | uartSend (u : Fin 8) (chars : List Byte)
  | nand (op : Nat) (bytes : List Byte)
  /-- A multicast group joined by IGMPv2 (R441). -/
  | igmpJoin (mac : Nat) (group : Nat)
  /-- Intrusive self-tests (Table 9.12): one safety output energised alone, one analog output swept, one SRAM region marched. -/
  | outputTest (out : Nat)
  | sweepTest (ao : Nat)
  | marchTest (region : Nat)
  deriving DecidableEq, Repr

/-- The host link (chapter 14). -/
structure Hif where
  busy    : Word := 0
  done    : Word := 0
  irqStat : Word := 0
  irqEn   : Word := 0
  heartbeat : Word := 0
  /-- Slots 0 to 31 and the MSI-X table: bytes of BAR0 RAM, canonical (rising addresses, no zero byte). -/
  ram     : List Host.Cell := []
  /-- Rings written and not yet taken, and requests from the other paths, in order of arrival. -/
  waiting : List (Path × List Byte) := []
  /-- The local command the device executes now: code and request. -/
  execNow : Option (Nat × Req) := none
  /-- A DMA request whose read is outstanding. -/
  dmaWait : Option (Nat × Req) := none
  seq     : BitVec 16 := 0
  udp     : List UdpHeld := []
  relays  : List Relay := []
  answers : List (Nat × BitVec 16 × List Byte) := []
  watches : List WatchSt := []
  notes   : List (Nat × EvRec × Nat) := []
  /-- Notifications made since the reset release; number of the one last placed in slot 31. -/
  noteNo  : Nat := 0
  notePlaced : Nat := 0
  noteBusy : Bool := false
  copyJob : Option Job := none
  srcJob  : Option Job := none
  /-- Counters of R473 in the order listed. -/
  counts  : List Nat := List.replicate 13 0
  deriving DecidableEq, Repr

/-- The token bucket of one code (R525, R526). -/
structure Bucket where
  code    : BitVec 16
  tokens  : Nat := 8
  pending : Nat := 0
  first   : Word := 0
  last    : Word := 0
  /-- Severity of the code (R526). -/
  sev     : Nat := 0
  deriving DecidableEq, Repr

/-- The recorder (chapter 17); the ring itself is in MRAM. -/
structure Rcd where
  buckets : List Bucket := []
  /-- Cursors by path: PCIe 0, relay 1, UDP source + 2 (R527). -/
  cursors : List (Nat × Word) := []
  deriving DecidableEq, Repr

/-- An incident capture (R540). -/
structure Capture where
  number  : Nat
  code    : BitVec 16
  subject : Nat
  sev     : Nat
  trigger : Word
  firstTrigger : Word
  start   : Word
  end_    : Word
  images  : Nat := 0
  /-- Epoch of the last image captured; the byte stream not yet staged; parts staged (Table 17.3). -/
  last    : Word := 0
  tail    : List Byte := []
  parts   : Nat := 0
  firstChunk : Word := 0
  closed  : Bool := false
  deriving DecidableEq, Repr

/-- A NAND block (R533 to R537): the chunks it holds, pages programmed, erase count, read retries that its latest patrol needed. -/
structure Blk where
  num     : Nat
  erases  : Nat := 0
  pages   : Nat := 0
  chunks  : List Word := []
  retired : Bool := false
  retries : Nat := 0
  deriving DecidableEq, Repr

/-- The NAND archive (R531 to R541); the medium (blocks, chunks) outlives power. -/
structure Arch where
  state    : Nat := 0
  /-- The fitted part: chunks in a page, pages in a block, pseudo-SLC endurance (R531, R535). -/
  pageChunks : Nat := 1
  blockPages : Nat := 1
  endurance  : Nat := 0
  blks     : List Blk := []
  /-- Block that takes the next page; blocks awaiting refresh; blocks whose erase runs. -/
  openBlk  : Option Nat := none
  refresh  : List Nat := []
  erasing  : List Nat := []
  rereads  : Nat := 0
  crcFails : Nat := 0
  replays  : Nat := 0
  captures : List Capture := []
  nCaptures : Nat := 0
  /-- Number of the next capture. -/
  capNext  : Nat := 0
  /-- Chunks held: number and its 4096 bytes; oldest first. -/
  chunks   : List (Word × List Byte) := []
  nextChunk : Word := 0
  /-- Journal entries, one a page programmed, and chunks since the last checkpoint of the chunk map (R533). -/
  journal  : Nat := 0
  unsaved  : Nat := 0
  /-- Staged chunks: place in the order of R539 and bytes (4092 without number and CRC; 4096 for a moved chunk). -/
  staging  : List (Nat × List Byte) := []
  /-- Record number up to which records are staged. -/
  recNext  : Word := 0
  /-- The page whose program runs. -/
  page     : List (Nat × List Byte) := []
  writeProtect : Bool := false
  /-- Power-fail finish running: pages programmed and chunks padded. -/
  pfail    : Option (Nat × Nat) := none
  /-- POWER_FAIL_N has risen and the 100 ms run. -/
  resuming : Bool := false
  deriving DecidableEq, Repr

/-- One memory region's protection (chapter 16). -/
structure Region where
  corrected : Nat := 0
  uncorrectable : Nat := 0
  passes   : Nat := 0
  lastPassMs : Nat := 0
  rmw      : Nat := 0
  merge    : Nat := 0
  lastAddr : Nat := 0
  /-- Sites corrected in this pass and in the previous one: address and position; written back. -/
  sites    : List (Nat × Nat × Bool) := []
  prev     : List (Nat × Nat × Bool) := []
  passCorr : Nat := 0
  passPos  : Option Nat := none
  passMixed : Bool := false
  mark     : Option Nat := none
  writeBacks : List Nat := []
  /-- Next scrub address, in code words. -/
  scrubAt  : Nat := 0
  /-- Device time at which the running pass began, and its period, ms (R514). -/
  passStart : Nat := 0
  period   : Nat := 0
  deriving DecidableEq, Repr

/-- Memory protection (chapter 16). -/
structure Memp where
  regions : List Region := List.replicate 9 {}
  deriving DecidableEq, Repr

/-- Self-tests (R330 to R334). -/
structure Tests where
  /-- Result by test in the order of Table 9.12: code, result, ms, end epoch, detail. -/
  results : List (Nat × Nat × Nat × Word × Word) :=
    [(1, 0, 0, 0, 0), (2, 0, 0, 0, 0), (3, 0, 0, 0, 0), (0x10, 0, 0, 0, 0), (0x11, 0, 0, 0, 0), (0x12, 0, 0, 0, 0), (0x13, 0, 0, 0, 0)]
  running : Option Nat := none
  regions : Nat := 0
  /-- An intrusive test that waits for the leave (R332). -/
  waiting : Option Nat := none
  /-- Start-up tests still to finish (R333). -/
  startup : List Nat := []
  deriving DecidableEq, Repr

/-- Die variants (R1). -/
inductive Variant where
  | MA | MB | WK
  deriving DecidableEq, Repr

/-- The state of one device. -/
structure State where
  /-- Commands and events waiting, first in, first out. -/
  pending : List Instr := []
  /-- The model's own counter of free values (row 1). -/
  free    : Nat := 0
  /-- What the commit of the epoch closed and not yet published replaced (R370). -/
  undo    : Option Undo := none
  /-- The model's own log of what left the device, oldest first. -/
  outs    : List Out := []
  /-- Variant, fixed in OTP (R3, R9). -/
  variant : Variant := .MA
  cfg     : Cfg := {}
  /-- DP-cycle configuration accepted and not yet in effect (R180). -/
  cfgNext : Option Cfg := none
  mram    : Mram := {}
  fw      : Fw := {}
  rst     : Rst := {}
  safe    : Safe := {}
  time    : Time := {}
  cyc     : Cyc := {}
  brd     : Brd := {}
  mem     : Mem := {}
  dp      : Dp := {}
  sol     : Sol := {}
  fus     : Fus := {}
  loop    : Loop := {}
  filt    : List Filt := List.replicate 16 {}
  ao      : List Ao := List.replicate 8 {}
  bus     : Bus := {}
  link    : Link := {}
  hif     : Hif := {}
  rcd     : Rcd := {}
  arch    : Arch := {}
  memp    : Memp := {}
  tests   : Tests := {}
  deriving DecidableEq, Repr

/-- The device right after the assertion of power-on reset, a new part with empty MRAM (rows 7 to 10). -/
def State.reset : State := {}

end Sys2Proof.Machine
end

