-- ==== Sys2Proof/Machine/Operands.lean ====
section
/-! DEFINITION. Operand forms: little-endian payload fields, bit fields of table words, packing of records, and the
check values CRC-16 and CRC-32 (R10, R391, R475). -/

namespace Sys2Proof.Machine

/-- Bits [lo + w − 1 : lo] of a number (R10). -/
def bits (n lo w : Nat) : Nat := (n >>> lo) % 2 ^ w

/-- One bit of a number. -/
def bit (n i : Nat) : Bool := n.testBit i

/-- A field of a table word: `w` bits from bit `lo` (R11). -/
def fld {n : Nat} (x : BitVec n) (lo w : Nat) : Nat := bits x.toNat lo w

/-- A signed field of a table word. -/
def sfld {n : Nat} (x : BitVec n) (lo w : Nat) : Int := sext w (fld x lo w)

/-- A word with the field at `lo` of width `w` replaced. -/
def setFld {n : Nat} (x : BitVec n) (lo w v : Nat) : BitVec n :=
  BitVec.ofNat n (x.toNat - bits x.toNat lo w * 2 ^ lo + (v % 2 ^ w) * 2 ^ lo)

/-- Bytes to number, first byte lowest (R10). -/
def leNat : List Byte → Nat
  | [] => 0
  | b :: bs => b.toNat + 256 * leNat bs

/-- The `n` little-endian bytes of a number (R10). -/
def leBytes : Nat → Nat → List Byte
  | 0, _ => []
  | n + 1, v => BitVec.ofNat 8 v :: leBytes n (v / 256)

/-- `w` bytes of a payload from byte `off`, as a number; bytes beyond its end read 0 (R475). -/
def ule (p : List Byte) (off w : Nat) : Nat := leNat ((p.drop off).take w)

/-- Payload byte `off`. -/
def u8 (p : List Byte) (off : Nat) : Nat := (p.getD off 0).toNat
/-- Payload bytes `off`, `off` + 1. -/
def u16 (p : List Byte) (off : Nat) : Nat := ule p off 2
/-- Payload bytes `off` to `off` + 3. -/
def u32 (p : List Byte) (off : Nat) : Nat := ule p off 4
/-- Signed 32-bit payload field. -/
def i32 (p : List Byte) (off : Nat) : Int := sext 32 (u32 p off)
/-- A 32-bit word of a payload. -/
def w32 (p : List Byte) (off : Nat) : Word := BitVec.ofNat 32 (u32 p off)

/-- Fields packed low first: width and value (R10, R11). -/
def pack : List (Nat × Nat) → Nat
  | [] => 0
  | (w, v) :: fs => v % 2 ^ w + 2 ^ w * pack fs

/-- a / b rounded to nearest, ties toward +∞ (R242, R282; row 14). -/
def roundDiv (a b : Int) : Int := Int.fdiv (2 * a + b) (2 * b)

/-- a / b in whole units where the spec does not state the rounding: exact where it is whole, else one of the two neighbours (row 2). -/
def openDiv (site : Nat) (a b : Int) : Int :=
  let q := Int.fdiv a b
  if q * b = a then q else if Config.roundUp site a b then q + 1 else q

/-- A moment held as device time, after a step of device time: 64 bits (R70). -/
def movedBy (ns : Int) (t : Nat) : Nat := (((t : Int) + ns) % 2 ^ 64).toNat

/-- ⌈a / b⌉ of natural numbers. -/
def ceilDiv (a b : Nat) : Nat := (a + b - 1) / b

/-- One CRC-16/CCITT-FALSE step over the bits of a byte already folded in (R391). -/
def crc16Bits : Nat → Nat → Nat
  | 0, c => c
  | n + 1, c => crc16Bits n (if c.testBit 15 then ((c <<< 1) ^^^ 0x1021) % 65536 else (c <<< 1) % 65536)

/-- CRC-16/CCITT-FALSE over bytes, from a register value (R391). -/
def crc16From (c : Nat) : List Byte → Nat
  | [] => c
  | b :: bs => crc16From (crc16Bits 8 (c ^^^ (b.toNat <<< 8))) bs

/-- CRC-16/CCITT-FALSE (R391). -/
def crc16 (bs : List Byte) : Nat := crc16From 0xFFFF bs

/-- Eight reflected CRC-32 bit steps (R391). -/
def crc32Bits : Nat → Nat → Nat
  | 0, c => c
  | n + 1, c => crc32Bits n (if c.testBit 0 then (c >>> 1) ^^^ 0xEDB88320 else c >>> 1)

/-- CRC-32 over bytes, from a register value (R391). -/
def crc32From (c : Nat) : List Byte → Nat
  | [] => c
  | b :: bs => crc32From (crc32Bits 8 (c ^^^ b.toNat)) bs

/-- CRC-32/ISO-HDLC (R391). -/
def crc32 (bs : List Byte) : Nat := crc32From 0xFFFFFFFF bs ^^^ 0xFFFFFFFF

/-- Element `n` changed by `f`. -/
def upd {α : Type} (l : List α) (n : Nat) (f : α → α) : List α := l.modify n f

/-- Counter `n` of a counter list stepped by `k`, saturating (R130, R177, R385, R410, R443, R473). -/
def addAt (l : List Nat) (n k : Nat) : List Nat := upd l n fun c => satAdd c k

/-- Little-endian 32-bit words of a counter list. -/
def words (l : List Nat) : List Byte := l.flatMap (leBytes 4)

/-- Value of an association list by key. -/
def look {α β : Type} [DecidableEq α] (l : List (α × β)) (k : α) : Option β := (l.find? (·.1 = k)).map (·.2)

/-- An association list with the value of a key set. -/
def put {α β : Type} [DecidableEq α] (l : List (α × β)) (k : α) (v : β) : List (α × β) :=
  (k, v) :: l.filter (·.1 ≠ k)

/-- A 32-bit word from a number. -/
def wd (n : Nat) : Word := BitVec.ofNat 32 n
/-- A 32-bit word from a signed number. -/
def wi (i : Int) : Word := BitVec.ofInt 32 i

/-! Descriptor fields read in several places. -/

/-- Field of a loop context descriptor (Table 8.3). -/
abbrev LoopCfg.f (c : LoopCfg) (lo w : Nat) : Nat := fld c.desc lo w
/-- LAW (Table 8.3). -/
def LoopCfg.law (c : LoopCfg) : Nat := c.f 8 8
/-- GATE (Table 8.3). -/
def LoopCfg.gate (c : LoopCfg) : Nat := c.f 16 8
/-- IN_FLAGS bit (Table 8.3). -/
def LoopCfg.flag (c : LoopCfg) (n : Nat) : Bool := bit (c.f 24 8) n
/-- IN_TYPE (Table 8.3). -/
def LoopCfg.inType (c : LoopCfg) : Nat := c.f 32 8
/-- IN_SEL (Table 8.3). -/
def LoopCfg.inSel (c : LoopCfg) : Nat := c.f 40 8
/-- IN_SEL2 (Table 8.3). -/
def LoopCfg.inSel2 (c : LoopCfg) : Nat := c.f 48 16
/-- PERIOD_N (Table 8.3). -/
def LoopCfg.period (c : LoopCfg) : Nat := c.f 80 16
/-- OUT_TYPE (Table 8.3). -/
def LoopCfg.outType (c : LoopCfg) : Nat := c.f 96 8
/-- OUT_DEST (Table 8.3). -/
def LoopCfg.outDest (c : LoopCfg) : Nat := c.f 104 8
/-- OUT_FMT (Table 8.3). -/
def LoopCfg.outFmt (c : LoopCfg) : Nat := c.f 112 16
/-- Bytes that OUT_FMT WIDTH writes (Table 8.3). -/
def LoopCfg.outBytes (c : LoopCfg) : Nat := 2 ^ bits c.outFmt 13 2
/-- BYTE_OFFSET of OUT_FMT (Table 8.3). -/
def LoopCfg.outOff (c : LoopCfg) : Nat := bits c.outFmt 0 6
/-- CMD_PATH (Table 8.3, R292). -/
def LoopCfg.cmdPath (c : LoopCfg) : Bool := c.flag 5

/-- The definition of a loop context, an empty one when undefined. -/
def Cfg.loopOf (c : Cfg) (n : Nat) : LoopCfg := ((c.loops.getD n none).getD {})

/-- The thruster that a context's chain of inputs ends in (R292); 0 = none. Bounded by the context count. -/
def Cfg.thrOf (c : Cfg) : Nat → Nat → Nat
  | 0, _ => 0
  | fuel + 1, n =>
    let l := c.loopOf n
    if (c.loops.getD n none).isNone then 0
    else if l.inType = 4 then l.inSel
    else if l.inType = 3 then c.thrOf fuel l.inSel else 0

/-- Fields of a thruster definition payload (Table 6.5). -/
def thrFld (p : List Byte) (lo w : Nat) : Nat := bits (ule p 0 32) lo w

/-- Sections of a POWER_DEFINE payload: number and its 24 bytes (Table 15.20). -/
def powSections (p : List Byte) : List (List Byte) :=
  (List.range (u8 p 1)).map fun i => (p.drop (4 + 8 * u8 p 0 + 24 * i)).take 24
/-- Generator sets of a POWER_DEFINE payload (Table 15.20). -/
def powGens (p : List Byte) : List (List Byte) :=
  (List.range (u8 p 0)).map fun i => (p.drop (4 + 8 * i)).take 8
/-- Ties of a POWER_DEFINE payload (Table 15.20). -/
def powTies (p : List Byte) : List (List Byte) :=
  (List.range (u8 p 2)).map fun i => (p.drop (4 + 8 * u8 p 0 + 24 * u8 p 1 + 4 * i)).take 4

/-- The definition of section `n` (1 to 6) of a POWER_DEFINE payload. -/
def powSection (p : List Byte) (n : Nat) : Option (List Byte) := (powSections p).find? (u8 · 0 = n)

/-- Data bytes that a DLC implies (ISO 11898-1, R420, R427). -/
def dlcLen (fdf : Bool) (dlc : Nat) : Nat :=
  if dlc ≤ 8 then dlc
  else if fdf then ([12, 16, 20, 24, 32, 48, 64].getD (dlc - 9) 64) else 8

/-- A section of an image (R359). -/
def imgSec (i : Image) (code : Nat) : Option Sec := i.secs.find? (·.code = code)
/-- A field of an image's section. -/
def imgFld (i : Image) (code lo w : Nat) : Nat :=
  match imgSec i code with | some x => bits x.val lo w | none => 0

end Sys2Proof.Machine
end

