-- ==== Sys2Proof/Machine/Flags.lean ====
section
/-! DEFINITION. Status and flag words computed from the state: HIF_STATE, HIF_ID, HIF_UNITS, HIF_STRAPS,
HIF_SAFE_STAT, and the role and presence tests every command uses (R2, R3, R9, R300, R302, R321, R448, R479, R556). -/

namespace Sys2Proof.Machine

/-- HIF_ID[15:8] (R9). -/
def Variant.code : Variant → Nat | .MA => 1 | .MB => 2 | .WK => 3

/-- The unit-presence word (R3). -/
def Variant.units : Variant → Word | .MA => 0x0001FFFF | .MB => 0x0001F7F3 | .WK => 0x0000F500

/-- Stalls, scenarios, stages, CAN channels and LAN MACs of the variant (Table 0.1). -/
def Variant.stalls : Variant → Nat | .MA => 32 | .MB => 16 | .WK => 0
def Variant.scens : Variant → Nat | .MA => 16 | .MB => 8 | .WK => 0
def Variant.stages : Variant → Nat | .MA => 96 | .MB => 64 | .WK => 0
def Variant.cans : Variant → Nat | .MA => 8 | .MB => 4 | .WK => 4
def Variant.lans : Variant → Nat | .MA => 2 | .MB => 2 | .WK => 1
def Variant.solPairs : Variant → Nat | .MA => 4 | .MB => 2 | .WK => 0

namespace State

/-- The device number, from the strap latch (R21). -/
def dev (s : State) : Nat := fld s.rst.straps 0 6
/-- A strap bit (Table 9.9). -/
def strap (s : State) (n : Nat) : Bool := s.rst.straps.getLsbD n

/-- A manager in the sense of R22. -/
def isManager (s : State) : Bool := s.variant ≠ .WK && s.strap 6 && s.dev ≤ 2
/-- A device in a manager slot that takes no role (R23). -/
def noRole (s : State) : Bool := s.dev ≤ 2 && !s.isManager

/-- Any cause latched: the device is in the safe state (R301). -/
def isSafe (s : State) : Bool := s.safe.causes ≠ 0

/-- HIF_STATE[7:0] (Table 14.3, R300, R556). -/
def hifState (s : State) : Nat :=
  match s.rst.life with
  | .reset => 0 | .loading => 1 | .selftest => 2 | .cloakroom => 6
  | .ready => if s.isSafe then 5 else 3
  | .run => if s.isSafe then 5 else 4

end State

/-- Role code of Table 11.5. -/
def Role.code : Role → Nat
  | .none => 0 | .active => 1 | .standby => 2 | .silent => 3 | .worker => 4 | .pending => 5

namespace State

/-- HIF_ID (Table 14.3). -/
def hifId (s : State) : Word := wd (0x06400000 + s.variant.code * 256 + Config.stepping.toNat)
/-- HIF_STATE (Table 14.3). -/
def hifStateWord (s : State) : Word := wd (s.mem.role.code * 256 + s.hifState)
/-- HIF_STRAPS (Table 9.9). -/
def hifStraps (s : State) : Word :=
  wd (s.rst.straps.toNat + (if s.rst.strapChanged then 2 ^ 31 else 0) + (if s.rst.mgrIgnored then 2 ^ 30 else 0))

/-- The DP_ENABLE outputs: those of FUNC DPE0 or DPE1 (R307). -/
def dpeOuts (s : State) : List Nat := (List.range 16).filter fun n => fld (s.cfg.so.getD n 0) 0 3 = 1 || fld (s.cfg.so.getD n 0) 0 3 = 2
/-- Both DP_ENABLE channels energised (Table 9.2 DPE). -/
def dpe (s : State) : Bool := !s.dpeOuts.isEmpty && s.dpeOuts.all fun n => s.safe.outs.getLsbD n

/-- HIF_SAFE_STAT (Table 9.2). -/
def safeStat (s : State) : Word :=
  wd (pack [(16, s.safe.causes.toNat), (1, s.isSafe.toNat), (1, s.dpe.toNat), (1, s.safe.injected.toNat), (1, 0),
    (3, s.safe.groupTrip.toNat), (1, s.safe.resetStuck.toNat), (8, if s.safe.causes = 0 then 0 else s.safe.firstCause)])

/-- The epoch number held, 0 when none (Table 14.3). -/
def epochHeld (s : State) : Word := if s.cyc.holds then s.cyc.epoch else 0
/-- The hardware stamp of device time (R71). -/
def stamp (s : State) : Word := wd s.time.ns

/-- ACTIVE manager. -/
def isActive (s : State) : Bool := s.mem.role = .active
/-- A manager that computes in step: ACTIVE or STANDBY. -/
def isMgrRole (s : State) : Bool := s.mem.role = .active || s.mem.role = .standby
/-- Member of the installation: life state RUN (Table 18.6). -/
def inRun (s : State) : Bool := s.rst.life = .run

/-- SUP runs: events can be recorded (R561). -/
def supRuns (s : State) : Bool := s.rst.life ≠ .reset

/-- The newest image held. -/
def newest (s : State) : Option Image := s.brd.images.head?

/-- TIME FLAGS of Table 3.6. -/
def timeFlags (s : State) : Nat :=
  pack [(1, s.time.refused.toNat), (1, s.time.stepAt.isSome.toNat), (1, s.time.freqLimit.toNat), (1, s.time.ppsMissing.toNat),
    (1, s.time.ref10Lost.toNat), (1, s.time.srcChanged.toNat), (1, (s.time.slewLeft ≠ 0 : Bool).toNat)]

/-- Managers that the newest image shows as ACTIVE or STANDBY (Table 11.5, chapter 10). -/
def countedMgrs (s : State) : List Nat :=
  (List.range 3).filter fun n => let r := (s.brd.devices.getD n {}).role; (r = 1 || r = 2) && !s.mem.uncounted.any (·.1 = n)

/-- Expected device count N (R27) and QUORUM. -/
def expected (s : State) : Nat := s.cfg.table.length
def quorum (s : State) : Nat := s.expected / 2 + 1

end State

/-- The reset state's STATUS codes (Table 14.12). -/
inductive Status where
  | ok | busy | badCmd | badArg | absent | sealed_ | locked | role | state | hcrc | unreachable | timeout | range
  | structure_ | full | stale
  deriving DecidableEq, Repr

/-- Status code of Table 14.12. -/
def Status.code : Status → Nat
  | .ok => 0 | .busy => 1 | .badCmd => 2 | .badArg => 3 | .absent => 4 | .sealed_ => 5 | .locked => 6 | .role => 7
  | .state => 8 | .hcrc => 9 | .unreachable => 10 | .timeout => 11 | .range => 12 | .structure_ => 13 | .full => 14
  | .stale => 15

/-- Status of a code received from another device (Table 14.12). -/
def Status.ofCode (n : Nat) : Status :=
  [.ok, .busy, .badCmd, .badArg, .absent, .sealed_, .locked, .role, .state, .hcrc, .unreachable, .timeout, .range,
    .structure_, .full, .stale].getD n .badArg

end Sys2Proof.Machine
end

