-- ==== Sys2Proof/Machine/Image.lean ====
section
/-! DEFINITION. The Board image: the bits of its sections from the state, what a section says, and an image's bytes
(R359 to R366, R376, R383, R384). -/

namespace Sys2Proof.Machine

/-- A signed value saturated to `w` bits, as bits. -/
def satBits (w : Nat) (i : Int) : Nat := intBits w (max (-(2 ^ (w - 1) : Nat)) (min ((2 ^ (w - 1) : Nat) - 1) i))

/-- The TIME section for the epoch in hand (Table 3.6). -/
def timeSec (s : State) : Nat :=
  pack [(32, s.cyc.epoch.toNat), (32, s.cyc.dpCycle.toNat), (32, s.cyc.dpFirst.toNat), (64, s.cyc.instant), (16, s.time.gen.toNat),
    (8, s.time.state), (8, s.time.source), (8, s.timeFlags), (8, 0), (16, intBits 16 s.time.utc),
    (32, satBits 32 (Int.tdiv s.time.offset 1000)), (32, (s.time.stepAt.getD 0).toNat),
    (32, if s.time.stepAt.isSome then intBits 32 s.time.stepMs else 0), (16, min (s.time.holdoverMs / 1000) 65535),
    (16, intBits 16 (max (-32767) (min 32767 s.time.ppsErr))), (32, intBits 32 s.time.freq)]

/-- A STREAMS record (Table 5.9). -/
def streamRec (s : State) (n : Nat) : Nat :=
  let x := s.fus.streams.getD n {}
  let kind := bits (ule (s.fus.cfg.streams.getD n []) 0 32) 8 8
  pack [(8, x.state), (8, x.mask.toNat), (8, x.penalty.toNat), (8, 0), (8, kind), (8, x.confidence), (16, min x.ageMs 65535)]

/-- Streams HELD (CONFLICT_MASK, Table 5.8). -/
def conflictMask (s : State) : Nat :=
  (List.range 48).foldl (fun a n => if (s.fus.streams.getD n {}).held then a + 2 ^ n else a) 0

/-- LATE_WINDOW in force (Table 15.6, R171). -/
def lateWindow (s : State) : Nat := fld s.fus.cfg.observer 40 8

/-- The STREAMS section (Tables 5.8, 5.9). -/
def streamsSec (s : State) : Nat :=
  pack ([(32, s.fus.lateUsed), (32, s.fus.lateDrop), (16, s.fus.cfgGen.toNat), (8, s.fus.preferred.getD 0xFF), (8, lateWindow s),
    (48, conflictMask s), (16, 0)] ++ (List.range 48).map fun n => (64, streamRec s n))

/-- The STATE section (Table 5.10). -/
def stateSec (s : State) : Nat :=
  let q := fun n => intBits 32 (s.fus.est.getD n 0)
  pack ([(32, s.fus.estEpoch.toNat)] ++ (List.range 18).map (fun n => (32, q n)) ++
    [(16, intBits 16 (s.fus.est.getD 18 0)), (16, min (s.fus.drPosEpochs * s.cyc.e / 1000) 65535), (8, s.fus.refUsed), (8, s.fus.hdgUsed),
     (1, s.fus.posValid.toNat), (1, s.fus.hdgValid.toNat), (1, s.fus.drPos.toNat), (1, s.fus.drHdg.toNat), (1, s.fus.conflict.toNat),
     (1, s.fus.lateApplied.toNat), (1, s.fus.noMotion.toNat), (1, fld s.fus.cfg.observer 32 1), (8, 0), (16, s.dp.originGen.toNat), (16, 0)])

/-- The SETPOINT section (Table 6.3). -/
def setpointSec (s : State) : Nat :=
  let v := fun (l : List Int) n => intBits 32 (l.getD n 0)
  pack [(32, s.cyc.dpCycle.toNat), (32, v s.dp.target 0), (32, v s.dp.target 1), (32, v s.dp.target 2), (32, v s.dp.ramp 0), (32, v s.dp.ramp 1),
    (32, v s.dp.ramp 2), (16, s.dp.rampSpeed), (16, s.dp.rampRate), (8, s.dp.mode), (8, s.dp.flags.toNat), (16, s.dp.originGen.toNat),
    (16, s.dp.radius), (16, s.dp.hdgWindow), (32, if s.fus.originFixed then s.dp.originLat.toNat else 0x80000000), (32, if s.fus.originFixed then s.dp.originLon.toNat else 0x80000000), (8, s.dp.trackLeg),
    (8, s.dp.pendingMode.getD 0xFF), (16, 0), (32, v s.dp.joy 0), (32, v s.dp.joy 1), (32, v s.dp.joy 2)]

/-- A THRUSTERS record (Table 11.6). -/
def thrRec (r : ThrRec) : Nat :=
  pack [(8, r.number), (8, r.kind), (8, r.dev), (8, r.section_), (8, r.avail), (8, r.reason), (8, r.flags.toNat), (8, r.cmp),
    (32, r.fbThrust.toNat), (32, r.fbAngle.toNat), (32, r.fbKw.toNat), (32, r.cmdThrust.toNat), (32, r.cmdAngle.toNat), (32, r.cmdEpoch.toNat)]

/-- The THRUSTERS section (R383). -/
def thrustersSec (s : State) : Nat := pack (s.brd.thr.map fun r => (256, thrRec r))

/-- A POWER record (Table 6.9). -/
def powRec (r : PowRec) : Nat :=
  pack [(8, r.number), (8, r.group), (16, r.genOn.toNat), (32, r.online), (32, r.reserve), (32, r.hotel), (32, r.thr), (32, r.avail),
    (32, r.plan), (8, r.flags.toNat), (16, r.factor), (8, 0)]

/-- The POWER section (Table 6.9). -/
def powerSec (s : State) : Nat := pack (s.brd.pow.map fun r => (256, powRec r))

/-- A DEVICES record (Table 11.5). -/
def devRec (n : Nat) (d : DevRec) : Nat :=
  pack [(8, n), (8, d.role), (8, d.variant), (2, 0), (1, d.netB.toNat), (1, d.netA.toNat), (4, d.timeState), (8, d.hifState), (8, d.missed),
    (16, d.causes.toNat), (32, d.joinEpoch.toNat), (16, min d.drops 65535), (16, min d.lates 65535)]

/-- The DEVICES section (Tables 11.4, 11.5). -/
def devicesSec (s : State) : Nat :=
  let members := (s.brd.devices.filter fun d => 1 ≤ d.role && d.role ≤ 4).length
  let pend := (s.brd.devices.filter fun d => d.role = 5).length + s.mem.pendingJoin.countP fun x => (s.brd.devices.getD x.1 {}).role = 3
  pack ([(32, s.brd.changeEpoch.toNat), (16, s.brd.memberGen.toNat), (8, pend), (8, members), (8, s.expected), (8, s.quorum), (8, s.brd.active),
    (8, s.brd.swapTarget), (32, if s.brd.swapOn then s.brd.swapAt.toNat else 0)] ++
    s.brd.devices.zipIdx.map fun d => (128, devRec d.2 d.1))

/-- A merged alarm entry (Table 10.3). -/
def alarmRec (a : Alarm) : Nat :=
  pack [(16, a.code.toNat), (8, a.subject), (8, 0), (8, (List.range 64).countP (a.reporters.getLsbD ·)), (8, a.sev), (16, 0), (32, a.detail.toNat),
    (32, a.first.toNat), (32, a.last.toNat), (64, a.reporters.toNat), (32, a.supp)]

/-- An entry placed by SEVERITY descending, then FIRST_EPOCH ascending (R384). -/
def placeAlarm (a : Alarm) : List Alarm → List Alarm
  | [] => [a]
  | b :: l => if b.sev < a.sev || (b.sev = a.sev && decide (epochDiff a.first b.first < 0)) then a :: b :: l else b :: placeAlarm a l

/-- The entries in the order of R384. -/
def sortAlarms (l : List Alarm) : List Alarm := l.foldl (fun acc a => placeAlarm a acc) []

/-- The ALARMS section and its size (Table 11.7, R384): at most 64 entries, the rest counted in OVERFLOW. -/
def alarmsSec (s : State) : Sec :=
  let l := sortAlarms s.brd.alarms
  let shown := l.take 64
  { code := 8, bytes := 8 + 32 * shown.length,
    val := pack ([(16, s.brd.alarmGen.toNat), (8, 0), (8, min (l.countP (·.sev = 3)) 255), (8, min (l.countP (·.sev = 4)) 255),
      (8, shown.length), (8, (l.map (·.sev)).foldl max 0), (8, min (l.length - shown.length) 255)] ++ shown.map fun a => (256, alarmRec a)) }

/-- A contribution record's bytes (Table 11.3, R362). -/
def contribBytes (c : Contrib) : List Byte :=
  leBytes 8 (pack [(1, c.late.toNat), (7, c.len), (8, c.subject), (8, c.src), (8, c.kind), (32, c.epoch.toNat)]) ++ leBytes (8 * c.len) c.body

/-! ## What a section says -/

/-- Record of a device in an image's DEVICES section (Table 11.5). -/
def imgDev (i : Image) (d : Nat) : DevRec :=
  let v := imgFld i 7 (128 + 128 * d) 128
  { role := bits v 8 8, variant := bits v 16 8, netB := bit v 26, netA := bit v 27, timeState := bits v 28 4, hifState := bits v 32 8,
    missed := bits v 40 8, causes := BitVec.ofNat 16 (bits v 48 16), joinEpoch := wd (bits v 64 32), drops := bits v 96 16,
    lates := bits v 112 16 }

/-- A device is a member in an image (Table 11.5: ACTIVE, STANDBY, SILENT or WORKER). -/
def imgMember (i : Image) (d : Nat) : Bool := d < 64 && let r := (imgDev i d).role; 1 ≤ r && r ≤ 4

/-- A THRUSTERS record of an image, its counters of this device kept (Table 11.6). -/
def imgThr (i : Image) (n : Nat) (old : ThrRec) : ThrRec :=
  let v := imgFld i 5 (256 * n) 256
  { old with
    number := bits v 0 8, kind := bits v 8 8, dev := bits v 16 8, section_ := bits v 24 8, avail := bits v 32 8, reason := bits v 40 8,
    flags := BitVec.ofNat 8 (bits v 48 8), cmp := bits v 56 8, fbThrust := wd (bits v 64 32), fbAngle := wd (bits v 96 32),
    fbKw := wd (bits v 128 32), cmdThrust := wd (bits v 160 32), cmdAngle := wd (bits v 192 32), cmdEpoch := wd (bits v 224 32),
    offered := old.offered && bits v 32 8 = 1 }

/-- A POWER record of an image (Table 6.9). -/
def imgPow (i : Image) (n : Nat) (old : PowRec) : PowRec :=
  let v := imgFld i 6 (256 * n) 256
  { old with
    number := bits v 0 8, group := bits v 8 8, genOn := BitVec.ofNat 16 (bits v 16 16), online := bits v 32 32, reserve := bits v 64 32,
    hotel := bits v 96 32, thr := bits v 128 32, avail := bits v 160 32, plan := bits v 192 32, flags := BitVec.ofNat 8 (bits v 224 8),
    factor := bits v 232 16 }

/-- The entries of an image's ALARMS section (Table 10.3), each keeping what `old` holds of its reporters' standing. -/
def imgAlarms (i : Image) (old : List Alarm) : List Alarm :=
  (List.range (imgFld i 8 40 8)).map fun n =>
    let v := imgFld i 8 (64 + 256 * n) 256
    let code := BitVec.ofNat 16 (bits v 0 16)
    let subj := bits v 16 8
    let o := (old.find? fun a => a.code = code && a.subject = subj).getD { code := code, subject := subj }
    { o with
      quiet := min 3 (epochDiff i.epoch (wd (bits v 128 32))).toNat
      sev := bits v 40 8, detail := wd (bits v 64 32), first := wd (bits v 96 32), last := wd (bits v 128 32),
      reporters := BitVec.ofNat 64 (bits v 160 64), supp := bits v 224 32 }

/-! ## An image's bytes (R359) -/

/-- Bytes padded with zeros to a multiple of eight. -/
def pad8 (bs : List Byte) : List Byte := bs ++ List.replicate ((8 - bs.length % 8) % 8) 0

/-- Sections laid out from an offset in code order: the offset table and the bytes. -/
def layout (i : Image) : Nat → Nat → Nat → List Nat × List Byte
  | 0, _, _ => ([], [])
  | n + 1, code, off =>
    match imgSec i code with
    | none => let r := layout i n (code + 1) off; (0 :: r.1, r.2)
    | some x =>
      let bs := pad8 (leBytes x.bytes x.val)
      let r := layout i n (code + 1) (off + bs.length)
      (off :: r.1, bs ++ r.2)

/-- An image's bytes: header, offset table, sections (R359, R360, Table 11.2). -/
def imageBytes (i : Image) : List Byte :=
  let l := layout i 11 0 56
  let commitLen := match imgSec i 10 with | some x => x.bytes | none => 0
  leBytes 32 (pack [(32, i.epoch.toNat), (32, 0), (32, i.dpCycle.toNat), (32, i.closeNs.toNat), (8, i.flags.toNat), (8, i.publisher), (16, 1),
    (16, i.presence.toNat), (16, i.ontime), (16, i.lateRecs), (16, commitLen), (16, 56 + l.2.length), (16, 0)]) ++
  leBytes 24 (pack (l.1.map fun o => (16, o))) ++ l.2

/-- A section's bytes. -/
def secBytes (x : Sec) : List Byte := leBytes x.bytes x.val

end Sys2Proof.Machine
end

