-- ==== Sys2Proof/Machine/Ops.lean ====
section
/-! DEFINITION. The named operations that meanings share: interrupts, BAR0 memory, the event recorder, alarms and
reports, Station Link sending, the safe state, roles, stored configuration. -/

namespace Sys2Proof.Machine

/-! ## BAR0 memory: slots and MSI-X table (R447, R449) -/

/-- What a byte nothing has written reads as (row 8). -/
def ramDefault : Byte := 0

/-- The canonical form: addresses strictly rising, no entry equal to what an unlisted address reads as. -/
def Memory.wf : List Host.Cell → Bool
  | [] => true
  | [(_, b)] => b ≠ ramDefault
  | (a, b) :: (a', b') :: m => b ≠ ramDefault && (a < a' : Bool) && Memory.wf ((a', b') :: m)

/-- Read one byte. -/
def Memory.read (m : List Host.Cell) (a : Nat) : Byte :=
  match m with
  | [] => ramDefault
  | (k, b) :: m => if k = a then b else Memory.read m a

/-- Write one byte, keeping the canonical form. -/
def Memory.write (m : List Host.Cell) (a : Nat) (v : Byte) : List Host.Cell :=
  match m with
  | [] => if v = ramDefault then [] else [(a, v)]
  | (k, b) :: m =>
    if a < k then (if v = ramDefault then (k, b) :: m else (a, v) :: (k, b) :: m)
    else if a = k then (if v = ramDefault then m else (a, v) :: m)
    else (k, b) :: Memory.write m a v

/-- Write bytes at rising addresses. -/
def Memory.writeAll (m : List Host.Cell) (a : Nat) : List Byte → List Host.Cell
  | [] => m
  | b :: bs => Memory.writeAll (Memory.write m a b) (a + 1) bs

/-- Read `n` bytes. -/
def Memory.readAll (m : List Host.Cell) (a n : Nat) : List Byte := (List.range n).map fun i => Memory.read m (a + i)

/-- BAR0 address of mailbox slot `n` (R447). -/
def slotAddr (n : Nat) : Nat := 0x2000 + 256 * n

/-- Write bytes of a slot (R449). -/
def writeSlot (n : Nat) (off : Nat) (bs : List Byte) (s : State) : State :=
  { s with hif := { s.hif with ram := Memory.writeAll s.hif.ram (slotAddr n + off) bs } }

/-! ## Outputs, interrupts, free values -/

/-- Something leaves the device. -/
def emit (o : Out) (s : State) : State := { s with outs := s.outs ++ [o] }

/-- The next free 32-bit value (row 1). -/
def nextFree (s : State) : Word := Config.freeWord s.free
/-- The free counter stepped. -/
def stepFree (s : State) : State := { s with free := s.free + 1 }

/-- MSI-X vector of an interrupt bit (Table 14.5). -/
def irqVector (b : Nat) : Nat := [0, 1, 2, 3, 3, 4, 5, 6].getD b 7

/-- An interrupt bit's event: the bit is set, and its message sent when it changes to 1 while enabled (R457). -/
def raiseIrq (b : Nat) (s : State) : State :=
  let s' := { s with hif := { s.hif with irqStat := s.hif.irqStat ||| wd (2 ^ b) } }
  if !s.hif.irqStat.getLsbD b && s.hif.irqEn.getLsbD b then emit (.msix (irqVector b)) s' else s'

/-- Sets IRQ STATE when HIF_STATE changed against `s0`, and SAFE when SAFE or CAUSES did (R457). -/
def irqChange (s0 s : State) : State :=
  let s1 := if s.hifStateWord ≠ s0.hifStateWord then raiseIrq 3 s else s
  if s.safe.causes ≠ s0.safe.causes then raiseIrq 4 s1 else s1

/-! ## Records, quotas, notifications (chapter 17, R458) -/

/-- Burst and refill of a code (R525). -/
def quotaOf (s : State) (code : BitVec 16) : Nat × Nat := (look s.cfg.quotas code).getD (8, 1000)

/-- The bucket of a code; full when it has not been used (R525). -/
def bucketOf (s : State) (code : BitVec 16) : Bucket :=
  (s.rcd.buckets.find? (·.code = code)).getD { code := code, tokens := (quotaOf s code).1 }

/-- A bucket stored. -/
def setBucket (b : Bucket) (s : State) : State :=
  { s with rcd := { s.rcd with buckets := b :: s.rcd.buckets.filter (·.code ≠ b.code) } }

/-- The 30 bytes of a record before its CRC (Table 17.1), with its ring number. -/
def recBytes30 (num : Word) (r : EvRec) : List Byte :=
  leBytes 30 (pack [(16, r.code.toNat), (3, r.sev), (5, r.supp), (8, r.src), (32, r.epoch.toNat), (32, r.ns.toNat),
    (32, r.p1.toNat), (32, r.p2.toNat), (32, r.p3.toNat), (32, r.p4.toNat), (16, num.toNat % 65536)])

/-- The CRC of a record stored under a number (R521). -/
def recCrc (num : Word) (r : EvRec) : Nat := crc16 (recBytes30 num r ++ leBytes 4 num.toNat)

/-- The 32 bytes of a stored record (R521). -/
def recBytes (num : Word) (r : EvRec) : List Byte := recBytes30 num r ++ leBytes 2 (recCrc num r)

/-- A record of the ring as it is read: a damaged one fails its CRC (R518, R528). -/
def ringBytes (s : State) (num : Word) (r : EvRec) : List Byte :=
  if s.mram.ringBad.contains num then recBytes30 num r ++ leBytes 2 (recCrc num r ^^^ 0xFFFF) else recBytes num r

/-- A slot header (Table 14.7) with its HCRC. -/
def header (code tag target flags len status seq : Nat) : List Byte :=
  let h := leBytes 14 (pack [(16, code), (16, tag), (8, target), (8, flags), (16, len), (16, status), (16, seq)])
  h ++ leBytes 2 (crc16 h)

/-- Content of slot 31 for a notification, and of its datagrams (R458, R465). -/
def noteBytes (no : Nat) (num : Word) (r : EvRec) (lost : Nat) : List Byte :=
  header r.code.toNat 0 r.src 0 36 0 no ++ recBytes num r ++ leBytes 4 lost

/-- TYPE 4 notification destinations: address and port (R465). -/
def noteDests (s : State) : List (Word × BitVec 16) :=
  (s.cfg.hostEntries.filter fun e => fld e 4 4 = 4).map fun e => (wd (fld e 32 32), BitVec.ofNat 16 (fld e 16 16))

/-- A record notified: numbered and queued; a full queue discards it, and its number with it (R458). -/
def notify (num : Word) (r : EvRec) (s : State) : State :=
  if (r.sev < s.cfg.notifySev : Bool) then s
  else
    let no := s.hif.noteNo + 1
    if s.hif.notes.length < 64 then
      { s with hif := { s.hif with noteNo := no, notes := s.hif.notes ++ [(no, r, num.toNat)] } }
    else { s with hif := { s.hif with noteNo := no, counts := addAt s.hif.counts 11 1 } }

/-- A record written into the ring, then the head; the oldest is overwritten (R522). -/
def ringAppend (r : EvRec) (s : State) : State :=
  { s with mram := { s.mram with
      ring := ((s.mram.head, r) :: s.mram.ring).take 262144, head := s.mram.head + 1, ringBad := s.mram.ringBad.filter (· ≠ s.mram.head) } }

/-- A trace unit triggers: the words before the trigger sample are kept, that sample and those after it are to come (R296). -/
def triggerTrace (t : Trace) : Trace :=
  let pre := min (fld t.word 68 12) t.buf.length
  { t with state := 2, preValid := pre, buf := t.buf.take pre, left := 4096 - fld t.word 68 12, await := true }

/-- The armed trace units with TRIG 4 on a code (R296). -/
def codeUnits (code : BitVec 16) (s : State) : List Nat :=
  (List.range 8).filter fun u =>
    let t := s.loop.trace.getD u {}
    t.state = 1 && fld t.word 48 8 = 4 && fld t.word 80 16 = code.toNat

/-! ## Station Link sending (R395, R398, R402, R403) -/

/-- Port index of a network and port number: A0 0, A1 1, B0 2, B1 3. -/
def portIx (net p : Bool) : Nat := 2 * net.toNat + p.toNat

/-- A port is usable for routing: UP (R393, R402, R407). -/
def portUp (s : State) (ix : Nat) : Bool := (s.link.ports.getD ix {}).state = 3

/-- Port state and neighbour that a device's latest MEMBER frame reports for a port; of the device itself what the port shows (R402). -/
def heardPort (s : State) (d ix : Nat) : Nat × Nat :=
  if d = s.dev then ((s.link.ports.getD ix {}).state, (s.link.ports.getD ix {}).nb)
  else match s.mem.heard.getD d none with
    | some m => (m.portStates.getD ix 1, m.neighbours.getD ix 0xFF)
    | none => (1, 0xFF)

/-- Hops to a device going out through one of the device's own ports over usable hops; none without a route (R402, R403). -/
def walk (s : State) (net : Bool) (dst : Nat) : Nat → Nat → Bool → Nat → Option Nat
  | 0, _, _, _ => none
  | fuel + 1, cur, p, n =>
    let out := heardPort s cur (portIx net p)
    if out.1 ≠ 3 || out.2 ≥ 64 then none
    else if (heardPort s out.2 (portIx net !p)).1 ≠ 3 then none
    else if out.2 = dst then some (n + 1)
    else if out.2 = s.dev then none
    else walk s net dst fuel out.2 p (n + 1)

/-- Hops through port `p` of network `net` (R403). -/
def hops (s : State) (net p : Bool) (dst : Nat) : Option Nat := walk s net dst 64 s.dev p 0

/-- Devices reachable on a network (R402). -/
def reaches (s : State) (net : Bool) (dst : Nat) : Bool :=
  dst = s.dev || (hops s net false dst).isSome || (hops s net true dst).isSome

/-- The port of a unicast frame on a network: fewer hops, port 1 on equal counts (R403). -/
def route (s : State) (net : Bool) (dst : Nat) : Option Bool :=
  match hops s net false dst, hops s net true dst with
  | none, none => none
  | some _, none => some false
  | none, some _ => some true
  | some a, some b => some (a ≥ b)

/-- A frame into a queue: by PRIO, forwarded frames before own ones, else in order of arrival (R395). -/
def insertFrame (own : Nat) (x : Queued) : List Queued → List Queued
  | [] => [x]
  | y :: q =>
    let a := y.f.hdr
    let b := x.f.hdr
    if a.prio < b.prio || (a.prio = b.prio && b.src ≠ own && a.src = own) then x :: y :: q else y :: insertFrame own x q

/-- The newest frame of the lowest PRIO present removed from a full queue (R395): the queue ends in the lowest PRIO. -/
def dropLowest (q : List Queued) : List Queued :=
  let low := q.filter fun x => x.f.hdr.prio = ((q.getLast?.map (·.f.hdr.prio)).getD 0)
  let last := low.foldl (fun n x => max n x.at_) 0
  q.eraseP fun x => x.at_ = last

/-- A frame queued at a port (R395). -/
def enqueue (ix : Nat) (f : Frame) (s : State) : State :=
  let put := fun (p : Port) =>
    let n := p.arrived + 1
    let q := insertFrame s.dev { f := f, at_ := n } p.queue
    if q.length > 64 then { p with queue := dropLowest q, arrived := n, counts := addAt p.counts 13 1 }
    else { p with queue := q, arrived := n }
  { s with link := { s.link with ports := upd s.link.ports ix put } }

/-- Bytes 0 to 13 of a frame header (Tables 12.2 and 12.3). -/
def headBytes (h : Hdr) : List Byte :=
  leBytes 14 (pack [(8, h.type), (4, h.ver), (1, h.first.toNat), (1, h.last.toNat), (2, 0), (8, h.src), (8, h.dst), (8, h.flow), (8, h.hops),
    (16, h.epoch16.toNat), (16, h.seq.toNat), (16, h.len), (1, h.late.toNat), (1, h.shifted.toNat), (1, h.replay.toNat), (2, h.prio),
    (1, h.net.toNat), (10, 0)])
/-- HCRC: over bytes 0 to 4 and 6 to 13, so that HOPS may change (R396, R397). -/
def hcrc (h : Hdr) : Nat := crc16 ((headBytes h).take 5 ++ (headBytes h).drop 6)
/-- A frame on the cable between SOF and EOF: HSEQ, header, payload and the CRC-32 over them (R390, R394). -/
def cableBytes (hseq : BitVec 8) (f : Frame) : List Byte :=
  let b := leBytes 1 hseq.toNat ++ headBytes f.hdr ++ leBytes 2 (hcrc f.hdr) ++ f.payload
  b ++ leBytes 4 (crc32 b)

/-- The sends of a port: held frames up to 16, each with the next HSEQ; QUARANTINED, FAULT, DOWN … ports start none
(R392, R407, R408). -/
def pumpPort : Nat → Port → Port
  | 0, p => p
  | n + 1, p =>
    match p.queue with
    | [] => p
    | x :: q =>
      if p.state = 3 && p.held.length < 16 then
        pumpPort n { p with
          queue := q, held := p.held ++ [{ hseq := p.hseq, f := x.f, bytes := cableBytes p.hseq x.f }], hseq := p.hseq + 1
          counts := addAt p.counts 1 1 }
      else p

/-- Every port sends what it can (R392). -/
def pump (s : State) : State := { s with link := { s.link with ports := s.link.ports.map (pumpPort 16) } }

/-- Provision of system flows (Table 12.4): flow, PRIO, both networks. -/
def sysFlow (type : Nat) : Nat × Nat × Bool :=
  [(0, 3, true), (1, 3, true), (2, 3, true), (3, 2, true), (4, 2, true), (5, 1, true), (6, 0, false), (7, 0, false),
    (8, 2, true)].getD (type - 1) (16, 1, true)

/-- The SEQ that the next frame of a flow carries (R398). -/
def seqOf (s : State) (flow : Nat) : BitVec 16 := (look s.link.txSeq flow).getD 0

/-- Some manager of the ring map is unreachable on network A, or none is reachable (R403). -/
def mgrsHeard (s : State) : List Nat :=
  (List.range 3).filter fun n => n ≠ s.dev && (s.mem.heard.getD n none).isSome

/-- One copy of a frame on one network (R403). -/
def sendNet (f : Frame) (net : Bool) (s : State) : State :=
  let g := { f with hdr := { f.hdr with net := net } }
  if f.hdr.dst ≥ 0xFE then
    let t := if portUp s (portIx net false) then enqueue (portIx net false) g s else s
    if portUp s (portIx net true) then enqueue (portIx net true) g t else t
  else
    match route s net f.hdr.dst with
    | some p => enqueue (portIx net p) g s
    | none => { s with link := { s.link with counts := addAt s.link.counts 2 1 } }

/-- The networks a frame takes: both, or A with B as the rule of R403 says. -/
def netsOf (s : State) (both : Bool) (dst : Nat) : List Bool :=
  if both then [false, true]
  else if dst = 0xFE then
    let ms := mgrsHeard s
    if ms.all (reaches s false) then [false]
    else if ms.any (reaches s false) then [false, true] else [true]
  else if reaches s false dst then [false] else [true]

/-- A frame of a type sent by this device: header, SEQ per flow, networks and routing (R396 to R403). -/
def sendFrame (type flow prio : Nat) (both : Bool) (dst : Nat) (epoch16 : BitVec 16) (payload : List Byte)
    (flags : Hdr → Hdr) (s : State) : State :=
  let q := seqOf s flow
  let h : Hdr := flags { type := type, src := s.dev, dst := dst, flow := flow, epoch16 := epoch16, seq := q,
                         len := payload.length, prio := prio }
  let s1 := { s with link := { s.link with txSeq := put s.link.txSeq flow (q + 1) } }
  pump ((netsOf s both dst).foldl (fun t n => sendNet { hdr := h, payload := payload } n t) s1)

/-- A frame of a system type (Table 12.4). -/
def sendSys (type dst : Nat) (epoch : Word) (payload : List Byte) (s : State) : State :=
  let f := sysFlow type
  sendFrame type f.1 f.2.1 f.2.2 dst (epoch.setWidth 16) payload id s

/-- The bytes of a MEMBER payload (Table 12.5). -/
def memberBytes (m : Member) : List Byte :=
  leBytes 32 (pack ([(8, m.device), (8, m.addressee), (16, 0), (8, m.subtype), (8, m.status), (8, m.role), (24, 0),
    (32, m.epoch.toNat)] ++ m.portStates.map (fun p => (4, p)) ++ m.neighbours.map (fun n => (8, n)) ++
    [(8, m.hifState), (8, m.variant), (16, m.boot.toNat), (32, m.fwver.toNat), (32, m.units.toNat)]))

/-- This device's MEMBER payload (Table 12.5). -/
def ownMember (s : State) (subtype : Nat) : Member :=
  { device := s.dev, subtype := subtype, role := s.mem.role.code, epoch := s.epochHeld,
    portStates := s.link.ports.map (·.state), neighbours := s.link.ports.map (·.nb), hifState := s.hifState,
    variant := s.variant.code, boot := s.mram.boot, fwver := s.fw.version, units := s.variant.units }

/-- A MEMBER frame of a subtype on both networks (R400). -/
def sendMember (subtype : Nat) (s : State) : State :=
  sendSys 1 0xFF s.epochHeld (memberBytes (ownMember s subtype)) s

/-! ## The recorder's own path (R524 to R526, R561) -/

/-- An accepted record: stored, notified, and from a worker sent to the managers (R524). -/
def storeRec (r : EvRec) (own : Bool) (s : State) : State :=
  let num := s.mram.head
  let s1 := notify num r (ringAppend r s)
  if own && s.mem.role = .worker then sendSys 7 0xFE s.epochHeld (leBytes 4 num.toNat ++ recBytes num r) s1 else s1

/-- The record 0x0A11 with a code's exact pending count (R526). -/
def suppRec (s : State) (b : Bucket) : EvRec :=
  { code := 0x0A11, sev := b.sev, src := s.dev, epoch := s.epochHeld, ns := s.stamp, p1 := wd b.code.toNat,
    p2 := wd b.pending, p3 := b.first, p4 := b.last }

/-- One occurrence, with `k` suppressed before it, offered to the recorder (R526). -/
def offer (r : EvRec) (k : Nat) (own : Bool) (s : State) : State :=
  let b := { bucketOf s r.code with sev := r.sev }
  let b1 := if k = 0 then b else { b with pending := b.pending + k, first := if b.pending = 0 then r.epoch else b.first,
                                          last := r.epoch }
  if b1.tokens > 0 then
    let s1 := if b1.pending > 31 then storeRec (suppRec s b1) own s else s
    storeRec { r with supp := min b1.pending 31 } own (setBucket { b1 with tokens := b1.tokens - 1, pending := 0 } s1)
  else
    setBucket { b1 with pending := b1.pending + 1, first := if b1.pending = 0 then r.epoch else b1.first,
                        last := r.epoch } s

/-- The epoch of an event: 0 while none is held and in Cloakroom mode (Table 17.1, R559). -/
def eventEpoch (s : State) : Word := if s.rst.life = .cloakroom then 0 else s.epochHeld

/-- The record of an event of this device (Table 17.1). -/
def mkEvent (code sev : Nat) (ps : List Nat) (s : State) : EvRec :=
  { code := BitVec.ofNat 16 code, sev := sev, src := s.dev, epoch := eventEpoch s, ns := s.stamp,
    p1 := wd (ps.getD 0 0), p2 := wd (ps.getD 1 0), p3 := wd (ps.getD 2 0), p4 := wd (ps.getD 3 0) }

/-- The trace units that an event's code triggers, each with its event 0x0515, whose own code may trigger more (R296, R299).
Bounded by the number of units. -/
def fireTraces : Nat → Nat → State → State
  | 0, _, s => s
  | n + 1, code, s =>
    let us := codeUnits (BitVec.ofNat 16 code) s
    if us.isEmpty then s
    else
      let s1 := { s with loop := { s.loop with trace := us.foldl (fun ts u => upd ts u triggerTrace) s.loop.trace } }
      let note := fun (t : State) (u : Nat) =>
        let w := (t.loop.trace.getD u {}).word
        offer (mkEvent 0x0515 1 [u, fld w 32 8, fld w 40 8, fld w 48 8] t) 0 true t
      fireTraces n 0x0515 (us.foldl note s1)

/-- An event of this device: offered to its recorder, or held in the AON domain until SUP runs (R524, R561). -/
def event (code sev : Nat) (ps : List Nat) (s : State) : State :=
  if s.supRuns then fireTraces 9 code (offer (mkEvent code sev ps s) 0 true s)
  else { s with rst := { s.rst with held := s.rst.held ++ [(code, sev, ps)] } }

/-- The held events recorded at the first opportunity, with the stamp of that moment (R561). -/
def flushHeld (s : State) : State :=
  s.rst.held.foldl (fun t e => event e.1 e.2.1 e.2.2 t) { s with rst := { s.rst with held := [] } }

/-- The networks without a route to a unicast destination (R403). -/
def unrouted (s : State) (dst : Nat) (nets : List Bool) : List Bool :=
  nets.filter fun n => decide (dst < 0xFE) && (route s n dst).isNone

/-- Event 0x0B18 for each network without a route (R403, R412). -/
def noRoute (type dst : Nat) (nets : List Bool) (s : State) : State :=
  nets.foldl (fun t n => event 0x0B18 2 [n.toNat, dst, type] t) s

/-- A frame sent as `sendFrame` does, with event 0x0B18 for each network without a route (R403, Table 12.13). -/
def sendTo (type flow prio : Nat) (both : Bool) (dst : Nat) (epoch16 : BitVec 16) (payload : List Byte)
    (flags : Hdr → Hdr) (s : State) : State :=
  noRoute type dst (unrouted s dst (netsOf s both dst)) (sendFrame type flow prio both dst epoch16 payload flags s)

/-- The low 1008-byte pieces of a long message, bounded by the piece count (R397). -/
def pieces : Nat → List Byte → List (List Byte)
  | 0, _ => []
  | n + 1, bs => if bs.length ≤ 1008 then [bs] else bs.take 1008 :: pieces n (bs.drop 1008)

/-- A message of any length as consecutive frames with FIRST and LAST (R397). -/
def sendLong (type dst : Nat) (epoch : Word) (bs : List Byte) (replay : Bool) (s : State) : State :=
  let ps := pieces (bs.length / 1008 + 1) bs
  let f := sysFlow type
  (ps.zipIdx).foldl (fun t p => sendTo type f.1 f.2.1 f.2.2 dst (epoch.setWidth 16) p.1
    (fun h => { h with first := p.2 = 0, last := p.2 + 1 = ps.length, replay := replay }) t) s

/-- A message sent again under the SEQ values it had, with REPLAY (R398, R467). -/
def resendLong (type dst : Nat) (epoch : Word) (q : BitVec 16) (bs : List Byte) (s : State) : State :=
  let fl := (sysFlow type).1
  let t := sendLong type dst epoch bs true { s with link := { s.link with txSeq := put s.link.txSeq fl q } }
  { t with link := { t.link with txSeq := put t.link.txSeq fl (seqOf s fl) } }

/-- A membership answer without a handshake (R400). -/
def answerOnly (dev status : Nat) (s : State) : State :=
  sendSys 1 0xFF s.epochHeld (memberBytes { ownMember s 3 with addressee := dev, status := status }) s

/-- Scenarios in force as a CONSEQ_CONFIG payload (Table 15.19). -/
def conseqPayload (c : Cfg) : List Byte :=
  leBytes 4 (pack [(8, c.nScen), (8, 0), (8, c.nScen), (8, 0)]) ++
    (c.scens.take c.nScen).flatMap fun x => (x ++ List.replicate 16 0).take 16

/-- A weight set in force, with horizon and joystick timeout, as a DP_WEIGHTS payload (Table 15.21). -/
def weightsPayload (c : Cfg) (n : Nat) : List Byte :=
  let w := c.weights.getD n {}
  leBytes 8 (pack [(8, 2 + n), (8, 3), (8, c.horizon), (8, 0), (16, c.stageMs), (8, c.trust), (8, 0)]) ++
    words [w.pos, w.hdg, w.vel, w.yaw, w.thrust, w.power, w.smooth, w.force, w.term] ++ leBytes 4 c.joyTimeout

/-- Fallback data in force as FALLBACK_LOAD payloads: the gains, then each matrix (Table 15.19). -/
def fallbackPayloads (c : Cfg) : List (List Byte) :=
  let word := fun (i : Int) => leBytes 4 (intBits 32 i)
  (leBytes 8 1 ++ c.fbGains.flatMap word) ::
    c.fbMatrices.map fun m => leBytes 4 2 ++ leBytes 4 m.1.toNat ++ List.replicate 36 0 ++ m.2.flatMap word

/-- What the ACTIVE manager hands to a device in the JOIN handshake (R45, R48, R91, R94, R185, R329, R378, R401, R490, R592). -/
def ownHandshake (s : State) : Handshake :=
  { epochLen := s.cyc.e, cycleLen := s.cyc.k, closeOff := s.cyc.c, timeNs := s.time.ns, holds := s.cyc.holds, epoch := s.cyc.epoch, ticks := s.cyc.ticks
    dpCycle := s.cyc.dpCycle, jumpUs := s.cfg.jumpUs, active := s.dev, timeGen := s.time.gen, track := s.dp.track, trackLeg := s.dp.trackLeg
    goodCycles := s.dp.goodCycles, joyMs := s.dp.joyTimer, reserve := s.brd.pow.map fun r => (r.overRun, r.okRun, r.alarm)
    thrusters := s.cfg.thrusters, power := s.cfg.power, flows := s.cfg.flows.map fun f => leBytes 16 f.2.toNat
    conseq := conseqPayload s.cfg, weights := (List.range 6).map (weightsPayload s.cfg), fallback := fallbackPayloads s.cfg }

/-- A JOIN_ANSWER to a device (R377, R400): one that admits it, or passes definitions to a member again, carries the handshake. -/
def sendAnswer (dev status : Nat) (s : State) : State :=
  answerOnly dev status (if status = 0 then emit (.handshake dev (ownHandshake s)) s else s)

/-! ## Alarms and reports (R354, R356, R384) -/

/-- An alarm with a clearing rule of its own stands: contributed with STANDING in every epoch (R356). -/
def raiseAlarm (code subj sev detail : Nat) (s : State) : State :=
  if s.mem.standing.any fun a => a.1 = BitVec.ofNat 16 code && a.2.1 = subj then s
  else { s with mem := { s.mem with standing := s.mem.standing ++ [(BitVec.ofNat 16 code, subj, sev, wd detail)] } }

/-- The rule of a standing alarm clears it: one report with STANDING clear follows (R356). -/
def clearAlarm (code subj : Nat) (s : State) : State :=
  let hit := fun (a : BitVec 16 × Nat × Nat × Word) => a.1 = BitVec.ofNat 16 code && a.2.1 = subj
  { s with mem := { s.mem with standing := s.mem.standing.filter (fun a => !hit a),
                               clearing := s.mem.clearing ++ s.mem.standing.filter hit } }

/-- An alarm is standing here. -/
def alarmOn (s : State) (code subj : Nat) : Bool :=
  s.mem.standing.any fun a => a.1 = BitVec.ofNat 16 code && a.2.1 = subj

/-- One FAULT_REPORT for the next contribution: code, severity, subject, first parameter (R354, R412). -/
def report (code sev subj detail : Nat) (s : State) : State :=
  { s with mem := { s.mem with reports := s.mem.reports ++ [(code, sev, subj, detail)] } }

/-! ## Archive staging (R532, R539) -/

/-- The low 4060-byte parts of an item, bounded by their count. -/
def parts : Nat → List Byte → List (List Byte)
  | 0, _ => []
  | n + 1, bs => if bs.length ≤ 4060 then [bs] else bs.take 4060 :: parts n (bs.drop 4060)

/-- A staged chunk's 4092 bytes, its number still 0 (Table 17.2). -/
def chunkBody (s : State) (type item part : Nat) (first last : Word) (pay : List Byte) : List Byte :=
  leBytes 32 (pack [(32, 0), (48, 0), (16, s.mram.boot.toNat), (8, type), (8, s.dev), (16, pay.length), (32, part), (32, item),
    (32, first.toNat), (32, last.toNat)]) ++ (pay ++ List.replicate 4060 0).take 4060

/-- An item staged at a place of R539's order for the archive of a manager in state 2. -/
def stage (place type item : Nat) (first last : Word) (bs : List Byte) (s : State) : State :=
  if s.variant ≠ .WK && s.arch.state = 2 then
    let cs := (parts (bs.length / 4060 + 1) bs).zipIdx.map fun p => (place, chunkBody s type item p.2 first last p.1)
    { s with arch := { s.arch with staging := s.arch.staging ++ cs } }
  else s

/-! ## Roles and life (R301, R346, R556) -/

/-- The role set, with its interrupt (R457). -/
def setRole (r : Role) (s : State) : State := irqChange s { s with mem := { s.mem with role := r } }

/-- A pending swap abandoned (R353). -/
def abandonSwap (reason : Nat) (s : State) : State :=
  if s.brd.swapOn then
    event 0x0C27 2 [s.brd.swapTarget, reason] { s with brd := { s.brd with swapOn := false, swapAt := 0, swapTarget := 0xFF } }
  else s

/-! ## An epoch closed and not published (R348, R370) -/

/-- The alarms that a commit raises or clears itself. -/
def commitAlarm (a : BitVec 16 × Nat × Nat × Word) : Bool := [0x0C23, 0x040E, 0x1013, 0x1018].contains a.1

/-- A DEVICES record with the values of a commit taken back. -/
def undoDev (old d : DevRec) : DevRec :=
  { d with missed := old.missed, lates := old.lates, causes := old.causes, hifState := old.hifState, timeState := old.timeState, netA := old.netA, netB := old.netB }

/-- The commit of an epoch that is not published taken back: what its records changed stands as before, and they are held again (R348, R370). -/
def undoCommit (s : State) : State :=
  match s.undo with
  | none => s
  | some u =>
    let swap := fun (new old : List (BitVec 16 × Nat × Nat × Word)) => new.filter (!commitAlarm ·) ++ old.filter commitAlarm
    let stall := fun (x : Stall × Stall) => { x.1 with
      sol := x.2.sol, solCycle := x.2.solCycle, solSig := x.2.solSig, solLoss := x.2.solLoss, hasSol := x.2.hasSol }
    { s with
      undo := none
      brd := { s.brd with
        held := u.held ++ s.brd.held, devices := (u.devices.zip s.brd.devices).map fun x => undoDev x.1 x.2, thr := u.thr, pow := u.pow
        sections := u.sections, plan := u.plan, conseq := u.conseq, alarms := u.alarms, alarmGen := u.alarmGen }
      mem := { s.mem with
        minority := u.mem.minority, cmdEpochs := u.mem.cmdEpochs, named := u.mem.named, splitOn := u.mem.splitOn, splitLeft := u.mem.splitLeft
        standing := swap s.mem.standing u.mem.standing, clearing := swap s.mem.clearing u.mem.clearing }
      dp := { s.dp with
        scen := u.dp.scen, conseqFail := u.dp.conseqFail, conseqFailed := u.dp.conseqFailed, conseqStale := u.dp.conseqStale
        decision := u.dp.decision, fbMgrs := u.dp.fbMgrs, fbCause := u.dp.fbCause, built := u.dp.built, scenBuilt := u.dp.scenBuilt
        building := u.dp.building, derived := u.dp.derived, builds := u.dp.builds }
      sol := { s.sol with outcomes := u.sol.outcomes, stalls := (s.sol.stalls.zip u.sol.stalls).map stall } }

/-- The closed epoch will not be published: its image and its fusion are given up (R348, R370). -/
def dropOpen (s : State) : State :=
  let s1 := undoCommit s
  { s1 with brd := { s1.brd with open_ := none }, fus := { s1.fus with todo := none } }

/-- A manager falls silent: role SILENT, one SILENT frame on both networks, event 0x0C24 with its cause (R346). A swap that names it, its decision to take
over and its closed epoch end (R347, R348, R353). -/
def goSilent (cause : Nat) (s : State) : State :=
  if s.isMgrRole then
    let s1 := setRole .silent s
    let s2 := if s.dev = s.brd.active || s.dev = s.brd.swapTarget then abandonSwap 0 s1 else s1
    let s3 := dropOpen { s2 with mem := { s2.mem with takeover := none }, safe := { s2.safe with counters := s2.safe.counters &&& 7 } }
    event 0x0C24 4 [s.dev, cause, s.epochHeld.toNat] (sendMember 4 s3)
  else s

/-- A manager that takes a role while a cause other than RESTART is latched is fail-silent from then on (R346). -/
def silentIfSafe (s : State) : State :=
  if s.safe.causes &&& 0xFFFE = 0 then s else goSilent (if s.safe.causes.getLsbD 15 then s.safe.silentCause else 0) s

/-! ## Loop contexts and outputs in the safe state (R134, R288, R291, R300) -/

/-- A context changed by `f`. -/
def updCtx (n : Nat) (f : Ctx → Ctx) (s : State) : State := { s with loop := { s.loop with ctx := upd s.loop.ctx n f } }

/-- One coefficient write takes effect, with event 0x0516 (R285). -/
def putCoef (n idx : Nat) (v : Int) (sh : Nat) (s : State) : State :=
  let s1 := updCtx n (fun c => { c with coefs := c.coefs.set idx (v, sh), gen := c.gen + 1 }) s
  event 0x0516 0 [n, idx, intBits 32 v, (s1.loop.ctx.getD n {}).gen.toNat] s1

/-- The waiting coefficient writes of a context take effect in order of acceptance (R285). -/
def applyWrites (n : Nat) (s : State) : State :=
  let ws := (s.loop.ctx.getD n {}).writes
  ws.foldl (fun t w => putCoef n w.1 w.2.1 w.2.2 t) (updCtx n (fun c => { c with writes := [] }) s)

/-- A context state change with event 0x0510 (Table 8.10); a context that stops sampling takes its waiting writes at once and has no sample in
progress (R277). -/
def ctxState (n st cause : Nat) (s : State) : State :=
  let c := s.loop.ctx.getD n {}
  if c.state = st then s
  else
    let s1 := event 0x0510 1 [n, c.state, st, cause] (updCtx n (fun c => { c with state := st, late := if st = 1 || st = 5 then 0 else c.late }) s)
    if st = 1 || st = 5 then applyWrites n s1 else s1

/-- The input of the contexts whose definition `p` names has returned (R281). -/
def inputBack (p : LoopCfg → Bool) (s : State) : State :=
  let go := fun (x : Ctx × Nat) =>
    if x.1.ceased && (s.cfg.loops.getD x.2 none).isSome && p (s.cfg.loopOf x.2) then { x.1 with ceased := false } else x.1
  { s with loop := { s.loop with ctx := s.loop.ctx.zipIdx.map go } }

/-- The park value of a context (R288). -/
def parkValue (s : State) (n : Nat) : Int :=
  let l := s.cfg.loopOf n
  if l.flag 7 then (s.loop.ctx.getD n {}).u else sfld l.desc 352 32

/-- A context disabled: the sample in progress completes; LOST goes to IDLE at once; RUN and HOLD go to PARKING, or to IDLE when already
parked (R281, R288). -/
def disableCtx (n cause : Nat) (s : State) : State :=
  let c := s.loop.ctx.getD n {}
  if c.state = 5 then ctxState n 1 cause s
  else if c.state = 2 || c.state = 4 || c.state = 3 then
    let pk := parkValue s n
    let s1 := updCtx n (fun c => { c with parkAt := pk, parkCause := cause, toLost := false, inLost := false, late := 0 }) s
    if c.u = pk then ctxState n 1 cause s1 else ctxState n 3 cause s1
  else s

/-- The contexts with CMD_PATH set. -/
def cmdPaths (s : State) : List Nat :=
  (List.range 128).filter fun n => (s.cfg.loops.getD n none).isSome && (s.cfg.loopOf n).cmdPath

/-- A buffer's cancel request (R430, Table 13.8): a PENDING frame is CANCELLED, an ON_BUS one waits. -/
def cancelBuf (ch b : Nat) (s : State) : State :=
  let go := fun (x : CanBuf) => if x.status = 1 then { x with status := 5, cancel := false }
    else if x.status = 2 then { x with cancel := true, held := none } else x
  { s with bus := { s.bus with can := upd s.bus.can ch fun c => { c with bufs := upd c.bufs b go } } }

/-- One CMD_PATH context in the safe state: disabled, unarmed, suppressed, its pending frame cancelled (R291). -/
def suppressCtx (n : Nat) (s : State) : State :=
  let l := s.cfg.loopOf n
  let s1 := updCtx n (fun c => { c with armed := false, suppressed := true }) (disableCtx n 4 s)
  if l.outType = 2 then cancelBuf (l.outDest / 32) (l.outDest % 32) s1 else s1

/-- The first whole multiple of GLOVE_PERIOD_MS after now (R314). -/
def gloveBoundary (s : State) : Nat :=
  let p := fld s.cfg.safeGlobal 48 16 * 1000000
  (s.time.ns / p + 1) * p

/-- A global-word change that waited for the pulses in progress takes effect when none is left (R314). -/
def gloveSettle (s : State) : State :=
  if s.safe.gloveWait && s.safe.glove.all (·.phase = 0) then
    { s with safe := { s.safe with gloveWait := false, gloveFrom := gloveBoundary s } }
  else s

/-- A glove pulse that a de-energisation ends is not judged (R314). -/
def endPulses (s : State) : State :=
  gloveSettle { s with safe := { s.safe with glove := s.safe.glove.map fun g => { g with phase := 0 } } }

/-- The commanded outputs set by both halves: a readback that agreed follows, a disagreeing one stays as it is (R306, R310). -/
def setOuts (want : BitVec 16) (s : State) : State :=
  { s with safe := { s.safe with gateA := want, gateB := want, outs := want &&& want, sofb := want ^^^ ((s.safe.sofb ^^^ s.safe.outs) &&& ~~~(want ^^^ s.safe.outs)) } }

/-- The safe state's effects on pins and outputs (R134, R291, R300). -/
def enterSafe (s : State) : State :=
  let s1 := endPulses { setOuts 0 s with
                          ao := s.ao.zipIdx.map fun x =>
                            if (s.cfg.ao.getD x.2 {}).en then { x.1 with code := 0, written := 0 } else x.1 }
  (cmdPaths s1).foldl (fun t n => suppressCtx n t) s1

/-- A cause latched (R301): the first cause of the episode noted, the safe state entered, event 0x0910; a manager with
a cause other than RESTART falls silent (R300, R302, R346). -/
def latchCause (n : Nat) (s : State) : State :=
  if s.safe.causes.getLsbD n then s
  else
    let s1 := { s with safe := { s.safe with
      causes := s.safe.causes ||| BitVec.ofNat 16 (2 ^ n),
      firstCause := if s.safe.causes = 0 then n + 1 else s.safe.firstCause } }
    let s2 := if s.safe.causes = 0 then enterSafe s1 else s1
    let s3 := irqChange s s2
    let s4 := if s.safe.causes = 0 then
        event 0x0910 4 [n + 1, s1.safe.causes.toNat, s1.safe.mittenMask.toNat, s.epochHeld.toNat] s3 else s3
    if n ≠ 0 then goSilent (if n = 15 then s.safe.silentCause else 0) s4 else s4

/-- VDD_AO is watched for SUPPLY only while an analog output is enabled (R568). -/
def aoSupply (s : State) : State := if s.safe.railBad.getLsbD 8 && s.ao.any (·.powered) then latchCause 8 s else s

/-- An enabled group entry of a MAC that is present is joined by IGMPv2 (R441). -/
def joinGroup (n : Nat) (w : BitVec 128) (s : State) : State :=
  if fld w 8 1 = 1 && n / 8 < s.variant.lans then { s with outs := s.outs ++ [.igmpJoin (n / 8) (fld w 96 32)] } else s

/-- FAIL_SILENT latched with the cause code of event 0x0C24 (Table 10.5). -/
def failSilent (cause : Nat) (s : State) : State :=
  latchCause 15 { s with safe := { s.safe with silentCause := cause } }

/-! ## Safety outputs (R307 to R310) -/

/-- Some CMD_PATH context is in RUN, HOLD or PARKING (R308). -/
def cmdPathLive (s : State) : Bool :=
  (cmdPaths s).any fun n => let c := s.loop.ctx.getD n {}; c.state = 2 || c.state = 3 || c.state = 4

/-- Whether output `n` shall be energised (R308, R309, R313). -/
def outWanted (s : State) (n : Nat) : Bool :=
  let w := s.cfg.so.getD n 0
  let fn := fld w 0 3
  let g := fld w 4 2
  let tripped := g ≠ 0 && s.safe.groupTrip.getLsbD (g - 1)
  !tripped && s.inRun && !s.isSafe && ((fn = 3) || ((fn = 1 || fn = 2) && cmdPathLive s))

/-- The energised outputs brought to what R308 and R309 ask; an output newly energised notes the instant (R314). -/
def driveOutputs (s : State) : State :=
  let want := (List.range 16).foldl (fun (b : Nat) n => if outWanted s n then b + 2 ^ n else b) 0
  let go := fun (g : Glove × Nat) =>
    if want.testBit g.2 then (if s.safe.outs.getLsbD g.2 then g.1 else { g.1 with phase := 0, onSince := s.time.ns })
    else { g.1 with phase := 0 }
  let s1 := setOuts (BitVec.ofNat 16 want) s
  gloveSettle { s1 with safe := { s1.safe with glove := (s.safe.glove.zipIdx).map go } }

/-- The life state set, with its interrupt; the outputs follow it (R308, R309, R457). -/
def setLife (l : Life) (s : State) : State :=
  let f := if l = .run then { s.fus with lateUsed := 0, lateDrop := 0 } else s.fus
  driveOutputs (irqChange s { s with rst := { s.rst with life := l }, fus := f })

/-! ## Stored configuration (R553) -/

/-- The bank that governs: the valid one of newer GENERATION; none when neither is valid (R552). -/
def newerBank (m : Mram) : Option (Bool × Bank) :=
  match m.bank0.valid, m.bank1.valid with
  | false, false => none
  | true, false => some (false, m.bank0)
  | false, true => some (true, m.bank1)
  | true, true => if epochDiff m.bank1.gen m.bank0.gen > 0 then some (true, m.bank1) else some (false, m.bank0)

/-- The newest bank's content with a change written to the other bank, GENERATION one higher; the running configuration where
neither bank is valid (R553). -/
def storeCfg (f : Cfg → Cfg) (s : State) : State :=
  match newerBank s.mram with
  | some (true, b) => { s with mram := { s.mram with bank0 := { b with gen := b.gen + 1, body := f b.body } } }
  | some (false, b) => { s with mram := { s.mram with bank1 := { b with gen := b.gen + 1, body := f b.body } } }
  | none => { s with mram := { s.mram with bank0 := { gen := 1, valid := true, body := f s.cfg } } }

/-- The running configuration changed and stored (R553). -/
def setCfg (f : Cfg → Cfg) (s : State) : State := storeCfg f { s with cfg := f s.cfg, cfgNext := s.cfgNext.map f }

/-- A change stored now that takes effect at the start of a later DP cycle (R180). -/
def pendCfg (f : Cfg → Cfg) (s : State) : State := storeCfg f { s with cfgNext := some (f (s.cfgNext.getD s.cfg)) }

/-- The newest configuration generation held. -/
def cfgGen (s : State) : Word := match newerBank s.mram with | some (_, b) => b.gen | none => 0

/-! ## Quorum (R27, R30) -/

/-- Expected devices this device reaches on network A or B, itself counted (R27). -/
def reached (s : State) : Nat :=
  (s.cfg.table.filter fun e => e.1 = s.dev || reaches s false e.1 || reaches s true e.1).length

/-- A quorum: more than N/2 expected devices reached (R27). -/
def hasQuorum (s : State) : Bool := 2 * reached s > s.expected

/-- An engaged DP mode: 2 to 7 (R181). -/
def engaged (m : Nat) : Bool := 2 ≤ m && m ≤ 7

/-- A MEMBER frame shows its sender in RUN: HIF_STATE RUN, or SAFE with a role (Table 14.3, R300). -/
def memberRuns (m : Member) : Bool := m.hifState = 4 || (m.hifState = 5 && 1 ≤ m.role && m.role ≤ 4)

/-- Any device of the installation in RUN, as this device knows (R46, R84): itself, or a device that its latest MEMBER frame shows in RUN. -/
def anyRun (s : State) : Bool :=
  s.inRun ||
    s.mem.heard.any fun h => match h with | some m => memberRuns m | none => false

/-- Members of the installation in the working DEVICES table. -/
def memberCount (s : State) : Nat := (s.brd.devices.filter fun d => 1 ≤ d.role && d.role ≤ 4).length

/-- DP cycle in which an accepted class 0x10 command takes effect: the first whose first epoch closes after now (R180). -/
def effectCycle (s : State) : Word :=
  if s.cyc.epoch = s.cyc.dpFirst && s.cyc.closed ≠ some s.cyc.epoch then s.cyc.dpCycle else s.cyc.dpCycle + 1

end Sys2Proof.Machine
end

