-- ==== Sys2Proof/Machine/Mailbox.lean ====
section
/-! DEFINITION. The mailbox server that every command shares: service by state, serving devices, payload length, the
response on each path, DMA, relaying, and the order of execution (chapter 14, R475 to R480). -/

namespace Sys2Proof.Machine

/-- What a meaning answers. -/
abbrev Res := Host.Outcome State Fault Refusal

/-- A command body's answer: a status with its payload and the new state, or an answer that a later event gives. -/
inductive Ans where
  | done (st : Status) (pay : List Byte) (s : State)
  | later (s : State)

/-- A refusal without effect. -/
def no (st : Status) (s : State) : Ans := .done st [] s
/-- OK without payload. -/
def okay (s : State) : Ans := .done .ok [] s
/-- OK with a payload. -/
def give (pay : List Byte) (s : State) : Ans := .done .ok pay s

/-- The "Served by" codes of R479. -/
inductive Served where
  | D | M | A | Astar
  deriving DecidableEq, Repr

/-- The serving devices of every defined command code (Tables 15.2 to 15.19); none for an undefined code. -/
def served (code : Nat) : Option Served :=
  match code / 256, code % 256 with
  | 0x01, n => if 1 ≤ n ∧ n ≤ 4 then some .D else none
  | 0x02, n => ([some .M, some .M, some .M, some .D, some .A, some .A, some .Astar, some .Astar] : List _).getD (n - 1) none
      |> fun x => if n = 0 then none else x
  | 0x03, n => if n = 2 ∨ n = 6 then some .M else if n = 1 ∨ n = 3 ∨ n = 4 ∨ n = 5 then some .A else none
  | 0x04, n => if 1 ≤ n ∧ n ≤ 4 then some .A else if n = 5 ∨ n = 6 then some .M else none
  | 0x05, n => if 1 ≤ n ∧ n ≤ 6 then some .D else none
  | 0x06, n => if 1 ≤ n ∧ n ≤ 6 then some .D else none
  | 0x07, n => if 1 ≤ n ∧ n ≤ 12 then some .D else none
  | 0x08, n => if n = 2 then some .A else if n = 1 ∨ n = 3 then some .D else none
  | 0x09, n => if 1 ≤ n ∧ n ≤ 5 then some .D else none
  | 0x0A, n => if 1 ≤ n ∧ n ≤ 4 then some .D else if 5 ≤ n ∧ n ≤ 7 then some .M else none
  | 0x0B, n => if n = 1 then some .A else if n = 2 ∨ n = 3 then some .D else none
  | 0x0C, n => if n = 1 then some .D else if 2 ≤ n ∧ n ≤ 4 then some .A else none
  | 0x0D, n => if n = 1 ∨ n = 2 then some .D else none
  | 0x0E, n => if n = 1 ∨ n = 2 then some .D else none
  | 0x0F, n => if 1 ≤ n ∧ n ≤ 4 then some .D else none
  | 0x10, n => if n = 8 then some .M else if 1 ≤ n ∧ n ≤ 10 then some .A else none
  | _, _ => none

/-- Commands whose unit a YJ640-WK lacks: the PCIe endpoint's Board stream and the NAND archive (R5, R374, R531). -/
def absentUnit (code : Nat) (s : State) : Bool := s.variant = .WK && [0x0202, 0x0203, 0x0A06, 0x0A07].contains code

/-- Commands that the ACTIVE manager copies to STANDBY managers (R139, R239, R268, R329, R357, R482);
MGR_SILENCE goes to the manager it names (R345; row 81). -/
def copied (code : Nat) : Bool :=
  [0x0208, 0x0301, 0x0303, 0x0304, 0x0305, 0x0401, 0x0403, 0x0C03, 0x0C04].contains code ||
    (code / 256 = 0x10 && 1 ≤ code % 256 && code % 256 ≤ 10 && code ≠ 0x1008)

/-- A request that the ACTIVE manager passes on its own account: relayed by it, with a TARGET that is not this device. -/
def passedOn (r : Req) (s : State) : Bool :=
  (match r.path with | .relay m _ => m.val = s.brd.active | _ => false) && r.target.toNat ≠ s.dev

/-- A request that is such a copy at a STANDBY manager, or STREAM_DEFINE or STREAM_STATUS passed to the parsing device (R483). -/
def isCopy (code : Nat) (r : Req) (s : State) : Bool :=
  passedOn r s && ((s.mem.role = .standby && copied code) || code = 0x0301 || code = 0x0306)

/-- The refusal of a device that does not serve the command (R39, R479). -/
def roleRefusal (code : Nat) (s : State) : Option Status :=
  match served code with
  | none => some .badCmd
  | some .D => none
  | some x =>
    if absentUnit code s then some .absent
    else if !s.isManager then some (if code / 256 = 3 ∨ code / 256 = 4 ∨ code / 256 = 0x10 then .absent else .role)
    else if x = .M then none
    else if s.isActive then none
    else if x = .Astar ∧ s.mem.role = .none ∧ s.rst.life = .ready then none
    else some .role

/-- Commands served in Cloakroom mode (Table 14.13). -/
def cloakServed (code : Nat) : Bool :=
  code / 256 = 0x0F || code = 0x0101 || code = 0x0A01 || code = 0x0A02 || code = 0x0A03

/-- RESET and LOADING serve direct registers only (Table 14.13). -/
def mailboxDown (s : State) : Bool := s.rst.life = .reset || s.rst.life = .loading

/-- Refusals that keep a response payload (Table 15.1). -/
def keepsPayload (code : Nat) (st : Status) : Bool :=
  (st = .stale && (code = 0x0201 || code = 0x0706 || code = 0x070A || code = 0x0904 || code = 0x0A01)) ||
  code = 0x0401 || (code = 0x0704 && st = .state)

/-- Commands that leave no ordinary trace: names ending in STATUS or READ, IDENTIFY, HEARTBEAT (R480). -/
def untraced (code : Nat) : Bool :=
  [0x0101, 0x0102, 0x0104, 0x0201, 0x0204, 0x0302, 0x0306, 0x0405, 0x0406, 0x0505, 0x0506, 0x0605, 0x0705, 0x0706,
    0x0709, 0x070A, 0x0803, 0x0902, 0x0904, 0x0A02, 0x0A03, 0x0A06, 0x0A07, 0x0B02, 0x0C01, 0x0D01, 0x0E02,
    0x1008].contains code

/-- The path code of events and change-log entries: 0 PCIe, 1 UDP, 2 relayed (Table 9.11, R480). -/
def Path.code : Path → Nat
  | .slot _ => 0 | .udp _ _ _ => 1 | .relay _ _ => 2 | .gone => 0
end Sys2Proof.Machine

namespace Sys2Proof.Machine

/-- Path code of a request (R480). -/
def pathCode (p : Path) : Nat := Path.code p
/-- The UDP source of a request, 0 otherwise (Table 9.11 SRC_IP). -/
def pathIp : Path → Word
  | .udp _ a _ => a
  | _ => 0

/-- The flag byte of a request's header: NOTIFY and DMA (Table 14.7). -/
def reqFlags (r : Req) : Nat := r.notify.toNat + 2 * r.dma.isSome.toNat

/-- A response leaves on the path of its request (R446, R449, R452, R453, R463, R464, R466) with a flag byte: SEQ is
the execution count. -/
def respondWith (flags code : Nat) (r : Req) (st : Nat) (pay : List Byte) (s : State) : State :=
  let seq := s.hif.seq + 1
  let s1 := { s with hif := { s.hif with seq := seq } }
  match r.path with
  | .gone => s1
  | .slot n =>
    let okDma := r.dma.isSome && st = 0
    let body := if okDma then leBytes 4 pay.length ++ leBytes 4 (crc32 pay) else pay
    let s2 := match r.dma with
      | some d => if okDma then emit (.hostWrite d.rspAddr pay) s1 else s1
      | none => s1
    let s3 := writeSlot n 0 (header code r.tag.toNat r.target.toNat flags body.length st seq.toNat ++ body) s2
    let s4 := { s3 with hif := { s3.hif with
      done := s3.hif.done ||| wd (2 ^ n.val), busy := s3.hif.busy &&& ~~~(wd (2 ^ n.val)) } }
    if r.notify then raiseIrq 0 s4 else s4
  | .udp mac src port =>
    let bytes := header code r.tag.toNat r.target.toNat flags pay.length st seq.toNat ++ pay
    emit (.udp mac src port bytes) { s1 with hif := { s1.hif with udp := s1.hif.udp.map fun h =>
      if h.src = src ∧ h.port = port ∧ h.tag = r.tag then { h with resp := some bytes } else h } }
  | .relay mgr rseq =>
    let bytes := header code r.tag.toNat r.target.toNat flags pay.length st seq.toNat ++ pay
    sendLong 6 mgr.val s1.epochHeld bytes false
      { s1 with hif := { s1.hif with answers := (mgr.val, rseq, bytes) :: s1.hif.answers.take 1023 } }

/-- A response with the flag byte of its request. -/
def respond (code : Nat) (r : Req) (st : Nat) (pay : List Byte) (s : State) : State :=
  respondWith (reqFlags r) code r st pay s

/-- The command's ordinary trace (R480). -/
def trace (code : Nat) (r : Req) (st : Nat) (s : State) : State :=
  if untraced code then s
  else event (code / 256 * 256 + 0x3F) 0 [code, st, r.tag.toNat, pathCode r.path] s

/-- The response to a request whose relay is possible, or the refusal (R466). -/
def relayRefusal (target : Nat) (s : State) : Option Status :=
  if !s.isActive then some .role
  else if target ≥ 64 then some .unreachable
  else
    let role := (s.brd.devices.getD target {}).role
    if !((1 ≤ role && role ≤ 4) || s.mem.recovering.contains target) then some .unreachable
    else if !(reaches s false target || reaches s true target) then some .unreachable
    else none

/-- A DMA descriptor's bytes (Table 14.8). -/
def dmaBytes (d : Dma) : List Byte :=
  leBytes 24 (pack [(64, d.reqAddr.toNat), (64, d.rspAddr.toNat), (32, d.reqLen), (32, d.rspMax)])

/-- A request's message on flow 5 (R466): header and payload as in a slot; for DMA the descriptor precedes the fetched
payload (row 13). -/
def relayBytes (code : Nat) (r : Req) : List Byte :=
  let len := match r.dma with | some _ => 24 | none => r.payload.length
  let pre := match r.dma with | some d => dmaBytes d | none => []
  header code r.tag.toNat r.target.toNat (reqFlags r) len 0 0 ++ pre ++ r.payload

/-- A request sent on to its target (R466). -/
def sendRelay (code : Nat) (r : Req) (s : State) : State :=
  let q := seqOf s 5
  sendLong 6 r.target.toNat s.epochHeld (relayBytes code r) false
    { s with hif := { s.hif with
      relays := s.hif.relays ++ [{ code := code, req := r, target := r.target.toNat, seq := q }]
      counts := addAt s.hif.counts 6 1 } }

/-- The request fields of 16 header bytes and a payload (Table 14.7). -/
def parseReq (p : Path) (b : List Byte) : Req :=
  { path := p, tag := BitVec.ofNat 16 (u16 b 2), target := BitVec.ofNat 8 (u8 b 4), notify := bit (u8 b 5) 0,
    payload := (b.drop 16).take (u16 b 6) }

/-- The DMA descriptor of a payload (Table 14.8). -/
def parseDma (p : List Byte) : Dma :=
  { reqAddr := BitVec.ofNat 64 (ule p 0 8), rspAddr := BitVec.ofNat 64 (ule p 8 8), reqLen := u32 p 16, rspMax := u32 p 20 }

/-- A descriptor that R452 refuses with BAD_ARG. -/
def dmaBad (d : Dma) : Bool :=
  d.reqAddr.toNat % 8 ≠ 0 || d.rspAddr.toNat % 8 ≠ 0 || d.reqLen > 4194304 || d.rspMax > 4194304

/-- What the checks of R450 decide about a taken request. -/
inductive Taken where
  | hcrc
  | refuse (st : Status)
  | fetch (r : Req)
  | relay (r : Req)
  | local_ (r : Req)
  | lost

/-- The checks of R450, 1 to 5, on the bytes of a request. -/
def check (p : Path) (b : List Byte) (s : State) : Taken :=
  let code := u16 b 0
  let len := u16 b 6
  let dma := bit (u8 b 5) 1
  let r := parseReq p b
  if mailboxDown s then .lost
  else if crc16 (b.take 14) ≠ u16 b 14 then .hcrc
  else if len > 240 || (dma && len ≠ 24) then .refuse .badArg
  else if (served code).isNone then .refuse .badCmd
  else if s.rst.life = .cloakroom && !cloakServed code then .refuse .state
  else
    let relayed := match p with | .relay _ _ => true | _ => false
    let remote := !relayed && r.target ≠ 0xFF && r.target.toNat ≠ s.dev
    let refusal := if remote then relayRefusal r.target.toNat s else none
    match refusal with
    | some st => .refuse st
    | none =>
      if dma then
        let d := parseDma r.payload
        match p with
        | .slot _ =>
          if dmaBad d then .refuse .badArg
          else if d.reqLen = 0 then (if remote then .relay { r with dma := some d, payload := [] } else .local_ { r with dma := some d, payload := [] })
          else .fetch { r with dma := some d, payload := [] }
        | .relay _ _ => if dmaBad d then .refuse .badArg else .local_ { r with dma := some d, payload := b.drop 40 }
        | _ => .refuse .badArg
      else if remote then .relay r else .local_ r

/-- The answer that R451 writes on a failed header check: bytes 0 to 5 as received. -/
def answerHcrc (p : Path) (b : List Byte) (s : State) : State :=
  let r := { parseReq p b with dma := if bit (u8 b 5) 1 then some {} else none }
  let slot := match p with | .slot n => n.val | _ => 0
  let s1 := { s with hif := { s.hif with counts := addAt s.hif.counts 1 1 } }
  event 0x0112 2 [pathCode p, slot, u16 b 0] (respondWith (u8 b 5) (u16 b 0) r 9 [] s1)

/-- The server is occupied by a command in execution or a DMA read (R455). -/
def serverBusy (s : State) : Bool := s.hif.execNow.isSome || s.hif.dmaWait.isSome

/-- The front of the waiting requests taken while the server is free; a refused or relayed one frees its place at once
(R453 to R455). Bounded by the number waiting. -/
def takeNext : Nat → State → State
  | 0, s => s
  | n + 1, s =>
    if serverBusy s then s
    else match s.hif.waiting with
      | [] => s
      | (p, b0) :: rest =>
        let s0 := { s with hif := { s.hif with waiting := rest } }
        let b := match p with | .slot k => Memory.readAll s.hif.ram (slotAddr k) 256 | _ => b0
        let s1 := match p with
          | .slot k => { s0 with hif := { s0.hif with busy := s0.hif.busy ||| wd (2 ^ k.val) } }
          | _ => s0
        match check p b s1 with
        | .lost => takeNext n s0
        | .hcrc => takeNext n (answerHcrc p b s1)
        | .refuse st =>
          takeNext n (respond (u16 b 0) (parseReq p b) st.code [] (trace (u16 b 0) (parseReq p b) st.code s1))
        | .fetch r =>
          emit (.hostRead ((r.dma.getD {}).reqAddr) ((r.dma.getD {}).reqLen))
            { s1 with hif := { s1.hif with dmaWait := some (u16 b 0, r) } }
        | .relay r => takeNext n (sendRelay (u16 b 0) r s1)
        | .local_ r => { s1 with hif := { s1.hif with execNow := some (u16 b 0, r) } }

/-- The server goes on to the next waiting request. -/
def serve (s : State) : State := takeNext (s.hif.waiting.length + 1) s

/-- A command's execution ends: trace, response, and the next request is taken. -/
def finish (code : Nat) (r : Req) (st : Status) (pay : List Byte) (s : State) : State :=
  let p := if st = .ok || keepsPayload code st then
      (if code = 0x0401 && pay.isEmpty then leBytes 8 (pack [(40, 0), (8, s.dev)]) else pay) else []
  let s1 := respond code r st.code p (trace code r st.code s)
  let s2 := if s1.hif.execNow = some (code, r) then { s1 with hif := { s1.hif with execNow := none } } else s1
  serve s2

/-- One command: service by state, serving devices, payload length, then its own body; a response beyond RSP_MAX is
FULL with no effect (R450, R452, R471, R476, R479). -/
def mbx (code : Nat) (len : List Byte → Option Status) (body : Req → State → Ans) (r : Req) (s : State) : Res :=
  if mailboxDown s then .next { s with hif := { s.hif with execNow := none } }
  else if s.rst.life = .cloakroom && !cloakServed code then .next (finish code r .state [] s)
  else match (if isCopy code r s then none else roleRefusal code s) with
  | some st => .next (finish code r st [] s)
  | none => match len r.payload with
    | some st => .next (finish code r st [] s)
    | none => match body r s with
      | .later s' => .next s'
      | .done st pay s' =>
        match r.dma with
        | some d => if st = .ok && pay.length > d.rspMax then .next (finish code r .full [] s)
                    else .next (finish code r st pay s')
        | none => .next (finish code r st pay s')

/-- A payload of exactly `n` bytes (R476). -/
def exactly (n : Nat) (p : List Byte) : Option Status := if p.length = n then none else some .badArg

/-- A payload of `base` + `unit` × count bytes, the count a field of it between `lo` and `hi` (R476). -/
def counted (base unit off lo hi : Nat) (p : List Byte) : Option Status :=
  if p.length ≤ off then some .badArg
  else if u8 p off < lo || u8 p off > hi then some .range
  else if p.length = base + unit * u8 p off then none else some .badArg

/-- Any payload length: the body judges it. -/
def anyLen (_ : List Byte) : Option Status := none

/-- FLAGS bit CLEAR of a payload byte (R478). -/
def clears (p : List Byte) (off : Nat) : Bool := bit (u8 p off) 0

/-- An answer held for other devices ends (R239, R329, R483). -/
def finishJob (j : Job) (st : Status) (pay : List Byte) (s : State) : State := finish j.code j.req st pay s

/-! ## Copies to the other managers (R139, R239, R268, R329, R490) -/

/-- The counted STANDBY managers, to which a class 0x10 command is copied (R329). -/
def standbys (s : State) : List Nat :=
  s.countedMgrs.filter fun n => n ≠ s.dev && (s.brd.devices.getD n {}).role = 2

/-- Every STANDBY manager in RUN (R239), one that is not counted yet among them. -/
def standbysInRun (s : State) : List Nat := (List.range 3).filter fun n => n ≠ s.dev && (s.brd.devices.getD n {}).role = 2

/-- A copy sent to STANDBY managers over their MBX_RELAY flow (R239, R329, R399). -/
def sendCopies (code : Nat) (r : Req) (ms : List Nat) (s : State) : State :=
  ms.foldl (fun t m => sendLong 6 m t.epochHeld (relayBytes code r) false t) s

/-- An accepted configuration command that takes effect on every manager is copied to every STANDBY manager; no answer waits for it
(R139, R268, R357). -/
def shareCfg (code : Nat) (r : Req) (ms : List Nat) (s : State) : State :=
  if isCopy code r s then s else sendCopies code r (ms.filter (standbysInRun s).contains) s

end Sys2Proof.Machine
end

