-- ==== Sys2Proof/Machine/Archive.lean ====
section
/-! DEFINITION. The event recorder's commands, quotas and histograms, and the NAND archive (chapter 17). -/

namespace Sys2Proof.Machine

/-! ## Cursors (R527) -/

/-- Number of the oldest record held; the head where none is (R527). -/
def oldestRec (s : State) : Word := s.mram.head - wd s.mram.ring.length
/-- Cursor key of a path: PCIe slots 0, relay 1, UDP source + 2. -/
def cursorKey : Path → Nat
  | .slot _ => 0 | .gone => 0 | .relay _ _ => 1 | .udp _ a _ => a.toNat + 2
/-- The cursor of a path; at the oldest record while not placed (R527). -/
def cursorOf (s : State) (p : Path) : Word := (look s.rcd.cursors (cursorKey p)).getD (oldestRec s)

/-- RECORD_CURSOR_SET (R527, Table 15.1). -/
def bodyRecordCursorSet (r : Req) (s : State) : Ans :=
  let p := r.payload
  let newest := s.mram.head - 1
  let old := oldestRec s
  if u8 p 0 > 2 then no .badArg s
  else
    let c := if u8 p 0 = 0 then w32 p 4 else if u8 p 0 = 1 then newest - w32 p 4 else old
    if epochDiff c old < 0 then .done .stale (leBytes 4 old.toNat) s
    else give (leBytes 12 (pack [(32, c.toNat), (32, newest.toNat), (32, old.toNat)]))
      { s with rcd := { s.rcd with cursors := put s.rcd.cursors (cursorKey r.path) c } }
def execRecordCursorSet (r : Req) (s : State) : Res := mbx 0x0A01 (exactly 8) bodyRecordCursorSet r s

/-- RECORD_WINDOW_READ (R527): the first records at or after the cursor of at least a severity. -/
def bodyRecordWindowRead (r : Req) (s : State) : Ans :=
  let p := r.payload
  let n := u8 p 0
  let c := cursorOf s r.path
  if n = 0 || n > (if r.dma.isSome then 128 else 7) then no .range s
  else if epochDiff c (oldestRec s) < 0 then no .stale s
  else
    let avail := (s.mram.head - c).toNat
    let held := (s.mram.ring.take (if epochDiff s.mram.head c > 0 then avail else 0)).zipIdx.reverse
    let recs := (held.filter fun e => u8 p 2 ≤ e.1.2.sev).take n
    let num := fun (i : Nat) => s.mram.head - 1 - wd i
    match recs.getLast?, recs.head? with
    | some l, some f =>
      give (leBytes 4 (num f.2).toNat ++ leBytes 4 recs.length ++ recs.flatMap fun e => ringBytes s e.1.1 e.1.2)
        (if bit (u8 p 1) 0 then { s with rcd := { s.rcd with cursors := put s.rcd.cursors (cursorKey r.path) (num l.2 + 1) } } else s)
    | _, _ => give (leBytes 4 (nextFree s).toNat ++ leBytes 4 0) (stepFree s)
def execRecordWindowRead (r : Req) (s : State) : Res := mbx 0x0A02 (exactly 3) bodyRecordWindowRead r s

/-! ## Histograms (R529, R530) -/

/-- Field of quantity `q`'s HISTO_CONFIG payload. -/
def histoCfg (s : State) (q : Nat) : List Byte := s.cfg.histos.getD q []
/-- Quantity `q` is enabled. -/
def histoOn (s : State) (q : Nat) : Bool := bit (u8 (histoCfg s q) 1) 0

/-- The 152 bytes of a quantity (R530): on a worker BINS 0 and count 0. -/
def histoBytes (s : State) (q : Nat) : List Byte :=
  if !s.isManager then leBytes 152 q
  else
    let d := s.mram.histo.getD q []
    let v := fun k => (32, intBits 32 (d.getD k 0))
    leBytes 152 (pack ([(8, q), (8, u8 (histoCfg s q) 6), (16, 0)] ++ (List.range 37).map v))

/-- The enabled quantities staged as one item (R539, Table 17.3). -/
def snapshotHistos (more : List Nat) (s : State) : State :=
  let qs := (List.range 64).filter fun q => histoOn s q || more.contains q
  if qs.isEmpty then s else stage 6 2 0 s.epochHeld s.epochHeld (qs.flatMap (histoBytes s)) s

/-- HISTO_READ (R530). -/
def bodyHistoRead (r : Req) (s : State) : Ans :=
  let q := u8 r.payload 0
  if q > 63 then no .range s
  else
    let out := histoBytes s q
    if bit (u8 r.payload 1) 0 && s.isManager then
      let s1 := snapshotHistos [q] s
      give out { s1 with mram := { s1.mram with histo := s1.mram.histo.set q [] } }
    else give out s
def execHistoRead (r : Req) (s : State) : Res := mbx 0x0A03 (exactly 2) bodyHistoRead r s

/-- HISTO_CONFIG (R529): the write clears the quantity's data. -/
def bodyHistoConfig (r : Req) (s : State) : Ans :=
  let p := r.payload
  let q := u8 p 0
  if q > 63 || u8 p 2 > 9 || u8 p 6 = 0 || u8 p 6 > 32 || u32 p 12 = 0 then no .range s
  else if bits (u8 p 3) 0 2 = 3 then no .badArg s
  else
    let s1 := setCfg (fun c => { c with histos := c.histos.set q p }) s
    okay { s1 with mram := { s1.mram with histo := s1.mram.histo.set q [] } }
def execHistoConfig (r : Req) (s : State) : Res := mbx 0x0A05 (exactly 20) bodyHistoConfig r s

/-- Bin of a sample (R529). -/
def histoBin (v l : Int) (w bins : Nat) : Nat :=
  if v < l + w then 0 else if v ≥ l + ((bins - 1) * w : Nat) then bins - 1 else ((v - l) / w).toNat

/-- One sample into a quantity's data: count, minimum, maximum, their earliest epochs, bins (R529). -/
def histoAdd (e : Word) (v l : Int) (w bins : Nat) (d0 : List Int) : List Int :=
  let d := if d0.isEmpty then List.replicate 37 0 else d0
  let fresh := d.getD 0 0 = 0
  let lo := fresh || (v < d.getD 1 0 : Bool)
  let hi := fresh || (v > d.getD 2 0 : Bool)
  let d1 := d.set 0 (min (d.getD 0 0 + 1) 0xFFFFFFFF)
  let d2 := if lo then (d1.set 1 v).set 3 (e.toNat : Int) else d1
  let d3 := if hi then (d2.set 2 v).set 4 (e.toNat : Int) else d2
  d3.modify (5 + histoBin v l w bins) fun c => min (c + 1) 0xFFFFFFFF

/-- Each enabled quantity takes one sample of an installed or published image (R529). -/
def histoSample (i : Image) (s : State) : State :=
  if !s.isManager then s
  else
    let go := fun (x : List Int × Nat) =>
      let p := histoCfg s x.2
      if histoOn s x.2 && (imgSec i (u8 p 2)).isSome then
        let w := [32, 16, 8].getD (bits (u8 p 3) 0 2) 8
        let raw := imgFld i (u8 p 2) (u16 p 4) w
        let sg := bit (u8 p 3) 2
        histoAdd i.epoch (if sg then sext w raw else (raw : Int)) (if sg then i32 p 8 else (u32 p 8 : Int)) (u32 p 12) (u8 p 6) x.1
      else x.1
    { s with mram := { s.mram with histo := s.mram.histo.zipIdx.map go } }

/-! ## Quotas (R525, R526) -/

/-- The numbers of a class's own events (Tables 3.7, 4.8, 5.11, 6.12, 7.16, 8.10 … 18.7). -/
def eventNumbers (cls : Nat) : List (Nat × Nat) :=
  match cls with
  | 0x01 | 0x05 | 0x06 => [(0x10, 0x16)]
  | 0x02 | 0x0B => [(0x10, 0x19)]
  | 0x03 => [(0x10, 0x14), (0x16, 0x1F)]
  | 0x04 => [(0x01, 0x11)]
  | 0x07 => [(0x10, 0x17)]
  | 0x08 => [(0x10, 0x14), (0x16, 0x16)]
  | 0x09 => [(0x10, 0x1C)]
  | 0x0A | 0x10 => [(0x10, 0x1A)]
  | 0x0C => [(0x10, 0x15), (0x20, 0x29)]
  | 0x0D => [(0x10, 0x14)]
  | 0x0E => [(0x10, 0x12)]
  | 0x0F => [(0x10, 0x14), (0x16, 0x17)]
  | _ => []

/-- A code that the firmware defines: an event of its class's table or the class's command trace (R480, R525). -/
def codeDefined (code : Nat) : Bool :=
  let rs := eventNumbers (code / 256)
  !rs.isEmpty && (code % 256 = 0x3F || rs.any fun r => r.1 ≤ code % 256 && code % 256 ≤ r.2)

/-- QUOTA_SET (R525): a bucket above the new BURST is reduced to it. -/
def bodyQuotaSet (r : Req) (s : State) : Ans :=
  let p := r.payload
  let code := BitVec.ofNat 16 (u16 p 0)
  if !codeDefined (u16 p 0) then no .badArg s
  else if u8 p 2 ≠ 0 && (u32 p 4 < 10 || u32 p 4 > 3600000) then no .range s
  else
    let b := bucketOf s code
    let rest := fun (c : Cfg) => c.quotas.filter (·.1 ≠ code)
    let s1 := setCfg (fun c => { c with quotas := if u8 p 2 = 0 then rest c else (code, u8 p 2, u32 p 4) :: rest c }) s
    okay (setBucket { b with tokens := min b.tokens (quotaOf s1 code).1 } s1)
def execQuotaSet (r : Req) (s : State) : Res := mbx 0x0A04 (exactly 8) bodyQuotaSet r s

/-- REFILL_MS has passed for a bucket below BURST: one token; a full bucket with a pending count stores 0x0A11 (R525, R526). -/
def execTokenRefill (code : BitVec 16) (s : State) : Res :=
  let b := bucketOf s code
  let burst := (quotaOf s code).1
  if !s.supRuns || b.tokens ≥ burst then .next s
  else
    let b1 := { b with tokens := b.tokens + 1 }
    if b1.tokens = burst && b1.pending ≠ 0 then .next (storeRec (suppRec s b1) true (setBucket { b1 with pending := 0 } s))
    else .next (setBucket b1 s)

/-! ## Records and trace dumps of other devices (R399, R524, R526) -/

/-- One received record: refused with event 0x0A13, counted (0x0A11), or offered with its carried count (R524, R526). -/
def receiveRec (s : State) (x : Word × EvRec × BitVec 16) : State :=
  let r := x.2.1
  if recCrc x.1 r ≠ x.2.2.toNat then event 0x0A13 2 [r.src, 0] s
  else if (match s.newest with | some i => !imgMember i r.src | none => false) then event 0x0A13 2 [r.src, 1] s
  else if r.code = 0x0A11 then
    let b := bucketOf s (r.p1.setWidth 16)
    setBucket { b with pending := b.pending + r.p2.toNat, first := if b.pending = 0 then r.p3 else b.first, last := r.p4, sev := r.sev } s
  else offer { r with supp := 0 } r.supp false s

/-- RECORD frame at a manager (R524). -/
def execRecordFrame (_src : Fin 64) (recs : List (Word × EvRec × BitVec 16)) (s : State) : Res :=
  if s.supRuns && s.isManager then .next (recs.foldl receiveRec s) else .next s

/-- TRACE frame at a manager: the spec gives the dump no use beyond its receipt (R399, Table 12.4). -/
def execTraceFrame (_src : Fin 64) (_words : List Word) (s : State) : Res := .next s

/-! ## The medium (R531 to R538) -/

/-- Good and bad blocks. -/
def goodBlks (s : State) : List Blk := s.arch.blks.filter (!·.retired)
def badBlks (s : State) : Nat := (s.arch.blks.filter (·.retired)).length
/-- Free blocks: good, nothing programmed, no erase running. -/
def freeBlks (s : State) : List Blk := (goodBlks s).filter fun b => b.pages = 0 && !s.arch.erasing.contains b.num

/-- A block changed. -/
def updBlk (n : Nat) (f : Blk → Blk) (s : State) : State :=
  { s with arch := { s.arch with blks := s.arch.blks.map fun b => if b.num = n then f b else b } }

/-- The archive state set, with event 0x0A16 (R538); its reason codes are not stated (row 1). -/
def setArch (st : Nat) (s : State) : State :=
  if s.arch.state = st then s
  else event 0x0A16 3 [s.arch.state, st, (nextFree s).toNat] (stepFree { s with arch := { s.arch with state := st } })

/-- State 3 when the good blocks fall below 90 % of all (R538). -/
def checkGood (s : State) : State :=
  if s.arch.state = 2 && 10 * (goodBlks s).length < 9 * s.arch.blks.length then setArch 3 s else s

/-- A block retired: bad-block table, event 0x0A15 with its cause (R535). -/
def retire (n cause : Nat) (s : State) : State :=
  let e := ((s.arch.blks.find? (·.num = n)).map (·.erases)).getD 0
  let s1 := updBlk n (fun b => { b with retired := true })
    { s with mram := { s.mram with badTable := n :: s.mram.badTable.filter (· ≠ n) },
             arch := { s.arch with openBlk := if s.arch.openBlk = some n then none else s.arch.openBlk } }
  checkGood (event 0x0A15 2 [n, cause, e, badBlks s1] s1)

/-- The block of lowest (or highest) erase count of a list (R536). -/
def leastWorn (l : List Blk) : Option Blk :=
  l.foldl (fun a b => match a with | some x => if b.erases < x.erases then some b else a | none => some b) none
def mostWorn (l : List Blk) : Option Blk :=
  l.foldl (fun a b => match a with | some x => if b.erases > x.erases then some b else a | none => some b) none

/-- Bytes of a held chunk. -/
def chunkOf (s : State) (n : Word) : Option (List Byte) := look s.arch.chunks n

/-- A block's chunks staged for a new block, last in the order of R539 (R537). -/
def scheduleRefresh (n : Nat) (s : State) : State :=
  match s.arch.blks.find? (·.num = n) with
  | none => s
  | some b =>
    if s.arch.refresh.contains n || b.chunks.isEmpty then s
    else { s with arch := { s.arch with
      refresh := s.arch.refresh ++ [n]
      openBlk := if s.arch.openBlk = some n then none else s.arch.openBlk
      staging := s.arch.staging ++ (b.chunks.filterMap (chunkOf s)).map fun c => (7, c) } }

/-- Static wear levelling: counts that differ by more than 200 move the least worn data block's content (R536). -/
def levelWear (s : State) : State :=
  match leastWorn ((goodBlks s).filter (!·.chunks.isEmpty)), mostWorn (goodBlks s), mostWorn (freeBlks s) with
  | some lo, some hi, some f =>
    if hi.erases > lo.erases + 200 then
      let s1 := scheduleRefresh lo.num s
      { s1 with arch := { s1.arch with openBlk := if s1.arch.openBlk.isNone then some f.num else s1.arch.openBlk } }
    else s
  | _, _, _ => s

/-- A block holds a chunk of an incident capture younger than 30 days (R537). -/
def holdsYoung (s : State) (b : Blk) : Bool :=
  b.chunks.any fun n => match chunkOf s n with
    | some c => u8 c 12 = 4 && decide (epochDiff s.epochHeld (w32 c 28) * (s.cyc.e : Int) < 2592000000)
    | none => false

/-- Chunk number that orders the blocks by age. -/
def blkAge (b : Blk) : Word := b.chunks.headD 0

/-- The oldest block of a list. -/
def oldestBlk (l : List Blk) : Option Blk :=
  l.foldl (fun a b => match a with | some x => if epochDiff (blkAge b) (blkAge x) < 0 then some b else a | none => some b) none

/-- Reclaim: free blocks below 5 % of the good ones (R537); state 3 when it yields none and no block is free (R538). -/
def reclaim (s : State) : State :=
  if s.arch.state ≠ 2 || 20 * ((freeBlks s).length + s.arch.erasing.length) ≥ (goodBlks s).length then s
  else
    let data := (goodBlks s).filter fun b => !b.chunks.isEmpty && s.arch.openBlk ≠ some b.num && !s.arch.refresh.contains b.num
    let pick := match oldestBlk (data.filter fun b => !holdsYoung s b) with | some b => some b | none => oldestBlk data
    match pick with
    | some b =>
      let s1 := updBlk b.num (fun x => { x with chunks := [] }) s
      { s1 with arch := { s1.arch with
          erasing := s1.arch.erasing ++ [b.num], chunks := s1.arch.chunks.filter fun c => !b.chunks.contains c.1 } }
    | none => if (freeBlks s).isEmpty && s.arch.openBlk.isNone then setArch 3 s else s

/-! ## Staging and page programs (R532, R533, R539) -/

/-- Earliest and latest epoch of records. -/
def epochSpan (rs : List (Word × EvRec)) : Word × Word :=
  let f := (rs.headD (0, { code := 0, sev := 0 })).2.epoch
  rs.foldl (fun a r => (if epochDiff r.2.epoch a.1 < 0 then r.2.epoch else a.1, if epochDiff r.2.epoch a.2 > 0 then r.2.epoch else a.2)) (f, f)

/-- Full chunks of 126 records staged in record-number order; the records lost to the ring noted (R539). Bounded per call. -/
def stageRecords : Nat → State → State
  | 0, s => s
  | n + 1, s =>
    if s.variant = .WK || s.arch.state ≠ 2 then s
    else
      let old := oldestRec s
      let s1 := if epochDiff s.arch.recNext old < 0 then
          event 0x0A12 3 [s.mram.archNext.toNat, (old - s.mram.archNext).toNat]
            { s with mram := { s.mram with archNext := old }, arch := { s.arch with recNext := old } } else s
      let k := (s1.mram.head - s1.arch.recNext).toNat
      if k < 126 then s1
      else
        let rs := ((s1.mram.ring.drop (k - 126)).take 126).reverse
        let e := epochSpan rs
        stageRecords n (stage 3 1 s1.arch.recNext.toNat e.1 e.2 (rs.flatMap fun x => ringBytes s1 x.1 x.2)
          { s1 with arch := { s1.arch with recNext := s1.arch.recNext + 126 } })

/-- The staged entry of the foremost place, first staged first, and the rest (R539). -/
def takeBest (l : List (Nat × List Byte)) : Option ((Nat × List Byte) × List (Nat × List Byte)) :=
  let best := l.foldl (fun m x => min m x.1) 8
  match l.find? (·.1 = best) with
  | some x => some (x, l.erase x)
  | none => none

/-- Up to `n` staged entries in the order of R539, and the rest. -/
def takeStaged : Nat → List (Nat × List Byte) → List (Nat × List Byte) × List (Nat × List Byte)
  | 0, l => ([], l)
  | n + 1, l => match takeBest l with
    | some (x, r) => let y := takeStaged n r; (x :: y.1, y.2)
    | none => ([], l)

/-- Chunk number and CRC-32 given to staged chunks from a number on; a moved chunk keeps its own (R532, R533). -/
def numberChunks (n : Word) : List (Nat × List Byte) → List (Nat × List Byte)
  | [] => []
  | x :: l =>
    if x.2.length = 4096 then x :: numberChunks n l
    else
      let b := leBytes 4 n.toNat ++ x.2.drop 4
      (x.1, b ++ leBytes 4 (crc32 b)) :: numberChunks (n + 1) l

/-- A page program starts with a full staging page, into the open block or the free block of lowest erase count (R536, R539,
R541). -/
def startPage (s : State) : State :=
  let a := s.arch
  if a.state ≠ 2 || a.writeProtect || !a.page.isEmpty || a.staging.isEmpty || (a.staging.length < a.pageChunks && a.pfail.isNone) then s
  else
    let blk : Option Nat := match a.openBlk with | some b => some b | none => (leastWorn (freeBlks s)).map fun (x : Blk) => x.num
    match blk with
    | none => reclaim s
    | some b =>
      let t := takeStaged a.pageChunks a.staging
      let page := numberChunks a.nextChunk t.1
      emit (.nand 1 (page.flatMap (·.2)))
        { s with arch := { s.arch with
            openBlk := some b, page := page, staging := t.2
            nextChunk := a.nextChunk + wd (t.1.filter fun (x : Nat × List Byte) => x.2.length ≠ 4096).length } }

/-- The archive's own work: records staged, reclaim, the next page (R537, R539). -/
def archivePump (s : State) : State :=
  if s.variant = .WK || s.arch.state ≠ 2 || s.arch.pfail.isSome then s else startPage (reclaim (stageRecords 8 s))

/-- One programmed chunk enters the map, ARCH_NEXT and its capture follow (R533, R539, R540). -/
def mapChunk (b : Nat) (s : State) (c : Nat × List Byte) : State :=
  let n := w32 c.2 0
  let ty := u8 c.2 12
  let item := w32 c.2 20
  let s1 := updBlk b (fun x => { x with chunks := x.chunks ++ [n] })
    { s with arch := { s.arch with blks := s.arch.blks.map fun (x : Blk) => { x with chunks := x.chunks.filter (· ≠ n) } } }
  if (chunkOf s n).isSome then s1
  else
    let s2 := { s1 with arch := { s1.arch with chunks := s1.arch.chunks ++ [(n, c.2)] } }
    if ty = 1 then { s2 with mram := { s2.mram with archNext := item + wd (u16 c.2 14 / 32) } }
    else if ty = 4 && w32 c.2 16 = 0 then
      { s2 with arch := { s2.arch with captures := s2.arch.captures.map fun k => if wd k.number = item then { k with firstChunk := n } else k } }
    else s2

/-- Refreshed blocks whose chunks have all moved are erased (R537). -/
def eraseMoved (s : State) : State :=
  let empty := s.arch.refresh.filter fun n => match s.arch.blks.find? (·.num = n) with | some b => b.chunks.isEmpty | none => true
  { s with arch := { s.arch with
      refresh := s.arch.refresh.filter (!empty.contains ·)
      erasing := s.arch.erasing ++ empty.filter fun n => (s.arch.blks.find? (·.num = n)).any (!·.retired) } }

/-- The power-fail finish goes on: the padded page, then write protect and event 0x0A19 (R541). -/
def pfailPump (s : State) : State :=
  match s.arch.pfail with
  | none => s
  | some (pages, padded) =>
    if !s.arch.page.isEmpty || s.arch.writeProtect then s
    else
      let s1 := startPage s
      if !s1.arch.page.isEmpty then s1
      else event 0x0A19 2 [pages, padded, 0] { s1 with arch := { s1.arch with writeProtect := true, staging := [] } }

/-- The journal records the page programmed; at 4096 chunks the chunk map is checkpointed to NAND and the journal starts anew (R533). -/
def journalPage (n : Nat) (s : State) : State :=
  let a := s.arch
  if a.unsaved + n < 4096 then { s with arch := { a with journal := a.journal + 1, unsaved := a.unsaved + n } }
  else emit (.nand 3 (a.blks.flatMap fun (b : Blk) => b.chunks.flatMap fun c => leBytes 4 c.toNat ++ leBytes 4 b.num))
    { s with arch := { a with journal := 0, unsaved := a.unsaved + n - 4096 } }

/-- A page program ends (R533, R535, R539). -/
def execNandProgramDone (ok : Bool) (s : State) : Res :=
  match s.arch.openBlk with
  | none => .next s
  | some b =>
    if s.arch.page.isEmpty then .next s
    else
      let page := s.arch.page
      let s0 := { s with arch := { s.arch with page := [] } }
      let s1 := if ok then
          let t := page.foldl (mapChunk b) (updBlk b (fun x => { x with pages := x.pages + 1 }) s0)
          let full := (t.arch.blks.find? (·.num = b)).any (·.pages ≥ t.arch.blockPages)
          eraseMoved (journalPage page.length { t with arch := { t.arch with
            openBlk := if full then none else some b
            pfail := t.arch.pfail.map fun x => (x.1 + 1, x.2) } })
        else retire b 0 { s0 with arch := { s0.arch with staging := page.map (fun x => (0, x.2)) ++ s0.arch.staging } }
      .next (pfailPump (archivePump s1))

/-- A block erase ends (R535, R536). -/
def execNandEraseDone (block : Nat) (ok : Bool) (s : State) : Res :=
  if !s.arch.erasing.contains block then .next s
  else
    let s0 := { s with arch := { s.arch with erasing := s.arch.erasing.filter (· ≠ block) } }
    if !ok then .next (archivePump (retire block 1 s0))
    else
      let s1 := updBlk block (fun b => { b with erases := b.erases + 1, pages := 0, chunks := [], retries := 0 }) s0
      let worn := (s1.arch.blks.find? (·.num = block)).any fun b => s1.arch.endurance ≠ 0 && b.erases ≥ s1.arch.endurance
      .next (archivePump (levelWear (if worn then retire block 2 s1 else s1)))

/-- The patrol has read a block: at most `bits` bits corrected in a sector, `retries` re-reads (4: all failed), the age of its
oldest data (R534, R537). -/
def execArchivePatrol (block bits retries ageDays : Nat) (s : State) : Res :=
  match s.arch.blks.find? (·.num = block) with
  | none => .next s
  | some b =>
    if (s.arch.state ≠ 2 && s.arch.state ≠ 3) || b.chunks.isEmpty then .next s
    else
      let s1 := updBlk block (fun b => { b with retries := retries })
        { s with arch := { s.arch with rereads := s.arch.rereads + min retries 3,
                                       crcFails := s.arch.crcFails + (if retries > 3 then 1 else 0) } }
      let s2 := if retries > 3 then
          event 0x0A14 3 [(nextFree s1).toNat, block, (nextFree (stepFree s1)).toNat, 3] (stepFree (stepFree s1)) else s1
      .next (archivePump (if bits ≥ 48 || retries ≥ 1 || ageDays ≥ 180 then scheduleRefresh block s2 else s2))

/-- The device reaches READY: the mount begins (R538). -/
def archiveMounting (s : State) : State := if s.variant = .WK then s else setArch 1 s

/-- The mount ends (R531, R535, R538). -/
def execArchiveMountDone (m : Mount) (s : State) : Res :=
  if s.arch.state ≠ 1 then .next s
  else if !m.qualified || !m.tableOk || m.timedOut then .next (setArch 4 s)
  else
    let first := s.arch.blks.isEmpty
    let blks := if first then (List.range m.blocks).map fun n => { num := n, retired := m.badBlocks.contains n } else s.arch.blks
    let s1 : State := { s with
      mram := { s.mram with badTable := if first then m.badBlocks else s.mram.badTable },
      arch := { s.arch with
        blks := blks, pageChunks := m.pageChunks, blockPages := m.blockPages, endurance := m.endurance
        openBlk := if m.torn > 0 then none else s.arch.openBlk
        replays := satAdd s.arch.replays s.arch.journal, recNext := s.mram.archNext, page := [], staging := [], refresh := [], erasing := []
        writeProtect := false, pfail := none, resuming := false } }
    let s2 := event 0x0A10 1 [2, (goodBlks s1).length, s.arch.journal, m.torn] s1
    .next (archivePump (checkGood (setArch 2 s2)))

/-! ## Archive commands (R533, R538) -/

/-- ARCHIVE_STATUS (R538, Table 15.15). -/
def bodyArchiveStatus (r : Req) (s : State) : Ans :=
  let a := s.arch
  let held := a.chunks.filter fun c => u8 c.2 12 ≠ 0
  let out := leBytes 48 (pack [(8, a.state), (24, 0), (32, (goodBlks s).length), (32, badBlks s),
    (32, ((leastWorn (goodBlks s)).map (·.erases)).getD 0), (32, ((mostWorn (goodBlks s)).map (·.erases)).getD 0), (32, a.refresh.length),
    (32, ((held.head?).map fun c => u32 c.2 24).getD 0), (32, ((held.getLast?).map fun c => u32 c.2 28).getD 0), (32, a.rereads),
    (32, a.crcFails), (32, a.replays), (32, a.nCaptures)])
  give out (if clears r.payload 0 then { s with arch := { s.arch with rereads := 0, crcFails := 0, replays := 0, nCaptures := 0 } } else s)
def execArchiveStatus (r : Req) (s : State) : Res := mbx 0x0A06 (exactly 1) bodyArchiveStatus r s

/-- The directory, built at the time of reading (Table 17.4). -/
def directory (s : State) : List Byte :=
  let cs := (s.arch.captures.filter fun c => c.parts ≠ 0).take 255
  leBytes 16 (pack [(32, ((s.arch.chunks.head?).map (·.1.toNat)).getD 0), (32, ((s.arch.chunks.getLast?).map (·.1.toNat)).getD 0),
    (32, cs.length)]) ++
  cs.flatMap fun c => leBytes 16 (pack [(32, c.firstChunk.toNat), (32, c.parts), (32, c.trigger.toNat), (16, c.code.toNat), (8, c.subject), (8, c.sev)])

/-- ARCHIVE_READ (R533, R534): by DMA only; a chunk of a block whose latest patrol needed re-reads needs them again. -/
def bodyArchiveRead (r : Req) (s : State) : Ans :=
  let n := w32 r.payload 0
  if r.dma.isNone then no .badArg s
  else if n = 0xFFFFFFFF then give (leBytes 8 n.toNat ++ (directory s ++ List.replicate 4096 0).take 4096) s
  else match chunkOf s n with
    | none => no .stale s
    | some c =>
      let b := s.arch.blks.find? (·.chunks.contains n)
      let k := (b.map (·.retries)).getD 0
      let bn := (b.map (·.num)).getD 0
      let st := if k = 0 then 0 else if k ≤ 3 then 1 else 2
      let s1 := { s with arch := { s.arch with rereads := s.arch.rereads + min k 3, crcFails := s.arch.crcFails + (if st = 2 then 1 else 0) } }
      let s2 := if st = 1 then scheduleRefresh bn s1
        else if st = 2 then event 0x0A14 3 [n.toNat, bn, (nextFree s1).toNat, 3] (stepFree s1) else s1
      give (leBytes 8 (pack [(32, n.toNat), (8, st)]) ++ c) s2
def execArchiveRead (r : Req) (s : State) : Res := mbx 0x0A07 (exactly 4) bodyArchiveRead r s

/-- The whole-hour snapshot of every enabled histogram (R539). -/
def execHistoHourlySnapshot (s : State) : Res := if s.isManager then .next (archivePump (snapshotHistos [] s)) else .next s

/-! ## Incident captures (R540) -/

/-- Epochs in a number of milliseconds, rounded up. -/
def epochsIn (s : State) (ms : Nat) : Nat := ceilDiv ms s.cyc.e

/-- Full parts of a capture's byte stream staged at a place of R539's order; bounded by the part count. -/
def flushCapture : Nat → Nat → Capture → State → Capture × State
  | 0, _, c, s => (c, s)
  | n + 1, place, c, s =>
    if c.tail.length < 4060 then (c, s)
    else
      let body := chunkBody s 4 c.number c.parts c.start c.last (c.tail.take 4060)
      flushCapture n place { c with tail := c.tail.drop 4060, parts := c.parts + 1 }
        { s with arch := { s.arch with staging := s.arch.staging ++ [(place, body)] } }

/-- A capture stored. -/
def setCapture (c : Capture) (s : State) : State :=
  { s with arch := { s.arch with captures := s.arch.captures.map fun k => if k.number = c.number then c else k } }

/-- Images appended to a capture (R540, Table 17.3). -/
def captureImages (place : Nat) (is : List Image) (c : Capture) (s : State) : State :=
  let c1 := { c with
    tail := c.tail ++ is.flatMap imageBytes, images := c.images + is.length
    last := match is.getLast? with | some i => i.epoch | none => c.last }
  let r := flushCapture (c1.tail.length / 4060 + 1) place c1 s
  setCapture r.1 r.2

/-- The open capture. -/
def openCapture (s : State) : Option Capture := s.arch.captures.find? (!·.closed)

/-- One trigger: it extends the open capture within 600 s of its first trigger, or opens one (R540). -/
def captureTrigger (t : Word) (a : Alarm) (s : State) : State :=
  let post := t + wd (epochsIn s 60000)
  match openCapture s with
  | some c =>
    let lim := c.firstTrigger + wd (epochsIn s 600000)
    let e := if epochDiff post lim < 0 then post else lim
    setCapture { c with end_ := if epochDiff e c.end_ > 0 then e else c.end_ } s
  | none =>
    let from0 := t - wd (min (epochsIn s 60000) 3000)
    let start := match s.arch.captures.head? with
      | some c => if c.end_ = c.firstTrigger + wd (epochsIn s 600000) && epochDiff from0 c.end_ ≤ 0 then c.end_ + 1 else from0
      | none => from0
    let k : Capture := {
      number := s.arch.capNext, code := a.code, subject := a.subject, sev := a.sev, trigger := t, firstTrigger := t
      start := start, end_ := post, tail := leBytes 16 (pack [(16, a.code.toNat), (8, a.subject), (8, a.sev), (32, 0), (32, t.toNat), (32, start.toNat)]) }
    let s1 := { s with arch := { s.arch with captures := k :: s.arch.captures, nCaptures := s.arch.nCaptures + 1, capNext := s.arch.capNext + 1 } }
    let pre := (s1.brd.images.filter fun i => epochDiff i.epoch start ≥ 0 && epochDiff i.epoch t < 0).reverse
    event 0x0A17 1 [a.code.toNat, a.subject, t.toNat, k.number] (captureImages 2 pre k s1)

/-- An image installed or published by a manager: triggers by entries of severity 3 or more that are new or risen, and the image
into the open capture (R540). -/
def captureImage (before : List Alarm) (i : Image) (s : State) : State :=
  if s.variant = .WK || !s.isManager || s.arch.state ≠ 2 then s
  else
    let hits := (imgAlarms i []).filter fun a => a.sev ≥ 3 && !(before.any fun b => b.code = a.code && b.subject = a.subject && b.sev ≥ 3)
    let s1 := hits.foldl (fun t a => captureTrigger i.epoch a t) s
    match openCapture s1 with
    | some c => if epochDiff i.epoch c.start ≥ 0 && epochDiff i.epoch c.end_ ≤ 0 then captureImages 4 [i] c s1 else s1
    | none => s1

/-- An incident capture reaches its end (R540): its trailer in the last part, event 0x0A18. -/
def execIncidentCaptureClose (s : State) : Res :=
  match openCapture s, s.newest with
  | some c, some i =>
    if epochDiff i.epoch c.end_ < 0 then .next s
    else
      let planned := (c.end_ - c.start).toNat + 1
      let chunks := c.parts + (if c.tail.length + 16 > 4060 then 2 else 1)
      let trailer := leBytes 16 (pack [(32, c.last.toNat), (32, c.images), (32, planned - c.images), (32, chunks)])
      let add := fun (k : Capture) (pay : List Byte) (t : State) =>
        ({ k with parts := k.parts + 1, tail := [] }, { t with arch := { t.arch with
            staging := t.arch.staging ++ [(4, chunkBody t 4 k.number k.parts k.start k.last pay)] } })
      let r := if c.tail.length + 16 > 4060 then let x := add c c.tail s; add x.1 trailer x.2 else add c (c.tail ++ trailer) s
      let s1 := setCapture { r.1 with closed := true } r.2
      .next (archivePump (event 0x0A18 1 [c.number, c.firstChunk.toNat, chunks, planned - c.images] s1))
  | _, _ => .next s

/-! ## Power fail (R541) -/

/-- POWER_FAIL_N falls: the partly filled page is padded with TYPE 0 chunks, what does not fit is lost. -/
def execPowerFailNFall (s : State) : Res :=
  if s.variant = .WK || s.arch.pfail.isSome then .next { s with arch := { s.arch with resuming := false } }
  else
    let t := (takeStaged s.arch.pageChunks s.arch.staging).1
    let padded := if t.isEmpty then 0 else s.arch.pageChunks - t.length
    let fill := List.replicate padded (8, chunkBody s 0 0 0 0 0 [])
    .next (pfailPump { s with arch := { s.arch with staging := t ++ fill, pfail := some (0, padded), resuming := false } })

/-- POWER_FAIL_N rises without a reset: the resume delay runs. -/
def execPowerFailNRise (s : State) : Res :=
  .next { s with arch := { s.arch with resuming := s.arch.pfail.isSome } }

/-- 100 ms after POWER_FAIL_N rose: archiving resumes from ARCH_NEXT. -/
def execArchiveResume (s : State) : Res :=
  if !s.arch.resuming then .next s
  else .next (archivePump { s with arch := { s.arch with resuming := false, pfail := none, writeProtect := false, recNext := s.mram.archNext } })

end Sys2Proof.Machine
end

