-- ==== Sys2Proof/Machine/Real.lean ====
section
/-! DEFINITION. Arithmetic on rational numbers for chapters 4 to 6: square root, sine and arc tangent to within 2^−90, vectors and matrices, WGS 84
positions and the tangent plane, and the device's own fixed-point results (R148, R150, R167, R197, R225; row 5). -/

namespace Sys2Proof.Machine

/-- A vector; a matrix by rows. -/
abbrev Vec := List Rat
abbrev Mat := List Vec

/-- x held by the device in fixed point: the resolution of a result is not stated and its rounding is one of the two neighbours (row 5);
the first argument names the result. -/
def fixed (site : Nat) (x : Rat) : Rat :=
  let b := 2 ^ Config.fracBits site
  openDiv (100 + site) (x.num * (b : Nat)) x.den / ((b : Nat) : Rat)

/-- x in a published format of `frac` fraction bits, its rounding open (row 2). -/
def toUnits (site frac : Nat) (x : Rat) : Int := openDiv (100 + site) (x.num * (2 ^ frac : Nat)) x.den

/-- x cut below 2^−100. -/
def trim (x : Rat) : Rat := (x * (2 ^ 100 : Nat)).floor / ((2 ^ 100 : Nat) : Rat)

/-- √x to within 2^−50 relative to 1; 0 of a negative number. -/
def sqrtQ (x : Rat) : Rat := Nat.sqrt ((x * (2 ^ 120 : Nat)).floor.toNat) / ((2 ^ 60 : Nat) : Rat)

/-- π to 50 places. -/
def pi50 : Nat := 314159265358979323846264338327950288419716939937510
def piQ : Rat := pi50 / ((10 ^ 50 : Nat) : Rat)

/-- Whole number nearest to x. -/
def nearest (x : Rat) : Int := (x + 1 / 2).floor

/-- x reduced into (−m/2, m/2] (R154). -/
def wrapTo (m x : Rat) : Rat := x - m * (x / m - 1 / 2).ceil
/-- An angle in radians reduced into (−π, π]. -/
def wrapRad (x : Rat) : Rat := wrapTo (2 * piQ) x

/-- The first `n` terms of a series whose next term is t and whose terms change by −x / ((k + 1)(k + 2)). -/
def trigSeries (x : Rat) : Nat → Nat → Rat → Rat
  | 0, _, _ => 0
  | n + 1, k, t => t + trigSeries x n (k + 2) (trim (-t * x / (((k + 1) * (k + 2) : Nat) : Rat)))

/-- sin and cos of an angle in radians. -/
def sinQ (x : Rat) : Rat := let y := trim (wrapRad x); trigSeries (y * y) 30 1 y
def cosQ (x : Rat) : Rat := let y := trim (wrapRad x); trigSeries (y * y) 30 0 1

/-- The first `n` terms of the arc tangent's series. -/
def atanSeries (x : Rat) : Nat → Nat → Rat → Rat
  | 0, _, _ => 0
  | n + 1, k, t => t / (k : Nat) + atanSeries x n (k + 2) (trim (-t * x))

/-- Arc tangent for 0 ≤ x ≤ 1: the argument halved twice. -/
def atanUnit (x : Rat) : Rat :=
  let half := fun (z : Rat) => trim (z / (1 + sqrtQ (1 + z * z)))
  let y := half (half x)
  4 * atanSeries (y * y) 40 1 y

/-- Angle of the vector (x, y) in (−π, π]; 0 of the zero vector. -/
def atan2Q (y x : Rat) : Rat :=
  let ax := max x (-x)
  let ay := max y (-y)
  let a := if ax = 0 && ay = 0 then 0 else if ay ≤ ax then atanUnit (ay / ax) else piQ / 2 - atanUnit (ax / ay)
  let b := if x < 0 then piQ - a else a
  if y < 0 then -b else b

/-! ## Vectors and matrices -/

/-- Component. -/
def vAt (v : Vec) (i : Nat) : Rat := v.getD i 0
def mAt (m : Mat) (i j : Nat) : Rat := vAt (m.getD i []) j
/-- Scalar product. -/
def dot (a b : Vec) : Rat := ((a.zip b).map fun p => p.1 * p.2).sum
/-- Sum, and a multiple, of vectors. -/
def vAdd (a b : Vec) : Vec := (a.zip b).map fun p => p.1 + p.2
def vScale (k : Rat) (a : Vec) : Vec := a.map (k * ·)
/-- Matrix from its entries. -/
def mkMat (r c : Nat) (f : Nat → Nat → Rat) : Mat := (List.range r).map fun i => (List.range c).map (f i)
/-- Matrix times vector, transpose, product, sum. -/
def mVec (m : Mat) (v : Vec) : Vec := m.map (dot · v)
def mT (m : Mat) : Mat := mkMat (m.headD []).length m.length fun i j => mAt m j i
def mMul (a b : Mat) : Mat := let t := mT b; a.map fun r => t.map (dot r)
def mAdd (a b : Mat) : Mat := (a.zip b).map fun p => vAdd p.1 p.2
/-- A matrix with the rows and columns in a list cleared. -/
def mClear (ix : List Nat) (m : Mat) : Mat := m.zipIdx.map fun r => r.1.zipIdx.map fun c => if ix.contains r.2 || ix.contains c.2 then 0 else c.1

/-- Rz(ψ)·Ry(θ)·Rx(φ) (R150). -/
def attitude (psi theta phi : Rat) : Mat :=
  let (cs, ss) := (cosQ psi, sinQ psi)
  let (ct, st) := (cosQ theta, sinQ theta)
  let (cp, sp) := (cosQ phi, sinQ phi)
  [[cs * ct, cs * st * sp - ss * cp, cs * st * cp + ss * sp], [ss * ct, ss * st * sp + cs * cp, ss * st * cp - cs * sp], [-st, ct * sp, ct * cp]]

/-! ## WGS 84 and the tangent plane (R148) -/

/-- Semi-major axis in metres and squared eccentricity of the WGS 84 ellipsoid. -/
def wgsA : Rat := 6378137
def wgsF : Rat := 1000000000 / 298257223563
def wgsE2 : Rat := wgsF * (2 - wgsF)

/-- Radians of a value in units of 2^−31 · 180°, and back. -/
def geoRad (v : Int) : Rat := v * piQ / ((2 ^ 31 : Nat) : Rat)
def geoUnits (site : Nat) (r : Rat) : Word := wi (toUnits site 31 (wrapRad r / piQ))

/-- Earth-centred coordinates of a geodetic position: latitude and longitude in radians, height in metres. -/
def ecef (lat lon h : Rat) : Vec :=
  let n := wgsA / sqrtQ (1 - wgsE2 * sinQ lat * sinQ lat)
  [(n + h) * cosQ lat * cosQ lon, (n + h) * cosQ lat * sinQ lon, (n * (1 - wgsE2) + h) * sinQ lat]

/-- North and east of an earth-centred vector at an origin. -/
def northEast (o : Rat × Rat) (d : Vec) : Rat × Rat :=
  (dot [-(sinQ o.1 * cosQ o.2), -(sinQ o.1 * sinQ o.2), cosQ o.1] d, dot [-(sinQ o.2), cosQ o.2, 0] d)

/-- An earth-centred position in the tangent plane at an origin, its down component discarded (R148). -/
def toPlane (o : Rat × Rat) (p : Vec) : Rat × Rat := northEast o (vAdd p (vScale (-1) (ecef o.1 o.2 0)))

/-- A point of the tangent plane at an origin as an earth-centred position. -/
def fromPlane (o : Rat × Rat) (n e : Rat) : Vec :=
  vAdd (ecef o.1 o.2 0) (vAdd (vScale n [-(sinQ o.1 * cosQ o.2), -(sinQ o.1 * sinQ o.2), cosQ o.1]) (vScale e [-(sinQ o.2), cosQ o.2, 0]))

/-- The geodetic latitude and longitude of an earth-centred position, the latitude improved `k` times. -/
def geodetic (p : Vec) (k : Nat) : Rat × Rat :=
  let r := sqrtQ (vAt p 0 * vAt p 0 + vAt p 1 * vAt p 1)
  let step := fun (lat : Rat) =>
    let n := wgsA / sqrtQ (1 - wgsE2 * sinQ lat * sinQ lat)
    atan2Q (vAt p 2 + wgsE2 * n * sinQ lat) r
  ((List.range k).foldl (fun lat _ => trim (step lat)) (atan2Q (vAt p 2) (r * (1 - wgsE2))), atan2Q (vAt p 1) (vAt p 0))

/-- The origin from which an earth-centred position reads a point of the plane, from a first guess improved `k` times (R152). -/
def originFor (p : Vec) (n e : Rat) : Nat → Rat × Rat → Rat × Rat
  | 0, o => o
  | k + 1, o =>
    let q := toPlane o p
    originFor p n e k (geodetic (fromPlane o (q.1 - n) (q.2 - e)) 8)

end Sys2Proof.Machine
end

