-- ==== Sys2Proof/Machine/Samples.lean ====
section
/-! DEFINITION. Sensor samples on the parsing device: stream descriptors, parsers, stamping, and the records contributed
to the Board (R140 to R146, R484). -/

namespace Sys2Proof.Machine

/-! ## Stream descriptors (Table 5.2) -/

/-- Field of stream `n`'s descriptor. -/
def strFld (s : State) (n lo w : Nat) : Nat := bits (ule (s.cfg.streams.getD n []) 0 32) lo w
/-- Stream `n` is defined. -/
def strDefined (s : State) (n : Nat) : Bool := !(s.cfg.streams.getD n []).isEmpty
/-- Stream `n` is enabled. -/
def strOn (s : State) (n : Nat) : Bool := strDefined s n && strFld s n 60 1 = 1
/-- Parser arguments of stream `n`. -/
def strArgs (s : State) (n : Nat) : List Byte := (s.cfg.streams.getD n []).drop 32
/-- KIND of stream `n`. -/
def strKind (s : State) (n : Nat) : Nat := strFld s n 8 8
/-- Enabled streams that this device parses from a source type. -/
def strFrom (s : State) (types : List Nat) : List Nat :=
  (List.range 48).filter fun n => strOn s n && strFld s n 16 8 = s.dev && types.contains (strFld s n 24 8)

/-- Fraction bits of a quantity's format (Table 5.1): Q16.16 16, Q4.28 28, 2^−31 · 180° 31, 2^−32 turn 32. -/
def fracBits (kind q : Nat) : Nat :=
  match kind, q with
  | 1, 2 | 5, 2 => 16
  | 1, _ | 5, _ => 31
  | 6, 0 => 32
  | 6, _ => 28
  | 7, 2 => 16
  | 7, _ => 28
  | 8, 1 => 32
  | _, _ => 16

/-- An extracted integer times GAIN (Q16.16), rounded to the quantity's format (R484). -/
def scaleInt (frac : Nat) (raw gain : Int) : Int := raw * gain * (2 ^ (frac - 16) : Nat)

/-! ## Stamps and epochs (R73, R144) -/

/-- A reading of the counter taken before its latest step, as device time now counts (R73, R90). Readings that a step back has made to occur
twice are taken as later than it, unless they lie ahead of the counter (row 2). -/
def rebase (s : State) (ns : Nat) : Nat :=
  match s.time.stepped with
  | some (from_, d) => if (0 ≤ d && ns ≤ from_) || (d < 0 && s.time.ns < ns && ns ≤ from_) then movedBy d ns else ns
  | none => ns

/-- The epoch during which an instant of device time fell (R73); 0 while none is held. -/
def epochAt (s : State) (ns : Nat) : Word :=
  if !s.cyc.holds then 0
  else if ns ≥ s.cyc.instant then s.cyc.epoch
  else s.cyc.epoch - BitVec.ofNat 32 (ceilDiv (s.cyc.instant - ns) (s.cyc.e * 1000000))

/-- The epoch during which a stamp was taken, whichever timebase it was read in (R73). -/
def epochOf (s : State) (ns : Nat) : Word := epochAt s (rebase s ns)

/-- A 32-bit stamp as the instant of device time nearest to now (R71, R101). -/
def extendStamp (s : State) (st : Word) : Nat := ((s.time.ns : Int) + (st - s.stamp).toInt).toNat

/-- A UTC time of day in ns, placed in the UTC day nearest to device time minus UTC_OFFSET (R484). -/
def placeTod (s : State) (tod : Nat) : Nat :=
  let day := 86400 * 1000000000
  let utc := ((s.time.ns : Int) - s.time.utc * 1000000000).toNat
  let base := utc / day * day + tod
  if base + day / 2 < utc then base + day else if utc + day / 2 < base then base - day else base

/-- The stamp of a parsed sample (R144): its source time under policy 0, its arrival less SENSOR_LAT under policy 1; none when policy 0 finds no
time. UTC_OFFSET is added to a parsed time field, not to a filter channel's stamp. -/
def sampleStamp (s : State) (n : Nat) (arrival : Nat) (src : Option Nat) : Option Nat :=
  if strFld s n 56 2 = 1 then some (arrival - strFld s n 96 32 * 1000)
  else src.map fun (t : Nat) => if strFld s n 58 1 = 1 && strFld s n 24 8 ≠ 0 then (Int.ofNat t + s.time.utc * 1000000000).toNat else t

/-! ## Contribution of a sample (R145, R146) -/

/-- A sample counted in REJECTED (R146). -/
def rejectSample (n : Nat) (s : State) : State :=
  { s with fus := { s.fus with streams := upd s.fus.streams n fun t => { t with rejected := satInc t.rejected } } }

/-- The record of Table 5.3. -/
def sampleBody (s : State) (n stamp : Nat) (v : List Int) : Nat :=
  pack [(32, stamp), (32, (epochOf s stamp).toNat), (8, n), (2, 0), (1, strFld s n 56 2), (5, 0), (16, 0),
    (32, intBits 32 (v.getD 0 0)), (32, intBits 32 (v.getD 1 0)), (32, intBits 32 (v.getD 2 0))]

/-- A member's sample waits for its next contribution; a sample that fails its checks is rejected (R145, R146). -/
def contribute (n : Nat) (stamp : Option Nat) (v : Option (List Int)) (s : State) : State :=
  match stamp, v with
  | some t, some vs =>
    if s.inRun then { s with mem := { s.mem with samples := s.mem.samples ++ [sampleBody s n t vs] } } else s
  | _, _ => rejectSample n s

/-! ## Field specs of CAN_FIELDS and UDP_FIELDS (R484) -/

/-- Bytes of a field spec at offset `o` of the arguments: none when it does not fit the data; zero when not PRESENT. -/
def specField (args : List Byte) (o : Nat) (data : List Byte) : Option (Option Int) :=
  let f := u8 args (o + 1)
  let n := 2 ^ bits f 0 2
  if !bit f 4 then some none
  else if u8 args o + n > data.length then none
  else
    let b := (data.drop (u8 args o)).take n
    let raw := leNat (if bit f 2 then b.reverse else b)
    some (some (if bit f 3 then sext (8 * n) raw else raw))

/-- V1, V2, V3 by their specs; none when the data are shorter than a PRESENT spec. -/
def specValues (kind : Nat) (args : List Byte) (data : List Byte) : Option (List Int) :=
  [0, 1, 2].mapM fun q => (specField args (8 + 8 * q) data).map fun v =>
    match v with
    | some raw => scaleInt (fracBits kind q) raw (i32 args (12 + 8 * q))
    | none => 0

/-- The time field: 32-bit values as a stamp, 64-bit values as TAI (R484). -/
def specTime (s : State) (args : List Byte) (data : List Byte) : Option Nat :=
  match specField args 32 data with
  | some (some t) => some (if bits (u8 args 33) 0 2 = 3 then t.toNat else extendStamp s (wi t))
  | _ => none

/-- Data for one stream through its field specs. -/
def parseFields (n arrival : Nat) (data : List Byte) (s : State) : State :=
  let args := strArgs s n
  contribute n (sampleStamp s n arrival (specTime s args data))
    (if (specField args 32 data).isNone then none else specValues (strKind s n) args data) s

/-! ## Sentences (R484, Table 15.5; field places as IEC 61162-1, row 15) -/

/-- The comma-separated fields of a sentence's characters up to its checksum mark. -/
def sentFields (cs : List Byte) : List (List Byte) :=
  ((cs.takeWhile (· ≠ 0x2A)).splitOn (0x2C : Byte))

/-- Decimal digits to a number; none on another character. -/
def digits (cs : List Byte) : Option Nat :=
  cs.foldl (fun a c => a.bind fun n => if 0x30 ≤ c.toNat ∧ c.toNat ≤ 0x39 then some (10 * n + (c.toNat - 0x30)) else none) (some 0)

/-- A decimal number as numerator over a power of ten; none when empty or malformed. -/
def decimal (cs : List Byte) : Option (Int × Nat) :=
  let neg := cs.head? = some 0x2D
  let body := if neg then cs.drop 1 else cs
  let ip := body.takeWhile (· ≠ 0x2E)
  let fp := (body.drop ip.length).drop 1
  if body.isEmpty then none
  else match digits (ip ++ fp) with
    | some n => some (if neg then -(n : Int) else n, 10 ^ fp.length)
    | none => none

/-- A number times `num` over `den`, rounded to a format of `frac` fraction bits. -/
def toFormat (frac : Nat) (x : Int × Nat) (num den : Nat) : Int := roundDiv (x.1 * num * (2 ^ frac : Nat)) (x.2 * den : Nat)

/-- Latitude or longitude ddmm.m… with its hemisphere, in 2^−31 · 180°: degrees are the digits above the last two of the
whole minutes. -/
def geo (cs hemi : List Byte) : Option Int :=
  (decimal cs).map fun x =>
    let unit : Int := Int.ofNat x.2
    let deg : Int := x.1 / (100 * unit)
    let minutes : Int := x.1 - deg * (100 * unit)
    let v : Int := roundDiv ((deg * 60 * unit + minutes) * 2147483648) (60 * unit * 180)
    if hemi = [0x53] ∨ hemi = [0x57] then -v else v

/-- hhmmss.s… as ns of the day. -/
def tod (cs : List Byte) : Option Nat :=
  (decimal cs).map fun x =>
    let whole := x.1.toNat / x.2
    (whole / 10000 * 3600 + whole / 100 % 100 * 60 + whole % 100) * 1000000000 + x.1.toNat % x.2 * 1000000000 / x.2

/-- Three-letter sentence formatters of parsers 2 to 7. -/
def formatter : Nat → List Byte
  | 2 => [0x47, 0x47, 0x41] | 3 => [0x47, 0x4E, 0x53] | 4 => [0x48, 0x44, 0x54]
  | 5 => [0x54, 0x48, 0x53] | 6 => [0x4D, 0x57, 0x56] | _ => [0x56, 0x42, 0x57]

/-- Speed in m/s of a number and its unit letter: N knots, K km/h, M m/s. -/
def speed (x : Int × Nat) (unit : List Byte) : Int :=
  if unit = [0x4E] then toFormat 16 x 1852 3600 else if unit = [0x4B] then toFormat 16 x 1000 3600 else toFormat 16 x 1 1

/-- The values of a sentence under a parser, none when its sample is invalid (Table 15.5). -/
def sentValues (parser : Nat) (f : List (List Byte)) : Option (List Int) :=
  let g := fun i => f.getD i []
  match parser with
  | 2 => if g 6 = [] ∨ g 6 = [0x30] then none else do
      let la ← geo (g 2) (g 3)
      let lo ← geo (g 4) (g 5)
      let a ← decimal (g 9)
      let h := (decimal (g 11)).getD (0, 1)
      some [la, lo, toFormat 16 a 1 1 + toFormat 16 h 1 1]
  | 3 => if (g 6).all (· = 0x4E) then none else do
      let la ← geo (g 2) (g 3)
      let lo ← geo (g 4) (g 5)
      let a ← decimal (g 9)
      let h := (decimal (g 10)).getD (0, 1)
      some [la, lo, toFormat 16 a 1 1 + toFormat 16 h 1 1]
  | 4 => (decimal (g 1)).map fun x => [toFormat 32 x 1 360, 0, 0]
  | 5 => if g 2 = [0x56] ∨ g 2 = [0x53] then none else (decimal (g 1)).map fun x => [toFormat 32 x 1 360, 0, 0]
  | 6 => if g 5 = [0x56] ∨ g 2 = [0x54] then none else do
      let d ← decimal (g 1)
      let v ← decimal (g 3)
      some [speed v (g 4), toFormat 32 d 1 360, 0]
  | _ => if g 3 = [0x56] then none else do
      let a ← decimal (g 1)
      let b ← decimal (g 2)
      some [speed a [0x4E], speed b [0x4E], 0]

/-- A sentence is one that the stream's parser takes: talker and formatter (Table 15.5). -/
def sentMatches (s : State) (n : Nat) (cs : List Byte) : Bool :=
  let p := strFld s n 40 8
  let talker := (strArgs s n).take 2
  (2 ≤ p && p ≤ 7) && (cs.drop 3).take 3 = formatter p && (talker = [0x2A, 0x2A] || (cs.drop 1).take 2 = talker)

/-- A valid sentence offered to the device's streams of a source (R437, R441). -/
def offerSentence (types : List Nat) (index : Option Nat) (arrival : Nat) (cs : List Byte) (s : State) : State :=
  let hit := fun n => sentMatches s n cs && (match index with | some i => strFld s n 32 8 = i | none => true)
  ((strFrom s types).filter hit).foldl (fun t n =>
    let f := sentFields cs
    let p := strFld s n 40 8
    let time := if p = 2 ∨ p = 3 then (tod (f.getD 1 [])).map (placeTod s) else none
    contribute n (sampleStamp s n arrival time) (sentValues p f) t) s

/-! ## Filter channels, CAN frames, sensor datagrams -/

/-- Flags of R146 in a filter sample's flag bits (Table 4.5 from bit 112). -/
def badFlags (f : BitVec 9) : Bool := bit f.toNat 0 || bit f.toNat 1 || bit f.toNat 2 || bit f.toNat 3 || bit f.toNat 6

/-- One quantity of the FILTER parser: a channel's newest value times GAIN plus OFFSET; none when its sample is flagged. -/
def filterQuantity (s : State) (kind q : Nat) (args : List Byte) : Option Int :=
  let ch := u8 args (12 * q)
  if ch = 0xFF then some 0
  else
    let c := s.filt.getD ch {}
    if !c.hasSample || badFlags c.flags then none
    else some (roundDiv (c.value * i32 args (12 * q + 4) * (2 ^ fracBits kind q : Nat)) ((2 ^ 47 : Nat) : Int) + i32 args (12 * q + 8))

/-- A filter channel's new sample offered to the device's streams (R144, Table 15.5). -/
def offerFilter (ch : Nat) (s : State) : State :=
  ((strFrom s [0]).filter fun n => strFld s n 32 8 = ch && strFld s n 40 8 = 1).foldl (fun t n =>
    let args := strArgs s n
    let st := (s.filt.getD ch {}).stamp
    contribute n (sampleStamp s n st (some st)) ([0, 1, 2].mapM fun q => filterQuantity s (strKind s n) q args) t) s

/-- A CAN frame offered to the device's streams (R423, Table 15.5). -/
def offerCan (ch : Nat) (f : CanFrame) (stamp : Nat) (s : State) : State :=
  let hit := fun n =>
    let a := strArgs s n
    let m := bits (u32 a 4) 0 29
    strFld s n 32 8 = ch && strFld s n 40 8 = 16 && !f.rtr && f.ide = bit (u32 a 0) 31 && (f.id &&& m) = (bits (u32 a 0) 0 29 &&& m)
  ((strFrom s [3]).filter hit).foldl (fun t n => parseFields n stamp f.data t) s

/-- A sensor datagram offered to the device's streams (Table 15.5). -/
def offerDatagram (mac : Nat) (src : Word) (port : BitVec 16) (data : List Byte) (stamp : Nat) (s : State) : State :=
  let hit := fun n =>
    let a := strArgs s n
    strFld s n 40 8 = 17 && u16 a 0 = port.toNat && (u32 a 4 = 0 || u32 a 4 = src.toNat)
  ((strFrom s [1 + mac]).filter hit).foldl (fun t n => parseFields n stamp data t) s

end Sys2Proof.Machine
end

