-- ==== Sys2Proof/Machine/Filters.lean ====
section
/-! DEFINITION. The filter chain and the analog outputs: sample arithmetic, stamps, settling, banks, DC blocking, codes
and readback (chapter 4, class 0x06). -/

namespace Sys2Proof.Machine

/-! ## Channel configuration (R105 to R107, Table 4.2) -/

/-- The written channel word. -/
def chSet (s : State) (ch : Nat) : BitVec 64 := s.cfg.filters.getD ch chCfgReset
/-- Channel run-time state. -/
def filtOf (s : State) (ch : Nat) : Filt := s.filt.getD ch {}
/-- The channel word in force (R107). -/
def chWord (s : State) (ch : Nat) : BitVec 64 := (filtOf s ch).inForce.getD (chSet s ch)
/-- Channel run-time state changed. -/
def updFilt (ch : Nat) (f : Filt → Filt) (s : State) : State := { s with filt := upd s.filt ch f }

/-- CIC decimation. -/
def chD1 (w : BitVec 64) : Nat := fld w 23 9
/-- FIR decimation. -/
def chRF (w : BitVec 64) : Nat := 2 ^ fld w 32 3
/-- Output decimation. -/
def chD3 (w : BitVec 64) : Nat := fld w 35 6 + 1
/-- Median window, 1 when off (R113). -/
def chW (w : BitVec 64) : Nat := 2 * fld w 20 3 + 1
/-- DC-blocking stage on. -/
def chDcb (w : BitVec 64) : Bool := fld w 19 1 = 1
/-- INPUT_MODE. -/
def chMode (w : BitVec 64) : Nat := fld w 16 2
/-- EN. -/
def chEn (w : BitVec 64) : Bool := fld w 0 1 = 1
/-- DCB_CORNER. -/
def chCorner (w : BitVec 64) : Nat := fld w 48 16

/-- The defined fields of a written word; reserved bits read 0 (R12). -/
def chMask (w : BitVec 64) : BitVec 64 := w &&& 0xFFFF01FFFFFB0001#64
/-- The fields that FILTER_CONFIG may change on an enabled channel, cleared (R107). -/
def chFixed (w : BitVec 64) : BitVec 64 := w &&& 0x000001FFFFF30000#64

/-- A configuration that R105 or Table 4.2 refuses with RANGE. -/
def chRange (w : BitVec 64) : Bool :=
  chD1 w < 16 || chD1 w > 256 || fld w 32 3 > 6 || fld w 20 3 > 4 || chMode w > 2 || chCorner w < 1 || chCorner w > 1000 ||
  10240000 > 160000 * (chD1 w * chRF w) || 10240000 > 20000 * (chD1 w * chRF w * chD3 w) ||
  10 * (chD1 w * chRF w * chD3 w) > 10240000

/-- N_s of R122. -/
def settleCount (w : BitVec 64) : Nat := ceilDiv (ceilDiv 67 (chRF w) + chW w - 1) (chD3 w) + 1
/-- Flagged samples after a swap (R123). -/
def swapSettle (w : BitVec 64) : Nat := ceilDiv (chW w - 1) (chD3 w)

/-- ⌈3 · f_o / (2π · corner)⌉ (R124); π to 50 digits. -/
def dcbCount (w : BitVec 64) : Nat :=
  ceilDiv (1536000000 * 10 ^ 50)
    (pi50 * (chCorner w * (chD1 w * chRF w * chD3 w)))

/-- The histories start from zero (R122). -/
def zeroHist (c : Filt) : Filt := { c with cicInt := List.replicate 4 0, cicComb := List.replicate 4 0, firHist := List.replicate 64 0, medHist := [] }

/-- The DC-blocking stage starts: the next chain sample loads m, and the estimate settles (R114, R124). -/
def startDcb (w : BitVec 64) (c : Filt) : Filt := { c with mLoad := true, dcbSettle := dcbCount w }

/-- A channel enabled with word `w` (R122). DESIGN CHOICE (row 39): a freeze accepted while the channel was disabled ends here. -/
def enableCh (w : BitVec 64) (c : Filt) : Filt :=
  let c1 := { zeroHist c with
    seq := 0, settle := settleCount w, dcbSettle := 0, modOvr := 0, m := 0, frozen := false, ending := none, inForce := none,
    clipEp := false, rangeOn := false, rangeDone := false, hasSample := false }
  if chDcb w then startDcb w c1 else c1

/-! ## Banks (R109 to R112) -/

/-- CRC of a bank over its 128 bytes as stored (R110). -/
def bankCrc (b : List Int) : Nat := crc16 (b.flatMap fun t => leBytes 4 (intBits 32 t))
/-- The bank a flag names: A or B. -/
def bankOf (c : Filt) (b : Bool) : List Int := if b then c.bankB else c.bankA

/-- A swap takes effect, with event 0x0612 (R112, R123). -/
def swapBank (ch : Nat) (w : BitVec 64) (s : State) : State :=
  let c := filtOf s ch
  event 0x0612 0 [ch, (!c.active).toNat, bankCrc (bankOf c (!c.active)), c.seq.toNat]
    (updFilt ch (fun c => { c with active := !c.active, swapPending := false, settle := max c.settle (swapSettle w),
                                   counts := addAt c.counts 3 1 }) s)

/-- The 64 mirrored taps (R109). -/
def taps (b : List Int) : List Int := b ++ b.reverse

/-! ## One chain sample and one output sample (R104 to R120) -/

/-- Saturation to the 24-bit range of R103, with whether it acted. -/
def sat24 (i : Int) : Int × Bool := (max (-8388607) (min 8388607 i), decide (i < -8388607 ∨ 8388607 < i))

/-- Running sums: each register adds the one before it, the first the input. -/
def integrate (x : BitVec 64) : List (BitVec 64) → List (BitVec 64)
  | [] => []
  | a :: l => (a + x) :: integrate (a + x) l

/-- Differences with delay 1: each stage's output less its last, the delays updated; output and delays. -/
def comb (x : BitVec 64) : List (BitVec 64) → BitVec 64 × List (BitVec 64)
  | [] => (x, [])
  | z :: l => let r := comb (x - z) l; (r.1, x :: r.2)

/-- The integrators over `n` modulator bits, +1 and −1, the oldest in bit 0 (R104). -/
def cicBits : Nat → Nat → List (BitVec 64) → List (BitVec 64)
  | 0, _, l => l
  | n + 1, v, l => cicBits n (v / 2) (integrate (if v % 2 = 1 then 1 else -1) l)

/-- The CIC output normalised, a DC input of +2.5 V giving 1.0, and saturated (R103, R108): the gain is D1^4 times what the modulator's bits
stand for; the rounding error is below 1 LSB. -/
def cicNorm (d1 : Nat) (y : BitVec 64) : Int := (sat24 (openDiv 2 (y.toInt * (Config.modFull + 1 : Nat)) (d1 ^ 4 : Nat))).1

/-- `n` CIC outputs, order 4, differential delay 1, from as many blocks of D1 bits: channel and values in order (Table 4.1, R104). -/
def cicRun (d1 : Nat) : Nat → Nat → Filt → Filt × List Int
  | 0, _, c => (c, [])
  | n + 1, v, c =>
    let i := cicBits d1 v c.cicInt
    let d := comb (i.getD 3 0) c.cicComb
    let r := cicRun d1 n (v / 2 ^ d1) { c with cicInt := i, cicComb := d.2 }
    (r.1, cicNorm d1 d.1 :: r.2)

/-- One FIR output from a history, newest input first: 64 products, rounded at bit 30 (R109). -/
def fir (h : List Int) (x : List Int) : Int × Bool :=
  sat24 (roundDiv ((h.zip x).map fun p => p.1 * p.2).sum (2 ^ 30 : Nat))

/-- The median of the last W chain samples, zeros before the start (R113, R122). -/
def median (w : Nat) (hist : List Int) : Int :=
  ((((hist ++ List.replicate 9 0).take w).mergeSort (· ≤ ·)).getD (w / 2) 0)

/-- 10^40 · (1 − exp(−x)) for x in units of 10^−40, from `n` terms of the series, the first `t` and its number `k` (R114). -/
def oneMinusExp (x : Int) : Nat → Nat → Int → Int
  | 0, _, _ => 0
  | n + 1, k, t => t - oneMinusExp x n (k + 1) (t * x / (10 ^ 40 : Nat) / (k + 1 : Nat))

/-- 10^40 · alpha, where alpha = 1 − exp(−2π · corner / f_c) (R114). -/
def alpha40 (w : BitVec 64) : Int :=
  let x : Int := (2 * pi50 * chCorner w * (chD1 w * chRF w) / (100 * 10240000 * 10 ^ 10) : Nat)
  oneMinusExp x 30 1 x

/-- alpha in Q1.31: its rounding is open (R114, row 2). -/
def dcbAlpha (w : BitVec 64) : Int := openDiv 3 (alpha40 w * 2 ^ 31) (10 ^ 40)

/-- m + alpha · (x − m) in Q1.47, for a sample in the same unit: its rounding is open (R114, row 2). -/
def dcbStep (alpha m x : Int) : Int := m + openDiv 4 (alpha * (x - m)) (2 ^ 31)

/-- The DC-blocking stage on one chain sample: channel, output, saturation (R114, R115). -/
def dcb (w : BitVec 64) (c : Filt) (x : Int) : Filt × Int × Bool :=
  if !chDcb w then (c, x, false)
  else
    let full := x * (2 ^ 24 : Nat)
    let m := if c.mLoad then full
      else if c.frozen then c.m
      else dcbStep (dcbAlpha w) c.m full
    let y := sat24 (openDiv 5 (full - m) (2 ^ 24))
    ({ c with m := m, mLoad := false }, y.1, y.2)

/-- One chain sample: R_F CIC outputs through FIR, median and DC blocking; channel, value, saturation. -/
def chainSample (w : BitVec 64) (bank : Bool) (c : Filt) (xs : List Int) : Filt × Int × Bool :=
  let hist := (xs.reverse ++ c.firHist).take 64
  let f := fir (taps (bankOf c bank)) hist
  let med := (f.1 :: c.medHist).take 9
  let d := dcb w { c with firHist := hist, medHist := med } (median (chW w) med)
  (d.1, d.2.1, f.2 || d.2.2)

/-- `n` chain samples in order: channel, their sum, whether any saturated. -/
def chainBlock (w : BitVec 64) (bank : Bool) : Nat → Filt → List Int → Filt × Int × Bool
  | 0, c, _ => (c, 0, false)
  | n + 1, c, xs =>
    let a := chainSample w bank c (xs.take (chRF w))
    let b := chainBlock w bank n a.1 (xs.drop (chRF w))
    (b.1, a.2.1 + b.2.1, a.2.2 || b.2.2)

/-- Twice the group delay of Table 4.3 in modulator clocks, the fixed 301 ns apart (R118). -/
def delay2 (w : BitVec 64) : Nat :=
  4 * (chD1 w - 1) + 63 * chD1 w + (chW w - 1) * chD1 w * chRF w + (chD3 w - 1) * chD1 w * chRF w

/-- The stamp: completion instant less the group delay, by the measured strobe interval of 256 clocks (R117). -/
def filterStamp (w : BitVec 64) (done spacing : Nat) : Nat :=
  (roundDiv (512 * ((done : Int) - 301) - (delay2 w * spacing : Nat)) 512).toNat

/-- Loop-current flags: below 0.36 V, above 2.10 V under INPUT_MODE 2 (R128). -/
def loopFlags (w : BitVec 64) (v : Int) : Bool × Bool :=
  (chMode w = 2 && decide (v * 250 < 36 * (2 ^ 23 : Nat)), chMode w = 2 && decide (v * 250 > 210 * (2 ^ 23 : Nat)))

/-- VALUE of a sample: the 24-bit number in bits [31:8] (R103). -/
def valueWord (v : Int) : Nat := intBits 32 (v * 256)

/-- What happens at the boundary after a delivered sample: waiting configuration, pending swap, the end of a disabled
channel (R107, R112, R129). DESIGN CHOICE (row 39): a freeze outlasts DCB_EN going to 0 and back to 1. -/
def boundary (ch : Nat) (s : State) : State :=
  let c := filtOf s ch
  let old := chWord s ch
  let new := chSet s ch
  if c.ending.isSome then
    updFilt ch (fun c => { zeroHist c with ending := none, inForce := none, m := 0, frozen := false }) s
  else
    let s1 := if c.swapPending then swapBank ch old s else s
    updFilt ch (fun c =>
      let c1 := { c with inForce := none }
      if chDcb new && !chDcb old then startDcb new c1 else c1) s1

/-- The channel runs: enabled with its pair released, or its last sample still to come (R129). -/
def chRuns (s : State) (ch : Nat) : Bool :=
  s.rst.life ≠ .reset && s.rst.life ≠ .loading && (chEn (chSet s ch) || (filtOf s ch).ending.isSome)

/-- FILTER_OUTPUT_SAMPLE (R104, R120): the modulator bits of one decimator block become a delivered record. DESIGN CHOICE (row 39): a CIC
output at a limit flags the sample in whose block it falls, not those whose FIR history still holds it; LOOP_LOW followed directly by
LOOP_HIGH is one episode. -/
def execFilterOutputSample (ch : Fin 16) (stream : Nat) (done spacing : Nat) (s : State) : Res :=
  let w := chWord s ch
  if !chRuns s ch then .next s
  else
    let c := filtOf s ch
    let bank := c.ending.getD c.active
    let x := cicRun (chD1 w) (chRF w * chD3 w) stream c
    let cic := x.2
    let blk := chainBlock w bank (chD3 w) x.1 cic
    let v := sat24 (roundDiv blk.2.1 (chD3 w : Nat))
    let clip := cic.any fun x => decide (x ≤ -8388607 ∨ 8388607 ≤ x)
    let satd := blk.2.2 || v.2
    let lf := loopFlags w v.1
    let flags := pack [(1, (decide (c.settle > 0)).toNat), (1, clip.toNat), (1, satd.toNat), (1, (decide (c.modOvr > 0)).toNat),
      (1, bank.toNat), (1, (c.frozen && chDcb w).toNat), (1, (decide (c.dcbSettle > 0)).toNat), (1, lf.1.toNat), (1, lf.2.toNat)]
    let stamp := filterStamp w done spacing
    let cnt := fun (l : List Nat) => addAt (addAt l 0 clip.toNat) 1 satd.toNat
    let range := lf.1 || lf.2
    let go := fun (x : Filt) => { x with
      seq := x.seq + 1, lastSeq := x.seq, settle := x.settle - 1, dcbSettle := x.dcbSettle - 1, modOvr := x.modOvr - 1,
      value := v.1, stamp := stamp, epoch := epochOf s stamp, flags := BitVec.ofNat 9 flags, clipEp := clip || satd,
      rangeOn := range, rangeDone := range && x.rangeDone, hasSample := true, counts := cnt x.counts }
    let s1 := updFilt ch (fun _ => go blk.1) s
    let s2 := if (clip || satd) && !c.clipEp then event 0x0611 2 [ch, flags, valueWord v.1] s1 else s1
    .next (boundary ch (inputBack (fun l => l.inType = 0 && l.inSel = ch) (offerFilter ch s2)))

/-- MODULATOR_RESET (R126). -/
def execModulatorReset (ch : Fin 16) (s : State) : Res :=
  if !chRuns s ch then .next s
  else
    let s1 := updFilt ch (fun c => { c with modOvr := settleCount (chWord s ch), counts := addAt c.counts 2 1 }) s
    .next (event 0x0610 2 [ch, (filtOf s1 ch).counts.getD 2 0] s1)

/-- AFE_FIFO_OVERRUN (R127): SEQ skips the lost samples, and the channel settles again. -/
def execAfeFifoOverrun (ch : Fin 16) (lost : Nat) (s : State) : Res :=
  if !chRuns s ch then .next s
  else .next (event 0x0615 4 [ch, lost] (updFilt ch (fun c =>
    { zeroHist c with seq := c.seq + BitVec.ofNat 16 lost, settle := settleCount (chWord s ch) }) s))

/-- LOOP_RANGE_PERSIST (R128): 100 ms of LOOP_LOW or LOOP_HIGH, once per episode. -/
def execLoopRangePersist (ch : Fin 16) (s : State) : Res :=
  let c := filtOf s ch
  if !c.rangeOn || c.rangeDone then .next s
  else .next (event 0x0613 3 [ch, valueWord c.value, (bit c.flags.toNat 8).toNat]
    (updFilt ch (fun c => { c with rangeDone := true, counts := addAt c.counts 4 1 }) s))

/-! ## Filter commands (Table 15.9) -/

/-- FILTER_CONFIG body (R105 to R107, R129). DESIGN CHOICE (row 39): at a disable with a swap pending, the sample in progress completes with
the old bank and carries the SETTLING of the swap. -/
def bodyFilterConfig (r : Req) (s : State) : Ans :=
  let ch := u8 r.payload 0
  let w := chMask (BitVec.ofNat 64 (ule r.payload 8 8))
  let old := chSet s ch
  if ch ≥ 16 then no .range s
  else if chRange w then no .range s
  else if chEn old && chFixed w ≠ chFixed old then no .state s
  else
    let s1 := setCfg (fun c => { c with filters := c.filters.set ch w }) s
    let force := chWord s ch
    okay (if !chEn old then (if chEn w then updFilt ch (enableCh w) s1 else s1)
      else if chEn w then updFilt ch (fun c => { c with inForce := some force }) s1
      else
        let bank := (filtOf s ch).active
        let s2 := updFilt ch (fun c => { c with inForce := some force, ending := some bank }) s1
        if (filtOf s ch).swapPending then swapBank ch force s2 else s2)

/-- FILTER_CONFIG (R105). -/
def execFilterConfig (r : Req) (s : State) : Res := mbx 0x0601 (exactly 16) bodyFilterConfig r s

/-- FILTER_BANK_LOAD body (R109, R110). -/
def bodyFilterBankLoad (r : Req) (s : State) : Ans :=
  let ch := u8 r.payload 0
  let h := (List.range 32).map fun i => i32 r.payload (4 + 4 * i)
  let gain := 2 * h.sum
  let c := filtOf s ch
  if ch ≥ 16 then no .range s
  else if gain < 2 ^ 29 ∨ 3 * 2 ^ 29 < gain then no .range s
  else if c.swapPending then no .busy s
  else give (leBytes 2 (bankCrc h) ++ leBytes 1 (!c.active).toNat)
    (updFilt ch (fun c => if c.active then { c with bankA := h } else { c with bankB := h }) s)

/-- FILTER_BANK_LOAD (R110). -/
def execFilterBankLoad (r : Req) (s : State) : Res := mbx 0x0602 (exactly 132) bodyFilterBankLoad r s

/-- FILTER_BANK_SWAP body (R112). -/
def bodyFilterBankSwap (r : Req) (s : State) : Ans :=
  let ch := u8 r.payload 0
  if ch ≥ 16 then no .range s
  else if (filtOf s ch).swapPending then no .busy s
  else if chEn (chSet s ch) then give (leBytes 1 1) (updFilt ch (fun c => { c with swapPending := true }) s)
  else give (leBytes 1 0) (swapBank ch (chWord s ch) s)

/-- FILTER_BANK_SWAP (R112). -/
def execFilterBankSwap (r : Req) (s : State) : Res := mbx 0x0603 (exactly 1) bodyFilterBankSwap r s

/-- DCB_FREEZE body (R115, R124): event 0x0616 carries m's upper 32 bits. -/
def bodyDcbFreeze (r : Req) (s : State) : Ans :=
  let ch := u8 r.payload 0
  let op := u8 r.payload 1
  let c := filtOf s ch
  if ch ≥ 16 then no .range s
  else if op > 1 then no .badArg s
  else if !chDcb (chSet s ch) then no .state s
  else if c.frozen = (op = 1 : Bool) then okay s
  else okay (event 0x0616 1 [ch, op, intBits 32 (c.m / (2 ^ 16 : Nat))] (updFilt ch (fun c =>
    if op = 1 then { c with frozen := true } else { c with frozen := false, dcbSettle := dcbCount (chSet s ch) }) s))

/-- DCB_FREEZE (R115). -/
def execDcbFreeze (r : Req) (s : State) : Res := mbx 0x0604 (exactly 2) bodyDcbFreeze r s

/-- The channel status word of Table 4.6. DESIGN CHOICE (row 39): SETTLING and DCB_SETTLING read 0 from a re-enable to its first sample,
while LAST_SEQ still shows the earlier one. -/
def filterWord (s : State) (ch : Nat) : Nat :=
  let c := filtOf s ch
  pack [(1, (chEn (chSet s ch)).toNat), (1, 0), (1, c.active.toNat), (1, c.swapPending.toNat), (1, c.frozen.toNat),
    (1, (c.hasSample && bit c.flags.toNat 0).toNat), (1, (c.hasSample && bit c.flags.toNat 6).toNat), (9, 0),
    (16, c.lastSeq.toNat), (16, bankCrc c.bankA), (16, bankCrc c.bankB)]

/-- FILTER_STATUS body (R130). -/
def bodyFilterStatus (r : Req) (s : State) : Ans :=
  let first := u8 r.payload 0
  let n := u8 r.payload 1
  if n = 0 || n > 8 || first + n > 16 then no .range s
  else
    let chs := (List.range n).map (first + ·)
    give (chs.flatMap fun ch => leBytes 8 (filterWord s ch) ++ words (filtOf s ch).counts)
      (if clears r.payload 2 then chs.foldl (fun t ch => updFilt ch (fun c => { c with counts := List.replicate 5 0 }) t) s else s)

/-- FILTER_STATUS (R130). -/
def execFilterStatus (r : Req) (s : State) : Res := mbx 0x0605 (exactly 3) bodyFilterStatus r s

/-! ## Analog outputs (R132 to R136) -/

/-- Settings of output `o`. -/
def aoCfg (s : State) (o : Nat) : AoCfg := s.cfg.ao.getD o {}
/-- Run-time state of output `o`. -/
def aoOf (s : State) (o : Nat) : Ao := s.ao.getD o {}
/-- Output `o` changed. -/
def updAo (o : Nat) (f : Ao → Ao) (s : State) : State := { s with ao := upd s.ao o f }

/-- The code of a Q1.31 value (R132). -/
def aoCode (v : Int) : Nat := if v ≤ 0 then 0 else (v / (2 ^ 15 : Nat)).toNat

/-- The expected readback of a code, in units of 2^−44 mV (R135). -/
def expect44 (c : AoCfg) (code : Nat) : Int := c.gain * (code : Int) * 10000 + c.offset * (2 ^ 44 : Nat)

/-- The expected readback in mV, rounded (event 0x0614). -/
def expectMv (c : AoCfg) (code : Nat) : Int := roundDiv (expect44 c code) (2 ^ 44 : Nat)

/-- A readback lies in the band of the codes latched in the preceding 2 ms, widened by FB_TOL (R135). -/
def inBand (c : AoCfg) (codes : List Nat) (mv : Int) : Bool :=
  let es := codes.map (expect44 c)
  let lo := es.foldl min (es.headD 0)
  let hi := es.foldl max (es.headD 0)
  let x := mv * (2 ^ 44 : Nat)
  let t : Int := (c.tol * 2 ^ 44 : Nat)
  decide (lo - t ≤ x) && decide (x ≤ hi + t)

/-- The device's AO_MISMATCH alarm stands while any output has a mismatch (R136). -/
def aoAlarm (o : Nat) (s : State) : State :=
  if s.ao.any (·.mismatch) then raiseAlarm 0x0614 s.dev 3 o s else clearAlarm 0x0614 s.dev s

/-- AO_READBACK_SAMPLE (R135, R136): compared while powered; a full FB_TIME within the band ends the output's part. -/
def execAoReadbackSample (out : Fin 8) (mv : Int) (s : State) : Res :=
  let c := aoCfg s out
  let a := aoOf s out
  if !a.powered then .next (aoAlarm out (updAo out (fun a => { a with readback := mv, outMs := 0, inMs := 0, mismatch := false }) s))
  else
    let ok := inBand c (a.code :: a.recent.take 20) mv
    let inMs := if ok then a.inMs + 1 else 0
    let outMs := if ok then 0 else a.outMs + 1
    .next (aoAlarm out (updAo out (fun a => { a with readback := mv, outMs := outMs, inMs := inMs,
                                                     mismatch := a.mismatch && decide (inMs < c.time) }) s))

/-- AO_MISMATCH (R136): a mismatch that has lasted FB_TIME. -/
def execAoMismatch (out : Fin 8) (s : State) : Res :=
  let c := aoCfg s out
  let a := aoOf s out
  if !a.powered || a.mismatch || a.outMs < c.time then .next s
  else
    let act := if s.isSafe then 0 else c.action
    let s1 := aoAlarm out (updAo out (fun a => { a with mismatch := true }) s)
    let s2 := event 0x0614 3 [out, intBits 32 (expectMv c a.code), intBits 32 a.readback, act] s1
    .next (if act = 1 then updAo out (fun a => { a with heldZero := true, code := 0, written := 0 }) s2
      else if act = 2 then latchCause 6 s2 else s2)

/-- AO_CONFIG body (R133, R135): ranges, then TEST outside READY, then the effect. -/
def bodyAoConfig (r : Req) (s : State) : Ans :=
  let p := r.payload
  let o := u8 p 0
  let en := bit (u8 p 1) 0
  let test := bit (u8 p 1) 1
  let answer := fun (t : State) => give (leBytes 2 (aoOf t o).code ++ leBytes 2 (intBits 16 (aoOf t o).readback)) t
  if o ≥ 8 then no .range s
  else if bit (u8 p 1) 2 then answer s
  else if u16 p 10 < 10 || u16 p 10 > 1000 || u8 p 12 < 1 || u8 p 12 > 100 || u8 p 13 > 2 then no .range s
  else if test && s.rst.life ≠ .ready then no .state s
  else
    let was := (aoCfg s o).en
    let new : AoCfg := { en := en, gain := i32 p 4, offset := sext 16 (u16 p 8), tol := u16 p 10, time := u8 p 12, action := u8 p 13 }
    let s1 := setCfg (fun c => { c with ao := c.ao.set o new }) s
    let go := fun (a : Ao) =>
      let a1 := if en && !was then { a with written := 0, code := if a.test then a.code else 0 } else a
      let a2 := if en || test then { a1 with heldZero := false } else a1
      if test then { a2 with powered := true, test := true, testCode := u16 p 2, code := if s.noRole || (en && s.isSafe) then 0 else u16 p 2 }
      else if a2.test then { a2 with test := false }
      else if en then { a2 with powered := true }
      else { a2 with powered := false, code := 0, mismatch := false, outMs := 0, inMs := 0 }
    answer (aoSupply (aoAlarm o (updAo o go s1)))

/-- AO_CONFIG (R133). -/
def execAoConfig (r : Req) (s : State) : Res := mbx 0x0606 (exactly 16) bodyAoConfig r s

/-- The code that the pin of output `o` shows: 0 V while unpowered or while VDD_AO is lost (R132, R133, R549, R568). -/
def aoPin (s : State) (o : Nat) : Nat := if (aoOf s o).powered && !s.safe.railBad.getLsbD 8 then (aoOf s o).code else 0

/-- The analog outputs at a 100 µs grid instant: a written code is latched, a test that has ended gives way; an enabled output in the safe
state, under a test too, one held by FB_ACTION 1 and every output of a device in a manager slot without a role stay at code 0 (R23, R133, R134,
R136). -/
def latchAo (s : State) : State :=
  let go := fun (x : Ao × Nat) =>
    let a := x.1
    let test := a.test && s.rst.life = .ready
    let en := (aoCfg s x.2).en
    let code := if s.noRole || a.heldZero || (en && s.isSafe) then 0 else if test then a.testCode else if !en || s.isSafe then 0 else a.written
    { a with test := test, powered := test || en, code := code, recent := (code :: a.recent).take 20 }
  { s with ao := s.ao.zipIdx.map go }

end Sys2Proof.Machine
end

