-- ==== Sys2Proof/Machine/LinkPorts.lean ====
section
/-! DEFINITION. Station Link: ports, the hop layer, header checks, deduplication, quarantine, the ring map, flows and the
link commands (chapter 12, class 0x0B). -/

namespace Sys2Proof.Machine

/-- The link protocol runs: its pair is released (R547). -/
def linkRuns (s : State) : Bool := s.rst.life ≠ .reset && s.rst.life ≠ .loading

/-- Port `ix`. -/
def portOf (s : State) (ix : Nat) : Port := s.link.ports.getD ix {}
/-- Port `ix` changed. -/
def updPort (ix : Nat) (f : Port → Port) (s : State) : State :=
  { s with link := { s.link with ports := upd s.link.ports ix f } }
/-- Port counter `n` of Table 12.12 stepped by `k`. -/
def portCount (ix n k : Nat) (s : State) : State := updPort ix (fun p => { p with counts := addAt p.counts n k }) s
/-- Link counter `n` of R410 stepped by `k`. -/
def linkCount (n k : Nat) (s : State) : State :=
  { s with link := { s.link with counts := addAt s.link.counts n k } }
/-- The other port of the same network. -/
def other (ix : Nat) : Nat := if ix % 2 = 0 then ix + 1 else ix - 1

/-! ## The ring map (R402) -/

/-- Devices in the ring map. -/
def seen (s : State) : Nat := (s.mem.heard.filter Option.isSome).length

/-- A hop of a heard device through a port is usable: both of its ends are UP by the MEMBER frames held. -/
def usableHop (s : State) (d ix : Nat) : Bool :=
  (heardPort s d ix).1 = 3 && (heardPort s d ix).2 < 64 && (heardPort s (heardPort s d ix).2 (other ix)).1 = 3

/-- Ring state code of a network (Table 12.11): a break beyond the reachable devices that holds a usable hop means a
second break. -/
def ringState (s : State) (net : Bool) : Nat :=
  if !portUp s (portIx net false) && !portUp s (portIx net true) then 3
  else if (walk s net s.dev 64 s.dev true 0).isSome then 0
  else if (List.range 64).any fun d => (s.mem.heard.getD d none).isSome && !reaches s net d &&
      (usableHop s d (portIx net false) || usableHop s d (portIx net true)) then 2
  else 1

/-- The ring states brought up to date, with event 0x0B17 (R402); an episode of NO_QUORUM ends when a quorum is reached again (R31, R33). -/
def updateRings (s : State) : State :=
  let a := ringState s false
  let b := ringState s true
  let s1 := { s with mem := { s.mem with ringA := a, ringB := b, noQuorum := s.mem.noQuorum && !hasQuorum s } }
  let s2 := if a ≠ s.mem.ringA then event 0x0B17 2 [0, s.mem.ringA, a, seen s] s1 else s1
  if b ≠ s.mem.ringB then event 0x0B17 2 [1, s.mem.ringB, b, seen s] s2 else s2

/-- A port's state set: event 0x0B10, MEMBER PRESENT from a member at once, the ring states (R400, R404, R412). -/
def setPort (ix st : Nat) (s : State) : State :=
  let p := portOf s ix
  if p.state = st then s
  else
    let s1 := event 0x0B10 1 [ix, p.state, st, p.nb] (updPort ix (fun q => { q with state := st }) s)
    updateRings (if s1.inRun then sendMember 1 s1 else s1)

/-- The held and queued frames of a port that stops: unicast frames leave through the other port of the network, group
frames are dropped (R393); a copy still on its way through is lost on this hop (R404). -/
def releaseHeld (ix : Nat) (s : State) : State :=
  let p := portOf s ix
  let fs := (p.held.filter (·.whole)).map (·.f) ++ p.queue.map (·.f)
  let uni := fs.filter fun f => decide (f.hdr.dst < 0xFE) && portUp s (other ix)
  let s1 := updPort ix (fun q => { q with held := [], queue := [], counts := addAt q.counts 13 (fs.length - uni.length) }) s
  pump (uni.foldl (fun t f => enqueue (other ix) f t) s1)

/-! ## Copies started at the header (R394) -/

/-- A header as the next hop receives it (R397). -/
def hopped (h : Hdr) : Hdr := { h with hops := h.hops + 1 }

/-- A frame that arrives on a port goes on around the ring (R397, R403): not the source's own, not a unicast that has arrived; SYNC goes on
by its own row, with its correction (R92). -/
def goesOn (s : State) (ix : Nat) (h : Hdr) : Bool :=
  h.src ≠ s.dev && h.dst ≠ s.dev && h.type ≠ 2 && h.hops < 63 && portUp s (other ix)

/-- The copy of a frame that has begun to leave and is not whole (R394). -/
def isCopyOf (h : Hdr) (x : HeldFrame) : Bool := !x.whole && x.f.hdr = hopped h

/-- A copy of the frame with this header has begun to leave through the other port. -/
def copyLeaves (s : State) (ix : Nat) (h : Hdr) : Bool := (portOf s (other ix)).held.any (isCopyOf h)

/-- Cut-through: the copy begins to leave at the header where nothing waits before it; one that ended in ABORT begins again under its HSEQ
(R392, R394, R395). -/
def startCopy (ix : Nat) (h : Hdr) (s : State) : State :=
  let p := portOf s (other ix)
  if !goesOn s ix h then s
  else if copyLeaves s ix h then portCount (other ix) 1 1 s
  else if p.queue.isEmpty && p.held.length < 16 then
    portCount (other ix) 1 1 (updPort (other ix) (fun q => { q with
      held := q.held ++ [{ hseq := q.hseq, f := { hdr := hopped h }, whole := false }], hseq := q.hseq + 1 }) s)
  else s

/-- The copies begun for frames of a port that receives no more end: that of the frame in receipt in ABORT (R394, R404). -/
def endCopies (ix : Fin 4) (s : State) : State :=
  let o : Fin 4 := if ix.val % 2 = 0 then ix + 1 else ix - 1
  let s1 := match (portOf s ix).cut with
    | some h => if copyLeaves s ix h then emit (.abort o) s else s
    | none => s
  updPort ix (fun q => { q with cut := none }) (updPort (other ix) (fun q => { q with held := q.held.filter (·.whole) }) s1)

/-! ## Ordered sets, ports up and down -/

/-- HELLO_SEND (R389, Table 12.1): every port, with its state. -/
def execHelloSend (s : State) : Res :=
  if !linkRuns s then .next s
  else
    let one := fun (t : State) (ix : Fin 4) =>
      emit (.ordered ix 6 (pack [(8, t.dev), (4, (portOf t ix).state), (2, 0), (1, ix % 2), (1, ix / 2)])) t
    .next ([0, 1, 2, 3].foldl one s)

/-- HELLO_RECEIVE (R389): 16 consecutive error-free HELLOs bring a port UP; a wrong network or the port's own number
makes it MISWIRED. -/
def execHelloReceive (port : Fin 4) (dev : Fin 64) (net pnum : Bool) (nbState : Fin 8) (errorFree : Bool) (s : State) :
    Res :=
  let p := portOf s port
  if !linkRuns s || p.state = 0 || p.state = 7 then .next s
  else if !errorFree then .next (updPort port (fun q => { q with hellos := 0, degradedErr := true }) s)
  else
    let wrong := net.toNat ≠ port / 2 || pnum.toNat = port % 2
    let s1 := updPort port (fun q => { q with nb := dev, nbPort := pnum, nbState := nbState }) s
    if wrong then
      if p.state = 6 then .next s1
      else
        let s2 := setPort port 6 (updPort port (fun q => { q with hellos := 0 }) s1)
        .next (event 0x0B16 3 [port, dev, 2 * net.toNat + pnum.toNat]
          (report 0x0B16 3 dev port s2))
    else
      let n := p.hellos + 1
      let s2 := updPort port (fun q => { q with hellos := n }) s1
      if p.state = 1 || p.state = 2 || p.state = 6 then
        .next (if n ≥ 16 then setPort port 3 s2 else setPort port 2 s2)
      else .next s2

/-- PORT_DOWN (R404): a copy being forwarded toward the port ends in ABORT there. -/
def execPortDown (port : Fin 4) (s : State) : Res :=
  let p := portOf s port
  if !linkRuns s || p.state = 0 || p.state = 1 || p.state = 7 then .next s
  else
    let toward := match (portOf s (other port)).cut with | some h => copyLeaves s (other port) h | none => false
    let s1 := endCopies port (if toward then emit (.abort port) s else s)
    let s2 := setPort port 1 (updPort port (fun q => { q with hellos := 0 }) s1)
    .next (releaseHeld port (updPort port (fun q => { q with nb := 0xFF }) s2))

/-! ## The hop layer (R392, R393) -/

/-- HSEQ up to which every frame has been received intact. -/
def ackPoint (p : Port) : BitVec 8 :=
  match p.missing with
  | [] => p.rxNext - 1
  | h :: _ => h - 1

/-- A port that takes part in the hop layer: UP, or DEGRADED with its test frames. A QUARANTINED, FAULT or other port sends at most
HELLOs (R389, R393, R407, R408). -/
def portTalks (s : State) (ix : Nat) : Bool := (portOf s ix).state = 3 || (portOf s ix).state = 4

/-- An ACK leaves (R392). -/
def sendAck (ix : Fin 4) (s : State) : State :=
  emit (.ordered ix 4 (ackPoint (portOf s ix)).toNat) (updPort ix (fun p => { p with unacked := 0 }) s)

/-- ACK_RECEIVE (R392): held frames up to HSEQ are released. -/
def execAckReceive (port : Fin 4) (hseq : BitVec 8) (s : State) : Res :=
  let p := portOf s port
  if p.held.any (·.hseq = hseq) then
    .next (pump (updPort port (fun q => { q with held := (q.held.dropWhile (·.hseq ≠ hseq)).drop 1 }) s))
  else .next s

/-- ACK_TIMER (R392). -/
def execAckTimer (port : Fin 4) (s : State) : Res :=
  if (portOf s port).unacked = 0 || !portTalks s port then .next s else .next (sendAck port s)

/-- The hop becomes DEGRADED (R393). -/
def degrade (ix : Nat) (hseq : BitVec 8) (s : State) : State :=
  let p := portOf s ix
  let s1 := setPort ix 4 (updPort ix (fun q => { q with degradedErr := false, counts := addAt q.counts 14 1 }) s)
  releaseHeld ix (event 0x0B11 3 [ix, p.nb, hseq.toNat, p.counts.getD 5 0] (report 0x0B11 3 p.nb ix s1))

/-- A held frame is sent again, or after its third re-send has failed the hop is DEGRADED (R393); a copy that is not whole waits for the
intact one (R394). -/
def resend (ix : Nat) (hseq : BitVec 8) (s : State) : State :=
  match (portOf s ix).held.find? (·.hseq = hseq) with
  | none => s
  | some h =>
    if !portTalks s ix || !h.whole then s
    else if h.resent ≥ 3 then degrade ix hseq s
    else
      let go := fun (x : HeldFrame) => if x.hseq = hseq then { x with resent := x.resent + 1 } else x
      portCount ix 1 1 (portCount ix 5 1 (updPort ix (fun q => { q with held := q.held.map go }) s))

/-- RESEND_RECEIVE (R392, R393). -/
def execResendReceive (port : Fin 4) (hseq : BitVec 8) (s : State) : Res := .next (resend port hseq s)

/-- RESEND_TIMEOUT (R393). -/
def execResendTimeout (port : Fin 4) (hseq : BitVec 8) (s : State) : Res := .next (resend port hseq s)

/-- DEGRADED_RESTORE (R393): 10 s without error; an error starts the interval again. -/
def execDegradedRestore (port : Fin 4) (s : State) : Res :=
  let p := portOf s port
  if p.state ≠ 4 then .next s
  else if p.degradedErr then .next (updPort port (fun q => { q with degradedErr := false }) s)
  else .next (setPort port 3 s)

/-! ## Header checks, NAKs, quarantine (R405 to R407) -/

/-- Provisioned frames of a flow that a first hop takes in 100 ms, four times over, in thousandths of a frame
(Table 12.4, R405). An undefined DATA flow has none. -/
def rateLimit (s : State) (type flow : Nat) : Nat :=
  let perEpoch := fun n => 4 * n * 100000 / s.cyc.e
  let perSec := fun n => 4 * n * 100
  match type with
  | 1 => perEpoch 8
  | 2 => perSec 250 + 4 * 2 * 100000 / 64
  | 3 => perEpoch 2
  | 4 => perEpoch 32
  | 5 => perEpoch 17
  | 6 => perSec 400
  | 7 => perSec 1000
  | 8 => perSec 2000
  | 9 => perSec 16
  | _ => perSec (match look s.cfg.flows flow with | some d => fld d 80 16 | none => 0)

/-- A type of Table 12.4. -/
def knownType (t : Nat) : Bool := 1 ≤ t && t ≤ 10

/-- d of R405: the signed 16-bit distance of EPOCH16 from the receiver's epoch. -/
def epochDist (s : State) (e : BitVec 16) : Int := (e - s.cyc.epoch.setWidth 16).toInt

/-- MAX_LEN of a frame (Table 12.7 order 4). -/
def maxLen (s : State) (h : Hdr) : Nat :=
  if h.type = 10 then (match look s.cfg.flows h.flow with | some d => min 1008 (fld d 64 16) | none => 1008) else 1008

/-- First-hop frames of a source and flow in the last 100 ms at a port. -/
def recentRate (s : State) (p : Port) : List (Nat × Nat × Nat) := p.rate.filter fun x => decide (s.time.ns < x.2.2 + 100000000)

/-- The first failing check of Table 12.7, orders 1 to 5: NAK code. -/
def violation (s : State) (ix : Nat) (h : Hdr) : Option Nat :=
  if !h.hcrcOk then some 1
  else if !knownType h.type || h.ver ≠ 1 then some 2
  else if s.cyc.holds && !(h.type = 1 || h.type = 2 || h.type = 9 || h.type = 6) &&
      (4 < epochDist s h.epoch16 || epochDist s h.epoch16 < -4) then some 4
  else if h.len > maxLen s h then some 5
  else if h.hops = 0 && (h.type ≠ 10 || (look s.cfg.flows h.flow).isSome) then
    let n := ((recentRate s (portOf s ix)).filter fun x => x.1 = h.src && x.2.1 = h.flow).length + 1
    if n > max 4 (rateLimit s h.type h.flow / 1000) then some 6 else none
  else none

/-- Counter of Table 12.12 for a NAK code. -/
def violCounter : Nat → Nat | 1 => 6 | 2 => 7 | 4 => 8 | 5 => 9 | _ => 10

/-- The bytes of a NAK payload (Table 12.8). -/
def nakBytes (n : Nak) : List Byte :=
  leBytes 16 (pack [(8, n.code), (8, n.port), (8, n.origType), (8, n.origSrc), (8, n.origFlow), (8, 0), (16, n.origSeq.toNat),
    (16, n.origEpoch.toNat), (16, n.origLen), (32, n.suppressed)])

/-- A NAK sent on the network of the violation, or its violation counted for the next one to the same target: beyond 16 a second, the
code of order 5 more than once a second and flow, a NAK frame's own violation, and where no route leads (R405, R406, Table 12.8). -/
def sendNak (ix code : Nat) (h : Hdr) (s : State) : State :=
  let p := portOf s ix
  let target := if code = 1 then p.nb else h.src
  let times := p.nakTimes.filter fun t => decide (s.time.ns < t + 1000000000)
  let recent := p.rateNak.any fun x => x.1 = h.src && x.2.1 = h.flow && decide (s.time.ns < x.2.2 + 1000000000)
  let net : Bool := ix / 2 = 1
  let kept := updPort ix (fun q => { q with
    nakTimes := times, nakSupp := put q.nakSupp target (satInc ((look q.nakSupp target).getD 0)) }) s
  if target ≥ 64 then s
  else if h.type = 9 || (code = 6 && recent) || times.length ≥ 16 then kept
  else if (route s net target).isNone then event 0x0B18 2 [net.toNat, target, 9] (linkCount 2 1 kept)
  else
    let n : Nak := {
      code := code, port := ix, origType := if code = 1 then 0xFF else h.type,
      origSrc := if code = 1 then 0xFF else h.src, origFlow := h.flow, origSeq := h.seq, origEpoch := h.epoch16,
      origLen := h.len, suppressed := (look p.nakSupp target).getD 0 }
    let s1 := updPort ix (fun q => { q with
      nakTimes := s.time.ns :: times, nakSupp := q.nakSupp.filter (·.1 ≠ target),
      rateNak := if code = 6 then (h.src, h.flow, s.time.ns) :: q.rateNak.filter (fun x => !(x.1 = h.src && x.2.1 = h.flow))
                 else q.rateNak,
      counts := addAt q.counts 11 1 }) s
    let q := seqOf s1 8
    let hd : Hdr := { type := 9, src := s.dev, dst := target, flow := 8, epoch16 := 0, seq := q, len := 16, prio := 2 }
    pump (sendNet { hdr := hd, payload := nakBytes n } net { s1 with link := { s1.link with txSeq := put s1.link.txSeq 8 (q + 1) } })

/-- The code most frequent among a port's violations of the last second, the lowest of equals. -/
def dominant (v : List (Nat × Nat)) : Nat :=
  [1, 2, 4, 5, 6].foldl (fun best c =>
    if (v.filter (·.2 = c)).length > (v.filter (·.2 = best)).length then c else best) 1

/-- The port is quarantined for 10 s (R407, R412). -/
def quarantine (ix : Fin 4) (s : State) : State :=
  let p := portOf s ix
  let s1 := setPort ix 5 (updPort ix (fun q => { q with
    quarEnd := s.time.ns + 10000000000, viols := [], counts := addAt q.counts 15 1 }) (endCopies ix s))
  event 0x0B12 3 [ix, p.nb, p.viols.length, dominant p.viols] (report 0x0B12 3 p.nb ix s1)

/-- A violation answered: counter, event 0x0B14, NAK, quarantine (R405 to R407). -/
def violate (ix : Fin 4) (code : Nat) (h : Hdr) (s : State) : State :=
  let s1 := portCount ix (violCounter code) 1 (updPort ix (fun q => { q with
    cut := none, viols := (s.time.ns, code) :: q.viols.filter fun v => decide (s.time.ns < v.1 + 1000000000) }) s)
  let s2 := event 0x0B14 2 [ix, code, if code = 1 then 0xFF else h.src, if code = 1 then 0xFF else h.type] s1
  let s3 := sendNak ix code h s2
  if (portOf s3 ix).viols.length > 256 && (portOf s3 ix).state ≠ 5 then quarantine ix s3 else s3

/-- FLOW_TX, FLOW_RX or FLOW_POLICED (0, 1, 2) of a flow stepped (R410). -/
def flowCount (flow which : Nat) (s : State) : State :=
  let c := ((s.link.flows.find? (·.1 = flow)).map (·.2)).getD (0, 0, 0)
  let d := if which = 0 then (satInc c.1, c.2.1, c.2.2) else if which = 1 then (c.1, satInc c.2.1, c.2.2)
           else (c.1, c.2.1, satInc c.2.2)
  { s with link := { s.link with flows := (flow, d) :: s.link.flows.filter (·.1 ≠ flow) } }

/-- LINK_FRAME_HEADER (R394, R405): the checks in order; an accepted header starts cut-through unless quarantined. -/
def execLinkFrameHeader (port : Fin 4) (h : Hdr) (s : State) : Res :=
  let p := portOf s port
  if p.state ≠ 3 && p.state ≠ 4 && p.state ≠ 5 then .next s
  else
    let s0 := if h.hops = 0 && h.hcrcOk && knownType h.type then
        updPort port (fun q => { q with rate := (h.src, h.flow, s.time.ns) :: recentRate s q }) s
      else s
    match violation s port h with
    | some c => .next (violate port c h (if c = 6 && h.type = 10 then flowCount h.flow 2 s0 else s0))
    | none => .next (if p.state = 5 then s0 else startCopy port h (updPort port (fun q => { q with cut := some h }) s0))

/-- QUARANTINE_END (R407). -/
def execQuarantineEnd (port : Fin 4) (s : State) : Res :=
  if (portOf s port).state ≠ 5 then .next s
  else .next (event 0x0B13 1 [port, 0] (setPort port 3 (updPort port (fun q => { q with quarEnd := 0, viols := [] }) s)))

/-- NAK_FRAME (R406): on a port that delivers. -/
def execNakFrame (port : Fin 4) (src : Fin 64) (n : Nak) (s : State) : Res :=
  if !portTalks s port then .next s
  else .next (event 0x0B15 2 [n.code, src, n.origFlow, n.origSeq.toNat] (portCount port 12 1 s))

/-! ## Receive windows (R398) -/

/-- Whether a SEQ is taken by a window: not delivered before and not older than the window; with the window after it and
the SEQs that left it undelivered. -/
def windowTake (w : Window) (q : BitVec 16) : Bool × Window × Nat :=
  let d := (q - w.newest).toInt
  if d > 0 then
    let n := d.toNat
    let span := w.span + n
    let keep := fun (x : BitVec 16) => decide ((q - x).toNat < 1024)
    let leaving := span - min span 1024
    let gotOut := (w.got.filter fun x => !keep x).length
    (true, { w with newest := q, span := min span 1024, got := q :: w.got.filter keep }, leaving - gotOut)
  else if (-d).toNat ≥ 1024 || w.got.contains q then (false, w, 0)
  else (true, { w with span := max w.span ((-d).toNat + 1), got := q :: w.got }, 0)

/-- One frame of a source and flow through its window: delivered or a duplicate (DUP_DROP, E2E_GAP). -/
def dedup (src flow : Nat) (q : BitVec 16) (s : State) : Bool × State :=
  let hit := fun (w : Window) => w.src = src && w.flow = flow
  match s.link.windows.find? hit with
  | none => (true, { s with link := { s.link with
      windows := { src := src, flow := flow, newest := q, got := [q] } :: s.link.windows } })
  | some w =>
    let r := windowTake w q
    let s1 := { s with link := { s.link with windows := r.2.1 :: s.link.windows.filter fun x => !hit x } }
    if r.1 then (true, linkCount 1 r.2.2 s1) else (false, linkCount 0 1 s1)

/-- The frame is for this device: its number, a broadcast, or the managers (R403). -/
def forMe (s : State) (dst : Nat) : Bool := dst = s.dev || dst = 0xFF || (dst = 0xFE && s.isManager)

/-- The copy that has begun to leave is whole: the intact frame under its HSEQ (R394). -/
def finishCopy (ix : Nat) (f : Frame) (s : State) : State :=
  let g : Frame := { f with hdr := hopped f.hdr }
  let go := fun (x : HeldFrame) => if isCopyOf f.hdr x then { x with f := g, bytes := cableBytes x.hseq g, whole := true } else x
  updPort (other ix) (fun q => { q with held := q.held.map go }) s

/-- An intact frame goes on around the ring (R394, R397, R403): its copy is whole, or it is queued; one that would exceed 63 hops is dropped. -/
def forward (ix : Nat) (f : Frame) (s : State) : State :=
  if copyLeaves s ix f.hdr then finishCopy ix f s
  else if goesOn s ix f.hdr then pump (enqueue (other ix) { f with hdr := hopped f.hdr } s)
  else if f.hdr.hops ≥ 63 && f.hdr.src ≠ s.dev && f.hdr.dst ≠ s.dev && f.hdr.type ≠ 2 && portUp s (other ix) then linkCount 4 1 s
  else s

/-- The hop-layer side of an intact frame's HSEQ: RESEND for each skipped one (R392). -/
def takeHseq (ix : Fin 4) (hseq : BitVec 8) (s : State) : State :=
  let p := portOf s ix
  let gap := (hseq - p.rxNext).toNat
  if p.missing.contains hseq then updPort ix (fun q => { q with missing := q.missing.filter (· ≠ hseq) }) s
  else if gap < 128 then
    let skipped := (List.range gap).map fun i => p.rxNext + BitVec.ofNat 8 i
    let s1 := updPort ix (fun q => { q with rxNext := hseq + 1, missing := q.missing ++ skipped }) s
    if portTalks s ix then skipped.foldl (fun t h => emit (.ordered ix 5 h.toNat) t) (portCount ix 4 gap s1) else s1
  else s

/-- A repeated HSEQ: received intact before, and not asked for again. -/
def hseqRepeat (p : Port) (hseq : BitVec 8) : Bool := !p.missing.contains hseq && decide ((hseq - p.rxNext).toNat ≥ 128)

/-- A missing HSEQ at its place in the order of sending. -/
def insertHseq (h : BitVec 8) : List (BitVec 8) → List (BitVec 8)
  | [] => [h]
  | x :: xs => if decide ((x - h).toInt > 0) then h :: x :: xs else x :: insertHseq h xs

/-- A damaged or aborted frame: its copy that has begun to leave ends in ABORT and a re-send is asked for; a received ABORT is no error of
the hop (R392, R394). -/
def damaged (ix : Fin 4) (hseq : BitVec 8) (counter : Nat) (s : State) : State :=
  let p := portOf s ix
  let again := hseqRepeat p hseq
  let s1 := takeHseq ix hseq s
  let s2 := updPort ix (fun q => { q with
    cut := none, degradedErr := q.degradedErr || counter = 2
    missing := if again then q.missing else insertHseq hseq (q.missing.filter (· ≠ hseq))
    counts := addAt q.counts counter 1 }) s1
  let s3 := if portTalks s ix && !again then emit (.ordered ix 5 hseq.toNat) (portCount ix 4 1 s2) else s2
  match p.cut with
  | some h => if copyLeaves s ix h then emit (.abort (if ix.val % 2 = 0 then ix + 1 else ix - 1)) s3 else s3
  | none => s3

/-- LINK_FRAME_END (R392, R394, R397, R398, R403): an intact accepted frame is forwarded, and deduplicated where it is
for this device; its content arrives by the row of its type. -/
def execLinkFrameEnd (port : Fin 4) (hseq : BitVec 8) (f : Frame) (outcome : FrameEnd) (s : State) : Res :=
  let p := portOf s port
  if p.state ≠ 3 && p.state ≠ 4 && p.state ≠ 5 then .next s
  else match outcome with
  | .abort => .next (damaged port hseq 3 s)
  | .crcOrLength => .next (damaged port hseq 2 s)
  | .intact =>
    let s1 := takeHseq port hseq (portCount port 0 1 s)
    let s2 := updPort port (fun q => { q with unacked := q.unacked + 1, cut := none }) s1
    let s3 := if (portOf s2 port).unacked ≥ 4 && portTalks s2 port then sendAck port s2 else s2
    match p.cut with
    | none => .next s3
    | some _ =>
      if hseqRepeat p hseq then .next (finishCopy port f s3)
      else
        let s4 := forward port f s3
        if forMe s f.hdr.dst && f.hdr.src ≠ s.dev && f.hdr.type ≠ 1 && f.hdr.type ≠ 10 then
          .next (dedup f.hdr.src f.hdr.flow f.hdr.seq s4).2
        else .next s4

/-- A device is a member whose flows are bound: its join epoch has passed (R378, R380). -/
def boundDev (s : State) (d : Nat) : Bool :=
  let r := s.brd.devices.getD d {}
  1 ≤ r.role && r.role ≤ 4 && s.cyc.epoch ≠ r.joinEpoch

/-- A flow is enabled and bound (R378, R380, R399, R401). -/
def flowBound (s : State) (flow : Nat) : Bool :=
  match look s.cfg.flows flow with
  | some d => fld d 48 1 = 1 && boundDev s (fld d 32 8) && (fld d 40 8 ≥ 0xFE || boundDev s (fld d 40 8))
  | none => false

/-- DATA_FRAME (R398, R401): delivered only when newer than the last one delivered. -/
def execDataFrame (src : Fin 64) (flow : BitVec 8) (seq : BitVec 16) (bytes : List Byte) (s : State) : Res :=
  let d := (look s.cfg.flows flow.toNat).getD 0
  if !(flowBound s flow.toNat && fld d 32 8 = src && forMe s (fld d 40 8)) then .next (linkCount 3 1 s)
  else
    let hit := fun (w : Window) => w.src = src.val && w.flow = flow.toNat
    let older := match s.link.windows.find? hit with
      | some w => decide ((seq - w.newest).toInt ≤ 0)
      | none => false
    if older then .next (linkCount 0 1 s)
    else
      let s1 := flowCount flow.toNat 1 (dedup src flow.toNat seq s).2
      .next { s1 with loop := { s1.loop with flowRx := put s1.loop.flowRx flow.toNat bytes } }

/-- MAP_EXPIRY (R402): a device not heard for 3 epochs leaves the ring map. -/
def execMapExpiry (dev : Fin 64) (s : State) : Res :=
  if (s.mem.heard.getD dev none).isSome && s.mem.quietA.getD dev 0 ≥ 3 && s.mem.quietB.getD dev 0 ≥ 3 then
    .next (updateRings { s with mem := { s.mem with heard := s.mem.heard.set dev none } })
  else .next s

/-! ## Class 0x0B -/

/-- Bytes per second of a flow descriptor, counted as R401 says. -/
def flowBudget (d : BitVec 128) : Nat :=
  let one := fld d 80 16 * (fld d 64 16 + 24)
  let two := if fld d 40 8 ≥ 0xFE then 2 * one else one
  if fld d 48 1 = 0 then 0 else if fld d 54 2 = 3 then 2 * two else two

/-- A quarter of the data rate of R387, in bytes per second. -/
def flowRoom (s : State) : Nat := if s.strap 11 then 31250000 else 78125000

/-- A device number of the installation table. -/
def inTable (s : State) (d : Nat) : Bool := s.cfg.table.any (·.1 = d)

/-- A loop context of this device writes the flow (R401). -/
def flowUsed (s : State) (flow : Nat) : Bool :=
  (List.range 128).any fun n => (s.cfg.loops.getD n none).isSome && (s.cfg.loopOf n).outType = 3 && (s.cfg.loopOf n).outDest = flow

/-- FLOW_DEFINE (R401, Table 12.6). -/
def bodyFlowDefine (r : Req) (s : State) : Ans :=
  let d : BitVec 128 := BitVec.ofNat 128 (ule r.payload 0 16)
  let flow := fld d 0 8
  let src := fld d 32 8
  let dst := fld d 40 8
  let flows := s.link.flowsNew.foldl (fun l x => put l x.1 x.2) s.cfg.flows
  let old := look flows flow
  let rest := flows.filter (·.1 ≠ flow)
  if flow < 16 then no .badArg s
  else if !inTable s src || !(dst ≥ 0xFE || inTable s dst) then no .badArg s
  else if fld d 54 2 = 0 || fld d 64 16 = 0 || fld d 64 16 > 1008 || fld d 80 16 = 0 || fld d 80 16 > 10000 then no .range s
  else if flowUsed s flow && (match old with
      | some o => (fld o 32 8 = s.dev || src = s.dev) && (fld o 32 8 ≠ src || fld o 40 8 ≠ dst || fld o 54 2 ≠ fld d 54 2)
      | none => false) then no .state s
  else if (rest.map fun x => flowBudget x.2).sum + flowBudget d > flowRoom s then no .full s
  else okay { s with link := { s.link with flowsNew := put s.link.flowsNew flow d } }
/-- FLOW_DEFINE (R401). -/
def execFlowDefine (r : Req) (s : State) : Res := mbx 0x0B01 (exactly 16) bodyFlowDefine r s

/-- Table 12.10. -/
def portWord (s : State) (ix : Nat) : Nat :=
  let p := portOf s ix
  let q := if p.state = 5 then (p.quarEnd - s.time.ns + 999999999) / 1000000000 else 0
  pack [(4, p.state), (4, 0), (8, q), (5, p.held.length), (2, 0), (1, p.nbPort.toNat), (8, p.nb)]
/-- Table 12.11. -/
def netWord (s : State) (net : Bool) : Nat :=
  let h := fun p => if s.brd.active < 64 then (hops s net p s.brd.active).getD 0xFF else 0xFF
  pack [(3, if net then s.mem.ringB else s.mem.ringA), (5, 0), (8, seen s), (8, h false), (8, h true)]
/-- The summary part of LINK_STATUS. -/
def linkSummary (s : State) : List Byte :=
  [0, 1, 2, 3].flatMap (fun i => leBytes 4 (portWord s i)) ++ leBytes 4 (netWord s false) ++ leBytes 4 (netWord s true) ++
    words s.link.counts
/-- The first `n` flows from `first` of which this device is source or destination. -/
def flowsFrom (s : State) (first n : Nat) : List Nat :=
  ((List.range 256).filter fun f => decide (first ≤ f) && (match look s.cfg.flows f with
    | some d => fld d 32 8 = s.dev || forMe s (fld d 40 8) | none => false)).take n
/-- Their counters. -/
def linkFlows (s : State) (first n : Nat) : List Byte :=
  (flowsFrom s first n).flatMap fun f =>
    let c := ((s.link.flows.find? (·.1 = f)).map (·.2)).getD (0, 0, 0)
    leBytes 1 f ++ leBytes 4 c.1 ++ leBytes 4 c.2.1 ++ leBytes 4 c.2.2
/-- The counters that a part of LINK_STATUS returns, cleared, those of the flows shown among them (R410, R478). -/
def linkClear (part : Nat) (all : Bool) (shown : List Nat) (s : State) : State :=
  let s1 := if all || part = 0 then { s with link := { s.link with counts := List.replicate 5 0 } } else s
  let go := fun (x : Port × Nat) => if all || x.2 + 1 = part then { x.1 with counts := List.replicate 16 0 } else x.1
  let s2 := { s1 with link := { s1.link with ports := s1.link.ports.zipIdx.map go } }
  { s2 with link := { s2.link with flows := s2.link.flows.filter fun f => !shown.contains f.1 } }
/-- LINK_STATUS (R410, Table 15.15). -/
def bodyLinkStatus (r : Req) (s : State) : Ans :=
  let p := r.payload
  let part := u8 p 0
  let shown := if r.dma.isSome then flowsFrom s 16 240 else if part = 5 then flowsFrom s (u8 p 2) (u8 p 3) else []
  let fin := fun (pay : List Byte) => give pay (if clears p 1 then linkClear part r.dma.isSome shown s else s)
  if r.dma.isSome then
    fin (linkSummary s ++ (s.link.ports.flatMap fun q => words q.counts) ++ linkFlows s 16 240)
  else if part = 0 then fin (linkSummary s)
  else if part ≤ 4 then fin (words (portOf s (part - 1)).counts)
  else if part = 5 then
    if u8 p 3 = 0 || u8 p 3 > 18 then no .range s else fin (linkFlows s (u8 p 2) (u8 p 3))
  else no .badArg s
/-- LINK_STATUS (R410). -/
def execLinkStatus (r : Req) (s : State) : Res := mbx 0x0B02 (exactly 4) bodyLinkStatus r s

/-- DISABLE would take the last usable port of both networks (R411). -/
def lastUsable (s : State) (ix : Nat) : Bool := portUp s ix && [0, 1, 2, 3].all fun i => i = ix || !portUp s i

/-- LINK_PORT_CONTROL (R411). -/
def bodyLinkPortControl (r : Req) (s : State) : Ans :=
  let ix := u8 r.payload 0
  let op := u8 r.payload 1
  let st := (portOf s ix).state
  let done := fun (t : State) => give (leBytes 1 (portOf t ix).state) t
  if ix > 3 || op > 3 then no .badArg s
  else if op = 0 then
    if st = 0 || st = 7 || lastUsable s ix then no .state s
    else done (releaseHeld ix (setPort ix 0 (updPort ix (fun q => { q with hellos := 0 }) (endCopies (Fin.ofNat 4 ix) s))))
  else if op = 1 then
    if st = 0 then done (setPort ix 1 s) else no .state s
  else if op = 2 then
    if st = 5 then
      done (event 0x0B13 1 [ix, 1] (setPort ix 3 (updPort ix (fun q => { q with quarEnd := 0, viols := [] }) s)))
    else no .state s
  else if st = 4 then done (setPort ix 3 s) else no .state s
/-- LINK_PORT_CONTROL (R411). -/
def execLinkPortControl (r : Req) (s : State) : Res := mbx 0x0B03 (exactly 2) bodyLinkPortControl r s

end Sys2Proof.Machine
end

