-- ==== Sys2Proof/Machine/Reduction.lean ====
section
/-! DEFINITION. Fast load reduction on this device: sections, groups, triggers, the gates of SCALE contexts, the release
(R214 to R216, R294). -/

namespace Sys2Proof.Machine

/-- The definition of section `n` held here. -/
def sectionDef (s : State) (n : Nat) : Option (List Byte) := powSection s.cfg.power n

/-- FLR_FACTOR of section `n` in force here; the reset value where none is (R286). -/
def flrFactor (s : State) (n : Nat) : Nat := match sectionDef s n with | some p => u16 p 16 | none => 0x7FFF

/-- This device drives a thruster of section `n`. -/
def drivesSection (s : State) (n : Nat) : Bool :=
  s.cfg.thrusters.any fun p => !p.isEmpty && thrFld p 16 8 = s.dev && thrFld p 24 8 = n

/-- The sections tied to `n` in the latest published epoch, `n` itself without a tie (R215). -/
def tiedSections (s : State) (n : Nat) : List Nat :=
  match s.brd.pow.find? (·.number = n) with
  | some r => if bit r.flags.toNat 4 then (s.brd.pow.filter fun q => q.number ≠ 0 && q.group = r.group).map (·.number) else [n]
  | none => [n]

/-- Reduction state of section `n`. -/
def flrOf (s : State) (n : Nat) : Flr := s.loop.flr.getD (n - 1) {}

/-- The gate of section `g` is active (R294). -/
def gateActive (s : State) (g : Nat) : Bool := g ≠ 0 && (tiedSections s g).any fun n => (flrOf s n).inForce

/-- GATED and GATED_COUNT brought up to date (R294). -/
def updateGates (s : State) : State :=
  let go := fun (x : Ctx × Nat) =>
    let g := (s.cfg.loops.getD x.2 none).isSome && gateActive s (s.cfg.loopOf x.2).gate
    { x.1 with gated := g, counts := if g && !x.1.gated then addAt x.1.counts 6 1 else x.1.counts }
  { s with loop := { s.loop with ctx := s.loop.ctx.zipIdx.map go } }

/-- The triggers of a section: 0 safety input, 1 CAN, 2 Board (event 0x1014). -/
def flrInput (k : Nat) (f : Flr) : Bool := if k = 0 then f.si else if k = 1 then f.can else f.brd
/-- One trigger input set. -/
def setInput (k : Nat) (on : Bool) (f : Flr) : Flr :=
  if k = 0 then { f with si := on } else if k = 1 then { f with can := on } else { f with brd := on }

/-- A trigger of section `n` becomes active or inactive: a device that drives a thruster of the section or of its tied group
applies the factor, once (R214, R215). -/
def flrTrigger (k n : Nat) (on : Bool) (s : State) : State :=
  let f := flrOf s n
  if flrInput k f = on then s
  else
    let rise := on && (tiedSections s n).any (drivesSection s)
    let f1 := setInput k on f
    let f2 := if rise then { f1 with inForce := true, epoch := s.epochHeld, since := s.time.ns } else f1
    let s1 := { s with loop := { s.loop with flr := s.loop.flr.set (n - 1) f2 } }
    let s2 := if rise && !f.inForce then event 0x1014 3 [n, k, flrFactor s n, s.epochHeld.toNat] s1 else s1
    updateGates s2

/-- The CAN triggers that a frame matches, by identifier and format (R425). -/
def flrCan (ch : Nat) (f : CanFrame) (s : State) : State :=
  let hit := fun n => match sectionDef s n with
    | some p => u8 p 18 = ch && bits (u32 p 20) 0 29 = f.id && bit (u32 p 20) 31 = f.ide
    | none => false
  match f.data with
  | [] => s
  | b :: _ => ((List.range 7).filter hit).foldl (fun t n => flrTrigger 1 n (b ≠ 0) t) s

/-- The safety-input triggers after a pair's state changed: ASSERTED or DISCREPANT with FUNC 2 (R318). -/
def flrPairs (s : State) : State :=
  (List.range 7).foldl (fun t n => match sectionDef t n with
    | some p =>
      let q := u8 p 3
      if q < 8 then
        flrTrigger 0 n (fld (t.cfg.si.getD q 0) 4 2 = 2 && fld (t.cfg.si.getD q 0) 0 1 = 1 &&
          (t.safe.pairs.getD q 0 = 2 || t.safe.pairs.getD q 0 = 3)) t
      else flrTrigger 0 n false t
    | none => t) s

/-- The Board triggers by the OVERLOAD_INPUT flags of the latest published epoch (R214, R215). -/
def flrBoard (s : State) : State :=
  (List.range 7).foldl (fun t n => match sectionDef t n with
    | some p => flrTrigger 2 n (bit (u8 p 19) 0 &&
        ((t.brd.pow.find? (·.number = n)).map (fun r => bit r.flags.toNat 2)).getD false) t
    | none => t) s

/-- Device time at which epoch `f` closed, from the instant of the current epoch (R49, R73). -/
def closedAt (s : State) (f : Word) : Int :=
  (s.cyc.instant : Int) + epochDiff f s.cyc.epoch * (s.cyc.e * 1000000 : Nat) + (s.cyc.c * 100000 : Nat)

/-- The first epoch of a DP cycle (R50). -/
def firstEpoch (s : State) (c : Word) : Word := s.cyc.dpFirst + (c - s.cyc.dpCycle) * wd s.cyc.k

/-- The commands applied here for section `n` derive from an epoch that closed after an instant: of a DP cycle's first epoch,
or in DEGRADED of the epoch that the record carries (R216). -/
def postdates (s : State) (degraded : Bool) (n : Nat) : Bool :=
  let mine := (List.range 24).filter fun t =>
    let p := s.cfg.thrusters.getD t []
    !p.isEmpty && thrFld p 16 8 = s.dev && (tiedSections s n).contains (thrFld p 24 8)
  !mine.isEmpty && mine.all fun t =>
    match (s.loop.applied.getD t {}).rec_ with
    | some r => bit r.flags.toNat 2 = degraded &&
        decide (closedAt s (if degraded then r.srcCycle else firstEpoch s r.srcCycle) > (flrOf s n).since)
    | none => false

/-- Reductions whose triggers are inactive and whose applied commands postdate them are released, with event 0x1015 (R216). -/
def flrRelease (degraded : Bool) (s : State) : State :=
  updateGates ((List.range 7).foldl (fun t n =>
    let f := flrOf t n
    if n ≠ 0 && f.inForce && !f.si && !f.can && !f.brd && postdates t degraded n then
      event 0x1015 1 [n, (t.time.ns - f.since) / 1000000]
        { t with loop := { t.loop with flr := t.loop.flr.set (n - 1) { f with inForce := false } } }
    else t) s)

end Sys2Proof.Machine
end

