-- ==== Sys2Proof/Machine/TimeUnit.lean ====
section
/-! DEFINITION. Device time: sources, PTP, jumps and accepted steps, SYNC distribution, PPS, the 10 MHz input, and the
time commands (chapter 3, class 0x08). -/

namespace Sys2Proof.Machine

/-- The time record changed. -/
def updTime (f : Time → Time) (s : State) : State := { s with time := f s.time }

/-- Average frequency adjustment of the last 64 s (Table 3.1). DESIGN CHOICE (row 37): one sample at each whole second, the mean rounded
down to the unit of FREQ_ADJ. -/
def freqMean (t : Time) : Int := if t.freqHist.isEmpty then t.freq else t.freqHist.sum / t.freqHist.length

/-- HOLDOVER: the adjustment held at its average, no phase correction (Table 3.1). -/
def enterHoldover (s : State) : State := updTime (fun t => { t with state := 2, freq := freqMean t, slewLeft := 0 }) s

/-- HOLDOVER with event 0x0812, from LOCKED (R74, Table 3.7). -/
def loseTime (s : State) : State :=
  if s.time.state = 1 then event 0x0812 2 [s.time.source, (wi (freqMean s.time)).toNat] (enterHoldover s) else s

/-- The limit of the ACTIVE manager's adjustment, 100 ppm in Q16.16 (R72). -/
def ppm100 : Int := 6553600

/-- Toward 0 by a step. -/
def shrink (x step : Int) : Int := if x ≥ 0 then max 0 (x - step) else min 0 (x + step)

/-- A slew of an offset begins: the adjustment stands at its limit until the offset is gone (R87, R88). DESIGN CHOICE (row 37): it then returns to
what it was. -/
def startSlew (o : Int) (t : Time) : Time :=
  if o = 0 then t
  else { t with slewLeft := o, freqBase := if t.slewLeft = 0 then t.freq else t.freqBase, freq := if o > 0 then ppm100 else -ppm100 }

/-- A slew abandoned. -/
def endSlew (t : Time) : Time := if t.slewLeft = 0 then t else { t with slewLeft := 0, freq := t.freqBase }

/-- A millisecond of a slew at 100 ppm (R87, R88). -/
def slewed (t : Time) : Time :=
  if t.slewLeft.natAbs ≤ 100 then endSlew t else { t with slewLeft := shrink t.slewLeft 100 }

/-- The servo's correction within the limit of R72 in ppm: its law is not stated, so the value is free (row 1). -/
def servo (ppm : Int) (s : State) : State :=
  let f := (nextFree s).toInt
  let lim := ppm * 65536
  stepFree (updTime (fun t => { t with freq := max (-lim) (min lim f), freqLimit := decide (f > lim) || decide (f < -lim) }) s)

/-- What one TIME clock adds, in units of 2^-32 ns: 4 ns and the frequency adjustment of it, whose rounding is open (R70, R72, row 2). -/
def clockStep (t : Time) : Nat := (4 * 2 ^ 32 + openDiv 1 (t.freq * 262144) 1000000).toNat

/-- The counter after the first TIME clock at which it has reached `target` ns (R70, R72). -/
def runTo (target : Nat) (t : Time) : Time :=
  let now := t.ns * 2 ^ 32 + t.frac.toNat
  if target ≤ t.ns then t
  else
    let x := now + ceilDiv (target * 2 ^ 32 - now) (clockStep t) * clockStep t
    { t with ns := x / 2 ^ 32 % 2 ^ 64, frac := wd (x % 2 ^ 32) }

/-- A port's moments after a step of device time. -/
def movePort (ns : Int) (p : Port) : Port :=
  let mv := movedBy ns
  { p with
    quarEnd := mv p.quarEnd, viols := p.viols.map fun v => (mv v.1, v.2), nakTimes := p.nakTimes.map mv
    rateNak := p.rateNak.map fun v => (v.1, v.2.1, mv v.2.2), rate := p.rate.map fun v => (v.1, v.2.1, mv v.2.2) }
/-- Device time moved by a step, with every moment that the state holds as device time: durations run on, and stamps taken before the
step stay comparable with those after it (R87, R90). -/
def moveTime (ns : Int) (s : State) : State :=
  let mv := movedBy ns
  let stamped := fun (x : List Int) => match x with | t :: l => (t + ns) :: l | [] => []
  { s with
    time := { s.time with ns := mv s.time.ns, tickNs := mv s.time.tickNs, stepped := some (s.time.ns, ns) }
    cyc := { s.cyc with gridNs := mv s.cyc.gridNs, instant := mv s.cyc.instant }
    link := { s.link with ports := s.link.ports.map (movePort ns) }
    hif := { s.hif with watches := s.hif.watches.map fun w => { w with lostAt := mv w.lostAt } }
    safe := { s.safe with gloveFrom := mv s.safe.gloveFrom, glove := s.safe.glove.map fun g => { g with onSince := mv g.onSince, pulseAt := g.pulseAt.map mv } }
    memp := { s.memp with regions := s.memp.regions.map fun r => { r with passStart := mv r.passStart } }
    bus := { s.bus with can := s.bus.can.map fun c => { c with offAt := c.offAt.map mv, sofNs := mv c.sofNs } }
    loop := { s.loop with flr := s.loop.flr.map fun f => { f with since := mv f.since } }
    mem := { s.mem with takeoverAt := mv s.mem.takeoverAt, redNext := s.mem.redNext.map fun r => (r.1, mv r.2) }
    dp := { s.dp with copies := s.dp.copies.map fun a => { a with time := mv a.time } }
    sol := { s.sol with stalls := s.sol.stalls.map fun x => { x with pendAt := mv x.pendAt } }
    fus := { s.fus with
      streams := s.fus.streams.map fun x => { x with samples := x.samples.map stamped }
      before := s.fus.before.map fun b => { b with time := mv b.time }
      ring := s.fus.ring.map fun r => { r with streams := r.streams.map fun x => { x with samples := x.samples.map stamped } } } }

/-- A step of whole device time (R84, R87). -/
def stepTime (ns : Int) (s : State) : State := updTime (fun t => { t with gen := t.gen + 1 }) (moveTime ns s)

/-- Microseconds of an offset, saturating to 32 bits. -/
def offsetUs (ns : Int) : Int := sat32 (Int.tdiv ns 1000)

/-- JUMP_THRESH in ns. -/
def jumpNs (s : State) : Int := (s.cfg.jumpUs : Int) * 1000

/-- An offset that the ACTIVE manager's source measured (R83, R84, R88); a first lock from FREE is applied whole. DESIGN CHOICE (row 37):
event 0x0811 of a step applied at once carries its offset truncated toward zero to milliseconds as STEP_MS and STEP_AT 0. -/
def sourceOffset (o : Int) (s : State) : State :=
  let s1 := updTime (fun t => { t with offset := o, srcPresent := true }) s
  if s.time.refused then s1
  else
    let rest := o - s.time.slewLeft
    let big := decide (rest > jumpNs s) || decide (rest < -jumpNs s)
    let first := s.time.state = 0
    let lock := fun (t : State) => updTime (fun x => { x with
      state := 1, everPtp := x.everPtp || x.source = 1 || x.source = 2 }) t
    if big && anyRun s && !first then
      event 0x0810 3 [(wi (offsetUs o)).toNat, s.time.source, s.cfg.jumpUs]
        (enterHoldover (updTime (fun t => { t with refused := true }) s1))
    else if first || big then
      let s2 := lock (stepTime o s1)
      event 0x0811 2 [(wi (Int.tdiv o 1000000)).toNat, 0, s2.time.gen.toNat] s2
    else
      let s2 := if s.time.slewLeft = 0 then servo 100 (lock s1) else lock s1
      if s.time.state = 2 then event 0x0813 1 [s.time.source, (wi o).toNat] s2 else s2

/-- A time source delivers (Table 3.2): the holdover oscillator always, a slave PTP port, PPS_IN after a PTP lock. -/
def sourceUsable (s : State) (code : Nat) : Bool :=
  if code = 0 then true
  else if code = 1 || code = 2 then (s.time.mac.getD (code - 1) {}).portState = 9
  else code = 3 && s.time.everPtp && !s.time.ppsMissing

/-- Rank of a source in the list of R75; lower is preferred, 3 = not listed. -/
def sourceRank (s : State) (code : Nat) : Nat := (s.cfg.sources.findIdx? (· = code)).getD 3

/-- A delivering source is taken when it ranks before the present one, which is none or the holdover oscillator where it is 0 (R75). DESIGN CHOICE (row 37): SOURCE_CHANGED is never
cleared but by a reset. -/
def takeSource (code : Nat) (s : State) : State :=
  if sourceRank s code < sourceRank s s.time.source then
    updTime (fun t => { t with source := code, srcChanged := true }) s
  else s

/-- A measured offset of a source on this device: used by the ACTIVE manager when that source is the selected one (R75). -/
def measured (code : Nat) (o : Int) (s : State) : State :=
  if s.isActive then
    let s1 := takeSource code s
    if s1.time.source = code then sourceOffset o s1 else s1
  else s

/-- The best usable source of the list but for one that is lost, 0 where none is better than the holdover oscillator (R75, Table 3.2). -/
def bestSource (lost : Nat) (s : State) : Nat :=
  ((s.cfg.sources.filter fun c => c ≠ lost && c ≠ 0xFF).find? (sourceUsable s)).getD 0

/-- A source selected afresh by the ACTIVE manager: at its formation, at a takeover, whose first offset R83 then judges, or when the list no longer
holds the present one; its adjustment stays within 100 ppm (R72, R75, R91). DESIGN CHOICE (row 37): a refusal and an accepted step of the source
before end with it. -/
def selectSource (s : State) : State :=
  let c := bestSource 0xFF s
  let s1 := updTime (fun t => { t with
    refused := false, stepWanted := false, freq := max (-ppm100) (min ppm100 t.freq), source := c, srcChanged := t.srcChanged || c ≠ t.source }) s
  if c ≠ 0 then s1
  else
    let s2 := updTime (fun t => { t with srcPresent := false }) s1
    if s.time.state = 1 then event 0x0812 2 [s.time.source, (wi (freqMean s.time)).toNat] (enterHoldover s2) else s2

/-- The next usable source after the selected one is lost, else HOLDOVER with event 0x0812 (R74, R75). DESIGN CHOICE (row 37):
SOURCE_CHANGED is never cleared but by a reset. -/
def nextSource (s : State) : State :=
  let lost := s.time.source
  let c := bestSource lost s
  if c ≠ 0 then updTime (fun t => { t with source := c, srcChanged := true }) s
  else
    let s1 := updTime (fun t => { t with source := 0, srcPresent := false, srcChanged := true }) s
    if s.time.state = 0 then s1
    else event 0x0812 2 [lost, (wi (freqMean s.time)).toNat] (enterHoldover s1)

/-- TIME_SOURCE_LOST (R74, R75). -/
def execTimeSourceLost (s : State) : Res :=
  if s.isActive && s.time.source ≠ 0 then .next (nextSource s) else .next s

/-! ## PTP -/

/-- Field of a MAC's TIME_CONFIG block (Table 15.12). -/
def macFld (s : State) (mac lo w : Nat) : Nat := fld (s.cfg.macBlocks.getD mac 0) lo w

/-- A MAC's time record changed. -/
def updMac (mac : Nat) (f : MacTime → MacTime) (s : State) : State :=
  updTime (fun t => { t with mac := upd t.mac mac f }) s

/-- Receive stamp of R79. -/
def rxStamp (s : State) (mac : Nat) (fast : Bool) (raw : Nat) : Nat := raw - macFld s mac (if fast then 96 else 64) 16 - 8
/-- Transmit stamp of R79. -/
def txStampOf (s : State) (mac : Nat) (fast : Bool) (raw : Nat) : Nat := raw - 8 + macFld s mac (if fast then 112 else 80) 16

/-- An event message of IEEE 1588: Sync, Delay_Req, Pdelay_Req, Pdelay_Resp. -/
def ptpEvent (kind : Nat) : Bool := kind ≤ 3

/-- IEEE 1588 port state code of a port (R24, R76, R77): a master-only port, as a worker's LAN0 is, is MASTER (6); a STANDBY manager's ports are
slave-only, so that one that would serve stays LISTENING (4). -/
def portRole (s : State) (mac p : Nat) : Nat :=
  if macFld s mac 0 8 = 2 || (mac = 0 && !s.isManager && macFld s mac 0 8 ≠ 0) then 6 else if s.mem.role = .standby && (p = 5 || p = 6) then 4 else p

/-- The port serves device time (R76). -/
def isMaster (s : State) (mac : Nat) : Bool := portRole s mac (s.time.mac.getD mac {}).portState = 6
/-- The port follows a master. -/
def isSlave (s : State) (mac : Nat) : Bool := portRole s mac (s.time.mac.getD mac {}).portState = 9

/-- What a port sends on a message: Delay_Resp of a master, Pdelay_Resp under the peer-to-peer profile, a slave's Delay_Req on a Sync
(R77; DESIGN CHOICE, row 37: its interval is not stated). -/
def ptpAnswer (s : State) (mac : Nat) (m : PtpMsg) : Option Nat :=
  if m.kind = 1 && isMaster s mac && macFld s mac 8 8 = 0 then some 9
  else if m.kind = 2 && macFld s mac 8 8 = 1 then some 3
  else if m.kind = 0 && isSlave s mac && macFld s mac 8 8 = 0 then some 1
  else none

/-- The port state after the best master clock algorithm ran (R77): on an Announce, or with no fields when none came in time. -/
def runBmca (mac : Nat) (fields : List Nat) (s : State) : State :=
  let own := [macFld s mac 0 8, macFld s mac 40 8, macFld s mac 48 8, s.time.state, s.time.source]
  updMac mac (fun t => { t with portState := portRole s mac (Config.bmca t.portState (own ++ fields)), heardAge := 0 }) s

/-- A PTP message leaves with device time (R76, R77). -/
def sendPtp (mac : Fin 2) (kind : Nat) (s : State) : State := emit (.ptp mac kind s.time.ns) s

/-- Half milliseconds between Syncs: 2^logSyncInterval s (R77). -/
def syncPeriod (s : State) (mac : Nat) : Nat := 125 * 2 ^ (sext 8 (macFld s mac 56 8) + 4).toNat

/-- A millisecond of one port (R76, R77): a master's Sync and Announce, a peer-to-peer port's Pdelay_Req; the best master clock algorithm
where no Announce came for three intervals. PRESUMED (row 37): the Announce interval is the default 2 s of IEEE 1588. -/
def ptpTickMac (s : State) (mac : Fin 2) : State :=
  if macFld s mac 0 8 = 0 || (mac = 1 && s.variant.lans < 2) then s
  else
    let t := s.time.mac.getD mac {}
    let due := decide (t.syncAge + 2 ≥ syncPeriod s mac)
    let ann := decide (t.announceAge + 1 ≥ 2000)
    let s1 := updMac mac (fun t => { t with
      syncAge := if due then t.syncAge + 2 - syncPeriod s mac else t.syncAge + 2
      announceAge := if ann then 0 else t.announceAge + 1, heardAge := t.heardAge + 1 }) s
    let s2 := if due && isMaster s mac then sendPtp mac 0 s1 else s1
    let s3 := if due && macFld s mac 8 8 = 1 then sendPtp mac 2 s2 else s2
    let s4 := if ann && isMaster s mac then sendPtp mac 11 s3 else s3
    if t.heardAge + 1 ≥ 6000 then runBmca mac [] s4 else s4

/-- A millisecond of the PTP ports. -/
def ptpTick (s : State) : State := ptpTickMac (ptpTickMac s 0) 1

/-- PTP_MESSAGE (R75 to R84): stamped and processed, or ignored as unsupported and counted. -/
def execPtpMessage (mac : Fin 2) (m : PtpMsg) (s : State) : Res :=
  if macFld s mac 0 8 = 0 || (mac = 1 && s.variant.lans < 2) then .next s
  else if !m.supported then .next (updMac mac (fun t => { t with unsupported := satInc t.unsupported }) s)
  else if m.domain ≠ macFld s mac 32 8 || m.transport ≠ macFld s mac 16 8 then .next s
  else
    let s1 := if ptpEvent m.kind then updMac mac (fun t => { t with lastStamp := rxStamp s mac m.fast m.raw }) s else s
    let s2 := if m.kind = 11 then runBmca mac m.fields (updTime (fun t => { t with utc := m.utcOffset }) s1) else s1
    let s3 := match ptpAnswer s2 mac m with
      | some k => sendPtp mac k s2
      | none => s2
    match m.offset with
    | none => .next s3
    | some o =>
      let s4 := updMac mac (fun t => { t with offset := o }) s3
      .next (if isSlave s4 mac then measured (1 + mac) o s4 else s4)

/-- The frames into which the MAC writes their stamp in one-step mode (R82): Sync, and Pdelay_Resp under the peer-to-peer profile. -/
def insertable (s : State) (mac kind : Nat) : Bool := kind = 0 || (kind = 3 && macFld s mac 8 8 = 1)

/-- The follow-up of an event message sent without an insertion: Follow_Up of Sync, Pdelay_Resp_Follow_Up (R77). -/
def followUp (kind : Nat) : Option Nat := if kind = 0 then some 8 else if kind = 3 then some 10 else none

/-- MAC_TX_DONE (R77, R79, R81, R82) of a frame of an IEEE 1588 message type, 15 for any other frame: the descriptor write-back of Table 3.4. -/
def execMacTxDone (mac : Fin 2) (fast : Bool) (kind : Fin 16) (oneStep : Bool) (status : Fin 3) (raw : Nat) (s : State) : Res :=
  if mac = 1 && s.variant.lans < 2 then .next s
  else
    let st := txStampOf s mac fast raw
    let stamped := ptpEvent kind && status = 0
    let ins := stamped && oneStep && macFld s mac 24 8 = 1 && insertable s mac kind
    let w1 := wd (pack [(16, status), (14, 0), (1, ins.toNat), (1, stamped.toNat)])
    let s1 := updMac mac (fun t => { t with
      desc := [0, w1, wd (if stamped then st / 2 ^ 32 else 0), wd (if stamped then st else 0)]
      lastStamp := if stamped then st else t.lastStamp }) s
    if ins then .next (emit (.txStamp mac (kind = 3) st (macFld s mac 16 8 = 0)) s1)
    else if !stamped then .next s1
    else match followUp kind with
      | some k => .next (sendPtp mac k s1)
      | none => .next s1

/-! ## PPS and the 10 MHz input (R96 to R98) -/

/-- An edge's offset from the nearest whole second. -/
def ppsOffset (stamp : Nat) : Int :=
  let r := stamp % 1000000000
  if r < 500000000 then r else (r : Int) - 1000000000

/-- PPS_IN_EDGE (R97). -/
def execPpsInEdge (stamp : Nat) (s : State) : Res :=
  let e := ppsOffset stamp
  let s1 := updTime (fun t => { t with ppsErr := max (-32767) (min 32767 e), ppsMissing := false }) s
  .next (if s1.time.everPtp then measured 3 (-e) s1 else s1)

/-- PPS_IN_MISSING (R97). -/
def execPpsInMissing (s : State) : Res := .next (updTime (fun t => { t with ppsMissing := true }) s)

/-- PPS_OUT_RISE (R96): not driven in FREE. -/
def execPpsOutRise (s : State) : Res := .next (updTime (fun t => { t with ppsHigh := t.state ≠ 0 }) s)

/-- PPS_OUT_FALL (R96). -/
def execPpsOutFall (s : State) : Res := .next (updTime (fun t => { t with ppsHigh := false }) s)

/-- Within ±2 % of 10 MHz (R98). -/
def ref10Ok (hz : Nat) : Bool := 9800000 ≤ hz && hz ≤ 10200000

/-- REF10_LOST (R98): the monitor's reading of the 10 MHz input. The TIME PLL runs from a selected input within ±2 %; outside it returns to
REF, with one event an episode. DESIGN CHOICE (row 37): REF10_LOST clears when the PLL runs from the input again or the input is deselected. -/
def execRef10Lost (hz : Nat) (s : State) : Res :=
  let s1 := updTime (fun t => { t with ref10Hz := hz }) s
  if !s.time.ref10Sel then .next s1
  else if ref10Ok hz then .next (updTime (fun t => { t with ref10Run := true, ref10Lost := false }) s1)
  else if s.time.ref10Lost then .next s1
  else .next (event 0x0814 2 [hz] (updTime (fun t => { t with ref10Run := false, ref10Lost := true }) s1))

/-! ## Station Link time (R92 to R95) -/

/-- A device that follows Station Link time: a member that is not ACTIVE, from its handshake on (R76, R94). -/
def follows (s : State) : Bool := (s.inRun || s.mem.joining) && !s.isActive

/-- SYNC_SEND (R92): the ACTIVE manager, on both networks in both directions. DESIGN CHOICE (row 37): the payload is the correction, then its time. -/
def execSyncSend (s : State) : Res :=
  if s.isActive && s.inRun then .next (sendSys 2 0xFF s.epochHeld (leBytes 8 0 ++ leBytes 8 s.time.ns) s) else .next s

/-- The average of a port's last 16 link delays (R92). -/
def linkDelayMean (s : State) (ix : Nat) : Nat :=
  let l := s.time.linkDelay.getD ix []
  if l.isEmpty then 0 else l.sum / l.length

/-- A SYNC goes on with residence time and link delay added to its correction (R92); the residence time is measured, so
its value is free. The device's own SYNC, come round the ring, ends there, as does one of a neighbour's exchange (R403). -/
def forwardSync (ix : Nat) (h : Hdr) (rest : List Byte) (corr : Nat) (s : State) : State :=
  if h.src = s.dev || h.dst = s.dev || !portUp s (other ix) then s
  else if h.hops ≥ 63 then linkCount 4 1 s
  else
    let c := corr + linkDelayMean s ix + (nextFree s).toNat
    pump (enqueue (other ix) { hdr := hopped h, payload := leBytes 8 c ++ rest } (stepFree s))

/-- The path that a following device uses: the healthy one of fewest hops, network A and port 0 first (R92). DESIGN CHOICE (row 37): a path is
healthy while its port is UP and a SYNC arrived on it within 8 ticks, two sending periods. -/
def bestSync (s : State) : Nat :=
  (List.range 4).foldl (fun b i =>
    let d := fun j => if portUp s j && s.time.syncQuiet.getD j 40 ≤ 8 then s.time.syncHops.getD j 255 else 255
    if d i < d b then i else b) 0

/-- A following device's estimated offset from a SYNC (R93 to R95). -/
def followOffset (ix hops : Nat) (o : Int) (s : State) : State :=
  let off := decide (o > 1000) || decide (o < -1000)
  let jump := decide (o > jumpNs s) || decide (o < -jumpNs s)
  let runs := if off then s.time.skewRuns + 1 else 0
  let s1 := updTime (fun t => { t with skewRuns := runs, offset := o }) s
  let s2 := if runs = 3 then
      event 0x0816 3 [(wi o).toNat, hops, ix / 2] (report 0x0816 3 s.dev (wi o).toNat s1)
    else s1
  if jump then
    if s.time.stepAt.isSome then s2
    else if s.inRun then { s2 with mem := { s2.mem with leaveSelf := true } }
    else s2
  else
    let s3 := servo 200 (updTime (fun t => { t with state := 1 }) s2)
    if s.time.state = 2 then event 0x0813 1 [s.time.source, (wi o).toNat] s3 else s3

/-- SYNC_FRAME (R92 to R95): on a port that delivers, not the device's own and not a neighbour's exchange; `rest` is its payload beside the
correction. -/
def execSyncFrame (net port : Bool) (h : Hdr) (rest : List Byte) (corr : Nat) (offset : Int) (s : State) : Res :=
  let ix := portIx net port
  if !portTalks s ix || h.src = s.dev || h.dst = s.dev then .next s
  else
    let s1 := updTime (fun t => { t with syncHops := t.syncHops.set ix h.hops, syncQuiet := t.syncQuiet.set ix 0 }) (forwardSync ix h rest corr s)
    if follows s1 && s1.time.state ≠ 0 && bestSync s1 = ix then .next (followOffset ix h.hops offset s1) else .next s1

/-- A SYNC frame to the neighbour on a port, which opens the exchange of R92 (R399). -/
def sendExchange (ix : Nat) (s : State) : State :=
  let q := seqOf s 1
  let h : Hdr := { type := 2, src := s.dev, dst := (portOf s ix).nb, flow := 1, epoch16 := s.epochHeld.setWidth 16, seq := q, len := 8,
                   prio := 3, net := ix / 2 = 1 }
  pump (enqueue ix { hdr := h, payload := leBytes 8 0 } { s with link := { s.link with txSeq := put s.link.txSeq 1 (q + 1) } })

/-- LINK_DELAY_EXCHANGE (R92, R399): a two-way exchange on an UP port, and its result; the last 16 are kept. -/
def execLinkDelayExchange (port : Fin 4) (ns : Nat) (s : State) : Res :=
  if !portUp s port then .next s
  else .next (sendExchange port (updTime (fun t => { t with linkDelay := upd t.linkDelay port fun l => (ns :: l).take 16 }) s))

/-- SYNC_LOSS (R95). -/
def execSyncLoss (s : State) : Res :=
  if follows s && s.time.state = 1 then
    .next (loseTime (updTime (fun t => { t with syncHops := [255, 255, 255, 255] }) s))
  else .next s

/-! ## Class 0x08 -/

/-- A MAC block outside its ranges (Table 15.12). -/
def macBlockBad (b : BitVec 128) : Bool :=
  fld b 0 8 > 3 || fld b 8 8 > 1 || fld b 16 8 > 1 || fld b 24 8 > 1 || fld b 32 8 > 127 ||
    decide (sfld b 56 8 < -4) || decide (sfld b 56 8 > 1) || fld b 64 16 > 2000 || fld b 80 16 > 2000 ||
    fld b 96 16 > 2000 || fld b 112 16 > 2000

/-- A source code of Table 3.2, or none. -/
def sourceCode (c : Nat) : Bool := c ≤ 3 || c = 0xFF

/-- What the ACTIVE manager passes of its TIME_CONFIG: JUMP_THRESH to every member, SOURCES to a STANDBY manager (R490). -/
def takeShared (p : List Byte) (s : State) : State :=
  setCfg (fun c => { c with sources := if s.mem.role = .standby then (p.take 3).map BitVec.toNat else c.sources, jumpUs := u32 p 4 }) s

/-- The other members. -/
def otherMembers (s : State) : List Nat :=
  (List.range 64).filter fun n => n ≠ s.dev && 1 ≤ (s.brd.devices.getD n {}).role && (s.brd.devices.getD n {}).role ≤ 4

/-- Every port's state as its role and the device's ask (R76). -/
def portRoles (s : State) : State :=
  updTime (fun t => { t with mac := t.mac.zipIdx.map fun x => { x.1 with portState := portRole s x.2 x.1.portState } }) s

/-- TIME_CONFIG (R75, R80, R98, R490, R491; row 37 for REF10_LOST): SOURCES and JUMP_THRESH_US are kept by the ACTIVE manager, and by a manager that has
no role yet. -/
def bodyTimeConfig (r : Req) (s : State) : Ans :=
  let p := r.payload
  if passedOn r s then okay (takeShared p s)
  else
    let b0 : BitVec 128 := BitVec.ofNat 128 (ule p 16 16)
    let b1 : BitVec 128 := BitVec.ofNat 128 (ule p 32 16)
    let src := (p.take 3).map BitVec.toNat
    let jump := u32 p 4
    let width := u16 p 8
    let wk := s.variant = .WK
    if wk && (fld b0 0 8 = 1 || fld b1 0 8 ≠ 0) then no .absent s
    else if macBlockBad b0 || macBlockBad b1 || (wk && fld b0 0 8 = 3) || !src.all sourceCode || jump = 0 || jump > 1000000 ||
        width = 0 || width > 500 then no .range s
    else
      let own := s.isActive || (s.isManager && s.mem.role = .none)
      let use10 := bit (u8 p 3) 0
      let news := s.isActive && (src ≠ s.cfg.sources || jump ≠ s.cfg.jumpUs)
      let s1 := setCfg (fun c => { c with
        sources := if own then src else c.sources, jumpUs := if own then jump else c.jumpUs
        use10m := use10, ppsWidth := width, macBlocks := [b0, b1] }) s
      let s2 := portRoles (updTime (fun t => { t with
        ref10Sel := use10, ref10Run := use10 && ref10Ok t.ref10Hz, ref10Lost := use10 && t.ref10Lost && !ref10Ok t.ref10Hz }) s1)
      let s3 := if s.isActive && s.time.source ≠ 0 && !src.contains s.time.source then selectSource s2 else s2
      okay (if news then sendCopies 0x0801 r (otherMembers s) s3 else s3)
/-- TIME_CONFIG (R491). -/
def execTimeConfig (r : Req) (s : State) : Res := mbx 0x0801 (exactly 48) bodyTimeConfig r s

/-- TIME_ACCEPT_STEP (R86 to R88). DESIGN CHOICE (row 31): a mode other than 0 and 1, which R86 does not list, is answered BAD_ARG before the
other conditions are read. -/
def bodyTimeAcceptStep (r : Req) (s : State) : Ans :=
  let mode := u8 r.payload 0
  let o := s.time.offset
  let pay := leBytes 4 (wi (offsetUs o)).toNat
  if mode > 1 then no .badArg s
  else if !s.time.refused || !s.time.srcPresent then no .state s
  else if mode = 1 then
    if decide (o > 1000000000) || decide (o < -1000000000) then no .range s
    else give pay (event 0x0813 1 [s.time.source, (wi o).toNat]
      (updTime (fun t => startSlew o { t with state := 1, refused := false }) s))
  else give pay (updTime (fun t => { t with stepWanted := true }) s)
/-- TIME_ACCEPT_STEP (R86). -/
def execTimeAcceptStep (r : Req) (s : State) : Res := mbx 0x0802 (exactly 1) bodyTimeAcceptStep r s

/-- TIME_STATUS (Table 15.11). -/
def bodyTimeStatus (_ : Req) (s : State) : Ans :=
  let t := s.time
  let mac := fun (x : MacTime × Nat) => let m := x.1; leBytes 8 m.lastStamp ++ leBytes 4 (wi m.offset).toNat ++
    leBytes 1 (portRole s x.2 m.portState) ++ leBytes 3 0 ++ leBytes 4 m.unsupported ++ leBytes 4 0
  give (leBytes 1 t.state ++ leBytes 1 t.source ++ leBytes 2 t.gen.toNat ++ leBytes 4 (wi t.freq).toNat ++
    leBytes 4 (wi (offsetUs t.offset)).toNat ++ leBytes 2 (intBits 16 t.ppsErr) ++ leBytes 1 s.timeFlags ++ leBytes 1 0 ++
    t.mac.zipIdx.flatMap mac) s
/-- TIME_STATUS (R490). -/
def execTimeStatus (r : Req) (s : State) : Res := mbx 0x0803 (exactly 0) bodyTimeStatus r s

end Sys2Proof.Machine
end

