-- ==== Sys2Proof/Machine/Serial.lean ====
section
/-! DEFINITION. CAN FD channels, routes, transmit buffers, rate detection, UARTs and IEC 61162-450 (chapter 13, class 0x07). -/

namespace Sys2Proof.Machine

/-! ## Channel words (Table 13.3) -/

/-- The configuration word of channel `ch`. -/
def canWord (s : State) (ch : Nat) : BitVec 96 := s.cfg.can.getD ch canReset
/-- Channel run-time state. -/
def canOf (s : State) (ch : Nat) : Can := s.bus.can.getD ch {}
/-- Channel changed. -/
def updCan (ch : Nat) (f : Can → Can) (s : State) : State := { s with bus := { s.bus with can := upd s.bus.can ch f } }
/-- Channel counter `n` of R443 stepped. -/
def canCount (ch n k : Nat) (s : State) : State := updCan ch (fun c => { c with counts := addAt c.counts n k }) s
/-- EN. -/
def canEn (w : BitVec 96) : Bool := fld w 0 1 = 1
/-- Listen-only. -/
def canListen (w : BitVec 96) : Bool := fld w 4 2 = 1
/-- Nominal bit time in CAN clocks (R415). -/
def nominalClocks (w : BitVec 96) : Nat := (fld w 43 5 + 1) * (3 + fld w 48 8 + fld w 56 7)
/-- Data bit time in CAN clocks (R415). -/
def dataClocks (w : BitVec 96) : Nat := (fld w 70 5 + 1) * (3 + fld w 75 5 + fld w 80 4)

/-- Refused with RANGE (R416, Table 13.3). -/
def canRange (w : BitVec 96) : Bool :=
  nominalClocks w < 80 || nominalClocks w > 640 || dataClocks w < 10 || dataClocks w > nominalClocks w ||
  fld w 63 7 > fld w 56 7 || fld w 84 4 > fld w 80 4 || fld w 4 2 > 1 || fld w 16 16 > 1000

/-- The word without reserved bits (R12). -/
def canMask (w : BitVec 96) : BitVec 96 := w &&& 0xFFFFFFFFFFFFF800FFFF00FF#96
/-- The word without EN and BOFF_AUTO (R416). -/
def canFixed (w : BitVec 96) : BitVec 96 := w &&& 0xFFFFFFFFFFFFF800FFFF007E#96

/-- Stored stamp of a latched start-of-frame time (R419). -/
def canStamp (s : State) (ch raw : Nat) : Nat := raw - 10 - fld (canWord s ch) 16 16

/-! ## Receiving and routing (R418 to R425) -/

/-- A record of Table 13.4. -/
def canRecBytes (x : CanRec) : List Byte :=
  leBytes 16 (pack [(29, x.f.id), (8, 0), (1, x.f.ide.toNat), (1, x.f.rtr.toNat), (1, x.f.fdf.toNat), (1, x.f.brs.toNat),
    (1, x.f.esi.toNat), (1, x.f.self.toNat), (1, x.lost.toNat), (4, x.f.dlc), (16, x.seq.toNat), (32, x.epoch.toNat),
    (32, x.stamp.toNat)]) ++ (x.f.data ++ List.replicate 64 0).take 64

/-- Route `n`'s word. -/
def routeWord (s : State) (n : Nat) : BitVec 128 := s.cfg.routes.getD n routeReset

/-- A frame matches route `n` (R424). -/
def routeMatches (s : State) (ch : Nat) (f : CanFrame) (n : Nat) : Bool :=
  let w := routeWord s n
  let m := fld w 99 29
  fld w 32 1 = 1 && fld w 64 3 = ch && f.ide = (fld w 37 1 = 1 : Bool) && (f.id &&& m) = (fld w 67 29 &&& m) && !f.rtr &&
    (!f.self || fld w 36 1 = 1)

/-- The field of a route, extended to 32 bits; none when the frame is too short (R424). -/
def routeField (w : BitVec 128) (data : List Byte) : Option Int :=
  let n := 2 ^ fld w 40 2
  let o := fld w 42 6
  if data.length < o + n then none
  else
    let b := (data.drop o).take n
    let raw := leNat (if fld w 39 1 = 1 then b.reverse else b)
    some (if fld w 38 1 = 1 then sext (8 * n) raw else sext 32 raw)

/-- One route takes a frame: its new value, or ROUTE_SHORT (R424). -/
def takeRoute (ch : Nat) (f : CanFrame) (n : Nat) (s : State) : State :=
  match routeField (routeWord s n) f.data with
  | none => canCount ch 12 1 s
  | some v => inputBack (fun l => l.inType = 2 && l.inSel = n)
      { s with bus := { s.bus with routes := s.bus.routes.set n (v, true) } }

/-- A frame enters the ring with its stamp and the epoch of it (R73), then meets the reduction triggers, the routes and the streams, which take
the stamp in the time now kept (R418, R423, R425). -/
def ringEnter (ch : Nat) (f : CanFrame) (w epoch : Word) (stamp : Nat) (s : State) : State :=
  let go := fun (c : Can) => { c with
    ring := ({ f := f, lost := c.lostNext, seq := c.seq, epoch := epoch, stamp := w } :: c.ring).take 512,
    seq := c.seq + 1, lostNext := false, counts := addAt c.counts 0 1 }
  let s1 := updCan ch go s
  let s2 := if f.self then s1 else flrCan ch f s1
  offerCan ch f stamp (((List.range 64).filter (routeMatches s2 ch f)).foldl (fun t n => takeRoute ch f n t) s2)

/-! ## Automatic rate detection (R433, R434, Table 13.9) -/

/-- Nominal candidates in bit/s. -/
def nominalRates : List Nat := [500000, 250000, 1000000, 125000]
/-- Data candidates in bit/s. -/
def dataRates : List Nat := [2000000, 5000000, 4000000, 8000000, 1000000]

/-- Nominal timing of a candidate: BRP, TSEG1, TSEG2, SJW as stored, 80 % sample point. -/
def nominalTiming (i : Nat) : Nat × Nat × Nat × Nat :=
  [(0, 126, 31, 31), (0, 254, 63, 63), (0, 62, 15, 15), (1, 254, 63, 63)].getD i (0, 126, 31, 31)
/-- Data timing of a candidate, 75 % sample point. -/
def dataTiming (i : Nat) : Nat × Nat × Nat × Nat :=
  [(0, 28, 9, 9), (0, 10, 3, 3), (0, 13, 4, 4), if Config.split8M then (0, 6, 1, 1) else (0, 5, 2, 2), (1, 28, 9, 9)].getD i
    (0, 28, 9, 9)

/-- A word with the nominal timing of candidate `i`. -/
def putNominal (i : Nat) (w : BitVec 96) : BitVec 96 :=
  let t := nominalTiming i
  setFld (setFld (setFld (setFld w 43 5 t.1) 48 8 t.2.1) 56 7 t.2.2.1) 63 7 t.2.2.2
/-- A word with the data timing of candidate `i`, FD set (R434). -/
def putData (i : Nat) (w : BitVec 96) : BitVec 96 :=
  let t := dataTiming i
  setFld (setFld (setFld (setFld (setFld w 70 5 t.1) 75 5 t.2.1) 80 4 t.2.2.1) 84 4 t.2.2.2) 6 1 1

/-- Detection locks: timing written, LOCKED, event 0x0715 (R434). -/
def autoLock (ch nom : Nat) (data : Option Nat) (s : State) : State :=
  let w := putNominal nom (canWord s ch)
  let w1 := match data with | some d => putData d w | none => w
  let s1 := setCfg (fun c => { c with can := c.can.set ch w1 }) s
  let s2 := updCan ch (fun c => { c with state := 6, auto := none, dataUnknown := data.isNone }) s1
  event 0x0715 1 [ch, nominalRates.getD nom 0, match data with | some d => dataRates.getD d 0 | none => 0] s2

/-- An error-free frame during detection (R433). -/
def autoFrame (ch : Nat) (f : CanFrame) (s : State) : State :=
  match (canOf s ch).auto with
  | none => s
  | some a =>
    let put := fun (b : Autobaud) => updCan ch (fun c => { c with auto := some b }) s
    match a.nominal with
    | none =>
      if f.fdf && f.brs then s
      else if a.good + 1 ≥ 4 then put { a with nominal := some a.cand, dcand := 0, dgood := 0, dwells := 0, brsSeen := false }
      else put { a with good := a.good + 1 }
    | some n =>
      if !(f.fdf && f.brs) then s
      else if a.dgood + 1 ≥ 4 then autoLock ch n (some a.dcand) s
      else put { a with dgood := a.dgood + 1, brsSeen := true }

/-- AUTOBAUD_DWELL_END (R433, R434): the next candidate is tried; the passes end FAILED; four nominal dwells without a BRS
frame end LOCKED with DATA_UNKNOWN. -/
def execAutobaudDwellEnd (ch : Fin 8) (onError : Bool) (s : State) : Res :=
  match (canOf s ch).auto with
  | none => .next s
  | some a =>
    let put := fun (b : Autobaud) => updCan ch (fun c => { c with auto := some b }) s
    match a.nominal with
    | none =>
      if a.cand < 3 then .next (put { a with cand := a.cand + 1, good := 0 })
      else if a.pass + 1 < a.passes then .next (put { a with cand := 0, good := 0, pass := a.pass + 1 })
      else .next (event 0x0716 2 [ch, a.passes] (updCan ch (fun c => { c with state := 7, auto := none }) s))
    | some n =>
      let dwells := if onError then a.dwells else a.dwells + 1
      let seen := a.brsSeen || onError
      if dwells ≥ 4 && !seen then .next (autoLock ch n none s)
      else .next (put { a with dwells := dwells, brsSeen := seen, dgood := 0,
                               dcand := if seen then (a.dcand + 1) % 5 else a.dcand })

/-- The error state by the counters of ISO 11898-1: active, passive from 128, bus-off from 256 (R417). -/
def canErrState (tec rec_ : Nat) : Nat := if tec ≥ 256 then 3 else if tec ≥ 128 || rec_ ≥ 128 then 2 else 1

/-- Bus-off: PENDING and ON_BUS buffers end BUS_OFF, event 0x0711 (R417). -/
def busOff (ch : Nat) (s : State) : State :=
  let ends := fun (x : CanBuf) => x.status = 1 || x.status = 2
  let n := ((canOf s ch).bufs.filter ends).length
  let go := fun (x : CanBuf) => if ends x then { x with status := 8, cancel := false, held := none } else x
  let s1 := updCan ch (fun c => { c with state := 3, bufs := c.bufs.map go, onBus := none, counts := addAt c.counts 9 1 }) s
  event 0x0711 3 [ch, n, (canOf s1 ch).counts.getD 9 0] s1

/-- The error counters set on a channel that takes part in the bus, with the change of error state that follows (R417). -/
def setErr (ch tec rec_ : Nat) (s : State) : State :=
  let c := canOf s ch
  let st := canErrState tec rec_
  let s1 := updCan ch (fun c => { c with tec := tec, rec_ := rec_ }) s
  if c.state ≠ 1 && c.state ≠ 2 then s
  else if st = 3 then busOff ch s1
  else if st ≠ c.state then event 0x0710 2 [ch, c.state, st, tec] (updCan ch (fun c => { c with state := st }) s1)
  else s1

/-- A frame received without error: PRESUMED of ISO 11898-1 (row 41), the receive error counter falls by 1, from above 127 to a value of 119 to
127 that the standard leaves open. -/
def rxGood (ch : Nat) (s : State) : State :=
  let c := canOf s ch
  if c.rec_ > 127 then setErr ch c.tec (119 + bits (nextFree s).toNat 0 8 % 9) (stepFree s) else setErr ch c.tec (c.rec_ - 1) s

/-- A frame of another node that ends in an error frame is counted (R418, R443). PRESUMED of ISO 11898-1 (row 41): the receive error counter
rises by 1, by 8 where a dominant bit follows the own error flag. -/
def rxError (ch kind : Nat) (primary : Bool) (s : State) : State :=
  let c := canOf s ch
  setErr ch c.tec (c.rec_ + if primary then 8 else 1) (canCount ch 7 1 (canCount ch (2 + kind) 1 s))

/-- A frame met the channel before the disable (R432): begun by the time known then, or, where it began before the next known time, as the free
instant of the command says (row 41). -/
def begunBefore (c : Can) (stamp : Nat) (s : State) : Bool :=
  match c.offAt with
  | some t => stamp ≤ t || (decide (stamp < t + 1000000) && bits (nextFree s).toNat 0 1 = 1)
  | none => false

/-- A frame completes on an enabled channel, or was in progress when the channel was disabled (R418, R432). -/
def rxFrame (ch : Nat) (f : CanFrame) (stamp : Nat) (s : State) : State :=
  let t := canStamp s ch stamp
  let enter := fun (u : State) => ringEnter ch f (wd t) (epochOf s t) t u
  if canEn (canWord s ch) then enter (rxGood ch s)
  else if begunBefore (canOf s ch) stamp s then enter (stepFree (updCan ch (fun c => { c with offAt := none }) s))
  else s

/-- CAN_FRAME_RX (R417, R418): a frame from another node ends; the device's own enter at the end of their attempt. -/
def execCanFrameRx (ch : Fin 8) (f : CanFrame) (rx : CanRx) (s : State) : Res :=
  let c := canOf s ch
  if ch.val ≥ s.variant.cans || f.self then .next s
  else match rx.ends with
    | .ok => .next (if c.auto.isSome then autoFrame ch f s else rxFrame ch f rx.stamp s)
    | .error kind primary =>
      .next (if c.auto.isSome || canEn (canWord s ch) then rxError ch kind primary s else s)

/-- CAN_RX_OVERRUN (R421). -/
def execCanRxOverrun (ch : Fin 8) (lost : Nat) (s : State) : Res :=
  if ch.val ≥ s.variant.cans || !canEn (canWord s ch) then .next s
  else .next (event 0x0712 3 [ch, lost] (updCan ch (fun c =>
    { c with seq := c.seq + BitVec.ofNat 16 lost, lostNext := true, counts := addAt c.counts 10 lost }) s))

/-! ## Transmitting (R426 to R431) -/

/-- IDE of a header (Table 13.6). -/
def hdrIde (h : BitVec 64) : Bool := fld h 50 1 = 1
/-- ID of a header; a base identifier has 11 bits. -/
def hdrId (h : BitVec 64) : Nat := if hdrIde h then fld h 16 29 else fld h 16 11

/-- Arbitration order of a header: base identifier, base format before extended, identifier extension (R426). -/
def arbKey (h : BitVec 64) : Nat :=
  if hdrIde h then hdrId h / 2 ^ 18 * 2 ^ 19 + 2 ^ 18 + hdrId h % 2 ^ 18 else hdrId h * 2 ^ 19

/-- The PENDING buffer that wins; the lower number on equal keys (R426). -/
def winner (bufs : List CanBuf) : Option Nat :=
  (bufs.zipIdx).foldl (fun best x =>
    if x.1.status ≠ 1 then best
    else match best with
      | none => some x.2
      | some b => if arbKey x.1.header < arbKey (bufs.getD b {}).header then some x.2 else best) none

/-- Buffer `b` of channel `ch`. -/
def bufOf (s : State) (ch b : Nat) : CanBuf := (canOf s ch).bufs.getD b {}
/-- Buffer changed. -/
def updBuf (ch b : Nat) (f : CanBuf → CanBuf) (s : State) : State := updCan ch (fun c => { c with bufs := upd c.bufs b f }) s

/-- A buffer queued: PENDING with its retry count (R427, R429); its collision run goes on (R431). -/
def queueBuf (x : CanBuf) : CanBuf :=
  { x with status := 1, collision := false, cancel := false, attempts := 0, retryLeft := fld x.header 60 4 }

/-- The frame of a buffer as it enters the ring (R418); an FD frame of an error-passive node carries ESI (R420). -/
def ownFrame (passive : Bool) (x : CanBuf) : CanFrame :=
  { id := hdrId x.header, ide := hdrIde x.header, fdf := fld x.header 51 1 = 1, brs := fld x.header 52 1 = 1, self := true
    esi := passive && fld x.header 51 1 = 1
    dlc := fld x.header 56 4, data := x.data }

/-- CAN_ATTEMPT_START (R426, R428). -/
def execCanAttemptStart (ch : Fin 8) (stamp : Nat) (s : State) : Res :=
  let c := canOf s ch
  match winner c.bufs with
  | none => .next s
  | some b =>
    if h : b < 32 then
      if !(canEn (canWord s ch) && (c.state = 1 || c.state = 2) && c.onBus.isNone) then .next s
      else
        let t := canStamp s ch stamp
        .next (updBuf ch b (fun x => { x with status := 2, attempts := min 255 (x.attempts + 1), stamp := wd t,
                                              epoch := epochOf s t })
          (updCan ch (fun c => { c with onBus := some ⟨b, h⟩, sofNs := t }) s))
    else .next s

/-- An attempt that failed with `retry` allowed: CANCELLED, ABORTED on a disabled channel, ABANDONED, or PENDING again
(R428, R430, R432). -/
def failAttempt (ch b : Nat) (s : State) : State :=
  let x := bufOf s ch b
  if x.cancel then updBuf ch b (fun x => { x with status := 5, cancel := false }) s
  else if !canEn (canWord s ch) then updBuf ch b (fun x => { x with status := 7 }) s
  else if x.retryLeft = 0 then
    event 0x0713 2 [ch, b, hdrId x.header, x.attempts] (updBuf ch b (fun x => { x with status := 6 }) s)
  else updBuf ch b (fun x => { x with status := 1, retryLeft := x.retryLeft - 1 }) s

/-- A context's write that waited for the attempt's end is queued (R289); a channel disabled meanwhile queues nothing (R432). -/
def takeHeld (ch b : Nat) (s : State) : State :=
  match (bufOf s ch b).held with
  | some d => updBuf ch b (fun x =>
      let y := { x with data := d, held := none }
      if canEn (canWord s ch) then queueBuf y else y) s
  | none => s

/-- One more post-arbitration bit error in a row; a run of 2 sets ID_COLLISION (R431), anew where the flag was cleared since (row 43). -/
def collide (ch b : Nat) (s : State) : State :=
  let s1 := updBuf ch b (fun x => { x with run := x.run + 1 }) s
  if (bufOf s1 ch b).run ≥ 2 && !(bufOf s1 ch b).collision then
    event 0x0714 3 [ch, b, hdrId (bufOf s1 ch b).header] (canCount ch 11 1 (updBuf ch b (fun x => { x with collision := true }) s1))
  else s1

/-- CAN_ATTEMPT_END (R428, R430, R431, R418, R417): the error counter rises while the buffer is still ON_BUS, so that bus-off ends it BUS_OFF. -/
def execCanAttemptEnd (ch : Fin 8) (e : CanEnd) (s : State) : Res :=
  let c := canOf s ch
  match c.onBus with
  | none => .next s
  | some b =>
    let x := bufOf s ch b
    let s0 := updCan ch (fun c => { c with onBus := none }) s
    match e with
    | .success =>
      let s1 := updBuf ch b (fun x => { x with status := if x.cancel then 4 else 3, cancel := false, run := 0 }) s0
      let s2 := setErr ch (c.tec - 1) c.rec_ (canCount ch 1 1 s1)
      .next (takeHeld ch b (ringEnter ch (ownFrame (c.state = 2) x) x.stamp x.epoch c.sofNs s2))
    | .lostArbitration =>
      let s1 := canCount ch 8 1 (updBuf ch b (fun x => { x with run := 0 }) s0)
      .next (takeHeld ch b (failAttempt ch b s1))
    | .error kind afterArb =>
      let s1 := canCount ch 7 1 (canCount ch (2 + kind) 1 s0)
      let s2 := if kind = 0 && afterArb then collide ch b s1 else s1
      let s3 := if c.state = 2 && kind = 3 then s2 else setErr ch (c.tec + 8) c.rec_ s2
      .next (if (bufOf s3 ch b).status = 2 then takeHeld ch b (failAttempt ch b s3) else s3)

/-- BUS_OFF_RECOVERY (R417). -/
def execBusOffRecovery (ch : Fin 8) (s : State) : Res :=
  if (canOf s ch).state ≠ 3 || fld (canWord s ch) 7 1 ≠ 1 then .next s
  else .next (event 0x0710 2 [ch, 3, 1, 0] (updCan ch (fun c => { c with state := 1, tec := 0, rec_ := 0 }) s))

/-! ## CAN commands (Table 15.10) -/

/-- CAN_CONFIG body (R413, R416, R432). -/
def bodyCanConfig (r : Req) (s : State) : Ans :=
  let w := canMask (BitVec.ofNat 96 (ule r.payload 0 12))
  let ch := fld w 1 3
  let old := canWord s ch
  let c := canOf s ch
  if ch ≥ s.variant.cans then no .absent s
  else if canRange w then no .range s
  else if canEn old && canFixed w ≠ setFld (canFixed old) 1 3 ch then no .state s
  else
    let s1 := setCfg (fun c => { c with can := c.can.set ch w }) s
    if canEn w && !canEn old then
      okay (updCan ch (fun c => { c with
        state := if canListen w then 4 else 1, tec := 0, rec_ := 0, ring := [], seq := 0, lostNext := false, auto := none,
        dataUnknown := false, offAt := none }) s1)
    else if !canEn w && canEn old then
      let go := fun (x : CanBuf) => if x.status = 1 then { x with status := 7, cancel := false } else x
      okay (updCan ch (fun c => { c with state := 0, bufs := c.bufs.map go, offAt := some s.time.ns }) s1)
    else if !canEn w && c.auto.isSome then okay (updCan ch (fun c => { c with state := 7, auto := none }) s1)
    else okay s1

/-- CAN_CONFIG (R416). -/
def execCanConfig (r : Req) (s : State) : Res := mbx 0x0701 (exactly 12) bodyCanConfig r s

/-- CAN_AUTOBAUD body (R433). -/
def bodyCanAutobaud (r : Req) (s : State) : Ans :=
  let ch := u8 r.payload 0
  let op := u8 r.payload 1
  let c := canOf s ch
  if ch ≥ 8 then no .range s
  else if op > 1 then no .badArg s
  else if ch ≥ s.variant.cans then no .absent s
  else if op = 0 then
    if c.auto.isNone then no .state s else okay (updCan ch (fun c => { c with state := 7, auto := none }) s)
  else if u16 r.payload 2 < 100 || u16 r.payload 2 > 10000 || u8 r.payload 4 < 1 || u8 r.payload 4 > 15 then no .range s
  else if canEn (canWord s ch) || c.auto.isSome || c.onBus.isSome then no .state s
  else okay (updCan ch (fun c => { c with
    state := 5, dataUnknown := false, auto := some { dwell := u16 r.payload 2, passes := u8 r.payload 4 } }) s)

/-- CAN_AUTOBAUD (R433). -/
def execCanAutobaud (r : Req) (s : State) : Res := mbx 0x0702 (exactly 5) bodyCanAutobaud r s

/-- Header of a CAN_TX payload. -/
def txHeader (p : List Byte) : BitVec 64 := BitVec.ofNat 64 (ule p 0 8)

/-- Payload length of CAN_TX: 8 and the data bytes of DLC (R427). -/
def lenCanTx (p : List Byte) : Option Status :=
  let h := txHeader p
  if p.length < 8 then some .badArg
  else if fld h 56 4 > 8 && fld h 51 1 = 0 then some .range
  else if p.length = 8 + dlcLen (fld h 51 1 = 1) (fld h 56 4) then none else some .badArg

/-- CAN_TX body (R427). -/
def bodyCanTx (r : Req) (s : State) : Ans :=
  let h := txHeader r.payload
  let ch := fld h 5 3
  let b := fld h 0 5
  let st := (canOf s ch).state
  if ch ≥ s.variant.cans then no .absent s
  else if fld h 52 1 = 1 && fld h 51 1 = 0 then no .range s
  else if (fld h 51 1 = 1 && fld (canWord s ch) 6 1 = 0) || (st ≠ 1 && st ≠ 2) || (bufOf s ch b).bound then no .state s
  else if (bufOf s ch b).status = 2 then no .busy s
  else give [1] (updBuf ch b (fun x => queueBuf { x with header := h, data := r.payload.drop 8 }) s)

/-- CAN_TX (R427). -/
def execCanTx (r : Req) (s : State) : Res := mbx 0x0703 lenCanTx bodyCanTx r s

/-- CAN_CANCEL body (R430): the answer carries the status at the response. -/
def bodyCanCancel (r : Req) (s : State) : Ans :=
  let ch := u8 r.payload 0
  let b := u8 r.payload 1
  let x := bufOf s ch b
  if ch ≥ 8 || b ≥ 32 then no .range s
  else if ch ≥ s.variant.cans then no .absent s
  else if x.status ≠ 1 && x.status ≠ 2 then .done .state (leBytes 1 x.status) s
  else
    let s1 := cancelBuf ch b s
    give (leBytes 1 (bufOf s1 ch b).status) s1

/-- CAN_CANCEL (R430). -/
def execCanCancel (r : Req) (s : State) : Res := mbx 0x0704 (exactly 2) bodyCanCancel r s

/-- A buffer status word (Table 13.7). -/
def bufWord (n : Nat) (x : CanBuf) : Nat :=
  pack [(5, n), (1, x.bound.toNat), (1, x.cancel.toNat), (1, x.collision.toNat), (8, x.status), (4, 0), (4, x.retryLeft),
    (8, x.attempts), (32, x.stamp.toNat), (32, x.epoch.toNat)]

/-- CAN_STATUS body (R429, R443). -/
def bodyCanStatus (r : Req) (s : State) : Ans :=
  let ch := u8 r.payload 0
  let first := u8 r.payload 2
  let n := u8 r.payload 3
  let c := canOf s ch
  if ch ≥ 8 || n > 15 || first + n > 32 then no .range s
  else if ch ≥ s.variant.cans then no .absent s
  else give (leBytes 4 (pack [(8, c.state), (8, c.dataUnknown.toNat), (8, min 255 c.tec), (8, min 255 c.rec_)]) ++
      words c.counts ++ (List.range n).flatMap fun i => leBytes 12 (bufWord (first + i) (c.bufs.getD (first + i) {})))
    (if clears r.payload 1 then updCan ch (fun c => { c with counts := List.replicate 13 0 }) s else s)

/-- CAN_STATUS (R443). -/
def execCanStatus (r : Req) (s : State) : Res := mbx 0x0705 (exactly 4) bodyCanStatus r s

/-- Records of a ring (newest first) from a SEQ on, oldest first; none when that SEQ has been overwritten (R422). -/
def ringFrom {α : Type} (size : Nat) (seqOf : α → BitVec 16) (ring : List α) (start : BitVec 16) : Option (List α) :=
  match ring.getLast? with
  | some o =>
    if ring.length = size && decide ((start - seqOf o).toInt < 0) then none
    else some (ring.reverse.filter fun x => decide ((seqOf x - start).toInt ≥ 0))
  | none => some []

/-- The answer of CAN_RX_READ and UART_RX_READ: the newest record's SEQ (of an empty ring the one before the next) and records, or STALE with
the oldest SEQ (R422, R439). -/
def ringAnswer {α : Type} (size : Nat) (seqOf : α → BitVec 16) (bytes : α → List Byte) (ring : List α)
    (next start : BitVec 16) (dma : Bool) (s : State) : Ans :=
  match ringFrom size seqOf ring start with
  | none => .done .stale (leBytes 2 ((ring.getLast?.map seqOf).getD 0).toNat) s
  | some xs =>
    let ys := xs.take (if dma then size else 2)
    give (leBytes 2 ((ring.head?.map seqOf).getD (next - 1)).toNat ++ leBytes 6 ys.length ++ ys.flatMap bytes) s

/-- CAN_RX_READ body (R422). -/
def bodyCanRxRead (r : Req) (s : State) : Ans :=
  let ch := u8 r.payload 0
  let c := canOf s ch
  if ch ≥ 8 then no .range s
  else if ch ≥ s.variant.cans then no .absent s
  else ringAnswer 512 CanRec.seq canRecBytes c.ring c.seq (BitVec.ofNat 16 (u16 r.payload 2)) r.dma.isSome s

/-- CAN_RX_READ (R422). -/
def execCanRxRead (r : Req) (s : State) : Res := mbx 0x0706 (exactly 4) bodyCanRxRead r s

/-- A context in RUN, PARKING or HOLD reads route `n` (R423). -/
def routeBound (s : State) (n : Nat) : Bool :=
  (List.range 128).any fun c => (s.cfg.loops.getD c none).isSome && (s.cfg.loopOf c).inType = 2 && (s.cfg.loopOf c).inSel = n &&
    [2, 3, 4].contains (s.loop.ctx.getD c {}).state

/-- CAN_ROUTE_DEFINE body (R423, Table 13.5). -/
def bodyCanRouteDefine (r : Req) (s : State) : Ans :=
  let w := (BitVec.ofNat 128 (ule r.payload 0 16)) &&& 0xFFFFFFF8FFFFFFFFFFFFFFF1000000FF#128
  let n := fld w 0 8
  if n > 63 || fld w 40 2 = 3 || fld w 48 16 < 1 || fld w 48 16 > 10000 then no .range s
  else if fld w 64 3 ≥ s.variant.cans then no .absent s
  else if routeBound s n then no .state s
  else okay (setCfg (fun c => { c with routes := c.routes.set n w })
    { s with bus := { s.bus with routes := s.bus.routes.set n (0, false) } })

/-- CAN_ROUTE_DEFINE (R423). -/
def execCanRouteDefine (r : Req) (s : State) : Res := mbx 0x0707 (exactly 16) bodyCanRouteDefine r s

/-! ## UARTs (R435 to R440) -/

/-- UART word. -/
def uartWord (s : State) (u : Nat) : BitVec 64 := s.cfg.uarts.getD u uartReset
/-- UART run-time state. -/
def uartOf (s : State) (u : Nat) : Uart := s.bus.uart.getD u {}
/-- UART changed. -/
def updUart (u : Nat) (f : Uart → Uart) (s : State) : State := { s with bus := { s.bus with uart := upd s.bus.uart u f } }
/-- EN. -/
def uartEn (w : BitVec 64) : Bool := fld w 8 1 = 1

/-- An upper-case hexadecimal digit. -/
def hexDigit (n : Nat) : Byte := BitVec.ofNat 8 (if n < 10 then 0x30 + n else 0x37 + n)
/-- The value of a hexadecimal character. -/
def hexValue (c : Byte) : Option Nat :=
  let n := c.toNat
  if 0x30 ≤ n ∧ n ≤ 0x39 then some (n - 0x30) else if 0x41 ≤ n ∧ n ≤ 0x46 then some (n - 0x37)
  else if 0x61 ≤ n ∧ n ≤ 0x66 then some (n - 0x57) else none

/-- XOR of characters (R437). -/
def xorSum (cs : List Byte) : Byte := cs.foldl (· ^^^ ·) 0

/-- Checksum of a sentence: whether one is present, and whether it holds (R437). -/
def sentenceSum (cs : List Byte) : Bool × Bool :=
  let body := cs.drop 1
  let pre := body.takeWhile (· ≠ 0x2A)
  match body.drop pre.length with
  | [] => (false, false)
  | [_, a, b] => (true, match hexValue a, hexValue b with
      | some x, some y => (xorSum pre).toNat = 16 * x + y
      | _, _ => false)
  | _ => (true, false)

/-- FLAGS of a sentence record (R437, Table 13.11): VALID, CHECKSUM_PRESENT, CHECKSUM_ERR, OVERLONG, FRAMING. -/
def sentenceFlags (cs : List Byte) (framing noSumOk tagBad : Bool) : Nat :=
  let k := sentenceSum cs
  let long := decide (cs.length + 2 > 82)
  let bad := tagBad || (if k.1 then !k.2 else !noSumOk)
  pack [(1, (!long && !framing && !bad).toNat), (1, k.1.toNat), (1, bad.toNat), (1, long.toNat), (1, framing.toNat)]

/-- A sentence record: up to 82 characters, CR LF included. -/
def sentRec (cs : List Byte) (flags : Nat) (seq : BitVec 16) (epoch : Word) (stamp : Nat) : SentRec :=
  { text := (cs ++ [0x0D, 0x0A]).take 82, flags := BitVec.ofNat 8 flags, seq := seq, epoch := epoch, stamp := wd stamp }

/-- A record of Table 13.11. -/
def sentRecBytes (x : SentRec) : List Byte :=
  leBytes 14 (pack [(32, x.stamp.toNat), (32, x.epoch.toNat), (16, 0), (16, x.seq.toNat), (8, x.flags.toNat), (8, x.text.length)]) ++
    (x.text ++ List.replicate 82 0).take 82

/-- UART_SENTENCE (R437, R438). -/
def execUartSentence (u : Fin 8) (noise : Nat) (restarts : Nat) (chars : List Byte) (framing : Bool) (stamp : Nat) (s : State) :
    Res :=
  let w := uartWord s u
  if !uartEn w then .next s
  else
    let fl := sentenceFlags chars framing (fld w 9 1 = 1) false
    let t := stamp - 10 - fld w 24 16
    let go := fun (x : Uart) =>
      let c1 := addAt (addAt (addAt x.counts 0 1) 1 restarts) 5 noise
      { x with ring := (sentRec chars fl x.seq (epochOf s t) t :: x.ring).take 128, seq := x.seq + 1, errEp := !bit fl 0,
               counts := addAt (addAt (addAt c1 2 (bits fl 3 1)) 3 (bits fl 4 1)) 4 (bits fl 2 1) }
    let s1 := updUart u go s
    let c := (uartOf s1 u).counts
    let s2 := if !bit fl 0 && !(uartOf s u).errEp then event 0x0717 2 [u, c.getD 3 0, c.getD 4 0, c.getD 2 0] s1 else s1
    .next (if bit fl 0 then offerSentence [4] (some u) t chars s2 else s2)

/-- UART_TX_SENTENCE_DONE (R440): the place is free, and the next sentence starts. -/
def execUartTxSentenceDone (u : Fin 8) (s : State) : Res :=
  match (uartOf s u).tx with
  | [] => .next s
  | _ :: rest =>
    let s1 := updUart u (fun x => { x with tx := rest }) s
    .next (match rest with | n :: _ => emit (.uartSend u n) s1 | [] => s1)

/-- UART_CONFIG body (R436, R440). -/
def bodyUartConfig (r : Req) (s : State) : Ans :=
  let w := (BitVec.ofNat 64 (ule r.payload 0 8)) &&& 0xFFFFFFFFFF000707#64
  let u := fld w 0 3
  let old := uartWord s u
  if fld w 40 24 < 4800 || fld w 40 24 > 921600 || fld w 24 16 > 10000 then no .range s
  else if uartEn old && fld w 40 24 ≠ fld old 40 24 then no .state s
  else
    let s1 := setCfg (fun c => { c with uarts := c.uarts.set u w }) s
    okay (if uartEn old && !uartEn w then updUart u (fun x => { x with tx := [] }) s1 else s1)

/-- UART_CONFIG (R436). -/
def execUartConfig (r : Req) (s : State) : Res := mbx 0x0708 (exactly 8) bodyUartConfig r s

/-- UART_STATUS body (R443). -/
def bodyUartStatus (r : Req) (s : State) : Ans :=
  let i := u8 r.payload 0
  let clr := clears r.payload 1
  if i > 9 then no .range s
  else if i ≥ 8 + s.variant.lans then no .absent s
  else if i < 8 then
    let x := uartOf s i
    give (leBytes 4 (pack [(8, (uartEn (uartWord s i)).toNat), (8, 8 - x.tx.length)]) ++ words x.counts)
      (if clr then updUart i (fun x => { x with counts := List.replicate 6 0 }) s else s)
  else
    let x := s.bus.lan.getD (i - 8) {}
    give (leBytes 4 0 ++ words (x.counts.take 3))
      (if clr then { s with bus := { s.bus with lan := upd s.bus.lan (i - 8) fun x => { x with counts := List.replicate 6 0 } } } else s)

/-- UART_STATUS (R443). -/
def execUartStatus (r : Req) (s : State) : Res := mbx 0x0709 (exactly 2) bodyUartStatus r s

/-- UART_RX_READ body (R439, R441). -/
def bodyUartRxRead (r : Req) (s : State) : Ans :=
  let i := u8 r.payload 0
  let x := if i < 8 then uartOf s i else s.bus.lan.getD (i - 8) {}
  if i > 9 then no .range s
  else if i ≥ 8 + s.variant.lans then no .absent s
  else ringAnswer (if i < 8 then 128 else 256) SentRec.seq sentRecBytes x.ring x.seq (BitVec.ofNat 16 (u16 r.payload 2)) r.dma.isSome s

/-- UART_RX_READ (R439). -/
def execUartRxRead (r : Req) (s : State) : Res := mbx 0x070A (exactly 4) bodyUartRxRead r s

/-- The characters sent for a queued sentence: its checksum under TX_CHECKSUM, and CR LF (R440). -/
def uartLine (w : BitVec 64) (cs : List Byte) : List Byte :=
  let sum := (xorSum (cs.drop 1)).toNat
  cs ++ (if fld w 10 1 = 1 then [0x2A, hexDigit (sum / 16), hexDigit (sum % 16)] else []) ++ [0x0D, 0x0A]

/-- UART_TX body (R440). -/
def bodyUartTx (r : Req) (s : State) : Ans :=
  let u := u8 r.payload 0
  let x := uartOf s u
  let line := uartLine (uartWord s u) (r.payload.drop 4)
  if u ≥ 8 then no .range s
  else if line.length > 82 then no .range s
  else if !uartEn (uartWord s u) then no .state s
  else if x.tx.length ≥ 8 then no .full s
  else
    let s1 := updUart u (fun x => { x with tx := x.tx ++ [line] }) s
    give (leBytes 1 (7 - x.tx.length)) (if x.tx.isEmpty then emit (.uartSend (Fin.ofNat 8 u) line) s1 else s1)

/-- UART_TX (R440). -/
def execUartTx (r : Req) (s : State) : Res := mbx 0x070B (counted 4 1 1 1 79) bodyUartTx r s

/-! ## IEC 61162-450 and sensor datagrams (R441, R442, R484) -/

/-- LAN61162_CONFIG body (R441, Table 13.12): entry of its MAC. -/
def bodyLan61162Config (r : Req) (s : State) : Ans :=
  let w := (BitVec.ofNat 128 (ule r.payload 0 16)) &&& 0xFFFFFFFFFFFFFFFFFFFFFFFF0000010F#128
  if fld w 3 1 ≥ s.variant.lans then no .absent s
  else
    let n := 8 * fld w 3 1 + fld w 0 3
    okay (joinGroup n w (setCfg (fun c => { c with lan450 := c.lan450.set n w }) s))

/-- LAN61162_CONFIG (R441). -/
def execLan61162Config (r : Req) (s : State) : Res := mbx 0x070C (exactly 16) bodyLan61162Config r s

/-- Enabled group entries of a MAC that a datagram reaches. -/
def groupEntries (s : State) (mac : Nat) (group : Word) (port : BitVec 16) : List (BitVec 128) :=
  ((s.cfg.lan450.drop (8 * mac)).take 8).filter fun w => fld w 8 1 = 1 && fld w 96 32 = group.toNat && fld w 80 16 = port.toNat

/-- A sentence's source meets an entry's SFI (R441, R442). -/
def sfiOk (w : BitVec 128) (x : LanSentence) : Bool :=
  fld w 32 48 = 0 || (match x.source with | some src => leBytes 6 (fld w 32 48) = src | none => false)

/-- One sentence of a datagram enters the MAC's ring and, when valid and of an accepted source, reaches the streams (R441). -/
def lanSentence (mac : Nat) (es : List (BitVec 128)) (stamp : Nat) (x : LanSentence) (s : State) : State :=
  let mism := !(es.any (sfiOk · x))
  let base := sentenceFlags x.chars false false (x.tag && !x.tagOk)
  let fl := base + 32 * x.tag.toNat + 64 * mism.toNat
  let go := fun (l : Uart) => { l with
    ring := (sentRec x.chars fl l.seq (epochOf s stamp) stamp :: l.ring).take 256, seq := l.seq + 1,
    counts := addAt l.counts 2 mism.toNat }
  let s1 := { s with bus := { s.bus with lan := upd s.bus.lan mac go } }
  if bit fl 0 && !mism then offerSentence [5] none stamp x.chars s1 else s1

/-- LAN61162_DATAGRAM (R441). -/
def execLan61162Datagram (mac : Fin 2) (fast : Bool) (group : Word) (port : BitVec 16) (headerOk : Bool)
    (sentences : List LanSentence) (raw : Nat) (s : State) : Res :=
  let es := groupEntries s mac group port
  if mac.val ≥ s.variant.lans || es.isEmpty then .next s
  else
    let cnt := fun (n : Nat) (t : State) => { t with bus := { t.bus with lan := upd t.bus.lan mac fun x => { x with counts := addAt x.counts n 1 } } }
    if !headerOk then .next (cnt 1 s)
    else
      let stamp := rxStamp s mac fast raw
      .next (sentences.foldl (fun t x => lanSentence mac es stamp x t) (cnt 0 s))

/-- SENSOR_DATAGRAM (R484). -/
def execSensorDatagram (mac : Fin 2) (fast : Bool) (src : Word) (port : BitVec 16) (bytes : List Byte) (raw : Nat) (s : State) :
    Res :=
  if mac.val ≥ s.variant.lans then .next s
  else .next (offerDatagram mac src port bytes (rxStamp s mac fast raw) s)

end Sys2Proof.Machine
end

