-- ==== Sys2Proof/Machine/Loop.lean ====
section
/-! DEFINITION. The loop engine: contexts, laws, inputs and outputs on the 100 µs grid, coefficient writes, trace units
(chapter 8, class 0x05). -/

namespace Sys2Proof.Machine

/-- Context `n` at run time. -/
def ctxOf (s : State) (n : Nat) : Ctx := s.loop.ctx.getD n {}
/-- Context `n` is defined. -/
def ctxDefined (s : State) (n : Nat) : Bool := (s.cfg.loops.getD n none).isSome
/-- RUN, PARKING or HOLD (Table 8.1). -/
def sampling (st : Nat) : Bool := st = 2 || st = 3 || st = 4
/-- The thruster whose command chain feeds a context (R292); 0 none. -/
def ctxThr (s : State) (n : Nat) : Nat := s.cfg.thrOf 128 n
/-- The context's thruster is engaged here (R292). -/
def ctxEngaged (s : State) (n : Nat) : Bool := ctxThr s n ≠ 0 && (s.loop.applied.getD (ctxThr s n - 1) {}).engaged

/-! ## Inputs (R279 to R281, Table 8.4) -/

/-- k + 2 epoch lengths have passed since a command record was applied, at CMD_WAIT after its command epoch's instant (R281, Table 8.4). -/
def commandOld (s : State) (a : Applied) : Bool :=
  a.age > s.cyc.k + 2 || (a.age = s.cyc.k + 2 && decide (100 * s.cyc.grid ≥ fld s.cfg.redundancy 0 16))

/-- The input of a context has ceased: as reported, or by the conditions that the state itself shows. -/
def inputGone (s : State) (n : Nat) : Bool :=
  let l := s.cfg.loopOf n
  (ctxOf s n).ceased || match l.inType with
    | 0 => !(filtOf s l.inSel).hasSample || (!chEn (chSet s l.inSel) && (filtOf s l.inSel).ending.isNone)
    | 1 => match s.newest with | some i => (imgSec i l.inSel).isNone | none => true
    | 2 => !(s.bus.routes.getD l.inSel (0, false)).2
    | 3 => let st := (ctxOf s l.inSel).state; st = 0 || st = 1 || st = 5
    | _ => let a := s.loop.applied.getD (l.inSel - 1) {}; a.rec_.isNone || commandOld s a

/-- Width in bits of a Board field (Table 8.3). -/
def boardWidth (l : LoopCfg) : Nat := [32, 16, 8].getD (bits (l.f 24 8) 2 2) 32

/-- The raw value of a context's input (R279). -/
def rawInput (s : State) (n : Nat) : Int :=
  let l := s.cfg.loopOf n
  match l.inType with
  | 0 => (filtOf s l.inSel).value * 256
  | 1 => match s.newest with | some i => sext (boardWidth l) (imgFld i l.inSel l.inSel2 (boardWidth l)) | none => 0
  | 2 => (s.bus.routes.getD l.inSel (0, false)).1
  | 3 => (ctxOf s l.inSel).u
  | _ => match (s.loop.applied.getD (l.inSel - 1) {}).rec_ with
    | some r => if l.inSel2 = 1 then r.angle.toInt else r.thrust.toInt
    | none => 0

/-- A filter sample that FLAG_HOLD does not use: SETTLING, CLIP, SAT or MOD_OVR (R280). -/
def flaggedInput (s : State) (n : Nat) : Bool :=
  let l := s.cfg.loopOf n
  l.inType = 0 && l.flag 0 && fld (filtOf s l.inSel).flags 0 4 ≠ 0

/-! ## Arithmetic (R282): a value with whether its computation saturated -/

/-- A value and whether a sat32 on the way to it acted. -/
abbrev Q := Int × Bool

/-- sat32 with its mark. -/
def satQ (i : Int) (b : Bool) : Q := (sat32 i, b || decide (sat32 i ≠ i))
/-- mul of R282: rounding to nearest, ties toward +∞. -/
def mulQ (c : Int × Nat) (x : Q) : Q :=
  satQ ((c.1 * x.1 + (if c.2 > 0 then (2 ^ (c.2 - 1) : Nat) else 0)) / (2 ^ c.2 : Nat)) x.2
/-- add of R282. -/
def addQ (a b : Q) : Q := satQ (a.1 + b.1) (a.2 || b.2)
/-- sub of R282. -/
def subQ (a b : Q) : Q := satQ (a.1 - b.1) (a.2 || b.2)
/-- clamp of R282. -/
def clampTo (l : LoopCfg) (v : Int) : Int := min (max v (sfld l.desc 224 32)) (sfld l.desc 256 32)
/-- A plain value. -/
def q0 (i : Int) : Q := (i, false)

/-- x of a raw value (R279). -/
def formX (l : LoopCfg) (raw : Int) : Q :=
  addQ (mulQ (sfld l.desc 160 32, l.f 136 8) (q0 raw)) (q0 (sfld l.desc 192 32))

/-- What a law computes: the context after it, v before limiting, the output, and the first node that saturated. -/
structure LawOut where
  c    : Ctx
  v    : Int
  u    : Int
  node : Option Nat

/-- The first marked node of a list of nodes and their values. -/
def firstSat (xs : List (Nat × Q)) : Option Nat := (xs.find? (·.2.2)).map (·.1)

/-- A value moved toward a target by at most a step. -/
def toward (x t step : Int) : Int := x + min (max (t - x) (-step)) step

/-- PID2 (R283). -/
def lawPid (l : LoopCfg) (c : Ctx) (x : Q) : LawOut :=
  let k := fun i => c.coefs.getD i (0, 0)
  let r := q0 c.r
  let w := subQ (mulQ (k 6) r) x
  let p := mulQ (k 0) (subQ (mulQ (k 1) r) x)
  let d := addQ (mulQ (k 5) (q0 c.d)) (mulQ (k 4) (subQ w (q0 c.w1)))
  let v := addQ (addQ p (q0 c.i)) d
  let u := clampTo l v.1
  let i := addQ (q0 c.i) (addQ (mulQ (k 2) (subQ r x)) (mulQ (k 3) (subQ (q0 u) v)))
  { c := { c with p := p.1, d := d.1, w1 := w.1, i := i.1 }, v := v.1, u := u,
    node := firstSat [(1, x), (7, w), (5, p), (7, d), (8, v), (6, i)] }

/-- LEADLAG (R283): histories q1, v1. -/
def lawLeadLag (l : LoopCfg) (c : Ctx) (q : Q) : LawOut :=
  let k := fun i => c.coefs.getD i (0, 0)
  let h := fun i => q0 (c.hist.getD i 0)
  let v := subQ (addQ (mulQ (k 0) q) (mulQ (k 1) (h 0))) (mulQ (k 2) (h 1))
  { c := { c with hist := [q.1, v.1] ++ c.hist.drop 2 }, v := v.1, u := clampTo l v.1, node := firstSat [(4, q), (8, v)] }

/-- One BIQUAD2 section: coefficients from index `k0`, histories q1 q2 y1 y2 from index `h0` (R283). -/
def biquad (c : Ctx) (k0 h0 : Nat) (q : Q) : Q :=
  let k := fun i => c.coefs.getD (k0 + i) (0, 0)
  let h := fun i => q0 (c.hist.getD (h0 + i) 0)
  subQ (subQ (addQ (addQ (mulQ (k 0) q) (mulQ (k 1) (h 0))) (mulQ (k 2) (h 1))) (mulQ (k 3) (h 2))) (mulQ (k 4) (h 3))

/-- BIQUAD2 (R283). -/
def lawBiquad (l : LoopCfg) (c : Ctx) (q : Q) : LawOut :=
  let h := fun i => c.hist.getD i 0
  let y1 := biquad c 0 0 q
  let y2 := biquad c 5 4 y1
  { c := { c with hist := [q.1, h 0, y1.1, h 2, y1.1, h 4, y2.1, h 6] }, v := y2.1, u := clampTo l y2.1,
    node := firstSat [(4, q), (8, y2)] }

/-- RATELIM (R283). -/
def lawRate (l : LoopCfg) (c : Ctx) (x : Q) : LawOut :=
  let rise := (c.coefs.getD 0 (0, 0)).1
  let fall := (c.coefs.getD 1 (0, 0)).1
  let u := c.u
  if l.flag 6 then
    let d := sext 32 (intBits 32 (x.1 - u))
    let n := sext 32 (intBits 32 (u + min (max d (-fall)) rise))
    { c := c, v := n, u := n, node := firstSat [(1, x)] }
  else
    let t := if (u > 0 ∧ x.1 < 0) ∨ (u < 0 ∧ x.1 > 0) then 0 else x.1
    let v := toward u t (if t.natAbs ≥ u.natAbs then rise else fall)
    { c := c, v := v, u := clampTo l v, node := firstSat [(1, x)] }

/-- SCALE (R283). -/
def lawScale (l : LoopCfg) (c : Ctx) (x : Q) : LawOut :=
  let v := mulQ (c.coefs.getD (if c.gated then 1 else 0) (0, 0)) x
  { c := c, v := v.1, u := clampTo l v.1, node := firstSat [(1, x), (8, v)] }

/-- The law of a context on x: q is the error under ERR_INPUT (R283); a saturation of x itself is the first
(Table 8.7). -/
def runLaw (l : LoopCfg) (c : Ctx) (x : Q) : LawOut :=
  let q := if l.flag 4 then subQ (q0 c.r) x else x
  let o := match l.law with
    | 1 => lawPid l c x
    | 2 => lawLeadLag l c q
    | 3 => lawBiquad l c q
    | 4 => lawRate l c x
    | _ => lawScale l c x
  if x.2 then { o with node := some 1 } else o

/-! ## Enable and park (R284, R288) -/

/-- The target of a context's set-point: the output of SP_SRC, else the internal target (R284). -/
def targetOf (s : State) (l : LoopCfg) (c : Ctx) : Int := if l.f 128 8 < 128 then (ctxOf s (l.f 128 8)).u else c.target

/-- The raw value an enable or a sample uses: the previous one where FLAG_HOLD does not use the filter sample (R280). -/
def usedRaw (s : State) (n : Nat) : Int := if flaggedInput s n then (ctxOf s n).raw else rawInput s n

/-- A context enabled: r, target and histories from a fresh input, or from the last raw value where the input has ceased (R284). -/
def enableCtx (n cause : Nat) (s : State) : State :=
  let l := s.cfg.loopOf n
  let go := fun (c : Ctx) =>
    let raw := if inputGone s n then c.raw else usedRaw s n
    let x := formX l raw
    let k := fun i => c.coefs.getD i (0, 0)
    let q := if l.flag 4 then (subQ x x).1 else x.1
    let w := (subQ (mulQ (k 6) x) x).1
    let p := (mulQ (k 0) (subQ (mulQ (k 1) x) x)).1
    let hist := if l.law = 2 then [q, c.u] ++ c.hist.drop 2 else [q, q, c.u, c.u, c.u, c.u, c.u, c.u]
    { c with raw := raw, x := x.1, r := x.1, target := if l.f 128 8 = 0xFF then x.1 else targetOf s l c, d := 0, w1 := w,
             i := (subQ (q0 c.u) (q0 p)).1, p := p, hist := hist, restart := false, inLost := false, toLost := false,
             epOut := false, epSat := false }
  ctxState n 2 cause (updCtx n go s)

/-- A context enters LOST: counter, event 0x0513, and CMD_LOSS for an engaged command path (R281, R301). -/
def enterLost (n : Nat) (s : State) : State :=
  let l := s.cfg.loopOf n
  let s1 := ctxState n 5 3 (updCtx n (fun c => { c with inLost := true, toLost := false, counts := addAt c.counts 5 1 }) s)
  let s2 := event 0x0513 3 [n, l.inType, l.f 144 16] s1
  if l.cmdPath && ctxEngaged s n then latchCause 11 s2 else s2

/-! ## Outputs (R289, R291) -/

/-- WIDTH bytes of an output in its byte order (Table 8.3). -/
def outBytes (l : LoopCfg) (u : Int) : List Byte :=
  let b := leBytes l.outBytes (intBits (8 * l.outBytes) u)
  if bit l.outFmt 15 then b.reverse else b

/-- Bytes with a run replaced from an offset, extended by zeros where shorter. -/
def spliceBytes (bs : List Byte) (o : Nat) (new : List Byte) : List Byte :=
  (bs ++ List.replicate (o - bs.length) 0).take o ++ new ++ bs.drop (o + new.length)

/-- A context's output written at a sample; the safe state discards CAN and flow writes of command paths (R289, R291); a device in a manager slot
without a role drives no output (R23). -/
def writeOut (n : Nat) (u : Int) (s : State) : State :=
  let l := s.cfg.loopOf n
  let d := l.outDest
  if s.noRole then s
  else if l.outType = 1 then
    if s.isSafe || (aoOf s d).heldZero then s else updAo d (fun a => { a with written := aoCode u }) s
  else if l.outType = 0 || (s.isSafe && l.cmdPath) then s
  else if l.outType = 2 then
    updBuf (d / 32) (d % 32) (fun x =>
      if x.status = 2 then { x with held := some (spliceBytes (x.held.getD x.data) l.outOff (outBytes l u)) }
      else { x with data := spliceBytes x.data l.outOff (outBytes l u) }) s
  else
    let b := spliceBytes ((look s.loop.flowBuf d).getD []) l.outOff (outBytes l u)
    { s with loop := { s.loop with flowBuf := put s.loop.flowBuf d b } }

/-- A written CAN buffer queued once after the last writer (R289). -/
def queueCan (d : Nat) (s : State) : State :=
  let st := (canOf s (d / 32)).state
  if st ≠ 1 && st ≠ 2 then s
  else updBuf (d / 32) (d % 32) (fun x => if x.status = 1 || x.status = 2 then x else queueBuf x) s

/-- A written flow sent as a DATA frame on the networks of its descriptor (R289, R398, R401, R412). -/
def queueFlow (flow : Nat) (s : State) : State :=
  match look s.cfg.flows flow with
  | none => s
  | some d =>
    if !(flowBound s flow && fld d 32 8 = s.dev) then s
    else
      let q := seqOf s flow
      let pay := (look s.loop.flowBuf flow).getD []
      let h : Hdr := { type := 10, src := s.dev, dst := fld d 40 8, flow := flow, epoch16 := s.epochHeld.setWidth 16, seq := q,
                       len := pay.length, prio := fld d 52 2 }
      let nets := (if bit (fld d 54 2) 0 then [false] else []) ++ (if bit (fld d 54 2) 1 then [true] else [])
      let s1 := flowCount flow 0 { s with link := { s.link with txSeq := put s.link.txSeq flow (q + 1) } }
      noRoute 10 (fld d 40 8) (unrouted s (fld d 40 8) nets) (pump (nets.foldl (fun t n => sendNet { hdr := h, payload := pay } n t) s1))

/-! ## One sample (R275, R279 to R284) -/

/-- The internal set-point moves toward its target by at most SP_RAMP; an accepted target restarts it at x (R284). -/
def moveSp (s : State) (l : LoopCfg) (x : Int) (c : Ctx) : Ctx :=
  let t := targetOf s l c
  { c with r := toward (if c.restart then x else c.r) t (sfld l.desc 288 32), target := t, restart := false }

/-- A sample in RUN with its input present. -/
def sampleRun (n : Nat) (s : State) : State :=
  let l := s.cfg.loopOf n
  let c := ctxOf s n
  let held := flaggedInput s n
  let raw := usedRaw s n
  let x := formX l raw
  let o := runLaw l (moveSp s l x.1 c) x
  let lim := decide (o.u ≠ o.v) && !(l.law = 4 && l.flag 6)
  let cnt := addAt (addAt (addAt (addAt c.counts 0 1) 1 lim.toNat) 2 o.node.isSome.toNat) 4 held.toNat
  let new := { o.c with raw := raw, x := x.1, v := o.v, u := o.u, flagHeld := held, inLost := false, satOut := lim,
                        satArith := o.node.isSome, epOut := lim, epSat := o.node.isSome, counts := cnt }
  let s1 := writeOut n o.u (updCtx n (fun _ => new) s)
  let s2 := if lim && !c.epOut then event 0x0511 2 [n, intBits 32 o.v, intBits 32 o.u, c.gen.toNat] s1 else s1
  match o.node with
  | some k => if c.epSat then s2 else event 0x0512 3 [n, k, 0, c.gen.toNat] s2
  | none => s2

/-- A sample that computes no law: counted, with no input held, no saturation and no limiting (R281, R288, Table 8.8). -/
def plainSample (c : Ctx) : Ctx :=
  { c with flagHeld := false, satArith := false, satOut := false, epOut := false, epSat := false, counts := addAt c.counts 0 1 }

/-- A sample in PARKING: at most PARK_RAMP toward the park value, then IDLE or LOST (R281, R288). -/
def samplePark (n : Nat) (s : State) : State :=
  let l := s.cfg.loopOf n
  let c := ctxOf s n
  let u := toward c.u c.parkAt (sfld l.desc 320 32)
  let s1 := writeOut n u (updCtx n (fun c => { plainSample c with u := u }) s)
  if u ≠ c.parkAt then s1 else if c.toLost then enterLost n s1 else ctxState n 1 c.parkCause s1

/-- An input or output of the context passes through the on-chip network (R276, R277). -/
def onNetwork (l : LoopCfg) : Bool := l.inType = 1 || l.inType = 2 || l.outType = 2 || l.outType = 3

/-- How many due instants the sample just begun covers beyond its own: none away from the on-chip network, else a free value (R277). -/
def beginSample (n : Nat) (s : State) : State :=
  if onNetwork (s.cfg.loopOf n) then stepFree (updCtx n (fun c => { c with late := (nextFree s).toNat }) s) else s

/-- A due instant met by a sample still in progress: this sample is skipped and the output keeps its value (R277, R299). -/
def skipSample (n : Nat) (s : State) : State :=
  event 0x0514 2 [n, 1] (updCtx n (fun c => { c with late := c.late - 1, counts := addAt c.counts 3 1 }) s)

/-- One due sample of context `n` (R274 to R281): RUN without input enters HOLD; HOLD with input returns to RUN. -/
def takeSampleOf (n : Nat) (s0 : State) : State :=
  let s := applyWrites n s0
  let st := (ctxOf s n).state
  if st = 3 then samplePark n s
  else if inputGone s n then
    let s1 := if st = 2 then ctxState n 4 3 (updCtx n (fun c => { c with inLost := true }) s) else s
    writeOut n (ctxOf s1 n).u (updCtx n plainSample s1)
  else sampleRun n (if st = 4 then ctxState n 2 3 s else s)

/-- A due sample, with its time to completion while the context goes on sampling (R277). -/
def sampleCtx (n : Nat) (s : State) : State :=
  let t := takeSampleOf n s
  if sampling (ctxOf t n).state then beginSample n t else t

/-! ## Trace units (R295, R296) -/

/-- The value of a trace node (Table 8.7). -/
def traceNode (l : LoopCfg) (c : Ctx) : Nat → Int
  | 0 => c.raw | 1 => c.x | 2 => c.target | 3 => c.r | 4 => sat32 (c.r - c.x)
  | 5 => if l.law = 1 then c.p else 0
  | 6 => if l.law = 1 then c.i else 0
  | 7 => if l.law = 1 then c.d else 0
  | 8 => c.v | 9 => c.u | 10 => c.gen.toNat | _ => 0

/-- The trigger condition of a captured value against the previous one (R296). -/
def traceHit (w : BitVec 128) (prev : Option Word) (v : Word) : Bool :=
  let th := sfld w 96 32
  match prev with
  | none => false
  | some p =>
    let up := decide (p.toInt < th) && decide (v.toInt ≥ th)
    let dn := decide (p.toInt > th) && decide (v.toInt ≤ th)
    match fld w 48 8 with
    | 1 => up | 2 => dn | 3 => up || dn | _ => false

/-- The header of TRACE_READ (Table 15.8). -/
def traceHeader (t : Trace) (first n : Nat) : List Byte :=
  leBytes 4 t.trigStamp.toNat ++ leBytes 4 t.trigEpoch.toNat ++ leBytes 2 t.trigGen.toNat ++ leBytes 2 t.preValid ++
    leBytes 2 first ++ leBytes 2 n

/-- A unit becomes DONE; with AUTO_DUMP its buffer is staged for the archive (R297, Table 17.3). -/
def traceDone (u : Nat) (s : State) : State :=
  let t := s.loop.trace.getD u {}
  let s1 := { s with loop := { s.loop with trace := upd s.loop.trace u fun t => { t with state := 3, await := false } } }
  if bit (fld t.word 16 8) 0 then
    stage 5 3 t.trigEpoch.toNat t.trigEpoch s.epochHeld
      (traceHeader t 0 t.buf.length ++ t.buf.reverse.flatMap fun w => leBytes 4 w.toNat) s1
  else s1

/-- One unit captures a sample of its context (R296). -/
def capture (u : Nat) (s : State) : State :=
  let t := s.loop.trace.getD u {}
  let n := fld t.word 32 8
  let put := fun (f : Trace → Trace) (q : State) => { q with loop := { q.loop with trace := upd q.loop.trace u f } }
  if t.state ≠ 1 && t.state ≠ 2 then s
  else if t.skip > 0 then put (fun t => { t with skip := t.skip - 1 }) s
  else
    let v := wi (traceNode (s.cfg.loopOf n) (ctxOf s n) (fld t.word 40 8))
    let skip := fld t.word 56 8 - 1
    let mark := fun (t : Trace) => { t with trigStamp := s.stamp, trigEpoch := s.epochHeld, trigGen := (ctxOf s n).gen }
    if t.state = 1 then
      if traceHit t.word t.buf.head? v then
        let s1 := put (fun t => mark { triggerTrace t with
          buf := v :: (triggerTrace t).buf, left := (triggerTrace t).left - 1, await := false, skip := skip }) s
        let s2 := event 0x0515 1 [u, n, fld t.word 40 8, fld t.word 48 8] s1
        if (s2.loop.trace.getD u {}).left = 0 then traceDone u s2 else s2
      else put (fun t => { t with buf := (v :: t.buf).take 4096, skip := skip }) s
    else
      let s1 := put (fun t => let t1 := if t.await then mark t else t
                              { t1 with buf := v :: t.buf, left := t.left - 1, await := false, skip := skip }) s
      if t.left ≤ 1 then traceDone u s1 else s1

/-! ## The grid instant (R274, R275, R289) -/

/-- The grid index g (R274). -/
def gridIndex (s : State) : Nat := if s.cyc.holds then 10 * s.cyc.e * s.cyc.epoch.toNat + s.cyc.grid else s.cyc.gridNs / 100000

/-- Context `n` samples at the instant (R274). -/
def dueAt (s : State) (n : Nat) : Bool :=
  let l := s.cfg.loopOf n
  ctxDefined s n && l.period > 0 && gridIndex s % l.period = l.f 64 16 % l.period

/-- The outputs that due contexts have written, each once. -/
def writtenDests (s : State) (type : Nat) (ns : List Nat) : List Nat :=
  ((ns.filter fun n => (s.cfg.loopOf n).outType = type && !s.noRole && !(s.isSafe && (s.cfg.loopOf n).cmdPath)).map
    fun n => (s.cfg.loopOf n).outDest).dedup

/-- Context `n` at its turn in the instant: sampled when due and still in a state that samples, skipped while its earlier sample is in progress; the
contexts sampled are listed (R273, R277). -/
def turnOf (x : State × List Nat) (n : Nat) : State × List Nat :=
  if !(dueAt x.1 n && sampling (ctxOf x.1 n).state) then x
  else if (ctxOf x.1 n).late = 0 then (sampleCtx n x.1, x.2 ++ [n])
  else (skipSample n x.1, x.2)

/-- The due contexts in increasing number: a LOST context with AUTO_RESUME whose input has returned is enabled first (R281); one whose sample is
still in progress skips this one (R277). -/
def runDue (s : State) : State :=
  let resume := fun (t : State) n =>
    if dueAt t n && (ctxOf t n).state = 5 && (t.cfg.loopOf n).flag 1 && !inputGone t n then enableCtx n 3 t else t
  let s1 := (List.range 128).foldl resume s
  let x := (List.range 128).foldl turnOf (s1, [])
  let s2 := x.1
  let due := x.2
  let s3 := (writtenDests s2 2 due).foldl (fun t d => queueCan d t) s2
  let s4 := (writtenDests s2 3 due).foldl (fun t d => queueFlow d t) s3
  ((List.range 8).filter fun u => due.contains (fld (s4.loop.trace.getD u {}).word 32 8)).foldl (fun t u => capture u t) s4

/-- Device time crosses the next 100 µs grid instant (R47, R54, R72, R274). -/
def toGrid (s : State) : State :=
  let next := max ((s.cyc.gridNs / 100000 + 1) * 100000) (s.time.ns / 100000 * 100000)
  { s with
    time := runTo next s.time, cyc := { s.cyc with gridNs := next, grid := s.cyc.grid + ((next - s.cyc.gridNs) / 100000 - 1) } }

/-- LOOP_GRID_INSTANT (R274): written codes are latched, due contexts sample and write, the DP_ENABLE channels follow. -/
def execLoopGridInstant (s : State) : Res :=
  if s.rst.life = .reset || s.rst.life = .loading then .next s
  else
    let s1 := runDue (latchAo (toGrid s))
    .next (driveOutputs { s1 with cyc := { s1.cyc with grid := s1.cyc.grid + 1 } })

/-- INPUT_CEASED (R281): a context in RUN enters HOLD. Inputs whose state shows that they are present do not cease. -/
def execInputCeased (ctx : Fin 128) (s : State) : Res :=
  let l := s.cfg.loopOf ctx
  if !ctxDefined s ctx || (l.inType ≥ 3 && !inputGone s ctx) || (ctxOf s ctx).state = 0 then .next s
  else
    let s1 := updCtx ctx (fun c => { c with ceased := l.inType ≤ 2 }) s
    .next (if (ctxOf s ctx).state = 2 then ctxState ctx 4 3 (updCtx ctx (fun c => { c with inLost := true }) s1) else s1)

/-- HOLD_EXPIRY (R281): the context parks, then enters LOST; also before the first sample after an enable without input (R284). -/
def execHoldExpiry (ctx : Fin 128) (s : State) : Res :=
  if (ctxOf s ctx).state ≠ 4 && !((ctxOf s ctx).state = 2 && inputGone s ctx) then .next s
  else
    let pk := parkValue s ctx
    let s1 := updCtx ctx (fun c => { c with parkAt := pk, toLost := true }) s
    .next (driveOutputs (if (ctxOf s ctx).u = pk then enterLost ctx s1 else ctxState ctx 3 3 s1))

/-! ## LOOP_DEFINE (R276, R278, R286) -/

/-- Coefficient count of a law (Table 8.2). -/
def lawCoefs (law : Nat) : Nat := [0, 7, 3, 10, 2, 2].getD law 0

/-- Bytes of a Board section that a field may lie in (Table 11.1). -/
def sectionBytes (n : Nat) : Nat := [48, 404, 88, 64, 80, 768, 192, 1040, 2056, 268].getD n 0

/-- Fields out of range (R278, Table 8.3, R371). -/
def loopRange (l : LoopCfg) : Bool :=
  let sp := l.f 128 8
  l.f 0 8 > 127 || l.law < 1 || l.law > 5 || l.gate > 6 || (l.gate ≠ 0 && l.law ≠ 5) || bits (l.f 24 8) 2 2 = 3 || l.inType > 4 ||
  (l.inType = 0 && l.inSel > 15) || (l.inType = 1 && (l.inSel > 9 || l.inSel2 + boardWidth l > 8 * sectionBytes l.inSel)) ||
  (l.inType = 2 && l.inSel > 63) || (l.inType = 3 && l.inSel > 127) || (l.inType = 4 && (l.inSel < 1 || l.inSel > 24)) ||
  (l.inType = 4 && l.inSel2 > 1) || (l.inType ≠ 1 && l.inType ≠ 4 && l.inSel2 ≠ 0) ||
  l.period < 1 || l.period > 10000 || l.f 64 16 ≥ l.period || l.outType > 3 || (l.outType = 1 && l.outDest > 7) ||
  bits l.outFmt 13 2 = 3 || l.outOff + l.outBytes > 64 || (sp > 127 && sp ≠ 0xFF) || l.f 136 8 > 47 || l.f 144 16 > 10000 ||
  sfld l.desc 224 32 > sfld l.desc 256 32 || sfld l.desc 288 32 ≤ 0 || sfld l.desc 320 32 ≤ 0

/-- A byte range beyond what the bound buffer's DLC or the flow's MAX_LEN holds (R278). -/
def loopBeyond (s : State) (l : LoopCfg) : Bool :=
  let e := l.outOff + l.outBytes
  (l.outType = 2 && (let h := (bufOf s (l.outDest / 32) (l.outDest % 32)).header
                     decide (e > dlcLen (fld h 51 1 = 1) (fld h 56 4)))) ||
  (l.outType = 3 && decide (e > fld ((look s.cfg.flows l.outDest).getD 0) 64 16))

/-- An input source that is not defined (R278, R592). -/
def loopNoSource (s : State) (n : Nat) (l : LoopCfg) : Bool :=
  let noCtx := fun m => m ≠ n && !ctxDefined s m
  (l.inType = 3 && noCtx l.inSel) || (l.f 128 8 ≤ 127 && noCtx (l.f 128 8)) ||
  (l.inType = 4 && (let p := s.cfg.thrusters.getD (l.inSel - 1) []; p.isEmpty || thrFld p 16 8 ≠ s.dev))

/-- An output already bound: an analog output to one context, bytes of a buffer or flow without overlap (R289). -/
def loopBound (s : State) (n : Nat) (l : LoopCfg) : Bool :=
  l.outType ≠ 0 && (List.range 128).any fun m =>
    let o := s.cfg.loopOf m
    m ≠ n && ctxDefined s m && o.outType = l.outType && o.outDest = l.outDest &&
      (l.outType = 1 || (decide (o.outOff < l.outOff + l.outBytes) && decide (l.outOff < o.outOff + o.outBytes)))

/-- Cost of a definition (R276, Table 8.2). -/
def loopCost (l : LoopCfg) : Nat :=
  [0, 4, 2, 4, 1, 1].getD l.law 0 + (if l.inType = 1 || l.inType = 2 then 1 else 0) + (if l.outType ≥ 2 then 1 else 0)

/-- Σ cost / PERIOD_N over the defined contexts would exceed 80 (R276). -/
def loopFull (s : State) (n : Nat) (l : LoopCfg) : Bool :=
  let ls := l :: ((List.range 128).filter fun m => m ≠ n && ctxDefined s m).map s.cfg.loopOf
  let q := ls.foldl (fun (f : Nat × Nat) x => (f.1 * x.period + loopCost x * f.2, f.2 * x.period)) (0, 1)
  decide (q.1 > 80 * q.2)

/-- The BOUND marks of transmit buffers and the retry count of bound ones, by the definitions (R289, R427). -/
def markBound (s : State) : State :=
  let go := fun (c : Can × Nat) => { c.1 with bufs := c.1.bufs.zipIdx.map fun b =>
    let on := (List.range 128).any fun n => ctxDefined s n && (s.cfg.loopOf n).outType = 2 && (s.cfg.loopOf n).outDest = 32 * c.2 + b.2
    if on then { b.1 with bound := true, header := setFld b.1.header 60 4 8 } else { b.1 with bound := false } }
  { s with bus := { s.bus with can := s.bus.can.zipIdx.map go } }

/-- A coefficient accepted: stored with the definition (R591), and in effect at once or at the next sample (R285). -/
def acceptCoef (n idx : Nat) (v : Int) (sh : Nat) (s : State) : State :=
  let keep := fun (o : Option LoopCfg) => o.map fun l => { l with coefs := l.coefs.set idx (v, sh) }
  let s1 := setCfg (fun c => { c with loops := upd c.loops n keep }) s
  if sampling (ctxOf s n).state then updCtx n (fun c => { c with writes := c.writes ++ [(idx, v, sh)] }) s1
  else putCoef n idx v sh s1

/-- K_GATED as the device writes it: FLR_FACTOR × 2^16, shift 31 (R286). -/
def writeGated (n : Nat) (s : State) : State :=
  acceptCoef n 1 (flrFactor s (s.cfg.loopOf n).gate * 65536 : Nat) 31 s

/-- LOOP_DEFINE body (R278). -/
def bodyLoopDefine (r : Req) (s : State) : Ans :=
  let l : LoopCfg := { desc := BitVec.ofNat 384 (ule r.payload 0 48), coefs := List.replicate 10 (0, 0) }
  let n := l.f 0 8
  let st := (ctxOf s n).state
  if n ≤ 127 && st ≠ 0 && st ≠ 1 then no .state s
  else if loopRange l then no .range s
  else if l.outType = 2 && l.outDest / 32 ≥ s.variant.cans then no .absent s
  else if loopBeyond s l then no .range s
  else if loopNoSource s n l || loopBound s n l then no .badArg s
  else if loopFull s n l then no .full s
  else
    let old := s.cfg.loops.getD n none
    let oldLaw := match old with | some o => o.law | none => 0
    let oldGate := match old with | some o => o.gate | none => 0
    let coefs := if oldLaw = l.law then (ctxOf s n).coefs else List.replicate 10 (0, 0)
    let s1 := setCfg (fun c => { c with loops := c.loops.set n (some { l with coefs := coefs }) }) s
    let s2 := updCtx n (fun c => { c with coefs := coefs, writes := [], ceased := false, suppressed := s.isSafe && l.cmdPath }) s1
    let pk := parkValue s2 n
    let s3 := markBound (ctxState n 1 0 (updCtx n (fun c => { c with u := pk, parkAt := pk }) s2))
    okay (updateGates (if l.gate ≠ 0 && (oldGate ≠ l.gate || oldLaw ≠ l.law) then writeGated n s3 else s3))

/-- LOOP_DEFINE (R278). -/
def execLoopDefine (r : Req) (s : State) : Res := mbx 0x0501 (exactly 48) bodyLoopDefine r s

/-- LOOP_COEF_WRITE body (R285, R286). -/
def bodyLoopCoefWrite (r : Req) (s : State) : Ans :=
  let n := u8 r.payload 0
  let idx := u8 r.payload 1
  let sh := u8 r.payload 2
  let v := i32 r.payload 4
  let l := s.cfg.loopOf n
  if n > 127 then no .range s
  else if (ctxOf s n).state = 0 then no .state s
  else if idx ≥ lawCoefs l.law then no .badArg s
  else if sh > 47 || (l.law = 4 && (sh ≠ 0 || v < 0)) then no .range s
  else if l.law = 5 && l.gate ≠ 0 && idx = 1 then no .state s
  else
    let gen := (ctxOf s n).gen + BitVec.ofNat 16 ((ctxOf s n).writes.length + 1)
    give (leBytes 2 gen.toNat) (acceptCoef n idx v sh s)

/-- LOOP_COEF_WRITE (R285). -/
def execLoopCoefWrite (r : Req) (s : State) : Res := mbx 0x0502 (exactly 8) bodyLoopCoefWrite r s

/-- LOOP_CONTROL body (R281, R284, R288, R292). -/
def bodyLoopControl (r : Req) (s : State) : Ans :=
  let n := u8 r.payload 0
  let op := u8 r.payload 1
  let l := s.cfg.loopOf n
  let c := ctxOf s n
  let answer := fun (t : State) => give (leBytes 1 (ctxOf t n).state) (driveOutputs t)
  if n > 127 then no .range s
  else if op > 4 then no .badArg s
  else if c.state = 0 then no .state s
  else if op = 0 then (if l.cmdPath && ctxEngaged s n then no .state s else answer (disableCtx n 0 s))
  else if op = 1 then
    if l.cmdPath || c.state = 5 then no .state s
    else answer (if c.state = 1 || c.state = 3 then enableCtx n 0 s else s)
  else if op = 2 then
    if l.f 128 8 ≠ 0xFF then no .state s
    else answer (updCtx n (fun c => { c with target := i32 r.payload 4, restart := true }) s)
  else if !l.cmdPath || (op = 3 && s.isSafe) then no .state s
  else answer (updCtx n (fun c => { c with armed := op = 3 }) s)

/-- LOOP_CONTROL (R284). -/
def execLoopControl (r : Req) (s : State) : Res := mbx 0x0503 (exactly 8) bodyLoopControl r s

/-- The context status word of Table 8.8. -/
def ctxWord (s : State) (n : Nat) : Nat :=
  let c := ctxOf s n
  pack [(1, (c.state = 1 || c.state = 5 : Bool).toNat), (1, c.satOut.toNat), (1, c.satArith.toNat), (1, c.flagHeld.toNat),
    (1, (c.inLost && (c.state = 4 || c.state = 5) : Bool).toNat), (1, decide ((if c.restart then c.x else c.r) ≠ c.target) |>.toNat), (1, c.gated.toNat), (1, c.armed.toNat),
    (1, c.suppressed.toNat), (23, 0), (8, (s.cfg.loopOf n).law), (8, c.state), (16, c.gen.toNat)]

/-- LOOP_STATUS body (R298). -/
def bodyLoopStatus (r : Req) (s : State) : Ans :=
  let first := u8 r.payload 0
  let n := u8 r.payload 1
  let lim := if r.dma.isSome then 128 else 4
  if n = 0 || n > lim || first + n > 128 then no .range s
  else
    let ns := (List.range n).map (first + ·)
    give (ns.flatMap fun m => leBytes 8 (ctxWord s m) ++ words (ctxOf s m).counts)
      (if clears r.payload 2 then ns.foldl (fun t m => updCtx m (fun c => { c with counts := List.replicate 7 0 }) t) s else s)

/-- LOOP_STATUS (R298). -/
def execLoopStatus (r : Req) (s : State) : Res := mbx 0x0506 (exactly 3) bodyLoopStatus r s

/-! ## Trace commands (R295 to R297) -/

/-- TRACE_ARM body (R296, Table 8.6): arm, trigger now, stop, disarm. -/
def bodyTraceArm (r : Req) (s : State) : Ans :=
  let w : BitVec 128 := BitVec.ofNat 128 (ule r.payload 0 16)
  let u := fld w 0 8
  let op := fld w 24 8
  let t := s.loop.trace.getD u {}
  let put := fun (f : Trace → Trace) => { s with loop := { s.loop with trace := upd s.loop.trace u f } }
  let answer := fun (q : State) => give (leBytes 1 (q.loop.trace.getD u {}).state) q
  if u > 7 then no .range s
  else if op > 3 then no .badArg s
  else if op = 0 then
    if fld w 32 8 > 127 || fld w 40 8 > 10 || fld w 48 8 > 4 || fld w 56 8 = 0 then no .range s
    else if bit (fld w 16 8) 0 && s.variant = .WK then no .absent s
    else if t.state = 1 || t.state = 2 then no .busy s
    else if (ctxOf s (fld w 32 8)).state = 0 then no .state s
    else answer (put fun _ => { state := 1, word := w })
  else if op = 1 then
    if t.state ≠ 1 then no .state s
    else answer (event 0x0515 1 [u, fld t.word 32 8, fld t.word 40 8, fld t.word 48 8] (put triggerTrace))
  else if op = 2 then answer (if t.state = 1 || t.state = 2 then traceDone u s else s)
  else answer (put fun t => { t with state := 0, await := false })

/-- TRACE_ARM (R296). -/
def execTraceArm (r : Req) (s : State) : Res := mbx 0x0504 (exactly 16) bodyTraceArm r s

/-- TRACE_READ body (R297): 56 words, or with DMA the whole buffer. -/
def bodyTraceRead (r : Req) (s : State) : Ans :=
  let u := u8 r.payload 0
  let first := u16 r.payload 2
  let n := u8 r.payload 4
  let t := s.loop.trace.getD u {}
  let ws := t.buf.reverse
  if u > 7 then no .range s
  else if t.state = 1 || t.state = 2 then no .state s
  else if r.dma.isSome then give (traceHeader t 0 ws.length ++ ws.flatMap fun w => leBytes 4 w.toNat) s
  else if n = 0 || n > 56 then no .range s
  else if first + n > ws.length then no .badArg s
  else give (traceHeader t first n ++ ((ws.drop first).take n).flatMap fun w => leBytes 4 w.toNat) s

/-- TRACE_READ (R297). -/
def execTraceRead (r : Req) (s : State) : Res := mbx 0x0505 (exactly 5) bodyTraceRead r s

end Sys2Proof.Machine
end

