-- ==== Sys2Proof/Machine/Safety.lean ====
section
/-! DEFINITION. The safety controller: causes, outputs, the glove test, safety inputs, release sequences, straps, protection,
the change log (chapter 9, class 0x09). -/

namespace Sys2Proof.Machine

/-! ## Groups and the glove test (R310 to R314) -/

/-- The word of output `n` (Table 9.5). -/
def soWord (s : State) (n : Nat) : BitVec 16 := s.cfg.so.getD n 0
/-- Group of output `n`. -/
def soGroup (s : State) (n : Nat) : Nat := fld (soWord s n) 4 2
/-- Glove state of output `n`. -/
def gloveOf (s : State) (n : Nat) : Glove := s.safe.glove.getD n {}
/-- Glove state changed. -/
def updGlove (n : Nat) (f : Glove → Glove) (s : State) : State :=
  { s with safe := { s.safe with glove := upd s.safe.glove n f } }
/-- The safety controller's state changed. -/
def updSafe (f : Safe → Safe) (s : State) : State := { s with safe := f s.safe }

/-- A group tripped by output `n`: its outputs are de-energised, event 0x091A (R313). -/
def tripGroup (n cause : Nat) (s : State) : State :=
  let g := soGroup s n
  event 0x091A 3 [g, n, cause] (driveOutputs (updSafe (fun x => { x with groupTrip := x.groupTrip ||| BitVec.ofNat 3 (2 ^ (g - 1)) }) s))

/-- A failure on an output: its cause for group 0, a trip for the other groups (R310, R313). -/
def outputFault (n bitNo cause : Nat) (s : State) : State := if soGroup s n = 0 then latchCause bitNo s else tripGroup n cause s

/-- A glove pulse failed in a window: 0 off, 1 return; the second counter starts (R304, R312, R313). -/
def gloveFail (n window : Nat) (s : State) : State :=
  outputFault n 2 0 (event 0x0912 4 [n, soGroup s n, window] (updSafe (fun x => { x with
    counters := x.counters ||| 2, gloveBad := x.gloveBad ||| BitVec.ofNat 16 (2 ^ n) }) (updGlove n (fun g => { g with phase := 0 }) s)))

/-- Offset of output `n` in GLOVE_PERIOD_MS, ns (R311). -/
def gloveOffset (s : State) (n : Nat) : Nat := (n % 2 * 8 + n / 2) * (fld s.cfg.safeGlobal 48 16 * 1000000) / 16

/-- The instant of output `n`'s pulse in the millisecond that follows the device time held, if there is one (R311). -/
def pulseInstant (s : State) (n : Nat) : Option Nat :=
  let p := fld s.cfg.safeGlobal 48 16 * 1000000
  let o := gloveOffset s n
  let t := (s.time.ns + 999999 - o) / p * p + o
  if p = 0 || s.time.ns + 999999 < o || t < s.time.ns then none else some t

/-- A pulse starts on output `n` at instant `t`: the output has GLOVE set and has stood energised for 10 ms, no change of the global word waits,
and the instant's pulse has not begun yet (R311, R314). -/
def pulseMay (s : State) (n t : Nat) : Bool :=
  let g := gloveOf s n
  s.safe.outs.getLsbD n && fld (soWord s n) 6 1 = 1 && decide (g.onSince + 10000000 ≤ t) && !s.safe.gloveWait &&
    decide (s.safe.gloveFrom ≤ t) && g.phase = 0 && g.pulseAt ≠ some t

/-- Output `n`'s pulse begins at the instant given, where it may. -/
def beginPulse (n : Nat) (at_ : Option Nat) (s : State) : State :=
  match at_ with
  | none => s
  | some t => if pulseMay s n t then updGlove n (fun g => { g with phase := 1, pulseAt := some t, pulseUs := fld s.cfg.safeGlobal 32 16 }) s else s

/-- GLOVE_PULSE_START (R311, R314): once at each instant of the output's comb. -/
def execGlovePulseStart (out : Fin 16) (s : State) : Res :=
  .next (beginPulse out (pulseInstant s out) s)

/-- A readback level reads energised: low, or high when FB_INV is set (R306). -/
def readsOn (s : State) (n : Nat) (high : Bool) : Bool := high = (fld (soWord s n) 3 1 = 1)

/-- GLOVE_OFF_WINDOW_END (R312): 150 µs after the pulse began, with the levels that the readback has shown within it. -/
def execGloveOffWindowEnd (out : Fin 16) (seen : SeenLevels) (s : State) : Res :=
  let g := gloveOf s out
  let sawOff := (seen.low && !readsOn s out false) || (seen.high && !readsOn s out true)
  if (g.phase ≠ 1 || g.pulseUs < 150) && g.phase ≠ 3 then .next s
  else if sawOff then .next (updGlove out (fun g => { g with phase := g.phase + 1 }) s)
  else .next (gloveSettle (gloveFail out 0 s))

/-- GLOVE_PULSE_END (R311): GLOVE_PULSE_US after the pulse began the pin is driven low again. -/
def execGlovePulseEnd (out : Fin 16) (s : State) : Res :=
  let g := gloveOf s out
  if (g.phase ≠ 1 || g.pulseUs > 150) && (g.phase ≠ 2 || g.pulseUs < 150) then .next s else .next (updGlove out (fun g => { g with phase := g.phase + 2 }) s)

/-- GLOVE_RETURN_WINDOW_END (R312). -/
def execGloveReturnWindowEnd (out : Fin 16) (high : Bool) (s : State) : Res :=
  if (gloveOf s out).phase ≠ 4 then .next s
  else if readsOn s out high then .next (gloveSettle (updGlove out (fun g => { g with phase := 0 }) s))
  else .next (gloveSettle (gloveFail out 1 s))

/-- STATIC_READBACK_MISMATCH (R310): a readback that has disagreed for more than 150 µs; one that agrees again is noted. -/
def execStaticReadbackMismatch (out : Fin 16) (high : Bool) (s : State) : Res :=
  let energised := readsOn s out high
  let cmd := s.safe.outs.getLsbD out
  if (gloveOf s out).phase ≠ 0 then .next s
  else
    let m := BitVec.ofNat 16 (2 ^ out.val)
    let s1 := updSafe (fun x => { x with sofb := if energised then x.sofb ||| m else x.sofb &&& ~~~m }) s
    if energised = cmd then .next s1
    else .next (outputFault out 3 1 (event 0x0913 4 [out, cmd.toNat, energised.toNat] s1))

/-! ## Safety inputs (R316 to R318) -/

/-- The word of pair `n` (Table 9.7). -/
def siWord (s : State) (n : Nat) : BitVec 16 := s.cfg.si.getD n 0
/-- Pair `n` in use. -/
def siUsed (s : State) (n : Nat) : Bool := fld (siWord s n) 0 1 = 1
/-- State of pair `n`. -/
def pairState (s : State) (n : Nat) : Nat := s.safe.pairs.getD n 0

/-- The alarm SI_DISCREPANCY follows the pairs (R316). -/
def siAlarm (n : Nat) (s : State) : State :=
  if s.safe.pairs.any (· = 3) then raiseAlarm 0x0914 s.dev 3 n s else clearAlarm 0x0914 s.dev s

/-- Pair `n` in a new state: SAFE_STOP when it becomes ASSERTED or starts so, the alarm, the reduction triggers (R316, R318). -/
def setPair (n st : Nat) (s : State) : State :=
  let old := pairState s n
  let s1 := updSafe (fun x => { x with pairs := x.pairs.set n st, pairHigh := x.pairHigh &&& ~~~(BitVec.ofNat 8 (2 ^ n)) }) s
  let s2 := if st = 3 && old ≠ 3 then
      event 0x0914 3 [n, bits s.safe.siLevels.toNat (2 * n) 2, 10 * fld (siWord s n) 8 8] s1 else s1
  let s3 := if (st = 2 || st = 3) && (old = 0 || old = 1) && fld (siWord s n) 4 2 = 1 then
      latchCause 4 (event 0x091B 3 [n, st] s2) else s2
  flrPairs (siAlarm n s3)

/-- A pair taken into use by a configuration: its first state from its channels (R316). -/
def takePair (n : Nat) (s : State) : State :=
  let a := s.safe.siLevels.getLsbD (2 * n)
  let b := s.safe.siLevels.getLsbD (2 * n + 1)
  if !siUsed s n then setPair n 0 s
  else if pairState s n ≠ 0 then flrPairs s
  else setPair n (if a ≠ b then 3 else if a then 2 else 1) s

/-- Every pair brought to the configuration in force (R316). -/
def takePairs (s : State) : State := (List.range 8).foldl (fun t n => takePair n t) s

/-- SI_CHANNEL_CHANGE (R316). -/
def execSiChannelChange (ch : Fin 16) (high : Bool) (s : State) : Res :=
  let m := BitVec.ofNat 16 (2 ^ ch.val)
  let s1 := updSafe (fun x => { x with siLevels := if high then x.siLevels ||| m else x.siLevels &&& ~~~m }) s
  let n := ch.val / 2
  let a := s1.safe.siLevels.getLsbD (2 * n)
  let b := s1.safe.siLevels.getLsbD (2 * n + 1)
  if pairState s n = 0 || a ≠ b then .next s1
  else if pairState s n = 3 then
    if a then .next (updSafe (fun x => { x with pairHigh := x.pairHigh ||| BitVec.ofNat 8 (2 ^ n) }) s1)
    else .next (if s1.safe.pairHigh.getLsbD n then setPair n 1 s1 else s1)
  else .next (setPair n (if a then 2 else 1) s1)

/-- SI_DISCREPANCY (R316). -/
def execSiDiscrepancy (pair : Fin 8) (s : State) : Res :=
  let st := pairState s pair
  if (st ≠ 1 && st ≠ 2) || s.safe.siLevels.getLsbD (2 * pair) = s.safe.siLevels.getLsbD (2 * pair + 1) then .next s
  else .next (setPair pair 3 s)

/-! ## Monitors (R62, R301) -/

/-- A domain without a clock on the variant, whose monitor is disabled (R55): SOL, DDR, PCIE, NAND and ETH1 of a YJ640-WK. -/
def unclocked (s : State) (domain : Nat) : Bool := s.variant = .WK && [2, 3, 9, 11, 15].contains domain

/-- CLOCK_FAULT (R55, R62). -/
def execClockFault (domain : Fin 17) (inRange : Bool) (s : State) : Res :=
  let m := BitVec.ofNat 17 (2 ^ domain.val)
  if unclocked s domain then .next s else
  let s1 := updSafe (fun x => { x with clockBad := if inRange then x.clockBad &&& ~~~m else x.clockBad ||| m }) s
  .next (if inRange then s1 else latchCause 7 s1)

/-- SUPPLY_FAULT (Table 9.1 bit 8); VDD_AO, the ninth rail, counts only while an analog output is enabled (R568). -/
def execSupplyFault (rail : Fin 9) (level : RailLevel) (s : State) : Res :=
  let m := BitVec.ofNat 9 (2 ^ rail.val)
  let off := fun (x : BitVec 9) => x &&& ~~~m
  match level with
  | .within4 => .next (updSafe (fun x => { x with railBad := off x.railBad, railNot4 := off x.railNot4 }) s)
  | .within5 => .next (updSafe (fun x => { x with railBad := off x.railBad, railNot4 := x.railNot4 ||| m }) s)
  | .outside5 =>
    let s1 := updSafe (fun x => { x with railBad := x.railBad ||| m, railNot4 := x.railNot4 ||| m }) s
    .next (if rail = 8 then aoSupply s1 else latchCause 8 s1)

/-- OVERTEMP (Table 9.1 bit 9): the junction reading that has stood for 10 ms. -/
def execOvertemp (celsius : Int) (s : State) : Res :=
  let s1 := updSafe (fun x => { x with celsius := celsius }) s
  .next (if celsius > 150 then latchCause 9 s1 else s1)

/-- SC_DISAGREE (Table 9.1 bit 14, R306). -/
def execScDisagree (agree : Bool) (s : State) : Res :=
  let s1 := updSafe (fun x => { x with halvesAgree := agree }) s
  .next (if agree then s1 else latchCause 14 s1)

/-- Outputs among the sixteen that a predicate keeps. -/
def outMask (p : Nat → Bool) : BitVec 16 := BitVec.ofNat 16 ((List.range 16).foldl (fun b n => if p n then b + 2 ^ n else b) 0)

/-- The pins that a failed pulse de-energises: all for an output of group 0, else its group (Table 9.3). -/
def gloveForced (s : State) : BitVec 16 :=
  let bad := fun (g : Nat) => (List.range 16).any fun n => s.safe.gloveBad.getLsbD n && soGroup s n = g
  outMask fun n => bad 0 || bad (soGroup s n)

/-- FAULT_REACTION_COUNTER (R304): an expired counter forces the reaction on the pins, or latches the cause of its row unless the reaction has taken
place. -/
def execFaultReactionCounter (path : Fin 4) (s : State) : Res :=
  if !s.safe.counters.getLsbD path then .next s
  else
    let s1 := updSafe (fun x => { x with counters := x.counters &&& ~~~(BitVec.ofNat 4 (2 ^ path.val)) }) s
    .next (if path = 0 then setOuts (s.safe.outs &&& ~~~(outMask s.dpeOuts.contains)) s1
      else if path = 1 then updSafe (fun x => { x with gloveBad := 0 }) (setOuts (s.safe.outs &&& ~~~(gloveForced s)) s1)
      else if path = 2 then
        (if s.safe.compareEpochs < 1 then s else if s.safe.compareLatched then s1 else latchCause 11 s1)
      else if s.safe.takeoverEpochs < 2 then s else failSilent 2 s1)

/-! ## SAFE_RESET_N (R319, R320) -/

/-- The clearing condition of cause `n` (Table 9.1). -/
def mayClear (s : State) (n : Nat) : Bool :=
  match n with
  | 1 => s.safe.mittenOpen = 0 || s.safe.injected
  | 3 => (List.range 16).all fun o => soGroup s o ≠ 0 || s.safe.outs.getLsbD o = s.safe.sofb.getLsbD o
  | 4 => (List.range 8).all fun p => !(siUsed s p && fld (siWord s p) 4 2 = 1) || pairState s p = 1
  | 7 => s.safe.clockBad = 0
  | 8 => (if s.ao.any (·.powered) then s.safe.railNot4 else s.safe.railNot4 &&& 0xFF) = 0
  | 9 => decide (s.safe.celsius < 145)
  | 10 => !s.safe.memOpen
  | 12 => decide (s.safe.dupQuiet ≥ 3)
  | 13 => s.safe.testsBad.isEmpty
  | 14 => s.safe.halvesAgree
  | _ => true

/-- A tripped group's outputs read back agreeing with their commands (R313). -/
def mayUntrip (s : State) (g : Nat) : Bool :=
  (List.range 16).all fun o => soGroup s o ≠ g || s.safe.outs.getLsbD o = s.safe.sofb.getLsbD o

/-- The bits below `w` that a predicate keeps, as a number. -/
def maskOf (w : Nat) (p : Nat → Bool) : Nat := (List.range w).foldl (fun b n => if p n then b + 2 ^ n else b) 0

/-- A release sequence of valid low time (R319, R320): causes latched before its falling edge clear where their condition
holds, and tripped groups likewise. -/
def release (lowMs : Nat) (s : State) : State :=
  let old := s.safe.causes
  let clr := BitVec.ofNat 16 (maskOf 16 fun n => old.getLsbD n && s.safe.atFall.getLsbD n && mayClear s n)
  let left := old &&& ~~~clr
  let trips := s.safe.groupTrip &&& ~~~(BitVec.ofNat 3 (maskOf 3 fun g => s.safe.groupTrip.getLsbD g && mayUntrip s (g + 1)))
  let s1 := updSafe (fun x => { x with
    causes := left, groupTrip := trips, firstCause := if left = 0 then 0 else x.firstCause,
    injected := x.injected && left.getLsbD 1, mittenMask := if left.getLsbD 1 then x.mittenMask else 0 }) s
  let s2 := if left = 0 then
      { s1 with loop := { s1.loop with ctx := s1.loop.ctx.map fun c => { c with suppressed := false } } } else s1
  let s3 := irqChange s s2
  let s4 := if old ≠ 0 && left = 0 then event 0x0911 1 [clr.toNat, lowMs] s3 else s3
  let s5 := if left &&& ~~~s.safe.atFall ≠ 0 then event 0x0916 1 [lowMs, 2] s4 else s4
  driveOutputs s5

/-- SAFE_RESET_N_FALL (R319). -/
def execSafeResetNFall (s : State) : Res :=
  if s.safe.pinLow then .next s
  else .next (updSafe (fun x => { x with pinLow := true, atFall := x.causes }) s)

/-- SAFE_RESET_N_RISE (R319, R320). -/
def execSafeResetNRise (lowMs : Nat) (s : State) : Res :=
  if !s.safe.pinLow then .next s
  else
    let s1 := updSafe (fun x => { x with pinLow := false, resetStuck := false }) s
    let s2 := if s.safe.resetStuck then clearAlarm 0x091C s.dev s1 else s1
    .next (if lowMs < 50 then event 0x0916 1 [lowMs, 0] s2
      else if lowMs > 5000 then event 0x0916 1 [lowMs, 1] s2
      else release lowMs s2)

/-- RESET_STUCK (R320): low for more than 5 s. -/
def execResetStuck (s : State) : Res :=
  if !s.safe.pinLow || s.safe.resetStuck then .next s
  else .next (event 0x091C 3 [5000] (raiseAlarm 0x091C s.dev 3 5000 (updSafe (fun x => { x with resetStuck := true }) s)))

/-- STRAP_SAMPLE (R322): each pin that comes to differ from its latch. -/
def execStrapSample (pins : BitVec 12) (s : State) : Res :=
  let diff := pins ^^^ s.rst.straps
  let s1 := { s with rst := { s.rst with strapDiff := diff, strapChanged := s.rst.strapChanged || diff ≠ 0 } }
  if diff &&& ~~~s.rst.strapDiff = 0 then .next s1
  else .next (event 0x0915 3 [s.rst.straps.toNat, pins.toNat] (raiseAlarm 0x0915 s.dev 3 s.rst.straps.toNat s1))

/-! ## Protection and the change log (R323 to R327, R590) -/

/-- SEAL_LOCK. -/
def sealed (s : State) : Bool := s.strap 7
/-- The legacy scheme in force. -/
def legacy (s : State) : Bool := !s.strap 7 && s.strap 8

/-- The answer to a protected write; none where it is accepted (Table 9.10). -/
def protection (s : State) : Option Status :=
  if sealed s then some .sealed_ else if legacy s && s.safe.unlockOpen then none else some .locked

/-- One change-log entry under the legacy scheme (R327). -/
def logEntry (command field : Nat) (old new : Nat) (path : Nat) (ip : Word) (s : State) : State :=
  if !legacy s then s
  else
    let e : LogEntry := {
      command := BitVec.ofNat 16 command, field := BitVec.ofNat 16 field, old := wd old, new := wd new,
      epoch := s.epochHeld, ns := s.stamp, session := s.safe.session, path := path, srcIp := ip, seq := s.mram.logSeq }
    { s with mram := { s.mram with log := (e :: s.mram.log).take 256, logSeq := s.mram.logSeq + 1, logBad := s.mram.logBad.filter (· ≠ s.mram.logSeq) } }

/-- The 32 bytes of an entry (Table 9.11). -/
def logBytes (e : LogEntry) : List Byte :=
  let b := leBytes 30 (pack [(16, e.command.toNat), (16, e.field.toNat), (32, e.old.toNat), (32, e.new.toNat), (32, e.epoch.toNat),
    (32, e.ns.toNat), (16, e.session.toNat), (8, e.path), (8, 0), (32, e.srcIp.toNat), (16, e.seq.toNat)])
  b ++ leBytes 2 (crc16 b)

/-- A refused protected write, with its entry (R327). -/
def refuseWrite (command : Nat) (r : Req) (st : Status) (s : State) : Ans :=
  .done st [] (logEntry command 0xFFF4 0 0 (pathCode r.path) (pathIp r.path) s)

/-- A field of at most 32 bits, or the consecutive 32-bit parts of a wider one (R590). -/
def split32 (lo w : Nat) : List (Nat × Nat) :=
  if w ≤ 32 then [(lo, w)] else (List.range ((w + 31) / 32)).map fun i => (lo + 32 * i, min 32 (w - 32 * i))

/-- The protected fields that change between two payloads: position, old and new value (R590). -/
def changedFields (fields : List (Nat × Nat)) (old new : List Byte) : List (Nat × Nat × Nat) :=
  let o := leNat old
  let n := leNat new
  ((fields.flatMap fun f => split32 f.1 f.2).map fun f => (f.1, bits o f.1 f.2, bits n f.1 f.2)).filter fun x => x.2.1 ≠ x.2.2

/-- Entries and events 0x0919 of an accepted protected change (R326). -/
def logChanges (command path : Nat) (ip : Word) (ch : List (Nat × Nat × Nat)) (s : State) : State :=
  ch.foldl (fun t c => event 0x0919 2 [command, c.1, (cfgGen t).toNat, t.safe.session.toNat]
    (logEntry command c.1 c.2.1 c.2.2 path ip t)) s

/-! ## SAFE_CONFIG (R307, R314, R316) -/

/-- The safety configuration as a SAFE_CONFIG payload (Table 15.13). -/
def safePayload (c : Cfg) : List Byte :=
  leBytes 8 c.safeGlobal.toNat ++ c.so.flatMap (fun w => leBytes 2 w.toNat) ++ c.si.flatMap (fun w => leBytes 2 w.toNat)

/-- Field positions of SAFE_CONFIG. -/
def safeFields : List (Nat × Nat) :=
  [(32, 16), (48, 16)] ++
  (List.range 16).flatMap (fun n => [(64 + 16 * n, 3), (67 + 16 * n, 1), (68 + 16 * n, 2), (70 + 16 * n, 1)]) ++
  (List.range 8).flatMap (fun n => [(320 + 16 * n, 1), (324 + 16 * n, 2), (328 + 16 * n, 8)])

/-- The output words of a payload. -/
def safeSo (p : List Byte) : List (BitVec 16) := (List.range 16).map fun n => BitVec.ofNat 16 (u16 p (8 + 2 * n)) &&& 0x7F
/-- The pair words of a payload. -/
def safeSi (p : List Byte) : List (BitVec 16) := (List.range 8).map fun n => BitVec.ofNat 16 (u16 p (40 + 2 * n)) &&& 0xFF31
/-- The global word of a payload. -/
def safeGlob (p : List Byte) : BitVec 64 := BitVec.ofNat 64 (ule p 0 8) &&& 0xFFFFFFFF00000000

/-- A configuration that R307 and the tables refuse with RANGE. -/
def safeRange (p : List Byte) : Bool :=
  let so := safeSo p
  let si := safeSi p
  let one := fun f => (so.filter fun w => fld w 0 3 = f)
  let g := safeGlob p
  fld g 48 16 < 250 || fld g 48 16 > 5000 || fld g 32 16 < 100 || fld g 32 16 > 500 ||
  (one 1).length ≠ 1 || (one 2).length ≠ 1 || (one 1 ++ one 2).any (fun w => fld w 4 2 ≠ 0) ||
  so.any (fun w => fld w 4 2 = 0 && fld w 6 1 = 0) || so.any (fun w => fld w 0 3 ≥ 4) ||
  si.any (fun w => fld w 4 2 = 3 || fld w 8 8 = 0)

/-- A safety configuration put in force: words, pairs, outputs, the glove timing (R307, R314, R316). -/
def applySafe (p : List Byte) (s : State) : State :=
  let g := safeGlob p
  let s1 := setCfg (fun c => { c with safeGlobal := g, so := safeSo p, si := safeSi p }) s
  let s2 := if g ≠ s.cfg.safeGlobal then gloveSettle (updSafe (fun x => { x with gloveWait := true }) s1) else s1
  driveOutputs (takePairs s2)

/-- SAFE_CONFIG body (R307, R324). -/
def bodySafeConfig (r : Req) (s : State) : Ans :=
  match protection s with
  | some st => refuseWrite 0x0901 r st s
  | none =>
    let p := r.payload
    if safeRange p then refuseWrite 0x0901 r .range s
    else if (List.range 16).any fun n => s.safe.outs.getLsbD n && ((safeSo p).getD n 0 &&& 0x3F) ≠ (soWord s n &&& 0x3F) then
      refuseWrite 0x0901 r .state s
    else okay (logChanges 0x0901 (pathCode r.path) (pathIp r.path)
      (changedFields safeFields (safePayload s.cfg) (leBytes 8 (safeGlob p).toNat ++ (safeSo p).flatMap (fun w => leBytes 2 w.toNat)
        ++ (safeSi p).flatMap fun w => leBytes 2 w.toNat)) (applySafe p s))

/-- SAFE_CONFIG (R307). -/
def execSafeConfig (r : Req) (s : State) : Res := mbx 0x0901 (exactly 56) bodySafeConfig r s

/-- The safety image in force: that of the bank the device started from (R325, R553). -/
def imageInForce (s : State) : Option SafeImage := s.rst.shadow.bind (·.image)

/-- SAFE_STATUS body (R302, Table 15.13). -/
def bodySafeStatus (_ : Req) (s : State) : Ans :=
  give (leBytes 4 s.safeStat.toNat ++ leBytes 2 s.safe.outs.toNat ++ leBytes 2 s.safe.sofb.toNat ++
    leBytes 2 s.safe.siLevels.toNat ++ leBytes 4 (pack (s.safe.pairs.map fun p => (4, p))) ++
    leBytes 1 (pack [(1, (sealed s).toNat), (1, (s.strap 8).toNat), (1, s.safe.unlockOpen.toNat), (1, (imageInForce s).isSome.toNat)]) ++
    leBytes 1 (if s.safe.unlockOpen then ceilDiv s.safe.unlockMs 60000 else 0) ++ leBytes 4 (cfgGen s).toNat) s

/-- SAFE_STATUS (R302). -/
def execSafeStatus (r : Req) (s : State) : Res := mbx 0x0902 (exactly 0) bodySafeStatus r s

/-! ## UNLOCK (R326) -/

/-- A password within its limits: 8 to 16 characters from 0x21 to 0x7E. -/
def passOk (l : Nat) (pw : List Byte) : Bool := 8 ≤ l && l ≤ 16 && pw.all fun c => 0x21 ≤ c.toNat && c.toNat ≤ 0x7E

/-- The answer of an UNLOCK that did not refuse: session and seconds remaining. -/
def unlockAnswer (s : State) : Ans :=
  give (leBytes 2 s.safe.session.toNat ++ leBytes 2 (if s.safe.unlockOpen then ceilDiv s.safe.unlockMs 1000 else 0)) s

/-- The window opened or restarted (R326). -/
def openWindow (r : Req) (s : State) : State :=
  let path := pathCode r.path
  if s.safe.unlockOpen then logEntry 0x0903 0xFFF0 0 0 path (pathIp r.path) (updSafe (fun x => { x with unlockMs := 600000 }) s)
  else
    let s1 := updSafe (fun x => { x with unlockOpen := true, unlockMs := 600000, session := x.session + 1 }) s
    logEntry 0x0903 0xFFF0 0 0 path (pathIp r.path) (event 0x0917 2 [s1.safe.session.toNat, path] s1)

/-- A wrong password counted; the fifth within 10 minutes starts the lockout, with event 0x0918 (R326). -/
def wrongPass (r : Req) (s : State) : State :=
  let ws := 0 :: s.mram.wrong.filter (· < 600000)
  let s1 := { s with mram := { s.mram with wrong := ws, lockoutMs := if ws.length ≥ 5 then 600000 else s.mram.lockoutMs } }
  if ws.length ≥ 5 then event 0x0918 3 [ws.length, 600, pathCode r.path] s1 else s1

/-- UNLOCK body (R326): outside the legacy scheme SEALED or LOCKED; in a lockout LOCKED. -/
def bodyUnlock (r : Req) (s : State) : Ans :=
  let op := u8 r.payload 0
  let l := u8 r.payload 1
  let pw := (r.payload.drop 2).take l
  if sealed s then no .sealed_ s
  else if !legacy s then no .locked s
  else if s.mram.lockoutMs > 0 then refuseWrite 0x0903 r .locked s
  else if op > 2 then refuseWrite 0x0903 r .badArg s
  else if op = 1 then
    if !s.safe.unlockOpen then refuseWrite 0x0903 r .state s
    else unlockAnswer (logEntry 0x0903 0xFFF1 0 0 (pathCode r.path) (pathIp r.path)
      (updSafe (fun x => { x with unlockOpen := false, unlockMs := 0 }) s))
  else if !passOk l pw then refuseWrite 0x0903 r .range s
  else if op = 2 then
    if !s.safe.unlockOpen then refuseWrite 0x0903 r .locked s
    else unlockAnswer (logEntry 0x0903 0xFFF2 0 0 (pathCode r.path) (pathIp r.path)
      { s with mram := { s.mram with passDigest := some (Config.passDigest pw) } })
  else
    match s.mram.passDigest with
    | none => unlockAnswer (openWindow r { s with mram := { s.mram with passDigest := some (Config.passDigest pw) } })
    | some d => if d = Config.passDigest pw then unlockAnswer (openWindow r s)
                else refuseWrite 0x0903 r .locked (wrongPass r s)

/-- UNLOCK (R326). -/
def execUnlock (r : Req) (s : State) : Res := mbx 0x0903 (exactly 18) bodyUnlock r s

/-- UNLOCK_EXPIRY (R326). -/
def execUnlockExpiry (s : State) : Res :=
  if !s.safe.unlockOpen then .next s
  else .next (logEntry 0x0903 0xFFF3 0 0 0 0 (updSafe (fun x => { x with unlockOpen := false, unlockMs := 0 }) s))

/-- LOCKOUT_END (R326). -/
def execLockoutEnd (s : State) : Res :=
  .next { s with mram := { s.mram with lockoutMs := 0 } }

/-- CHANGELOG_READ body (R327). -/
def bodyChangelogRead (r : Req) (s : State) : Ans :=
  let n := u8 r.payload 2
  if n = 0 || n > 7 then no .range s
  else match ringFrom 256 LogEntry.seq s.mram.log (BitVec.ofNat 16 (u16 r.payload 0)) with
    | none => .done .stale (leBytes 2 ((s.mram.log.getLast?.map LogEntry.seq).getD 0).toNat) s
    | some es =>
      let ys := es.take n
      let bad := maskOf 7 fun i => match ys[i]? with | some y => s.mram.logBad.contains y.seq | none => false
      give (leBytes 2 (s.mram.logSeq - 1).toNat ++ leBytes 6 (ys.length + 256 * bad) ++ ys.flatMap logBytes) s

/-- CHANGELOG_READ (R327). -/
def execChangelogRead (r : Req) (s : State) : Res := mbx 0x0904 (exactly 3) bodyChangelogRead r s

/-- SAFE_REQUEST body (R328). -/
def bodySafeRequest (_ : Req) (s : State) : Ans := okay (latchCause 5 s)

/-- SAFE_REQUEST (R328). -/
def execSafeRequest (r : Req) (s : State) : Res := mbx 0x0905 (exactly 0) bodySafeRequest r s

/-! ## Intrusive self-tests (R330, R332) -/

/-- An intrusive test begins in SELFTEST: what it drives (Table 9.12). In the safe state no safety output is energised (R300). -/
def startTest (code : Nat) (s : State) : State :=
  let s1 := setLife .selftest { s with tests := { s.tests with running := some code } }
  let alone := fun (f : Nat) => (List.range 16).filter fun n => fld (soWord s n) 0 3 = f
  if code = 0x10 then ((List.range 9).filter fun n => s.tests.regions.testBit n).foldl (fun t n => emit (.marchTest n) t) s1
  else if code = 0x12 then (List.range 8).foldl (fun t n => emit (.sweepTest n) t) s1
  else if code = 0x13 && !s.isSafe then (alone 3 ++ alone 1 ++ alone 2).foldl (fun t n => emit (.outputTest n) t) s1
  else s1

end Sys2Proof.Machine
end

