-- ==== Sys2Proof/Machine/Contrib.lean ====
section
/-! DEFINITION. Contributions to the Board on their way out: records, frames of one tag, a manager's own copy (R337, R362,
R397, R399). -/

namespace Sys2Proof.Machine

/-- A record of this device (Table 11.3): LEN in 8-byte units. -/
def mkContrib (s : State) (kind subj len body : Nat) (epoch : Word) : Contrib :=
  { epoch := epoch, kind := kind, src := s.dev, subject := subj, len := len, body := body }

/-- Bytes that a record takes. -/
def contribLen (c : Contrib) : Nat := 8 + 8 * c.len

/-- Records split into frames of at most 1008 payload bytes, in order (R396); the first list is the frame being filled. -/
def packFrames (acc : List Contrib) (size : Nat) : List Contrib → List (List Contrib)
  | [] => if acc.isEmpty then [] else [acc]
  | c :: cs =>
    if !acc.isEmpty && size + contribLen c > 1008 then acc :: packFrames [c] (contribLen c) cs
    else packFrames (acc ++ [c]) (size + contribLen c) cs

/-- Records held by a manager until their close, each with the SEQ of its frame and its place in it (R337, R364). -/
def holdRecs (seq : Nat) (cs : List Contrib) (s : State) : State :=
  { s with brd := { s.brd with held := s.brd.held ++ cs.zipIdx.map fun c => { seq := seq, pos := c.2, rec_ := c.1 } } }

/-- One BOARD_CONTRIB frame to every manager; a manager keeps its own copy. -/
def sendContribFrame (epoch : Word) (cs : List Contrib) (s : State) : State :=
  let q := seqOf s 3
  let s1 := sendSys 4 0xFE epoch (cs.flatMap contribBytes) s
  if s.isManager then holdRecs q.toNat cs s1 else s1

/-- Records of one epoch tag sent now (R362, R399). -/
def sendContribs (epoch : Word) (cs : List Contrib) (s : State) : State :=
  (packFrames [] 0 cs).foldl (fun t f => sendContribFrame epoch f t) s

end Sys2Proof.Machine
end

