-- ==== Sys2Proof/Machine/Stalls.lean ====
section
/-! DEFINITION. Solver array and stalls (chapter 7): structure descriptions and their load checks, delta batches, solves and
their dispatch, configuration and status, the thermal throttle. -/

namespace Sys2Proof.Machine

/-! ## Structure descriptions (R231 to R238) -/

/-- Field of a description's header (Table 7.3). -/
def hdrFld (p : List Byte) (lo w : Nat) : Nat := bits (ule p 0 32) lo w
/-- N_STAGES. -/
def nStages (p : List Byte) : Nat := hdrFld p 48 8
/-- N_BLOCKS. -/
def nBlocks (p : List Byte) : Nat := hdrFld p 96 16

/-- A stage table entry: NV, NS, NI (Table 7.4). -/
structure StageDim where
  nv : Nat := 0
  ns : Nat := 0
  ni : Nat := 0
  deriving DecidableEq, Repr

/-- The stage table (Table 7.4). -/
def stageTable (p : List Byte) : List StageDim :=
  (List.range (nStages p)).map fun i => let v := u32 p (32 + 4 * i); { nv := bits v 0 8, ns := bits v 8 8, ni := bits v 16 8 }

/-- A block table entry (Table 7.5). -/
structure BlockEnt where
  sym   : Bool
  dense : Bool
  diag  : Bool
  const : Bool
  ty    : Nat
  first : Nat
  last  : Nat
  exp   : Int
  off   : Nat
  dmin  : Int
  dmax  : Int
  deriving DecidableEq, Repr

/-- Offset of the block table, the pattern area. -/
def blockOff (p : List Byte) : Nat := 32 + 4 * nStages p
def patOff (p : List Byte) : Nat := blockOff p + 16 * nBlocks p

/-- The block table (Table 7.5). -/
def blockTable (p : List Byte) : List BlockEnt :=
  (List.range (nBlocks p)).map fun i =>
    let o := blockOff p + 16 * i
    let v := ule p o 16
    { sym := bit v 0, dense := bit v 1, diag := bit v 2, const := bit v 3, ty := bits v 8 8, first := bits v 16 8, last := bits v 24 8,
      exp := sext 8 (bits v 32 8), off := bits v 40 24, dmin := sext 32 (bits v 64 32), dmax := sext 32 (bits v 96 32) }

/-- The block types (Table 7.6). -/
def blockTypes : List Nat := [1, 2, 3, 4, 5, 6, 7, 8, 9, 0x10, 0x11, 0x12, 0x13, 0x14, 0x15, 0x16, 0x17]

/-- First and last stage of a block type over `n` stages (Table 7.6). -/
def typeSpan (ty n : Nat) : Nat × Nat := if ty = 9 then (0, 0) else if ty = 3 || ty = 4 then (0, n - 1) else (1, n)

/-- Rows and columns of a block type at a stage (Table 7.6). -/
def blockDims (st : List StageDim) (ty stage : Nat) : Nat × Nat :=
  let e := if stage = 0 then { nv := (st.headD {}).ns, ns := (st.headD {}).ns, ni := 0 } else st.getD (stage - 1) {}
  let x := if stage = 0 then (st.headD {}).ns else (st.getD stage {}).ns
  match ty with
  | 0x01 => (e.nv, e.nv) | 0x02 => (e.nv, 1) | 0x03 => (x, e.nv) | 0x04 => (x, 1) | 0x05 => (e.ni, e.nv) | 0x06 => (e.ni, 1)
  | 0x07 => (e.nv, 1) | 0x08 => (e.nv, 1) | 0x09 => (e.ns, 1) | 0x10 => (e.nv, 1) | 0x11 => (e.ni + 2 * e.nv, 1) | 0x12 => (e.ns, 1)
  | 0x13 => (e.ns, e.ns) | 0x14 => (e.nv, e.nv) | 0x15 => (e.nv, 1) | 0x16 => (e.nv, 1) | 0x17 => (e.nv + e.ni, 1)
  | _ => (0, 0)

/-- Bitmap row `r` of a block (R235). -/
def patRow (p : List Byte) (b : BlockEnt) (r : Nat) : Nat := ule p (patOff p + 8 * (b.off + r)) 8

/-- Whether a block stores an entry: the upper triangle of a SYM block, its diagonal, every entry, or a set bit (R235). -/
def entryIn (p : List Byte) (b : BlockEnt) (r c : Nat) : Bool :=
  (!b.sym || r ≤ c) && (if b.dense then true else if b.diag then r = c else (patRow p b r).testBit c)

/-- The stages of a block. -/
def blockStages (b : BlockEnt) : List Nat := (List.range (b.last + 1 - b.first)).map (b.first + ·)

/-- Pattern rows that a block takes. -/
def patRows (st : List StageDim) (b : BlockEnt) : Nat := if b.dense || b.diag then 0 else (blockDims st b.ty b.first).1

/-- Values that a block stores for one stage (R235). -/
def valueCount (p : List Byte) (st : List StageDim) (b : BlockEnt) (stage : Nat) : Nat :=
  let d := blockDims st b.ty stage
  if b.ty > 9 then 0
  else if b.dense then (if b.sym then d.1 * (d.1 + 1) / 2 else d.1 * d.2)
  else if b.diag then min d.1 d.2
  else ((List.range d.1).map fun r => (List.range d.2).countP fun c => (patRow p b r).testBit c).sum

/-- One block entry is sound: type, exponent, range, stages, squareness, pattern (R234, R235, Table 7.7 order 8). -/
def blockOk (p : List Byte) (st : List StageDim) (rows : Nat) (b : BlockEnt) : Bool :=
  let sp := typeSpan b.ty (nStages p)
  let d := blockDims st b.ty b.first
  blockTypes.contains b.ty && decide (-16 ≤ b.exp) && decide (b.exp ≤ 15) && decide (b.dmin ≤ b.dmax) && b.first ≤ b.last &&
    sp.1 ≤ b.first && b.last ≤ sp.2 && (!b.sym || d.1 = d.2) && (b.ty ≠ 1 || b.sym) &&
    (if b.dense || b.diag then b.off = 0
     else (blockStages b).all (fun k => blockDims st b.ty k = d) && b.off + d.1 ≤ rows &&
       (List.range d.1).all fun r => patRow p b r < 2 ^ d.2 && (!b.sym || (patRow p b r) % 2 ^ r = 0))

/-- Every block type is described at every stage where Table 7.6 lists it, at most once (R234). -/
def tableComplete (p : List Byte) (bs : List BlockEnt) : Bool :=
  blockTypes.all fun ty =>
    let sp := typeSpan ty (nStages p)
    (List.range (sp.2 + 1)).all fun k => k < sp.1 || (bs.countP fun b => b.ty = ty && b.first ≤ k && k ≤ b.last) = 1

/-- The values of the value area with their blocks' ranges, in order (R235). -/
def valueRuns (p : List Byte) : List (BlockEnt × Nat) :=
  let st := stageTable p
  ((blockTable p).filter fun b => b.ty ≤ 9).flatMap fun b => (blockStages b).map fun k => (b, valueCount p st b k)

/-- Length that the parts of a description give (R231). -/
def descLen (p : List Byte) : Nat :=
  patOff p + 8 * ((blockTable p).map (patRows (stageTable p))).sum + 4 * ((valueRuns p).map (·.2)).sum

/-- Every initial value lies within its block's range, from an offset on (Table 7.7 order 10). -/
def valuesOk (p : List Byte) : List (BlockEnt × Nat) → Nat → Bool
  | [], _ => true
  | (b, n) :: rs, o =>
    (List.range n).all (fun i => let v := i32 p (o + 4 * i); decide (b.dmin ≤ v) && decide (v ≤ b.dmax)) && valuesOk p rs (o + 4 * n)

/-- Variables and inequalities per stage that definitions imply (R195). -/
def structCounts (thr : List (List Byte)) (power : List Byte) : Nat × Nat :=
  let ts := thr.filter (!·.isEmpty)
  let kind := fun p => thrFld p 8 8
  (6 + 2 * (ts.filter fun p => kind p = 1).length + 3 * (ts.filter fun p => kind p ≠ 1).length,
   (ts.map fun p => thrFld p 204 4).sum + 2 * (powSections power).length)

/-- Dimensions of the main layout with the thrusters of a mask removed (R230); none when a removed thruster is not defined. -/
def reducedCounts (s : State) (loss : Nat) : Option (Nat × Nat) :=
  let c := structCounts s.cfg.thrusters s.cfg.power
  (List.range 24).foldl (fun a t =>
    match a with
    | none => none
    | some (v, i) =>
      if !loss.testBit t then some (v, i)
      else
        let p := s.cfg.thrusters.getD t []
        if p.isEmpty then none else some (v - (if thrFld p 8 8 = 1 then 2 else 3), i - thrFld p 204 4)) (some c)

/-- Stall `n` of this manager. -/
def stallOf (s : State) (n : Nat) : Stall := s.sol.stalls.getD n {}
/-- Scenario stalls begin here (Table 7.1). -/
def firstScen (s : State) : Nat := s.variant.stalls / 2

/-- The layout of a description under R230, PARENT_SIG and masks included (Table 7.7 order 9). -/
def layoutOk (s : State) (p : List Byte) : Bool :=
  let st := stageTable p
  let want := if hdrFld p 40 8 = 0 then
      (if hdrFld p 160 32 = 0 && hdrFld p 114 46 = 0 then (reducedCounts s 0).map fun c => (s.cfg.horizon, c) else none)
    else
      (if (stallOf s 0).mainDesc.isEmpty || hdrFld p 160 32 ≠ (stallOf s 0).mainSig.toNat then none
       else (reducedCounts s (hdrFld p 136 24)).map fun c => (nStages (stallOf s 0).mainDesc, c))
  match want with
  | none => false
  | some (n, nv, ni) => st.length = n && st.all fun e => e.nv = nv && e.ni = ni && e.ns = 6

/-- Reserved fields are 0 (Table 7.7 order 6). -/
def reservedOk (p : List Byte) : Bool :=
  hdrFld p 8 24 = 0 && hdrFld p 56 8 = 0 && hdrFld p 112 2 = 0 &&
    (List.range (nStages p)).all (fun i => u8 p (35 + 4 * i) = 0) &&
    (List.range (nBlocks p)).all fun i => bits (u8 p (blockOff p + 16 * i)) 4 4 = 0

/-- The stage table within its limits (Table 7.7 order 7). -/
def stagesOk (s : State) (p : List Byte) : Bool :=
  let st := stageTable p
  1 ≤ nStages p && nStages p ≤ s.variant.stages && p.length ≥ blockOff p &&
    st.all (fun e => 1 ≤ e.nv && e.nv ≤ 64 && 1 ≤ e.ns && e.ns ≤ e.nv && e.ni ≤ 128) &&
    (st.map (·.nv)).sum ≤ 4096 && (st.map (·.ni)).sum ≤ 8192 && (st.map (·.nv)).sum = hdrFld p 64 16 && (st.map (·.ni)).sum = hdrFld p 80 16

/-- The block table sound and complete, its areas of the length they give (Table 7.7 order 8). -/
def blocksOk (p : List Byte) : Bool :=
  let st := stageTable p
  let bs := blockTable p
  let rows := (bs.map (patRows st)).sum
  1 ≤ nBlocks p && nBlocks p ≤ 4096 && p.length ≥ patOff p && bs.all (blockOk p st rows) && tableComplete p bs && p.length = descLen p

/-- A load to a stall is in progress or PENDING (Table 7.7 order 4). -/
def loadBusy (s : State) (n : Nat) : Bool :=
  (stallOf s n).pending || (match s.hif.copyJob with | some j => j.code = 0x0401 && u8 j.req.payload 0 = n | none => false)

/-- The load checks in the order of Table 7.7: the first failure and its status (R236). -/
def loadCheck (s : State) (p : List Byte) : Option (Nat × Status) :=
  let n := hdrFld p 0 8
  if n ≥ s.variant.stalls then some (1, .range)
  else if n ≥ firstScen s || hdrFld p 40 8 ≠ (if n = 0 then 0 else 1) then some (2, .badArg)
  else if n = 0 && s.dp.mode > 1 then some (3, .state)
  else if loadBusy s n then some (4, .busy)
  else if crc32 (p.take 28 ++ [0, 0, 0, 0] ++ p.drop 32) ≠ u32 p 28 then some (5, .badArg)
  else if hdrFld p 32 8 ≠ 1 || !reservedOk p || hdrFld p 192 32 = 0 then some (6, .structure_)
  else if !stagesOk s p then some (7, .structure_)
  else if !blocksOk p then some (8, .structure_)
  else if !layoutOk s p then some (9, .structure_)
  else if !valuesOk p (valueRuns p) (patOff p + 8 * ((blockTable p).map (patRows (stageTable p))).sum) then some (10, .range)
  else if p.length > 4194304 then some (11, .full)
  else none

/-- The structure signature (R237), each field in its own bytes. -/
def signature (p : List Byte) : Word :=
  let st := stageTable p
  let blk := fun (b : BlockEnt) =>
    leBytes 5 (pack [(8, b.ty), (8, b.first), (8, b.last), (8, intBits 8 b.exp),
      (1, b.sym.toNat), (1, b.dense.toNat), (1, b.diag.toNat), (1, b.const.toNat), (4, 0)]) ++
    if b.dense || b.diag then [] else (List.range (blockDims st b.ty b.first).1).flatMap fun r => leBytes 8 (patRow p b r)
  wd (crc32 (leBytes 1 (nStages p) ++ leBytes 3 (hdrFld p 136 24) ++ leBytes 2 (hdrFld p 120 16) ++ leBytes 1 (hdrFld p 114 6) ++
    (p.drop 32).take (4 * nStages p) ++ (blockTable p).flatMap blk))

/-! ## Variables and rows of the DP structure (R195, R230) -/

/-- A tunnel thruster. -/
def isTunnel (p : List Byte) : Bool := thrFld p 8 8 = 1
/-- Thruster numbers, from 0, that are defined and not in a mask. -/
def thrIn (s : State) (loss : Nat) : List Nat := (List.range 24).filter fun t => !(s.cfg.thrusters.getD t []).isEmpty && !loss.testBit t
/-- Definition of thruster number `t`. -/
def thrDef (s : State) (t : Nat) : List Byte := s.cfg.thrusters.getD t []
/-- The tunnels and the azimuth kinds of a list. -/
def tunsOf (s : State) (l : List Nat) : List Nat := l.filter fun t => isTunnel (thrDef s t)
def azisOf (s : State) (l : List Nat) : List Nat := l.filter fun t => !isTunnel (thrDef s t)
/-- Variable of a thruster's thrust, angle deviation and power among the thrusters of a list (R195). -/
def thrustVar (s : State) (l : List Nat) (t : Nat) : Nat :=
  if isTunnel (thrDef s t) then 6 + (tunsOf s l).idxOf t else 6 + (tunsOf s l).length + 2 * (azisOf s l).idxOf t
def deltaVar (s : State) (l : List Nat) (t : Nat) : Nat := thrustVar s l t + 1
def powerVar (s : State) (l : List Nat) (t : Nat) : Nat := 6 + (tunsOf s l).length + 2 * (azisOf s l).length + l.idxOf t
/-- The variables of a thruster. -/
def varsOf (s : State) (l : List Nat) (t : Nat) : List Nat :=
  thrustVar s l t :: (if isTunnel (thrDef s t) then [] else [deltaVar s l t]) ++ [powerVar s l t]
/-- Variables of a stage. -/
def varCount (s : State) (l : List Nat) : Nat := 6 + 2 * (tunsOf s l).length + 3 * (azisOf s l).length
/-- First inequality row of a thruster's power curve; the rows of the curves come first, in thruster order (row 4). -/
def curveRow (s : State) (l : List Nat) (t : Nat) : Nat := ((l.takeWhile (· ≠ t)).map fun u => thrFld (thrDef s u) 204 4).sum
/-- Defined sections, in increasing number. -/
def sectionList (s : State) : List Nat := [1, 2, 3, 4, 5, 6].filter fun n => (powSection s.cfg.power n).isSome
/-- First of the two rows of a section: its AVAIL limit, then its ramp limit (row 4). -/
def sectionRow (s : State) (l : List Nat) (n : Nat) : Nat :=
  (l.map fun u => thrFld (thrDef s u) 204 4).sum + 2 * (sectionList s).idxOf n

/-! ## Values and derived descriptions (R235, R238, R240, R263) -/

/-- An entry that no block describes. -/
def noBlock : BlockEnt := { sym := false, dense := false, diag := false, const := false, ty := 0, first := 0, last := 0, exp := 0, off := 0, dmin := 0, dmax := 0 }
/-- The block of a type at a stage. -/
def blockFor (p : List Byte) (ty stage : Nat) : BlockEnt :=
  ((blockTable p).find? fun b => b.ty = ty && b.first ≤ stage && stage ≤ b.last).getD noBlock
/-- Start of the value area. -/
def valueOff (p : List Byte) : Nat := patOff p + 8 * ((blockTable p).map (patRows (stageTable p))).sum
/-- Stored entries of a block before a place, row-major. -/
def entriesBefore (p : List Byte) (cols : Nat) (b : BlockEnt) (row col : Nat) : Nat :=
  ((List.range row).map fun r => (List.range cols).countP (entryIn p b r)).sum + (List.range col).countP (entryIn p b row)
/-- Value of an entry in the value area, the blocks and stages before it passed over. -/
def seekValue (p : List Byte) (st : List StageDim) (ty stage row col : Nat) : List (BlockEnt × Nat) → Nat → Int
  | [], _ => 0
  | (b, k) :: rs, o =>
    if b.ty = ty && k = stage then
      (if entryIn p b row col then i32 p (o + 4 * entriesBefore p (blockDims st ty stage).2 b row col) else 0)
    else seekValue p st ty stage row col rs (o + 4 * valueCount p st b k)
/-- Value of an entry at load (R235). -/
def initialVal (p : List Byte) (stage ty row col : Nat) : Int :=
  seekValue p (stageTable p) ty stage row col (((blockTable p).filter (·.ty ≤ 9)).flatMap fun b => (blockStages b).map fun k => (b, k)) (valueOff p)

/-- Places kept of a range. -/
def keptOf (n : Nat) (keep : Nat → Bool) : List Nat := (List.range n).filter keep
/-- Rows and columns of a block that a reduction keeps (Table 7.6). -/
def keptRows (e : StageDim) (keepV keepI : Nat → Bool) (ty stage : Nat) (d : Nat × Nat) : List Nat × List Nat :=
  let v := keptOf e.nv keepV
  let i := keptOf e.ni keepI
  let all := fun (n : Nat) => List.range n
  if stage = 0 then (all d.1, all d.2)
  else match ty with
  | 0x01 | 0x14 => (v, v)
  | 0x03 => (all d.1, v)
  | 0x05 => (i, v)
  | 0x06 => (i, [0])
  | 0x02 | 0x07 | 0x08 | 0x10 | 0x15 | 0x16 => (v, [0])
  | 0x11 => (i ++ v.map (e.ni + ·) ++ v.map (e.ni + e.nv + ·), [0])
  | 0x17 => (v ++ i.map (e.nv + ·), [0])
  | _ => (all d.1, all d.2)

/-- A structure derived from a main structure: its first `n` stages without the variables and rows that are not kept. Blocks keep their type,
exponent, range and flags and end with the horizon (R237, R238, R240, R263). -/
def rebuild (p : List Byte) (n kind loss : Nat) (keepV keepI : Nat → Bool) : List Byte :=
  let st := stageTable p
  let st' := (st.take n).map fun e => { nv := (keptOf e.nv keepV).length, ns := e.ns, ni := (keptOf e.ni keepI).length : StageDim }
  let bs := (blockTable p).filterMap fun b => if b.first ≤ (typeSpan b.ty n).2 then some { b with last := min b.last (typeSpan b.ty n).2 } else none
  let dim := fun (k : Nat) => st.getD (k - 1) {}
  let kept := fun (b : BlockEnt) (k : Nat) => keptRows (dim k) keepV keepI b.ty k (blockDims st b.ty k)
  let rows := fun (b : BlockEnt) => if b.dense || b.diag then [] else
    let r := kept b b.first
    r.1.map fun i => r.2.zipIdx.foldl (fun a c => if (patRow p b i).testBit c.1 then a + 2 ^ c.2 else a) 0
  let ents := bs.zipIdx.map fun x =>
    let b := x.1
    let off := if b.dense || b.diag then 0 else ((bs.take x.2).map fun y => (rows y).length).sum
    leBytes 16 (pack [(1, b.sym.toNat), (1, b.dense.toNat), (1, b.diag.toNat), (1, b.const.toNat), (4, 0), (8, b.ty), (8, b.first), (8, b.last),
      (8, intBits 8 b.exp), (24, off), (32, intBits 32 b.dmin), (32, intBits 32 b.dmax)])
  let vals := (bs.filter (·.ty ≤ 9)).flatMap fun b => (blockStages b).flatMap fun k =>
    (kept b k).1.flatMap fun i => ((kept b k).2.filter (entryIn p b i)).flatMap fun j => leBytes 4 (intBits 32 (initialVal p k b.ty i j))
  let head := pack [(8, hdrFld p 0 8), (24, 0), (8, 1), (8, kind), (8, n), (8, 0), (16, (st'.map (·.nv)).sum), (16, (st'.map (·.ni)).sum), (16, bs.length),
    (2, 0), (6, 0), (16, 0), (24, loss), (32, 0), (32, hdrFld p 192 32), (32, 0)]
  leBytes 32 head ++ st'.flatMap (fun e => leBytes 4 (pack [(8, e.nv), (8, e.ns), (8, e.ni), (8, 0)])) ++ ents.flatten ++
    bs.flatMap (fun b => (rows b).flatMap (leBytes 8)) ++ vals

/-- A main structure with the thrusters of a mask removed, KIND 3 (R238, R263). -/
def derivedDesc (s : State) (p : List Byte) (mask : Nat) : List Byte :=
  let l := thrIn s 0
  let gone := l.filter fun t => mask.testBit t
  let lostV := gone.flatMap (varsOf s l)
  let lostI := gone.flatMap fun t => (List.range (thrFld (thrDef s t) 204 4)).map (curveRow s l t + ·)
  rebuild p (nStages p) 3 mask (fun v => !lostV.contains v) fun i => !lostI.contains i

/-- A main structure truncated to `n` stages, KIND 2 (R240). -/
def truncatedDesc (p : List Byte) (n : Nat) : List Byte := rebuild p n 2 0 (fun _ => true) fun _ => true

/-! ## Loading and activation (R239, R240) -/

/-- Stall `n` changed. -/
def updStall (n : Nat) (f : Stall → Stall) (s : State) : State := { s with sol := { s.sol with stalls := upd s.sol.stalls n f } }

/-- A checked and agreed description is PENDING (R239). -/
def makePending (n : Nat) (p : List Byte) (sig : Word) (s : State) : State :=
  updStall n (fun x => { x with
    pending := true, pendDesc := p, pendSig := sig, pendData := [], pendAt := s.time.ns
    state := if x.state = 0 || x.state = 5 then 2 else x.state }) s

/-- A copy accepted at a STANDBY manager, with what was pending before it (R180, R268, R329). -/
def noteCopy (code : Nat) (old s : State) : State :=
  { s with dp := { s.dp with copies := { time := s.time.ns, code := code, pend := old.dp.pend, cfg := old.cfgNext } :: s.dp.copies } }

/-- The STANDBY managers that confirm a copy: every one in RUN a structure, the counted ones a class 0x10 command (R239, R329). -/
def confirmers (code : Nat) (s : State) : List Nat := if code = 0x0401 then standbysInRun s else standbys s

/-- An answer waits for the STANDBY managers' confirmations (R239, R329). DESIGN CHOICE (row 64): a copy's TAG carries SESSION, for the change log
entries of the STANDBY managers. -/
def startJob (code : Nat) (r : Req) (sig : Word) (s : State) : Ans :=
  let ms := confirmers code s
  let t := sendCopies code { r with tag := s.safe.session } ms s
  .later { t with hif := { t.hif with copyJob := some { code := code, req := r, wait := ms, sig := sig } } }

/-- A STANDBY manager that has checked a copy keeps it until the other STANDBY managers have confirmed it too, `apply` being what its acceptance does
(R180, R239, R329). A manager that is not counted yet receives copies of its own and does not wait. -/
def awaitOthers (code : Nat) (r : Req) (sig : Word) (apply : State → State) (s : State) : State :=
  let ms := if s.mem.uncounted.any (·.1 = s.dev) then [] else confirmers code s
  if ms.isEmpty then apply s
  else { s with hif := { s.hif with copyJob := some { code := code, req := r, wait := ms, sig := sig, copy := true } } }

/-- Response payload of a refused load (Table 15.1): check order and the manager that refused. -/
def refusedLoad (order mgr : Nat) : List Byte := leBytes 8 (pack [(32, 0), (8, order), (8, mgr)])

/-- A manager that is not counted yet has a structure of the installation: it counts from the next DP cycle on (R351). -/
def countOwn (s : State) : State :=
  { s with mem := { s.mem with uncounted := s.mem.uncounted.map fun x => if x.1 = s.dev then (x.1, 0) else x } }

/-- STALL_LOAD_STRUCTURE (R6, R236, R239): a stall beyond the variant's limit has no other effect than its RANGE. -/
def bodyStallLoadStructure (r : Req) (s : State) : Ans :=
  let p := r.payload
  match loadCheck s p with
  | some (o, st) => .done st (refusedLoad o s.dev) (if o = 1 then s else event 0x0402 2 [u8 p 0, st.code, o, s.dev] s)
  | none =>
    let sig := signature p
    if isCopy 0x0401 r s then give (leBytes 8 sig.toNat) (awaitOthers 0x0401 r sig (fun t => countOwn (makePending (u8 p 0) p sig t)) s)
    else if s.hif.copyJob.isSome then .done .busy (refusedLoad 0 s.dev) (event 0x0402 2 [u8 p 0, Status.busy.code, 0, s.dev] s)
    else if (standbysInRun s).isEmpty then give (leBytes 8 sig.toNat) (makePending (u8 p 0) p sig s)
    else startJob 0x0401 r sig s
def execStallLoadStructure (r : Req) (s : State) : Res :=
  mbx 0x0401 (fun p => if p.length < 32 then some .badArg else none) bodyStallLoadStructure r s

/-- A scenario's structure is built anew: no build of its signature is reported yet (R240). -/
def buildScenario (n : Nat) (s : State) : State :=
  let k := firstScen s + n
  let old := (stallOf s k).sig
  let t := updStall k (fun x => { x with kind := 2, state := 7, desc := [] }) s
  { t with dp := { t.dp with scenBuilt := t.dp.scenBuilt.map fun l => l.filter (· ≠ old) } }

/-- Every scenario stall of a defined scenario is built anew from the main structure (R240). -/
def buildScenarios (s : State) : State :=
  (List.range s.variant.scens).foldl (fun t n => if (t.cfg.scens.getD n []).isEmpty then t else buildScenario n t) s

/-- The alarm STALL_FAULT of a lost description clears when none is lost (R267). -/
def settleStalls (s : State) : State := if s.sol.stalls.any (·.lost) then s else clearAlarm 0x040B s.dev s

/-- A moment lies in the second after a close instant: a description or value agreed then is too late for it (R180, R239). -/
def afterClose (close t : Nat) : Bool := close < t && t < close + 1000000000

/-- Structures PENDING before the first epoch's close become active at the start of a DP cycle (R239): event 0x0401; a new main structure ends a
derived build and rebuilds the scenarios (R240, R263, R264). -/
def activatePending (close : Nat) (s : State) : State :=
  settleStalls ((List.range 32).foldl (fun t n =>
    let x := stallOf t n
    if !x.pending || afterClose close x.pendAt then t
    else
      let cert := wd (hdrFld x.pendDesc 192 32)
      let t1 := updStall n (fun x => { x with
        pending := false, desc := x.pendDesc, mainDesc := if n = 0 then x.pendDesc else [], sig := x.pendSig, mainSig := x.pendSig, cert := cert, kind := if n = 0 then 0 else 1
        lossThr := BitVec.ofNat 24 (hdrFld x.pendDesc 136 24), state := 3, data := x.pendData, next := x.pendData
        pendDesc := [], pendSig := 0, pendData := [], damaged := false, lost := false }) t
      let t2 := { t1 with cfg := { t1.cfg with stalls := t1.cfg.stalls.modify n fun w => w ||| 1 } }
      let t3 := event 0x0401 1 [n, x.pendSig.toNat, cert.toNat, t2.cyc.dpCycle.toNat] t2
      if n = 0 then
        buildScenarios (clearAlarm 0x040E 0xFF { t3 with dp := { t3.dp with structSource := 0, builds := 0, building := none, derived := none, built := [none, none, none] } })
      else t3) s)

/-- A scenario stall's truncated structure is complete here (R240): the main structure's first SCEN_STAGES stages, or all N (R219). It is solved when
every counted manager has reported it (R263). -/
def execScenarioBuildComplete (scen : Fin 16) (s : State) : Res :=
  let n := firstScen s + scen.val
  let m := stallOf s 0
  if scen.val ≥ s.variant.scens || (stallOf s n).state ≠ 7 || !(stallOf s n).desc.isEmpty || m.mainDesc.isEmpty then .next s
  else
    let p := truncatedDesc m.mainDesc (min (u8 (s.cfg.scens.getD scen.val []) 1) (nStages m.mainDesc))
    .next (updStall n (fun x => { x with kind := 2, desc := p, cert := m.cert, sig := signature p, data := [], next := [] }) s)

/-! ## Delta batches (R244 to R249) -/

/-- Key of an entry. -/
def entryKey (stage ty row col : Nat) : Nat := ((stage * 256 + ty) * 256 + row) * 256 + col

/-- What a record element meets: 0 stored, 1 RANGE_REJECT, 2 PATTERN_REJECT (R246). -/
def elemCheck (p : List Byte) (stage ty row col : Nat) (v : Int) : Nat :=
  match (blockTable p).find? fun b => b.ty = ty && b.first ≤ stage && stage ≤ b.last with
  | none => 2
  | some b =>
    let d := blockDims (stageTable p) ty stage
    if ty > 9 || b.const || row ≥ d.1 || col ≥ d.2 || !entryIn p b row col then 2
    else if v < b.dmin || v > b.dmax then 1 else 0

/-- What a batch has done: the entries, and applied, range and pattern counts. -/
structure BatchAcc where
  data    : List (Nat × Int)
  applied : Nat := 0
  range   : Nat := 0
  pattern : Nat := 0
  evs     : List (Nat × List Nat) := []

/-- One element at one stage. -/
def putElem (p : List Byte) (stall cycle stage ty row col : Nat) (v : Int) (a : BatchAcc) : BatchAcc :=
  let loc := ((stage * 256 + ty) * 256 + row) * 256 + col
  match elemCheck p stage ty row col v with
  | 0 => { a with data := put a.data (entryKey stage ty row col) v, applied := a.applied + 1 }
  | 1 => { a with range := a.range + 1, evs := a.evs ++ [(0x0404, [stall, loc, intBits 32 v, cycle])] }
  | _ => { a with pattern := a.pattern + 1, evs := a.evs ++ [(0x040F, [stall, loc, 0, cycle])] }

/-- The stages that a record names: one, or every stage where its block type is described (R245). -/
def recStages (p : List Byte) (stage ty : Nat) : List Nat :=
  if stage = 0xFF then ((blockTable p).filter (·.ty = ty)).flatMap blockStages else [stage]

/-- The records of a batch, 8-byte units from an offset (R245, R246); bounded by the unit count. -/
def applyRecords (p : List Byte) (stall cycle : Nat) (b : List Byte) : Nat → Nat → BatchAcc → BatchAcc
  | 0, _, a => a
  | n + 1, o, a =>
    let stage := u8 b o
    let ty := u8 b (o + 1)
    let row := u8 b (o + 2)
    let col := u8 b (o + 3)
    let ss := recStages p stage ty
    if ss.isEmpty then applyRecords p stall cycle b n (o + 8) (putElem p stall cycle stage ty row col (i32 b (o + 4)) a)
    else if col ≠ 0xFF then
      applyRecords p stall cycle b n (o + 8) (ss.foldl (fun a k => putElem p stall cycle k ty row col (i32 b (o + 4)) a) a)
    else
      let cnt := u16 b (o + 4)
      let vec := ss.all fun k => (blockDims (stageTable p) ty k).2 = 1
      let units := (cnt + 1) / 2
      if u16 b (o + 6) ≠ 0 || cnt = 0 || cnt > 128 || units > n || !vec then
        applyRecords p stall cycle b n (o + 8) { a with
          pattern := a.pattern + 1
          evs := a.evs ++ [(0x040F, [stall, ((stage * 256 + ty) * 256 + row) * 256 + col, 0, cycle])] }
      else
        let one := fun (a : BatchAcc) (k : Nat) => (List.range cnt).foldl (fun a i =>
          putElem p stall cycle k ty (row + i) 0 (i32 b (o + 8 + 4 * i)) a) a
        applyRecords p stall cycle b (n - units) (o + 8 + 8 * units) (ss.foldl one a)

/-- A flag bit of a stall's last-solve and sticky fields set (R269). -/
def stallFlag (b : Nat) (x : Stall) : Stall := { x with flags := x.flags ||| BitVec.ofNat 16 (2 ^ b), sticky := x.sticky ||| BitVec.ofNat 16 (2 ^ b) }
/-- A counter of Table 7.15 stepped. -/
def stallCount (i k : Nat) (x : Stall) : Stall := { x with counts := addAt x.counts i k }

/-- A batch's rejects in a stall's flags, counters and events; the first batch of a cycle clears the flags of the one before (R246). -/
def batchDone (n : Nat) (a : BatchAcc) (first : Bool) (s : State) : State :=
  let clr := fun (y : Stall) => if first then { y with flags := y.flags &&& ~~~(BitVec.ofNat 16 (2 ^ 5 + 2 ^ 10 + 2 ^ 14)) } else y
  let mark := fun (y : Stall) =>
    let y1 := if a.range > 0 then stallFlag 5 (stallCount 6 a.range y) else y
    if a.pattern > 0 then stallFlag 10 (stallCount 7 a.pattern y1) else y1
  a.evs.foldl (fun t e => event e.1 2 e.2 t) (updStall n (fun y => mark (clr y)) s)

/-- A batch of the DP builder for a DP cycle, as entries with their mantissas, LAST among them (R246 to R248): into the next copy; STALE when another
cycle is being built (R247). -/
def builderBatch (n : Nat) (cycle : Word) (es : List ((Nat × Nat × Nat × Nat) × Int)) (s : State) : State :=
  let x := stallOf s n
  if cycle ≠ s.sol.cycle then event 0x0411 1 [n, cycle.toNat, s.sol.cycle.toNat] (updStall n (stallFlag 14) s)
  else
    let a := es.foldl (fun a e => putElem x.desc n cycle.toNat e.1.1 e.1.2.1 e.1.2.2.1 e.1.2.2.2 e.2 a) { data := x.next }
    batchDone n a true (updStall n (fun y => { y with next := a.data, batchSeq := 0 }) s)

/-- STALL_DELTA (R246 to R249): in DP mode OFF, DP_CYCLE ignored. -/
def bodyStallDelta (r : Req) (s : State) : Ans :=
  let b := r.payload
  let n := u8 b 0
  let x := stallOf s n
  let sig := w32 b 8
  let count := u16 b 2
  if n ≥ s.variant.stalls then no .range s
  else if s.dp.mode ≠ 0 then no .state s
  else
    let pend := x.pending && sig = x.pendSig
    if !pend && (x.desc.isEmpty || sig ≠ x.sig) then no .structure_ s
    else if u16 b 12 ≠ x.batchSeq || b.length ≠ 16 + 8 * count then no .badArg s
    else if count = 0 then no .range s
    else
      let p := if pend then x.pendDesc else x.desc
      let a := applyRecords p n s.cyc.dpCycle.toNat (b.drop 16) count 0 { data := if pend then x.pendData else x.next }
      let last := bit (u8 b 1) 0
      let s2 := batchDone n a (x.batchSeq = 0) (updStall n (fun y => { y with
        pendData := if pend then a.data else y.pendData, next := if pend then y.next else a.data
        batchSeq := if last then 0 else (y.batchSeq + 1) % 65536 }) s)
      give (leBytes 8 (pack [(16, a.applied), (16, a.range), (16, a.pattern)])) s2
def execStallDelta (r : Req) (s : State) : Res :=
  mbx 0x0402 (fun p => if p.length < 16 then some .badArg else none) bodyStallDelta r s

/-! ## Fixed-point arithmetic (R241 to R243) -/

/-- An error stage, or a result. -/
abbrev SatOr (α : Type) := Except Nat α
/-- A result that is a saturation at a stage where there is none (R243). -/
def orSat {α : Type} (stage : Nat) : Option α → SatOr α
  | some a => .ok a
  | none => .error stage
/-- A value that fits `w` bits. -/
def fits (w : Nat) (v : Int) : Option Int := if -(2 ^ (w - 1) : Nat) ≤ v && v < (2 ^ (w - 1) : Nat) then some v else none
/-- The 72-bit accumulator over a list of products in order (R242). -/
def acc72 (l : List Int) : Option Int := l.foldl (fun a v => a.bind fun x => fits 72 (x + v)) (some 0)
/-- A sum at one exponent converted to another: shifted left with a check, or right to nearest, ties toward +∞ (R242). -/
def convert (e target : Int) (v : Int) : Option Int :=
  if target ≤ e then fits 72 (v * 2 ^ (e - target).toNat) else some (roundDiv v (2 ^ (target - e).toNat))
/-- A value narrowed to int32 and to its block's range (R242, R243). -/
def narrow (b : BlockEnt) (v : Int) : Option Int := (fits 32 v).bind fun x => if b.dmin ≤ x && x ≤ b.dmax then some x else none
/-- A value brought to another exponent and narrowed to int32 (R242). -/
def aligned (e target v : Int) : Option Int := (convert e target v).bind (fits 32)
/-- A product of two blocks at the exponent of a third, narrowed to int32 (R242). -/
def productAt (ea eb target : Int) (terms : List (Int × Int)) : Option Int :=
  (acc72 (terms.map fun t => t.1 * t.2)).bind (aligned (ea + eb) target)
/-- A reciprocal to 32 bits at an exponent, rounded to nearest (R241). -/
def reciprocal (e target : Int) (v : Int) : Int := (1 / ((v : Rat) * (2 : Rat) ^ (e + target)) + 1 / 2).floor

/-! ## One solve (R233, R250 to R255) -/

/-- STALL_CFG of a stall (Table 7.13). -/
def stallCfg (s : State) (n : Nat) : BitVec 64 := s.cfg.stalls.getD n 0
/-- EN of a stall. -/
def stallOn (s : State) (n : Nat) : Bool := fld (stallCfg s n) 0 1 = 1

/-- A solution shifted by `a` stages, its last stage repeated (R254). -/
def shiftSol {α : Type} (a : Nat) (l : List α) : List α :=
  let k := min a (l.length - 1)
  l.drop k ++ l.getLast?.toList.flatMap (List.replicate k)

/-- What one solve reads: description, data, configuration word. -/
structure SolveIn where
  desc : List Byte
  data : List (Nat × Int)
  cfg  : BitVec 64

/-- An entry's mantissa; a SYM block stores its upper triangle (R235). -/
def SolveIn.val (i : SolveIn) (stage ty row col : Nat) : Int :=
  let rc := if (blockFor i.desc ty stage).sym && col < row then (col, row) else (row, col)
  match look i.data (entryKey stage ty rc.1 rc.2) with
  | some v => v
  | none => initialVal i.desc stage ty rc.1 rc.2
/-- Exponent of a block. -/
def SolveIn.exp (i : SolveIn) (ty stage : Nat) : Int := (blockFor i.desc ty stage).exp
/-- Dimensions of a stage. -/
def SolveIn.dim (i : SolveIn) (stage : Nat) : StageDim := (stageTable i.desc).getD (stage - 1) {}
/-- The stages. -/
def SolveIn.stages (i : SolveIn) : List Nat := (List.range (nStages i.desc)).map (· + 1)

/-- C_r·z − D_r of a row at RES's exponent (R250). -/
def SolveIn.excess (i : SolveIn) (k : Nat) (z : List Int) (r : Nat) : Option Int :=
  let res := i.exp 0x17 k
  (productAt (i.exp 5 k) (i.exp 0x10 k) res ((List.range (i.dim k).nv).map fun j => (i.val k 5 r j, z.getD j 0))).bind fun a =>
    (aligned (i.exp 6 k) res (i.val k 6 r 0)).bind fun d => narrow (blockFor i.desc 0x17 k) (a - d)
/-- How far a variable lies beyond its bound at RES's exponent: the lower bound (side 7) or the upper (side 8). -/
def SolveIn.beyond (i : SolveIn) (k : Nat) (z : List Int) (side j : Nat) : Option Int :=
  let res := i.exp 0x17 k
  (aligned (i.exp 0x10 k) res (z.getD j 0)).bind fun v =>
    (aligned (i.exp side k) res (i.val k side j 0)).bind fun b => narrow (blockFor i.desc 0x17 k) (if side = 7 then b - v else v - b)
/-- Active where λ + c·violation > 0, in the units of RES (R250). -/
def SolveIn.guess (i : SolveIn) (k : Nat) (lam viol : Int) : Option Bool :=
  let res := i.exp 0x17 k
  (aligned (i.exp 0x11 k) res lam).bind fun l => (aligned (res + sfld i.cfg 40 8) res viol).bind fun c => some (decide (l + c > 0))
/-- The active set of a stage guessed from an iterate: inequalities, lower bounds, upper bounds (R250 step 1). -/
def SolveIn.guessStage (i : SolveIn) (k : Nat) (x : StageSol) : SatOr (List Bool) :=
  let e := i.dim k
  let at_ := fun (viol : Option Int) (n : Nat) => orSat k (viol.bind fun v => i.guess k (x.lam.getD n 0) v)
  ((List.range e.ni).mapM fun r => at_ (i.excess k x.z r) r).bind fun a =>
    ((List.range e.nv).mapM fun j => at_ (i.beyond k x.z 7 j) (e.ni + j)).bind fun b =>
      ((List.range e.nv).mapM fun j => at_ (i.beyond k x.z 8 j) (e.ni + e.nv + j)).map fun c => a ++ b ++ c

/-- Everything that an iteration with an active set reads, for the words of its factorisation (row 4). -/
def SolveIn.args (i : SolveIn) (acts : List (List Bool)) : List Int :=
  i.desc.map (fun b => (b.toNat : Int)) ++ i.data.flatMap (fun d => [(d.1 : Int), d.2]) ++ [(i.cfg.toNat : Int)] ++
    acts.flatten.map fun b => if b then 1 else 0

/-- A variable is fixed by an active bound. -/
def fixedVar (e : StageDim) (act : List Bool) (j : Nat) : Bool := act.getD (e.ni + j) false || act.getD (e.ni + e.nv + j) false

/-- What the pivots of a factorisation have been: replaced nonzero ones, replaced zeros, the lowest stage of a nonzero one with its mantissa, and
of a zero (R252, R270). -/
structure Pivots where
  small : Nat := 0
  zero  : Nat := 0
  stage : Nat := 0
  value : Int := 0
  zstage : Nat := 0
  deriving DecidableEq, Repr

/-- The lower of two stages, 0 being none. -/
def lowerStage (a b : Nat) : Nat := if a = 0 then b else if b = 0 then a else min a b
/-- The lowest stage with a replaced pivot (R252). -/
def Pivots.lowest (a : Pivots) : Nat := lowerStage a.stage a.zstage

/-- One pivot: replaced below τ = 2^(31 + TAU_LOG2), its reciprocal formed; both within their ranges (R241, R252). -/
def SolveIn.pivot (i : SolveIn) (k : Nat) (raw : Int) (a : Pivots) : SatOr Pivots :=
  let tau : Int := 2 ^ (31 + sfld i.cfg 32 8).toNat
  let low := raw.natAbs < tau.natAbs
  let p := if low then (if raw < 0 then -tau else tau) else raw
  let b := blockFor i.desc 0x15 k
  let rb := blockFor i.desc 0x16 k
  let first := low && raw ≠ 0 && (a.stage = 0 || k < a.stage)
  (orSat k (narrow b p)).bind fun q => (orSat k (narrow rb (reciprocal b.exp rb.exp q))).map fun _ =>
    { small := if low && raw ≠ 0 then a.small + 1 else a.small, zero := if raw = 0 then a.zero + 1 else a.zero
      stage := if first then k else a.stage, value := if first then raw else a.value
      zstage := if raw = 0 then lowerStage a.zstage k else a.zstage }

/-- The recursion from stage N to stage 1: P, L and the pivots of the variables that no active bound fixes (R250 step 2). -/
def SolveIn.factorise (i : SolveIn) (acts : List (List Bool)) : SatOr Pivots :=
  let ar := i.args acts
  i.stages.reverse.foldlM (fun a k =>
    let e := i.dim k
    let words := fun (ty n : Nat) => (List.range (n * n)).mapM fun m =>
      if entryIn i.desc (blockFor i.desc ty k) (m / n) (m % n) then orSat k (narrow (blockFor i.desc ty k) (Config.factor ar ty k m)) else .ok 0
    (words 0x13 e.ns).bind fun _ => (words 0x14 e.nv).bind fun _ =>
      ((List.range e.nv).filter fun j => !fixedVar e (acts.getD (k - 1) []) j).foldlM (fun a j => i.pivot k (Config.factor ar 0x15 k j) a) a) {}

/-- Row `r` of A_k·z_k + BVEC_k at an exponent; from stage 0 on X0 (R233). -/
def SolveIn.reach (i : SolveIn) (k : Nat) (target : Int) (z : List Int) (r : Nat) : Option Int :=
  let ez := if k = 0 then i.exp 9 0 else i.exp 0x10 k
  (productAt (i.exp 3 k) ez target ((List.range (blockDims (stageTable i.desc) 3 k).2).map fun j => (i.val k 3 r j, z.getD j 0))).bind fun a =>
    (aligned (i.exp 4 k) target (i.val k 4 r 0)).map fun c => a + c
/-- x_(k+1) = A_k·z_k + BVEC_k at Z's exponent of the stage reached (R233). -/
def SolveIn.link (i : SolveIn) (k : Nat) (z : List Int) : SatOr (List Int) :=
  let b := blockFor i.desc 0x10 (k + 1)
  (List.range (i.dim (k + 1)).ns).mapM fun r => orSat (k + 1) ((i.reach k b.exp z r).bind (narrow b))
/-- The largest difference of stage k + 1's states from that link, at RES's exponent (R250 step 4). -/
def SolveIn.linkGap (i : SolveIn) (k : Nat) (z x : List Int) : SatOr Nat :=
  let b := blockFor i.desc 0x17 (k + 1)
  ((List.range (i.dim (k + 1)).ns).mapM fun r => (orSat (k + 1) ((i.reach k b.exp z r).bind fun a =>
    (aligned (i.exp 0x10 (k + 1)) b.exp (x.getD r 0)).bind fun v => narrow b (a - v))).map Int.natAbs).map fun l => l.foldl max 0

/-- A stage's variables: one with an active bound at it, the other states by the link, the others by the back-solve (R250 steps 1 and 3). -/
def SolveIn.forward (i : SolveIn) (ar : List Int) (k : Nat) (act : List Bool) (x : List Int) : SatOr (List Int) :=
  let e := i.dim k
  let b := blockFor i.desc 0x10 k
  let at_ := fun (side j : Nat) => (aligned (i.exp side k) b.exp (i.val k side j 0)).bind (narrow b)
  (List.range e.nv).mapM fun j =>
    orSat k (if act.getD (e.ni + j) false then at_ 7 j else if act.getD (e.ni + e.nv + j) false then at_ 8 j
      else if j < e.ns then some (x.getD j 0) else narrow b (Config.factor ar 0x10 k j))

/-- A stage's duals: 0 of inactive rows and bounds (R250 step 3). -/
def SolveIn.duals (i : SolveIn) (ar : List Int) (k : Nat) (act : List Bool) : SatOr (List Int × List Int) :=
  (act.zipIdx.mapM fun (a : Bool × Nat) => if a.1 then orSat k (narrow (blockFor i.desc 0x11 k) (Config.factor ar 0x11 k a.2)) else .ok 0).bind fun l =>
    ((List.range (i.dim k).ns).mapM fun j => orSat k (narrow (blockFor i.desc 0x12 k) (Config.factor ar 0x12 k j))).map fun n => (l, n)

/-- The primal residual of a stage over inactive rows and its dual residual over active ones, at RES's exponent (R250 step 4). -/
def SolveIn.residuals (i : SolveIn) (k : Nat) (x : StageSol) : SatOr (Nat × Nat) :=
  ((List.range (i.dim k).ni).mapM fun r =>
    if x.act.getD r false then .ok 0 else (orSat k (i.excess k x.z r)).map fun v => (max v 0).toNat).bind fun p =>
  (x.act.zipIdx.mapM fun (a : Bool × Nat) =>
    if a.1 && decide (x.lam.getD a.2 0 < 0) then (orSat k ((aligned (i.exp 0x11 k) (i.exp 0x17 k) (x.lam.getD a.2 0)).bind (narrow (blockFor i.desc 0x17 k)))).map fun v => v.natAbs
    else .ok 0).map fun d => (p.foldl max 0, d.foldl max 0)

/-- One iteration: its stages, pivots and residuals (R250); `acts` is its active set. -/
def SolveIn.iterate (i : SolveIn) (acts : List (List Bool)) : SatOr (List StageSol × Pivots × Nat × Nat) :=
  let ar := i.args acts
  (i.factorise acts).bind fun pv =>
  let x0 := (List.range (i.dim 1).ns).map fun j => i.val 0 9 j 0
  (i.link 0 x0).bind fun x1 =>
  (i.stages.foldlM (fun (a : List (List Int) × List Int) k =>
    (i.forward ar k (acts.getD (k - 1) []) a.2).bind fun z =>
      (if k = nStages i.desc then .ok [] else i.link k z).map fun x => (a.1 ++ [z], x)) ([], x1)).bind fun zs =>
  (i.stages.mapM fun k => (i.duals ar k (acts.getD (k - 1) [])).map fun d =>
    { z := zs.1.getD (k - 1) [], lam := d.1, nu := d.2, act := acts.getD (k - 1) [] : StageSol }).bind fun l =>
  (i.stages.mapM fun k => i.linkGap (k - 1) (if k = 1 then x0 else zs.1.getD (k - 2) []) (zs.1.getD (k - 1) [])).bind fun gap =>
  (i.stages.mapM fun k => i.residuals k (l.getD (k - 1) {})).map fun r =>
    (l, pv, (gap ++ r.map (·.1)).foldl max 0, (r.map (·.2)).foldl max 0)

/-- What a solve has come to: iterations, verdict (0 converged, 1 budget, 2 saturation at a stage), the last iterate, its pivots. -/
structure SolveOut where
  iter    : Nat := 0
  verdict : Nat := 1
  stage   : Nat := 0
  sol     : List StageSol := []
  piv     : Pivots := {}
  deriving DecidableEq, Repr

/-- Pivot records of two iterations together. -/
def Pivots.and (a b : Pivots) : Pivots :=
  let later := b.stage ≠ 0 && (a.stage = 0 || b.stage < a.stage)
  { small := a.small + b.small, zero := a.zero + b.zero, stage := if later then b.stage else a.stage, value := if later then b.value else a.value
    zstage := lowerStage a.zstage b.zstage }

/-- Iterations up to a number of them: converged with an unchanged active set and residuals within 2^(31 + TOL) of RES, ended by a saturation, or
out of iterations (R243, R251). -/
def SolveIn.run (i : SolveIn) : Nat → List (List Bool) → SolveOut → SolveOut
  | 0, _, a => a
  | n + 1, acts, a =>
    match i.iterate acts with
    | .error k => { a with iter := a.iter + 1, verdict := 2, stage := k, sol := [] }
    | .ok (l, pv, prim, dual) =>
      let b : SolveOut := { iter := a.iter + 1, verdict := 1, sol := l, piv := a.piv.and pv }
      let tol := fun (lo : Nat) => 2 ^ (31 + sfld i.cfg lo 8).toNat
      if acts = a.sol.map (·.act) && prim ≤ tol 48 && dual ≤ tol 56 then { b with verdict := 0 }
      else if n = 0 then b
      else match i.stages.mapM fun k => i.guessStage k (l.getD (k - 1) {}) with
        | .error k => { b with iter := b.iter + 1, verdict := 2, stage := k, sol := [] }
        | .ok next => i.run n next b

/-- The iterate before the first: the shifted source, or every row and bound inactive with zero duals (R253 to R255). -/
def SolveIn.first (i : SolveIn) (start : List StageSol) : List StageSol :=
  if !start.isEmpty then start
  else i.stages.map fun k =>
    let e := i.dim k
    { z := List.replicate e.nv 0, lam := List.replicate (e.ni + 2 * e.nv) 0, nu := List.replicate e.ns 0, act := List.replicate (e.ni + 2 * e.nv) false }

/-- A stall's solve over at most `n` iterations; a cold start's first active set is empty (R255). -/
def SolveIn.solve (i : SolveIn) (start : List StageSol) (n : Nat) : SolveOut :=
  let f := i.first start
  if start.isEmpty then i.run n (f.map (·.act)) { sol := f }
  else match i.stages.mapM fun k => i.guessStage k (f.getD (k - 1) {}) with
    | .error k => { iter := 1, verdict := 2, stage := k }
    | .ok acts => i.run n acts { sol := f }

/-- The warm source of a stall with its signature, shifted to the present cycle (R253, R254). -/
def warmSource (s : State) (n : Nat) : Option (Word × List StageSol) :=
  let x := stallOf s n
  let sh := fun (y : Stall) => (y.solSig, shiftSol ((s.sol.cycle - y.solCycle).toNat) y.sol)
  let own := if x.hasSol then some (sh x) else none
  let seed := if (stallOf s 0).hasSol && fld (stallCfg s n) 1 1 = 1 then some (sh (stallOf s 0)) else none
  let scen := match own with
    | some o => if o.1 = x.sig then some o else seed.orElse fun _ => some o
    | none => seed
  let adopted := fun (k : Nat) => if (stallOf s k).hasSol then some (sh (stallOf s k)) else none
  if x.coldNext then none
  else if n ≥ firstScen s then scen
  else if n = 0 && s.sol.switched && 1 ≤ s.dp.structSource && s.dp.structSource ≤ 15 then adopted s.dp.structSource
  else own

/-- What a stall's solve reads. -/
def solveIn (s : State) (n : Nat) : SolveIn := { desc := (stallOf s n).desc, data := (stallOf s n).data, cfg := stallCfg s n }
/-- Its budget: WARM_BUDGET of a warm start, else COLD_BUDGET (R255). -/
def budgetOf (s : State) (n : Nat) : Nat := if (stallOf s n).start.isEmpty then fld (stallCfg s n) 24 8 else fld (stallCfg s n) 16 8

/-- Dispatch of a stall: the next copy becomes the working copy, the start is warm or cold, a mismatch is recorded (R248, R253 to R255). -/
def startSolve (n : Nat) (s : State) : State :=
  let x := stallOf s n
  let src := warmSource s n
  let warm := match src with | some v => v.1 = x.sig | none => false
  let mismatch := src.isSome && !warm
  let fl := (if mismatch then 256 else 0) + (if warm then 0 else 512) + (if s.sol.throttle > 0 then 8192 else 0)
  let keep := x.flags &&& BitVec.ofNat 16 (2 ^ 1 + 2 ^ 5 + 2 ^ 10 + 2 ^ 12 + 2 ^ 14)
  let s1 := updStall n (fun x => stallCount 10 (if mismatch then 1 else 0) (stallCount 0 1 { x with
    state := 4, data := x.next, coldNext := false, start := if warm then (src.getD (0, [])).2 else []
    flags := keep ||| BitVec.ofNat 16 fl, sticky := x.sticky ||| BitVec.ofNat 16 fl, iter := 0, pivStage := 0, cand := [], candOk := false
    candCycle := s.sol.cycle })) s
  if mismatch then event 0x0408 1 [n, x.sig.toNat, (src.getD (0, [])).1.toNat, s.sol.cycle.toNat] s1 else s1

/-- What a number of iterations leaves in a stall: iterations, pivots and their events (R252, R257, R269). -/
def solveTrace (n : Nat) (o : SolveOut) (s : State) : State :=
  let fl := (if o.piv.small > 0 then 64 else 0) + (if o.piv.zero > 0 then 128 else 0) + (if s.sol.throttle > 0 then 8192 else 0)
  let s1 := updStall n (fun x => stallCount 9 o.piv.zero (stallCount 8 o.piv.small (stallCount 2 o.iter { x with
    state := 3, flags := x.flags ||| BitVec.ofNat 16 fl, sticky := x.sticky ||| BitVec.ofNat 16 fl, iter := min o.iter 255, pivStage := o.piv.lowest }))) s
  let e := fun (on : Bool) code sev ps (t : State) => if on then event code sev ps t else t
  e (o.piv.zero > 0) 0x0407 2 [n, o.piv.zstage, 0, s.sol.cycle.toNat]
    (e (o.piv.small > 0) 0x0406 1 [n, o.piv.stage, intBits 32 o.piv.value, s.sol.cycle.toNat] s1)

/-- The solve of a stall runs to its end: converged, out of its budget, or saturated with event 0x0405 (R243, R251). -/
def endSolve (n : Nat) (s : State) : State :=
  let o := (solveIn s n).solve (stallOf s n).start (budgetOf s n)
  let s1 := solveTrace n o s
  let s2 := updStall n (fun x =>
    let y := { x with cand := o.sol, candOk := o.verdict = 0 }
    if o.verdict = 0 then stallFlag 0 (stallCount 1 1 y) else if o.verdict = 1 then stallFlag 2 (stallCount 3 1 y) else stallFlag 4 (stallCount 5 1 y)) s1
  if o.verdict = 2 then event 0x0405 3 [n, o.iter, o.stage, s.sol.cycle.toNat] s2 else s2

/-- A solve ends before its own end, at an iteration that the spec does not fix: a free number below its iterations (R256, R266, R267; row 4). -/
def cutSolve (n : Nat) (s : State) : State :=
  let all := (solveIn s n).solve (stallOf s n).start (budgetOf s n)
  let k := (nextFree s).toNat % max 1 all.iter
  let o := (solveIn s n).solve (stallOf s n).start k
  updStall n (fun x => { x with cand := [], candOk := false }) (solveTrace n (if k = 0 then {} else o) (stepFree s))

/-- A load of stall `n` waits for its confirmations (R239). -/
def loading (s : State) (n : Nat) : Bool := match s.hif.copyJob with | some j => j.code = 0x0401 && u8 j.req.payload 0 = n | none => false

/-- STALL_STATUS word (Table 7.14): an empty or faulted stall whose load is under way is LOADING. -/
def stallWord (s : State) (n : Nat) : Nat :=
  let x := stallOf s n
  let st := if x.state = 3 && !stallOn s n then 6 else if loading s n && (x.state = 0 || x.state = 5) then 1 else x.state
  pack [(16, x.flags.toNat), (16, x.sticky.toNat), (8, x.pivStage), (8, x.iter), (8, x.kind), (8, st)]

/-- STALL_SOLVE (R249): one solve from the stall's current data, without a deadline. -/
def bodyStallSolve (r : Req) (s : State) : Ans :=
  let n := u8 r.payload 0
  if n ≥ s.variant.stalls then no .range s
  else if s.dp.mode ≠ 0 || (stallOf s n).desc.isEmpty || (stallOf s n).state ≠ 3 then no .state s
  else
    let s1 := endSolve n (startSolve n { s with sol := { s.sol with cycle := s.cyc.dpCycle } })
    give (leBytes 8 (stallWord s1 n)) s1
def execStallSolve (r : Req) (s : State) : Res := mbx 0x0404 (exactly 1) bodyStallSolve r s

/-! ## Dispatch and outcome (R221, R256 to R262) -/

/-- The lowest-numbered free pair takes the next stall of the queue (R262); bounded by the number of pairs. -/
def dispatch : Nat → State → State
  | 0, s => s
  | k + 1, s =>
    match s.sol.queue, (List.range s.variant.solPairs).find? fun p => (s.sol.pairs.getD p none).isNone with
    | n :: q, some p =>
      dispatch k (startSolve n
        { s with sol := { s.sol with queue := q, pairs := s.sol.pairs.set p (some n) } })
    | _, _ => s

/-- A list rotated to begin at a place. -/
def rotate {α : Type} (l : List α) (k : Nat) : List α := if l.isEmpty then [] else l.drop (k % l.length) ++ l.take (k % l.length)

/-- Thrusters that a scenario loses: its mask and those of its lost sections (R217). -/
def scenLoss (s : State) (n : Nat) : Nat :=
  let p := s.cfg.scens.getD n []
  (List.range 24).foldl (fun a t =>
    let d := s.cfg.thrusters.getD t []
    let sec := thrFld d 24 8
    if (ule p 8 3).testBit t || (!d.isEmpty && sec ≠ 0 && (u8 p 6).testBit (sec - 1)) then a + 2 ^ t else a) 0

/-- A scenario loses every defined thruster: it FAILS without a solve (R218). -/
def scenHopeless (s : State) (n : Nat) : Bool :=
  (List.range 24).all fun t => (s.cfg.thrusters.getD t []).isEmpty || (scenLoss s n).testBit t

/-- The solves of a cycle in the order of R262: stall 0, the scenarios in rotation, the pre-resident stalls in rotation. -/
def cycleQueue (s : State) : List Nat :=
  let c := s.sol.cycle.toNat
  let ready := fun n => stallOn s n && (stallOf s n).state = 3
  let scens := (rotate (List.range s.cfg.nScen) c).filter fun n =>
    !(s.cfg.scens.getD n []).isEmpty && !scenHopeless s n && ready (firstScen s + n)
  let pre := ((List.range (firstScen s)).filter fun n => n ≠ 0 && ready n)
  (if ready 0 then [0] else []) ++ scens.map (firstScen s + ·) ++ (rotate pre c).filter (· ≠ s.dp.structSource)

/-- S0_FLAGS of stall 0's last solve (Table 7.11). -/
def s0Of (x : Stall) : Nat :=
  let f := fun k => (x.flags.getLsbD k).toNat
  f 0 + 2 * f 2 + 8 * f 4 + 16 * f 9 + 32 * f 8 + 64 * (x.flags.getLsbD 6 || x.flags.getLsbD 7).toNat

/-- A solve of the cycle ends (R251); the freed pair takes the next dispatch (R262). -/
def execSolveDone (stall : Fin 32) (s : State) : Res :=
  let n := stall.val
  match (List.range 4).find? fun p => s.sol.pairs.getD p none = some n with
  | none => .next s
  | some p =>
    let s1 := endSolve n { s with sol := { s.sol with pairs := s.sol.pairs.set p none } }
    let ok := (stallOf s1 n).candOk
    let mark := fun (k : Nat) (w : BitVec 16) => if ok then w ||| BitVec.ofNat 16 (2 ^ k) else w
    let s2 := if n = 0 then { s1 with sol := { s1.sol with s0Flags := BitVec.ofNat 8 (s0Of (stallOf s1 0)), s0Iter := (stallOf s1 0).iter } }
      else if n ≥ firstScen s then { s1 with sol := { s1.sol with scenOk := mark (n - firstScen s) s1.sol.scenOk } }
      else { s1 with sol := { s1.sol with preOk := mark n s1.sol.preOk } }
    .next (dispatch 4 s2)

/-- The outcome word (Table 7.11). -/
def outcomeWord (s : State) : Nat :=
  pack [(32, s.sol.cycle.toNat), (32, (stallOf s 0).sig.toNat), (8, s.dev), (8, s.sol.s0Flags.toNat), (8, s.sol.throttle), (8, s.sol.s0Iter),
    (16, s.sol.scenOk.toNat), (16, s.sol.preOk.toNat)]

/-- A solve still running at O is stopped (R256, R260). -/
def stopSolve (s : State) (n : Nat) : State := updStall n (fun x => stallCount 4 1 (stallFlag 3 x)) (cutSolve n s)

/-- Epoch p = ⌊4k/5⌋ of a cycle (R256), of which `first` is the first epoch. -/
def epochP (s : State) (first : Word) : Word := first + wd (4 * s.cyc.k / 5)

/-- The first epoch of the DP cycle whose problem is in hand. -/
def solFirst (s : State) : Word := s.cyc.dpFirst - (s.cyc.dpCycle - s.sol.cycle) * wd s.cyc.k

/-- O of the cycle (R256): running solves stop, the outcome word is contributed for epoch p by a manager that is not SILENT. -/
def execOutcomeInstant (s : State) : Res :=
  if !s.sol.running then .next s
  else
    let live := s.sol.pairs.filterMap id
    let late0 := live.contains 0 || s.sol.queue.contains 0
    let s1 := live.foldl stopSolve s
    let x := stallOf s1 0
    let s2 := { s1 with sol := { s1.sol with
      pairs := [none, none, none, none], queue := [], running := false
      s0Flags := if live.contains 0 then BitVec.ofNat 8 (s0Of x) ||| 4 else if late0 then s1.sol.s0Flags ||| 4 else s1.sol.s0Flags
      s0Iter := if live.contains 0 then x.iter else s1.sol.s0Iter } }
    if s2.isMgrRole then
      .next (sendContribs (epochP s2 (solFirst s2)) [mkContrib s2 5 0xFF 2 (outcomeWord s2) (epochP s2 (solFirst s2))] s2)
    else .next s2

/-- A stall found uncorrectable (R267): FAULT, abandoned, event 0x040B; `both` when the DDR4 copy failed too. -/
def faultStall (n region : Nat) (both : Bool) (s : State) : State :=
  let run := s.sol.pairs.contains (some n)
  let s1 := updStall n (fun x => (if run then stallFlag 11 else id) { x with state := 5, damaged := true, lost := x.lost || both, candOk := false })
    (if run then cutSolve n s else s)
  let s2 := { s1 with sol := { s1.sol with
    pairs := s1.sol.pairs.map fun p => if p = some n then none else p
    queue := s1.sol.queue.filter (· ≠ n)
    s0Flags := if n ≠ 0 then s1.sol.s0Flags else ((if run then BitVec.ofNat 8 (s0Of (stallOf s1 0)) else s1.sol.s0Flags) ||| 0x80) &&& ~~~1
    s0Iter := if n = 0 && run then (stallOf s1 0).iter else s1.sol.s0Iter } }
  let s3 := event 0x040B 4 [n, region, both.toNat, s.sol.cycle.toNat] s2
  if both then raiseAlarm 0x040B s.dev 4 n s3 else s3

/-- At the next DP cycle a damaged stall is reloaded from its DDR4 copy and starts cold (R267). -/
def reloadStalls (s : State) : State :=
  { s with sol := { s.sol with stalls := s.sol.stalls.map fun x =>
      if x.damaged && !x.lost then { x with damaged := false, state := 3, data := [], next := [], coldNext := true } else x } }

/-! ## Configuration and status (R266, R268, R269, R486) -/

/-- A running solve abandoned at an iteration boundary (R266). -/
def abandonSolve (n : Nat) (s : State) : State :=
  if s.sol.pairs.contains (some n) then
    updStall n (stallFlag 11) (cutSolve n { s with sol := { s.sol with pairs := s.sol.pairs.map fun q => if q = some n then none else q } })
  else s

/-- STALL_CONFIG (R268). -/
def bodyStallConfig (r : Req) (s : State) : Ans :=
  let p := r.payload
  let n := u8 p 0
  let w := BitVec.ofNat 64 (ule p 8 8)
  let sg := fun lo (a b : Int) => a ≤ sfld w lo 8 && sfld w lo 8 ≤ b
  if n ≥ s.variant.stalls then no .range s
  else if !(sg 56 (-24) (-4) && sg 48 (-24) (-4) && sg 40 (-8) 8 && sg 32 (-28) (-8)) || fld w 24 8 = 0 || fld w 16 8 = 0 then no .range s
  else if n = 0 && fld w 0 1 = 0 && s.dp.mode ≠ 0 then no .state s
  else
    let s1 := if n ≠ 0 && fld w 0 1 = 0 then abandonSolve n s else s
    let s2 := dispatch 4 (pendCfg (fun c => { c with stalls := c.stalls.set n w }) s1)
    okay (shareCfg 0x0403 r [0, 1, 2] (if isCopy 0x0403 r s then noteCopy 0x0403 s1 s2 else s2))
def execStallConfig (r : Req) (s : State) : Res := mbx 0x0403 (exactly 16) bodyStallConfig r s

/-- The 80 bytes of one stall (Table 15.7). -/
def stallBytes (s : State) (n : Nat) : List Byte :=
  let x := stallOf s n
  leBytes 28 (pack [(64, stallWord s n), (64, (stallCfg s n).toNat), (32, x.sig.toNat), (32, if x.pending then x.pendSig.toNat else 0), (32, x.cert.toNat)]) ++
    words x.counts

/-- STALL_STATUS (R269): CLEAR leaves SHIFT_RUN. -/
def bodyStallStatus (r : Req) (s : State) : Ans :=
  let f := u8 r.payload 0
  let n := u8 r.payload 1
  if n = 0 || n > (if r.dma.isSome then 32 else 2) || f + n > s.variant.stalls then no .range s
  else
    let ns := (List.range n).map (f + ·)
    give (ns.flatMap (stallBytes s))
      (if clears r.payload 2 then ns.foldl (fun t k => updStall k (fun x => { x with
        sticky := 0, counts := List.replicate 12 0 ++ [x.counts.getD 12 0] }) t) s else s)
def execStallStatus (r : Req) (s : State) : Res := mbx 0x0405 (exactly 3) bodyStallStatus r s

/-- Words of a stage's block of a solution (0x10 Z, 0x11 LAM, 0x12 NU, 0xFF active set). -/
def solBlock (l : List StageSol) (stage block : Nat) : List Int :=
  let x := l.getD (stage - 1) {}
  match block with
  | 0x10 => x.z
  | 0x11 => x.lam
  | 0x12 => x.nu
  | _ => x.act.map fun b => if b then 1 else 0

/-- The solution that STALL_READ returns: the latest solve's, else the last agreed one. -/
def readSol (x : Stall) : List StageSol := if x.cand.isEmpty then x.sol else x.cand

/-- A stage's block in the layout of STALL_READ from an element (Table 15.7). -/
def readBlock (s : State) (n stage block first : Nat) (lim : Nat) : List Byte :=
  let x := stallOf s n
  let ws := ((solBlock (readSol x) stage block).drop first).take lim
  let exp := match (blockTable x.desc).find? fun b => b.ty = block && b.first ≤ stage && stage ≤ b.last with | some b => intBits 8 b.exp | none => 0
  let cnt := min ws.length 255
  let head := leBytes 16 (pack [(64, stallWord s n), (32, x.sig.toNat), (8, exp), (8, cnt)])
  if block = 0xFF then head ++ leBytes (ceilDiv ws.length 8) (pack (ws.map fun v => (1, (v ≠ 0 : Bool).toNat)))
  else head ++ ws.flatMap fun v => leBytes 4 (intBits 32 v)

/-- STALL_READ (R486). -/
def bodyStallRead (r : Req) (s : State) : Ans :=
  let p := r.payload
  let n := u8 p 0
  let x := stallOf s n
  let st := stageTable x.desc
  let block := u8 p 2
  if n ≥ s.variant.stalls then no .range s
  else if !([0x10, 0x11, 0x12, 0xFF].contains block) then no .badArg s
  else if x.cand.isEmpty && !x.hasSol then no .state s
  else if r.dma.isSome then
    give ((List.range st.length).flatMap fun k => [0x10, 0x11, 0x12, 0xFF].flatMap fun b => readBlock s n (k + 1) b 0 1000000) s
  else if u8 p 1 = 0 || u8 p 1 > st.length || u16 p 4 ≥ (solBlock (readSol x) (u8 p 1) block).length then no .range s
  else give (readBlock s n (u8 p 1) block (u16 p 4) (if block = 0xFF then 448 else 56)) s
def execStallRead (r : Req) (s : State) : Res := mbx 0x0406 (exactly 6) bodyStallRead r s

/-! ## Thermal throttle (R271) -/

/-- Threshold of a level, °C (Table 7.17). -/
def throttleAt (n : Nat) : Int := [0, 140, 143, 146].getD n 0

/-- One junction reading per millisecond (R271). -/
def execThrottleSample (celsius : Int) (s : State) : Res :=
  if s.variant = .WK then .next s
  else
    let l := s.sol.throttle
    let up := (List.range 4).foldl (fun a n => if n ≠ 0 && celsius ≥ throttleAt n then n else a) 0
    let set := fun (n : Nat) (t : State) =>
      event 0x0410 2 [l, n, intBits 32 celsius] { t with sol := { t.sol with throttle := n, coolMs := 0 } }
    if up > l then .next (set up s)
    else if l = 0 then .next s
    else if celsius < throttleAt l - 5 then
      if s.sol.coolMs + 1 ≥ 1000 then .next (set (l - 1) s) else .next { s with sol := { s.sol with coolMs := s.sol.coolMs + 1 } }
    else .next { s with sol := { s.sol with coolMs := 0 } }

end Sys2Proof.Machine
end

