-- ==== Sys2Proof/Machine/Dp.lean ====
section
/-! DEFINITION. DP commands: modes, set-points, thrusters, power plant, scenarios, weights, fallback data, joystick, track, and
their copies to STANDBY managers (chapter 6, R329, R501 to R503; class 0x10). -/

namespace Sys2Proof.Machine

/-- DP state changed. -/
def updDp (f : Dp → Dp) (s : State) : State := { s with dp := f s.dp }
/-- Pending DP values changed (R180). -/
def updPend (f : DpPend → DpPend) (s : State) : State := updDp (fun d => { d with pend := f d.pend }) s
/-- The configuration that accepted commands have reached: in force, or awaiting its DP cycle. -/
def cfgAhead (s : State) : Cfg := s.cfgNext.getD s.cfg

/-- OFF or STANDBY, where structural changes are accepted (R206, R210, R503). -/
def quietMode (s : State) : Bool := s.dp.mode ≤ 1
/-- The STATE refusal where a condition fails. -/
def need (c : Bool) (st : Status) : Option Status := if c then none else some st
/-- The first refusal of a list of checks. -/
def firstOf : List (Option Status) → Option Status
  | [] => none
  | some st :: _ => some st
  | none :: l => firstOf l

/-! ## DP_MODE_SET (R181 to R183) -/

/-- The engagement conditions for a mode (R183). -/
def mayEngage (s : State) (m : Nat) (auto : Bool) : Bool :=
  let img := (s.brd.images.find? fun i => (imgSec i 2).isSome).getD { epoch := 0 }
  s.inRun && (List.range 24).any (fun n => imgFld img 5 (256 * n + 32) 8 = 1) && ((m = 2 && !auto) || imgFld img 2 657 1 = 1) &&
    (!(m = 4 || m = 5 || m = 6) || imgFld img 2 656 1 = 1) &&
    (m ≠ 5 || !s.dp.track.isEmpty || s.dp.pend.track.isSome) && s.dp.pendingMode.isNone

/-- The transitions of Table 6.2 with their conditions. -/
def modeAllowed (s : State) (m : Nat) (auto : Bool) : Bool :=
  let old := s.dp.mode
  let engage := 2 ≤ m && m ≤ 6 && mayEngage s m auto
  match old with
  | 0 => m = 1 && !(stallOf s 0).desc.isEmpty
  | 1 => m = 0 || engage
  | 7 => m = 1 || (engage && decide (s.dp.goodCycles ≥ 5))
  | _ => m = 1 || (m ≠ old && engage)

/-- Refusal of DP_MODE_SET. -/
def checkDpModeSet (r : Req) (s : State) : Option Status :=
  let m := u8 r.payload 0
  if m ≥ 7 then some .badArg else need (modeAllowed s m (bit (u8 r.payload 1) 0)) .state
/-- Acceptance of DP_MODE_SET: the mode is pending (R180). -/
def applyDpModeSet (r : Req) (s : State) : State :=
  updDp (fun d => { d with pendingMode := some (u8 r.payload 0), pend := { d.pend with auto := some (bit (u8 r.payload 1) 0) } }) s

/-! ## SETPOINT_SET, JOYSTICK_DEMAND, TRACK_LOAD (R186 to R192) -/

/-- A ramp or window field: zero keeps, else its range (R186, R190). -/
def keepOr (v lo hi : Nat) : Bool := v = 0 || (lo ≤ v && v ≤ hi)
/-- The value of such a field. -/
def kept (v : Nat) (old : Option Nat) : Option Nat := if v = 0 then old else some v

/-- Refusal of SETPOINT_SET (R186, R190). -/
def checkSetpointSet (r : Req) (s : State) : Option Status :=
  let p := r.payload
  let m := s.dp.mode
  let far := fun (v : Int) => decide (v.natAbs > 30000 * 65536)
  firstOf [need (3 ≤ m && m ≤ 6) .state,
    need (!(bit (u8 p 0) 1 && m ≠ 3 && (far (i32 p 4) || far (i32 p 8)))) .range,
    need (keepOr (u16 p 16) 50 2000 && keepOr (u16 p 18) 20 1000 && keepOr (u16 p 20) 50 5000 && keepOr (u16 p 22) 50 2000) .range]
/-- Acceptance of SETPOINT_SET. In AUTO_HEADING only the heading is taken (R186). -/
def applySetpointSet (r : Req) (s : State) : State :=
  let p := r.payload
  let f := u8 p 0
  let all := s.dp.mode ≠ 3
  let take := fun (v : Nat) (old : Option Nat) => if all then kept v old else old
  updPend (fun d => { d with
    origin := if bit f 0 && all then some (w32 p 24, w32 p 28) else d.origin
    pos := if bit f 1 && s.dp.mode ≠ 3 then some (i32 p 4, i32 p 8) else d.pos
    hdg := if bit f 2 then some (Int.ofNat (u32 p 12)) else d.hdg
    speed := take (u16 p 16) d.speed
    rate := take (u16 p 18) d.rate
    radius := take (u16 p 20) d.radius
    window := take (u16 p 22) d.window }) s

/-- Acceptance of JOYSTICK_DEMAND (R192): the timeout restarts and its alarm clears. -/
def applyJoystick (r : Req) (s : State) : State :=
  let p := r.payload
  clearAlarm 0x1016 0xFF (updDp (fun d => { d with
    joyTimer := 0, joyLost := false
    pend := { d.pend with joy := some [i32 p 4, i32 p 8, i32 p 12], auto := some (bit (u8 p 0) 0) } }) s)

/-- A waypoint of TRACK_LOAD: north, east, leg speed, heading or offset, 1 where it follows the leg (Table 15.19). -/
def waypoint (p : List Byte) (i : Nat) : List Int :=
  let o := 4 + 12 * i
  [i32 p o, i32 p (o + 4), Int.ofNat (u16 p (o + 8)), Int.ofNat (u16 p (o + 10)), if bit (u16 p 2) i then 1 else 0]
/-- Refusal of TRACK_LOAD (R191). -/
def checkTrackLoad (r : Req) (s : State) : Option Status :=
  let p := r.payload
  firstOf [need (s.dp.mode ≠ 5) .state,
    need ((List.range (u8 p 0)).all fun i => let v := u16 p (4 + 12 * i + 8); 50 ≤ v && v ≤ 3000) .range]
/-- Acceptance of TRACK_LOAD. -/
def applyTrackLoad (r : Req) (s : State) : State :=
  updPend (fun d => { d with track := some ((List.range (u8 r.payload 0)).map (waypoint r.payload)) }) s

/-! ## THRUSTER_DEFINE (R196, R206, R207, R323) -/

/-- Power segments and forbidden sectors of a payload. -/
def nSeg (p : List Byte) : Nat := thrFld p 204 4
def nSect (p : List Byte) : Nat := thrFld p 208 4
/-- Breakpoint `i`: thrust and power (Table 6.6). -/
def breakpoint (p : List Byte) (i : Nat) : Int × Int := (i32 p (32 + 8 * i), i32 p (36 + 8 * i))
/-- Byte offset of the sectors. -/
def sectOff (p : List Byte) : Nat := 32 + 8 * (nSeg p + 1)
/-- Sector `i`: start and end (Table 6.7). -/
def sector (p : List Byte) (i : Nat) : Nat × Nat := (u16 p (sectOff p + 4 * i), u16 p (sectOff p + 4 * i + 2))
/-- Length of THRUSTER_DEFINE (R476). -/
def lenThrusterDefine (p : List Byte) : Option Status :=
  if p.length ≥ 32 && p.length = 32 + 8 * (nSeg p + 1) + 4 * nSect p then none else some .badArg

/-- Protected fields with the position in the new payload, width, old and new value (R323, R590). -/
def thrProtected (old new : List Byte) : List (Nat × Nat × Nat × Nat) :=
  let plain := [(8, 8), (16, 8), (24, 8), (112, 16), (128, 16), (160, 16), (208, 4)].map fun f =>
    (f.1, f.2, thrFld old f.1 f.2, thrFld new f.1 f.2)
  let at_ := fun (p : List Byte) i => if i < nSect p then sector p i else (0, 0)
  plain ++ (List.range (max (if old.isEmpty then 0 else nSect old) (nSect new))).flatMap fun i =>
    let o := if old.isEmpty then (0, 0) else at_ old i
    let b := 8 * (sectOff new + 4 * i)
    [(b, 16, o.1, (at_ new i).1), (b + 16, 16, o.2, (at_ new i).2)]

/-- The protected fields that change, in parts of at most 32 bits (R590). -/
def protChanges (fs : List (Nat × Nat × Nat × Nat)) : List (Nat × Nat × Nat) :=
  (fs.flatMap fun f => (split32 0 f.2.1).map fun g => (f.1 + g.1, bits f.2.2.1 g.1 g.2, bits f.2.2.2 g.1 g.2)).filter fun x => x.2.1 ≠ x.2.2

/-- Segment slopes strictly increase, thrusts too (R207). -/
def convex (b : List (Int × Int)) : Bool :=
  let pairs := b.zip (b.drop 1)
  pairs.all (fun q => decide (q.1.1 < q.2.1)) &&
    (pairs.zip (pairs.drop 1)).all fun q =>
      decide ((q.1.2.2 - q.1.1.2) * (q.2.2.1 - q.2.1.1) < (q.2.2.2 - q.2.1.2) * (q.1.2.1 - q.1.1.1))

/-- Sectors do not overlap and leave an allowed arc (R207). -/
def sectorsOk (p : List Byte) : Bool :=
  let ss := (List.range (nSect p)).map (sector p)
  let len := fun (x : Nat × Nat) => (x.2 + 65536 - x.1) % 65536
  decide ((ss.map len).sum < 65536) &&
    ss.zipIdx.all fun a => ss.zipIdx.all fun b => a.2 = b.2 || decide ((b.1.1 + 65536 - a.1.1) % 65536 ≥ len a.1)

/-- The ranges of Tables 6.5 to 6.7 and the conditions of R207. -/
def thrRangeOk (p : List Byte) : Bool :=
  let bs := (List.range (nSeg p + 1)).map (breakpoint p)
  let first := (bs.headD (0, 0)).1
  let last := (bs.getLastD (0, 0)).1
  1 ≤ u8 p 0 && u8 p 0 ≤ 24 && thrFld p 16 8 < 64 && 1 ≤ thrFld p 24 8 && thrFld p 24 8 ≤ 6 && 1 ≤ nSeg p && nSeg p ≤ 8 && nSect p ≤ 4 &&
    thrFld p 112 16 > 0 && (isTunnel p || (thrFld p 128 16 = 0 && 1 ≤ thrFld p 160 16 && thrFld p 160 16 ≤ 300)) && (!isTunnel p || nSect p = 0) &&
    bs.all (fun b => decide (b.2 ≥ 0)) && bs.contains (0, 0) && convex bs && decide (first = if isTunnel p then -(thrFld p 128 16 : Int) else 0) &&
    decide (last = thrFld p 112 16) && sectorsOk p

/-- Structural fields of a thruster definition that differ, or a new thruster (R206). -/
def thrStructural (old new : List Byte) : Bool :=
  old.isEmpty || [(8, 8), (24, 8), (16, 8), (32, 32), (64, 32), (96, 16), (204, 4), (208, 4)].any fun f =>
    thrFld old f.1 f.2 ≠ thrFld new f.1 f.2

/-- The problem that definitions imply fits R196. -/
def problemFits (thr : List (List Byte)) (power : List Byte) (n : Nat) : Bool :=
  let c := structCounts thr power
  c.1 ≤ 64 && c.2 ≤ 128 && c.1 * n ≤ 4096 && c.2 * n ≤ 8192

/-- The definition that a THRUSTER_DEFINE replaces. -/
def oldThr (r : Req) (s : State) : List Byte := if u8 r.payload 0 = 0 then [] else (cfgAhead s).thrusters.getD (u8 r.payload 0 - 1) []

/-- Protected changes of a THRUSTER_DEFINE. -/
def thrChanges (r : Req) (s : State) : List (Nat × Nat × Nat) := protChanges (thrProtected (oldThr r s) r.payload)

/-- A definition is a protected write: it changes a protected value (R323), or outside the legacy scheme it differs from the safety image in force
(R325). -/
def protectedWrite (changes : List (Nat × Nat × Nat)) (image : SafeImage → List (Nat × Nat × Nat)) (s : State) : Bool :=
  !changes.isEmpty || (!legacy s && match imageInForce s with | some i => !(image i).isEmpty | none => false)

/-- A THRUSTER_DEFINE against its protection (R323, R325). -/
def thrProtectedWrite (r : Req) (s : State) : Bool :=
  protectedWrite (thrChanges r s) (fun i => protChanges (thrProtected (i.thrusters.getD (u8 r.payload 0 - 1) []) r.payload)) s

/-- Refusal of THRUSTER_DEFINE after the protection check (R196, R206, R207). -/
def checkThrusterDefine (r : Req) (s : State) : Option Status :=
  let p := r.payload
  let c := cfgAhead s
  firstOf [need (1 ≤ thrFld p 8 8 && thrFld p 8 8 ≤ 3) .badArg, need (thrRangeOk p) .range,
    need (quietMode s || !thrStructural (oldThr r s) p) .state,
    need (problemFits (c.thrusters.set (u8 p 0 - 1) p) c.power c.horizon) .structure_]
/-- Change-log entries of an accepted class 0x10 command; of a copy with PATH 3 and the ACTIVE manager's SESSION, which its TAG carries (R329). -/
def logDp (code : Nat) (r : Req) (ch : List (Nat × Nat × Nat)) (s : State) : State :=
  if isCopy code r s then
    let t := logChanges code 3 0 ch { s with safe := { s.safe with session := r.tag } }
    { t with safe := { t.safe with session := s.safe.session } }
  else logChanges code (pathCode r.path) (pathIp r.path) ch s

/-- Acceptance of THRUSTER_DEFINE: in effect at a later DP cycle, stored and logged now (R180, R326, R553). -/
def applyThrusterDefine (r : Req) (s : State) : State :=
  logDp 0x1003 r (thrChanges r s)
    (pendCfg (fun c => { c with thrusters := c.thrusters.set (u8 r.payload 0 - 1) r.payload }) s)

/-! ## POWER_DEFINE (R196, R210, R323, R502) -/

/-- Length of POWER_DEFINE (Table 15.19). -/
def lenPowerDefine (p : List Byte) : Option Status :=
  if p.length ≥ 4 && p.length = 4 + 8 * u8 p 0 + 24 * u8 p 1 + 4 * u8 p 2 then none else some .badArg

/-- Fields of the records of one kind: for the new payload's record `i` at byte `o`, the old record's value beside it. -/
def recFields (fs : List (Nat × Nat)) (old new : List (List Byte)) (base size : Nat) : List (Nat × Nat × Nat × Nat) :=
  (List.range (max old.length new.length)).flatMap fun i => fs.map fun f =>
    (8 * (base + size * i) + f.1, f.2, bits (leNat (old.getD i [])) f.1 f.2, bits (leNat (new.getD i [])) f.1 f.2)

/-- Protected fields of POWER_DEFINE (R323): assignments, RESERVE_KW, RAMP_KW_S, the reduction fields. -/
def powProtected (old new : List Byte) : List (Nat × Nat × Nat × Nat) :=
  ([0, 1, 2].map fun i => (8 * i, 8, u8 old i, u8 new i)) ++
  recFields [(0, 8), (8, 8), (16, 8)] (powGens old) (powGens new) 4 8 ++
  recFields [(0, 8), (8, 8), (24, 8), (32, 32), (64, 32), (128, 16), (144, 8), (152, 8), (160, 32)] (powSections old) (powSections new)
    (4 + 8 * u8 new 0) 24 ++
  recFields [(0, 8), (8, 8), (16, 8), (24, 8)] (powTies old) (powTies new) (4 + 8 * u8 new 0 + 24 * u8 new 1) 4

/-- Protected changes of a POWER_DEFINE. -/
def powChanges (r : Req) (s : State) : List (Nat × Nat × Nat) := protChanges (powProtected (cfgAhead s).power r.payload)

/-- A POWER_DEFINE against its protection (R323, R325). -/
def powProtectedWrite (r : Req) (s : State) : Bool :=
  protectedWrite (powChanges r s) (fun i => protChanges (powProtected i.power r.payload)) s

/-- A section number. -/
def secNo (n : Nat) : Bool := 1 ≤ n && n ≤ 6

/-- The ranges of Table 15.20 and R210. -/
def powRangeOk (p : List Byte) : Bool :=
  u8 p 0 ≤ 16 && 1 ≤ u8 p 1 && u8 p 1 ≤ 6 && u8 p 2 ≤ 8 &&
  (powGens p).all (fun g => 1 ≤ u8 g 0 && u8 g 0 ≤ 16 && secNo (u8 g 1) && u8 g 2 < 64) &&
  (powSections p).all (fun x => secNo (u8 x 0) && u8 x 1 < 64 && u8 x 2 ≤ 1 && (u8 x 3 ≤ 7 || u8 x 3 = 0xFF) && 10 ≤ u32 x 8 && u32 x 8 ≤ 10000 &&
    3277 ≤ u16 x 16 && u16 x 16 ≤ 0x7FFF && (u8 x 18 ≤ 7 || u8 x 18 = 0xFF)) &&
  (powTies p).all (fun t => 1 ≤ u8 t 0 && u8 t 0 ≤ 8 && secNo (u8 t 1) && secNo (u8 t 2) && u8 t 3 < 64)

/-- Generator sets, ties and section assignments (R210): structural. -/
def powStructure (p : List Byte) : List (List Byte) × List (List Byte) × List (List Byte) :=
  (powGens p, (powSections p).map (·.take 2), powTies p)

/-- Refusal of POWER_DEFINE after the protection check. -/
def checkPowerDefine (r : Req) (s : State) : Option Status :=
  let c := cfgAhead s
  firstOf [need (powRangeOk r.payload) .range, need (quietMode s || powStructure c.power = powStructure r.payload) .state,
    need (problemFits c.thrusters r.payload c.horizon) .structure_]
/-- The ACTIVE manager passes a handshake's definitions to every other member again (R180, R592). -/
def passTo (h : Handshake) (s : State) : State :=
  let ds := (List.range 64).filter fun d => d ≠ s.dev && 1 ≤ (s.brd.devices.getD d {}).role && (s.brd.devices.getD d {}).role ≤ 4
  ds.foldl (fun t d => answerOnly d 0 (emit (.handshake d h) t)) s

/-- Acceptance of POWER_DEFINE: the reduction configuration goes to the members at once, which take it at the next epoch boundary
(R180, R214). -/
def applyPowerDefine (r : Req) (s : State) : State :=
  let s1 := logDp 0x1004 r (powChanges r s) (pendCfg (fun c => { c with power := r.payload }) s)
  if s1.isActive then passTo { ownHandshake s1 with power := r.payload } s1 else s1

/-- A section record with the reduction fields of another (R214). -/
def withFlr (old new : List Byte) : List Byte := old.take 3 ++ (new.drop 3).take 1 ++ (old.drop 4).take 12 ++ new.drop 16

/-- A payload with the reduction fields of `new` in its sections (R180). -/
def mergeFlr (old new : List Byte) : List Byte :=
  if old.isEmpty then old
  else old.take (4 + 8 * u8 old 0) ++ (powSections old).flatMap (fun x =>
      match powSection new (u8 x 0) with | some y => withFlr x y | none => x) ++
    old.drop (4 + 8 * u8 old 0 + 24 * u8 old 1)

/-- K_GATED written where the section's factor here has changed (R286). -/
def regate (s0 s : State) : State :=
  updateGates ((List.range 128).foldl (fun t n =>
    let g := (t.cfg.loopOf n).gate
    if ctxDefined t n && g ≠ 0 && flrFactor s0 g ≠ flrFactor t g then writeGated n t else t) s)

/-- At an epoch boundary an accepted reduction configuration takes effect; a worker takes all of the plant passed to it (R180, R214). -/
def takeFlr (s : State) : State :=
  match s.cfgNext with
  | none => s
  | some c =>
    let worker := s.mem.role = .worker
    let p := if worker then c.power else mergeFlr s.cfg.power c.power
    let s0 := if worker then { s with cfgNext := none } else s
    if p = s.cfg.power then s0 else flrPairs (regate s { s0 with cfg := { s.cfg with power := p } })

/-! ## CONSEQ_CONFIG, DP_WEIGHTS, FALLBACK_LOAD (R205, R217, R226, R503) -/

/-- Record `i` of CONSEQ_CONFIG. -/
def conseqRec (p : List Byte) (i : Nat) : List Byte := (p.drop (4 + 16 * i)).take 16
/-- The ranges of a scenario record (R217). -/
def conseqRecOk (x : List Byte) : Bool :=
  8 ≤ u8 x 1 && u8 x 1 ≤ 48 && 50 ≤ u16 x 2 && u16 x 2 ≤ 5000 && 50 ≤ u16 x 4 && u16 x 4 ≤ 2000 && u8 x 6 < 64
/-- Refusal of CONSEQ_CONFIG. -/
def checkConseqConfig (r : Req) (s : State) : Option Status :=
  let p := r.payload
  let xs := (List.range (u8 p 2)).map (conseqRec p)
  firstOf [need (u8 p 0 ≤ s.variant.scens && u8 p 1 + u8 p 2 ≤ u8 p 0 && xs.all conseqRecOk) .range,
    need ((List.range (u8 p 2)).all fun i => u8 (conseqRec p i) 0 = u8 p 1 + i) .badArg]
/-- The scenarios that a CONSEQ_CONFIG payload leaves defined (R217). -/
def conseqCfg (p : List Byte) (c : Cfg) : Cfg :=
  let kept := c.scens.zipIdx.map fun x =>
    if u8 p 0 ≤ x.2 then [] else if u8 p 1 ≤ x.2 && x.2 < u8 p 1 + u8 p 2 then conseqRec p (x.2 - u8 p 1) else x.1
  { c with nScen := u8 p 0, scens := kept }
/-- Acceptance of CONSEQ_CONFIG: scenarios numbered N_SCEN and above are removed, their running solves abandoned (R266). -/
def applyConseqConfig (r : Req) (s : State) : State :=
  let p := r.payload
  let s1 := (List.range 16).foldl (fun t n => if u8 p 0 ≤ n then abandonSolve (firstScen t + n) t else t) s
  dispatch 4 (pendCfg (conseqCfg p) s1)

/-- The weight fields of DP_WEIGHTS with their ranges in units of 0.001: byte, least, greatest (Tables 6.4, 15.21). -/
def weightRanges : List (Nat × Nat × Nat) :=
  [(8, 0, 10000000), (12, 0, 1000000000), (16, 0, 10000000), (20, 0, 1000000000), (24, 0, 1000000), (28, 10, 1000000), (32, 0, 1000000),
    (36, 0, 10000000), (40, 1000, 100000)]
/-- The weight set of a payload. -/
def weightsOf (p : List Byte) : Weights :=
  { pos := u32 p 8, hdg := u32 p 12, vel := u32 p 16, yaw := u32 p 20, thrust := u32 p 24, power := u32 p 28, smooth := u32 p 32,
    force := u32 p 36, term := u32 p 40 }
/-- Refusal of DP_WEIGHTS (R196, R205, R503). -/
def checkDpWeights (r : Req) (s : State) : Option Status :=
  let p := r.payload
  let c := cfgAhead s
  let hz := bit (u8 p 1) 0
  let n := u8 p 2
  firstOf [need (u16 p 44 = 0 || (100 ≤ u16 p 44 && u16 p 44 ≤ 2000)) .range,
    need (!(bit (u8 p 1) 1) || (2 ≤ u8 p 0 && u8 p 0 ≤ 7 && weightRanges.all fun w => w.2.1 ≤ u32 p w.1 && u32 p w.1 ≤ w.2.2)) .range,
    need (!hz || (8 ≤ n && n ≤ s.variant.stages && 250 ≤ u16 p 4 && u16 p 4 ≤ 4000 && 5 ≤ u8 p 6 && u8 p 6 ≤ 45)) .range,
    need (!hz || quietMode s || (n = c.horizon && u16 p 4 = c.stageMs)) .state,
    need (!hz || problemFits c.thrusters c.power n) .structure_]
/-- What a DP_WEIGHTS payload sets (R205, R503). -/
def weightsCfg (p : List Byte) (c : Cfg) : Cfg :=
  let c1 := if bit (u8 p 1) 0 then { c with horizon := u8 p 2, stageMs := u16 p 4, trust := u8 p 6 } else c
  let c2 := if bit (u8 p 1) 1 then { c1 with weights := c1.weights.set (u8 p 0 - 2) (weightsOf p) } else c1
  if u16 p 44 = 0 then c2 else { c2 with joyTimeout := u16 p 44 }
/-- Acceptance of DP_WEIGHTS. -/
def applyDpWeights (r : Req) (s : State) : State := pendCfg (weightsCfg r.payload) s

/-- Length of FALLBACK_LOAD. -/
def lenFallbackLoad (p : List Byte) : Option Status := if p.length ≥ 44 && (p.length - 44) % 12 = 0 then none else some .badArg
/-- Refusal of FALLBACK_LOAD (R226): engaged, or a seventeenth matrix. -/
def checkFallbackLoad (r : Req) (s : State) : Option Status :=
  let p := r.payload
  let m := (cfgAhead s).fbMatrices
  firstOf [need (!engaged s.dp.mode) .state,
    need (!(bit (u8 p 0) 1) || (look m (w32 p 4)).isSome || m.length < 16) .full]
/-- What a FALLBACK_LOAD payload stores (R226). -/
def fallbackCfg (p : List Byte) (c : Cfg) : Cfg :=
  let rows := (List.range ((p.length - 44) / 4)).map fun i => i32 p (44 + 4 * i)
  let c1 := if bit (u8 p 0) 0 then { c with fbGains := (List.range 9).map fun i => i32 p (8 + 4 * i) } else c
  if bit (u8 p 0) 1 then
    { c1 with fbMatrices := if (look c1.fbMatrices (w32 p 4)).isSome
        then c1.fbMatrices.map (fun e => if e.1 = w32 p 4 then (e.1, rows) else e) else c1.fbMatrices ++ [(w32 p 4, rows)] }
  else c1
/-- Acceptance of FALLBACK_LOAD. -/
def applyFallbackLoad (r : Req) (s : State) : State := pendCfg (fallbackCfg r.payload) s

/-! ## Acceptance, copies and the commands (R180, R329) -/

/-- What an accepted class 0x10 command does. -/
def applyDp (code : Nat) (r : Req) (s : State) : State :=
  match code with
  | 0x1001 => applyDpModeSet r s
  | 0x1002 => applySetpointSet r s
  | 0x1003 => applyThrusterDefine r s
  | 0x1004 => applyPowerDefine r s
  | 0x1005 => applyConseqConfig r s
  | 0x1006 => applyDpWeights r s
  | 0x1007 => applyFallbackLoad r s
  | 0x1009 => applyJoystick r s
  | _ => applyTrackLoad r s

/-- The answer's payload: the DP cycle of effect where the command has one (Table 15.19). -/
def dpAnswer (code : Nat) (s : State) : List Byte :=
  if code = 0x1007 || code = 0x1009 || code = 0x100A then [] else leBytes 4 (effectCycle s).toNat

/-- A copy accepted at a STANDBY manager. -/
def takeCopy (code : Nat) (r : Req) (s : State) : State := noteCopy code s (applyDp code r s)

/-- A class 0x10 command with its checks passed: applied, or copied to the STANDBY managers first (R329). -/
def acceptDp (code : Nat) (r : Req) (s : State) : Ans :=
  if isCopy code r s then okay (awaitOthers code r 0 (takeCopy code r) s)
  else if s.hif.copyJob.isSome then no .busy s
  else if (standbys s).isEmpty then give (dpAnswer code s) (applyDp code r s) else startJob code r 0 s

/-- A class 0x10 command with its refusal. -/
def dpCommand (code : Nat) (check : Req → State → Option Status) (r : Req) (s : State) : Ans :=
  match check r s with
  | some st => no st s
  | none => acceptDp code r s

/-- A class 0x10 command with protected fields: the protection check comes first (R323, R324). -/
def dpProtected (code : Nat) (guard : Req → State → Bool) (check : Req → State → Option Status) (r : Req) (s : State) : Ans :=
  if !guard r s then dpCommand code check r s
  else match protection s with
  | some st =>
    if isCopy code r s then (if st = .locked && legacy s then dpCommand code check r s else no st s) else refuseWrite code r st s
  | none =>
    match check r s with
    | some st => if isCopy code r s then no st s else refuseWrite code r st s
    | none => acceptDp code r s

/-- DP_MODE_SET (R182). -/
def execDpModeSet (r : Req) (s : State) : Res := mbx 0x1001 (exactly 2) (dpCommand 0x1001 checkDpModeSet) r s
/-- SETPOINT_SET (R186). -/
def execSetpointSet (r : Req) (s : State) : Res := mbx 0x1002 (exactly 32) (dpCommand 0x1002 checkSetpointSet) r s
/-- THRUSTER_DEFINE (R206). -/
def execThrusterDefine (r : Req) (s : State) : Res :=
  mbx 0x1003 lenThrusterDefine (dpProtected 0x1003 thrProtectedWrite checkThrusterDefine) r s
/-- POWER_DEFINE (R210). -/
def execPowerDefine (r : Req) (s : State) : Res := mbx 0x1004 lenPowerDefine (dpProtected 0x1004 powProtectedWrite checkPowerDefine) r s
/-- CONSEQ_CONFIG (R217). -/
def execConseqConfig (r : Req) (s : State) : Res := mbx 0x1005 (counted 4 16 2 1 14) (dpCommand 0x1005 checkConseqConfig) r s
/-- DP_WEIGHTS (R503). -/
def execDpWeights (r : Req) (s : State) : Res := mbx 0x1006 (exactly 48) (dpCommand 0x1006 checkDpWeights) r s
/-- FALLBACK_LOAD (R226). -/
def execFallbackLoad (r : Req) (s : State) : Res := mbx 0x1007 lenFallbackLoad (dpCommand 0x1007 checkFallbackLoad) r s
/-- JOYSTICK_DEMAND (R192). -/
def execJoystickDemand (r : Req) (s : State) : Res := mbx 0x1009 (exactly 16) (dpCommand 0x1009 fun _ _ => none) r s
/-- TRACK_LOAD (R191). -/
def execTrackLoad (r : Req) (s : State) : Res := mbx 0x100A (counted 4 12 0 1 16) (dpCommand 0x100A checkTrackLoad) r s

/-- DP_STATUS (R501). -/
def bodyDpStatus (_ : Req) (s : State) : Ans :=
  let d := s.dp
  give (leBytes 24 (pack [(8, d.mode), (8, d.pendingMode.getD 0xFF), (8, d.flags.toNat), (8, bits (s.brd.plan.getD 0) 48 8), (32, s.cyc.dpCycle.toNat),
    (8, d.shiftRun), (8, (s.cfg.thrusters.filter (!·.isEmpty)).length), (8, s.cfg.nScen), (8, s.cfg.fbMatrices.length), (24, d.unavail.toNat), (8, 0),
    (16, s.cfg.joyTimeout)])) s
def execDpStatus (r : Req) (s : State) : Res := mbx 0x1008 (exactly 0) bodyDpStatus r s

/-- The copy job ends with a status and nothing applied (R239, R329), logged as a refused attempt of a protected write (R327): event 0x0402 or 0x040E of a structure load. -/
def refuseCopy (j : Job) (mgr : Nat) (st : Status) (s : State) : State :=
  let guarded := (j.code = 0x1003 && thrProtectedWrite j.req s) || (j.code = 0x1004 && powProtectedWrite j.req s)
  let s := if guarded then logEntry j.code 0xFFF4 0 0 (pathCode j.req.path) (pathIp j.req.path) s else s
  finishJob j st (if j.code = 0x0401 then refusedLoad 0 mgr else []) { s with hif := { s.hif with copyJob := none } }

/-- The job ends at a STANDBY manager: a copy that every manager has confirmed is accepted, with one signature; else it is discarded. -/
def concludeOwn (j : Job) (s : State) : State :=
  let s1 := { s with hif := { s.hif with copyJob := none } }
  if j.differs.isSome || !j.wait.isEmpty then s1
  else if j.code = 0x0401 then makePending (u8 j.req.payload 0) j.req.payload j.sig s1 else takeCopy j.code j.req s1

/-- The answer once no confirmation is awaited any longer (R239, R329): STRUCTURE with event 0x040E where a manager computed another signature. -/
def concludeCopy (j : Job) (s : State) : State :=
  let s1 := { s with hif := { s.hif with copyJob := none } }
  if j.copy then concludeOwn j s
  else match j.differs with
  | some d => refuseCopy j d.1 .structure_ (event 0x040E 4 [u8 j.req.payload 0, j.sig.toNat, d.2.toNat, d.1] s1)
  | none =>
  if j.code = 0x0401 then finishJob j .ok (leBytes 8 j.sig.toNat) (makePending (u8 j.req.payload 0) j.req.payload j.sig s1)
  else finishJob j .ok (dpAnswer j.code s1) (applyDp j.code j.req s1)

/-- The signature of a structure loaded here, as a copy of it carries it. -/
def isLoadedSig (sig : Word) (s : State) : Bool :=
  (List.range (firstScen s)).any fun n => !(stallOf s n).desc.isEmpty && (if n = 0 then (stallOf s n).mainSig else (stallOf s n).sig) = sig

/-- A joined manager confirmed one structure copy (R351). -/
def countCopy (mgr : Nat) (sig : Word) (s : State) : State :=
  if !isLoadedSig sig s then s
  else { s with mem := { s.mem with uncounted := s.mem.uncounted.map fun x => if x.1 = mgr then (x.1, x.2 - 1) else x } }

/-- A joining manager is not admitted (R29, R329): answered ROLE, with event 0x0C15. -/
def refuseJoin (d variant version reason : Nat) (s : State) : State :=
  event 0x0C15 3 [d, variant, version, reason]
    (sendAnswer d 7 { s with
      mem := { s.mem with admitted := s.mem.admitted.filter (· ≠ d), pendingJoin := s.mem.pendingJoin.filter (·.1 ≠ d) }
      brd := { s.brd with devices := upd s.brd.devices d fun x => if x.role = 5 then { x with role := 0 } else x } })

/-- A joining manager refuses the definitions of its handshake (R329). -/
def refuseDefinitions (mgr : Nat) (s : State) : State :=
  match s.mem.heard.getD mgr none with
  | some m => if s.isActive && s.mem.admitted.contains mgr then refuseJoin mgr m.variant m.fwver.toNat 2 s else s
  | none => s

/-- COPY_CONFIRM (R239, R329, R351): a confirmation with signature, or a refusal, of one STANDBY manager. A refusal ends the job at once, since it
goes before every other answer; another signature waits for the rest. A STANDBY manager that takes part hears the others likewise (row 64). -/
def execCopyConfirm (mgr : Fin 3) (status : Nat) (signature : Word) (s : State) : Res :=
  match s.hif.copyJob with
  | none => .next (if status = 0 then countCopy mgr signature s else refuseDefinitions mgr s)
  | some j =>
    let stray := status = 0 && j.code = 0x0401 && signature ≠ j.sig && isLoadedSig signature s && s.mem.uncounted.any (·.1 = mgr.val)
    if !j.wait.contains mgr.val || stray then .next (if status = 0 then countCopy mgr signature s else refuseDefinitions mgr s)
    else if status ≠ 0 && j.copy then .next (concludeOwn j s)
    else if status ≠ 0 then
      let st := Status.ofCode status
      .next (refuseCopy j mgr st (if j.code = 0x0401 then event 0x0402 2 [u8 j.req.payload 0, st.code, 0, mgr] s else s))
    else
      let other := j.code = 0x0401 && signature ≠ j.sig && j.differs.isNone
      let j1 := { j with wait := j.wait.filter (· ≠ mgr.val), differs := if other then some (mgr.val, signature) else j.differs }
      if j1.wait.isEmpty then .next (concludeCopy j1 s) else .next { s with hif := { s.hif with copyJob := some j1 } }

/-- COPY_CONFIRM_TIMEOUT (R239, R329): a signature that differed goes before TIMEOUT; a STANDBY manager discards the copy. -/
def execCopyConfirmTimeout (s : State) : Res :=
  match s.hif.copyJob with
  | none => .next s
  | some j => .next (if j.copy then concludeOwn j s else if j.differs.isSome then concludeCopy j s else refuseCopy j (j.wait.headD 0) .timeout s)

/-! ## Joystick timeout (R192) -/

/-- JOY_TIMEOUT: the demand is zero, alarm, flag and event 0x1016. -/
def execJoyTimeout (s : State) : Res :=
  if s.dp.mode ≠ 2 || s.dp.joyLost || !s.isMgrRole then .next s
  else .next (event 0x1016 2 [s.dp.joyTimer] (raiseAlarm 0x1016 0xFF 2 s.dp.joyTimer
    (updDp (fun d => { d with joy := [0, 0, 0], joyLost := true, flags := d.flags ||| 8, pend := { d.pend with joy := none } }) s)))

end Sys2Proof.Machine
end

