-- ==== Sys2Proof/Machine/Observer.lean ====
section
/-! DEFINITION. The vessel model and the observer's Kalman filter: fifteen states, propagation on model and thrust, scalar measurements (R166 to
R168, Table 15.6; row 5). -/

namespace Sys2Proof.Machine

/-! ## The vessel model (Table 15.6) -/

/-- A field of OBSERVER_CONFIG as a number. -/
def obsFld (o : BitVec 384) (lo w : Nat) : Rat := (fld o lo w : Nat)
/-- Mass with added mass in surge and sway, t; yaw inertia with added inertia, t·m². -/
def massX (o : BitVec 384) : Rat := obsFld o 128 32 + obsFld o 160 32
def massY (o : BitVec 384) : Rat := obsFld o 128 32 + obsFld o 192 32
def inertiaZ (o : BitVec 384) : Rat := 1000 * (obsFld o 224 32 + obsFld o 256 32)
/-- Linear damping in surge and sway, kN·s/m, and yaw, kN·m·s. -/
def dampX (o : BitVec 384) : Rat := obsFld o 288 32
def dampY (o : BitVec 384) : Rat := obsFld o 320 32
def dampZ (o : BitVec 384) : Rat := 1000 * obsFld o 352 32

/-- Force in vessel axes and moment of one thruster: a tunnel along its AXIS, an azimuth along its angle (R198); thrust in kN, angle in radians. -/
def thrusterForce (p : List Byte) (thrust angle : Rat) : Vec :=
  let a := if thrFld p 8 8 = 1 then 2 * piQ * (thrFld p 96 16 : Nat) / 65536 else angle
  let x : Rat := sext 32 (thrFld p 32 32) / 65536
  let y : Rat := sext 32 (thrFld p 64 32) / 65536
  let fx := thrust * cosQ a
  let fy := thrust * sinQ a
  [fx, fy, x * fy - y * fx]

/-- A 32-bit angle of 2^−32 turn in radians. -/
def turnRad (v : Int) : Rat := 2 * piQ * v / ((2 ^ 32 : Nat) : Rat)
/-- An angle in radians in units of 2^−32 turn, reduced into one turn. -/
def radTurn (site : Nat) (r : Rat) : Int := Int.ofNat (intBits 32 (toUnits site 32 (r / (2 * piQ))))

/-- Thrust and moment from the feedback of the THRUSTERS section (R166). -/
def feedbackForce (s : State) : Vec :=
  (List.range 24).foldl (fun a n =>
    let p := s.cfg.thrusters.getD n []
    let r := s.brd.thr.getD n {}
    if p.isEmpty || r.number = 0 then a
    else vAdd a (thrusterForce p (sext 32 r.fbThrust.toNat / 256) (turnRad r.fbAngle.toNat))) [0, 0, 0]

/-! ## The fifteen states

0 to 2 low-frequency north, east (m), heading (rad); 3 to 5 surge, sway (m/s), yaw rate (rad/s); 6 to 11 a wave component and its rate for north,
east, heading; 12 to 14 north and east force (kN) and yaw moment (kN·m) of the bias. -/

/-- Before the first epoch of fusion the states are 0. -/
def Kal.vec (k : Kal) : Vec := if k.x.isEmpty then List.replicate 15 0 else k.x
/-- Their covariance. -/
def Kal.cov (k : Kal) : Mat := if k.p.isEmpty then Config.firstCov else k.p
/-- Component of the state. -/
def Kal.at (k : Kal) (i : Nat) : Rat := vAt k.vec i

/-- The continuous model at a prior heading: A of 15 × 15 (R166). -/
def observerA (o : BitVec 384) (psi : Rat) : Mat :=
  let w := 2 * piQ * 10 / obsFld o 0 16
  let z := obsFld o 16 16 / 100
  let tc := obsFld o 64 16
  let (c, s) := (cosQ psi, sinQ psi)
  let wave := fun (i j : Nat) => if i % 2 = 0 then (if j = i + 1 then 1 else 0) else if j + 1 = i then -(w * w) else if j = i then -(2 * z * w) else 0
  mkMat 15 15 fun i j =>
    match i, j with
    | 0, 3 => c | 0, 4 => -s | 1, 3 => s | 1, 4 => c | 2, 5 => 1
    | 3, 3 => -(dampX o / massX o) | 3, 12 => c / massX o | 3, 13 => s / massX o
    | 4, 4 => -(dampY o / massY o) | 4, 12 => -s / massY o | 4, 13 => c / massY o
    | 5, 5 => -(dampZ o / inertiaZ o) | 5, 14 => 1 / inertiaZ o
    | 12, 12 => -(1 / tc) | 13, 13 => -(1 / tc) | 14, 14 => -(1 / tc)
    | _, _ => if 6 ≤ i && i ≤ 11 then wave i j else 0

/-- The input matrix: thrust and moment in vessel axes. -/
def observerB (o : BitVec 384) : Mat :=
  mkMat 15 3 fun i j => match i, j with | 3, 0 => 1 / massX o | 4, 1 => 1 / massY o | 5, 2 => 1 / inertiaZ o | _, _ => 0

/-- Places of the wave and bias states. -/
def waveIx : List Nat := [6, 7, 8, 9, 10, 11]
def biasIx : List Nat := [12, 13, 14]

/-- States held in fixed point, the wave states at 0 with WAVE_ON 0, the bias of `old` kept while it is frozen (Table 5.6, R168). -/
def settleKal (o : BitVec 384) (frozen : Bool) (old : Kal) (x : Vec) (p : Mat) : Kal :=
  let off := fld o 32 8 = 0
  { x := (x.zipIdx.map fun v =>
      if off && waveIx.contains v.2 then 0 else if frozen && biasIx.contains v.2 then old.at v.2 else fixed v.2 v.1)
    p := (if off then mClear waveIx p else p).map fun r => r.map (fixed 15) }

/-- Propagation over a step on model and thrust (R166). -/
def predict (o : BitVec 384) (dt : Rat) (tau : Vec) (k : Kal) : Kal :=
  let d := Config.discrete 0 dt (observerA o (k.at 2)) (observerB o)
  settleKal o false k (vAdd (mVec d.1 k.vec) (mVec d.2 tau)) (mAdd (mMul (mMul d.1 k.cov) (mT d.1)) (Config.processNoise dt))

/-- The bias states. -/
def Kal.bias (k : Kal) : Vec := biasIx.map k.at
/-- A propagated estimate whose bias stayed frozen (R168). -/
def freezeBias (b : Vec) (k : Kal) : Kal := { k with x := k.vec.zipIdx.map fun v => if biasIx.contains v.2 then vAt b (v.2 - 12) else v.1 }

/-- What a measurement of axis `a` (0 north, 1 east, 2 heading) sees: the low-frequency state and its wave component. -/
def measRow (a : Nat) : Vec := (List.range 15).map fun i => if i = a || i = 6 + 2 * a then 1 else 0

/-- One scalar measurement of axis `a` with its variance (R166, R167); a heading innovation is reduced into half a turn either way. -/
def measure (o : BitVec 384) (frozen : Bool) (a : Nat) (z r : Rat) (k : Kal) : Kal :=
  let h := measRow a
  let hp := mVec k.cov h
  let v := dot h hp + r
  let y := z - dot h k.vec
  let y := if a = 2 then wrapRad y else y
  settleKal o frozen k (vAdd k.vec (vScale (y / v) hp)) (k.cov.zipIdx.map fun row => vAdd row.1 (vScale (-(vAt hp row.2) / v) hp))

/-- An axis of the state set to a measurement, the wave component of its group at 0 (R169). -/
def setAxis (a : Nat) (z : Rat) (k : Kal) : Kal :=
  { k with x := ((k.vec.set a (fixed a z)).set (6 + 2 * a) 0).set (7 + 2 * a) 0 }

/-- Variance of north, and of east, and of heading; σ_est of the position is their root-sum-square, as SIGMA_POS (Table 5.10). -/
def posVar (k : Kal) : Rat := mAt k.cov 0 0 + mAt k.cov 1 1
def hdgVar (k : Kal) : Rat := mAt k.cov 2 2

/-- The observer's part of STATE: POS_N to SIGMA_HDG (Table 5.10). -/
def published (k : Kal) : List Int :=
  let u := fun (i f : Nat) => sat32 (toUnits i f (k.at i))
  [u 0 16, u 1 16, radTurn 2 (k.at 2), u 3 16, u 4 16, u 5 28, u 6 16, u 8 16, u 10 28, u 12 8, u 13 8, u 14 8,
    sat32 (toUnits 16 16 (sqrtQ (posVar k))), sat32 (toUnits 17 28 (sqrtQ (hdgVar k)))]

end Sys2Proof.Machine
end

