-- ==== Sys2Proof/Machine/Fusion.lean ====
section
/-! DEFINITION. Sensor fusion: stream, transform, preference and observer configuration, the fusion of one committed epoch with
its masks, confidences, comparisons, dead reckoning and late samples (chapter 5, class 0x03). -/

namespace Sys2Proof.Machine

/-! ## Commands (R141, R142, R147, R163, R166, R483 to R485) -/

/-- Fusion state changed. -/
def updFus (f : Fus → Fus) (s : State) : State := { s with fus := f s.fus }
/-- Run-time state of stream `n`. -/
def rtOf (s : State) (n : Nat) : StreamRt := s.fus.streams.getD n {}
/-- Run-time state of stream `n` changed. -/
def updRt (n : Nat) (f : StreamRt → StreamRt) (s : State) : State := updFus (fun x => { x with streams := upd x.streams n f }) s

/-- A field of a stream descriptor. -/
def descFld (p : List Byte) (lo w : Nat) : Nat := bits (ule p 0 32) lo w

/-- Argument bytes of a parser (Table 15.5). -/
def parserArgs (parser : Nat) : Option Nat :=
  if parser = 1 then some 36 else if 2 ≤ parser && parser ≤ 7 then some 4 else if parser = 16 || parser = 17 then some 40 else none

/-- Length of STREAM_DEFINE; a parser that Table 15.5 does not list is BAD_ARG in any case. -/
def lenStreamDefine (p : List Byte) : Option Status :=
  match parserArgs (descFld p 40 8) with
  | some n => if p.length = 32 + n then none else some .badArg
  | none => some .badArg

/-- SOURCE_TYPE and KIND that a parser accepts (Table 15.5). -/
def parserTakes (parser ty kind : Nat) : Bool :=
  match parser with
  | 1 => ty = 0 && 2 ≤ kind && kind ≤ 10
  | 2 | 3 => (ty = 4 || ty = 5) && (kind = 1 || kind = 5)
  | 4 | 5 => (ty = 4 || ty = 5) && kind = 6
  | 6 => (ty = 4 || ty = 5) && kind = 8
  | 7 => (ty = 4 || ty = 5) && kind = 9
  | 16 => ty = 3
  | 17 => ty = 1 || ty = 2
  | _ => false

/-- The ranges of Table 5.2. -/
def streamRangeOk (p : List Byte) : Bool :=
  let f := descFld p
  let zeroOr := fun v lo hi => v = 0 || (lo ≤ v && v ≤ hi)
  f 0 8 ≤ 47 && 1 ≤ f 8 8 && f 8 8 ≤ 10 && f 48 8 ≤ 63 && f 56 2 ≤ 1 && f 96 32 ≤ 2000000 && 1 ≤ f 128 32 && f 128 32 < 2 ^ 31 &&
    0x0100 ≤ f 160 16 && f 160 16 ≤ 0x1000 && zeroOr (f 176 16) 10 10000 && 1 ≤ f 192 8 && 2 ≤ f 200 8 && f 200 8 ≤ 15 &&
    zeroOr (f 208 16) 100 60000 &&
    (if f 24 8 = 0 then f 32 8 ≤ 15 else if f 24 8 = 3 || f 24 8 = 4 then f 32 8 ≤ 7 else f 24 8 ≤ 5)

/-- The descriptor bits that may change while EN = 1: SIGMA, SIGMA_SRC, GATE, AGE_LIMIT, RECOVER_EPOCHS, VAR_RATIO, FROZEN_MS,
DRIFT_CM, EN (R142); the rest and the arguments as one number. -/
def fixedPart (p : List Byte) : Nat × List Byte :=
  (bits (ule p 0 32) 0 59 + bits (ule p 0 32) 96 32 * 2 ^ 59, p.drop 32)

/-- The FILTER parser's V1 channel shall equal SOURCE_INDEX (Table 15.5). -/
def filterArgsOk (p : List Byte) : Bool := descFld p 40 8 ≠ 1 || u8 p 32 = descFld p 32 8

/-- The presence bit of a descriptor's source, LAN1 or CAN4 to CAN7, is 0 in a unit-presence word (Table 0.2, R5); every variant has the others. -/
def lacksSource (units : Word) (p : List Byte) : Bool :=
  (descFld p 24 8 = 2 && !units.getLsbD 9) || (descFld p 24 8 = 3 && descFld p 32 8 ≥ 4 && !units.getLsbD 11)

/-- The unit-presence word of a device: the own one, that of its latest MEMBER frame, or that of the variant which the installation table expects
(R2, R3, Table 12.5). -/
def unitsOf (s : State) (d : Nat) : Word :=
  if d = s.dev then s.variant.units
  else match s.mem.heard.getD d none with
    | some m => m.units
    | none =>
      let v := ((s.cfg.table.find? fun e => e.1 = d).map (·.2.2)).getD 1
      if v = 2 then Variant.units .MB else if v = 3 then Variant.units .WK else Variant.units .MA

/-- The source of a descriptor is a unit that SOURCE_DEV lacks (R5). -/
def sourceAbsent (s : State) (p : List Byte) : Bool := lacksSource (unitsOf s (descFld p 16 8)) p

/-- Refusal of STREAM_DEFINE. -/
def checkStreamDefine (r : Req) (s : State) : Option Status :=
  let p := r.payload
  let old := s.cfg.streams.getD (u8 p 0) []
  if !streamRangeOk p then some .range
  else if !parserTakes (descFld p 40 8) (descFld p 24 8) (descFld p 8 8) || !filterArgsOk p then some .badArg
  else if !(s.cfg.table.any fun e => e.1 = descFld p 16 8) then some .badArg
  else if sourceAbsent s p then some .absent
  else if !old.isEmpty && descFld old 60 1 = 1 && fixedPart old ≠ fixedPart p then some .state
  else none

/-- The fusion configuration as accepted so far. -/
def fusAhead (s : State) : FusCfg := { streams := s.cfg.streams, transforms := s.cfg.transforms, observer := s.cfg.observer }
/-- What a fusion change finds is noted, since it takes effect only in an epoch that closes after its acceptance (R139). -/
def noteFusion (s : State) : State :=
  updFus (fun x => { x with
    before := { time := s.time.ns, cfg := fusAhead s, prefer := x.prefer, pending := x.cfgPending, renew := x.streams.map (·.renew) } :: x.before }) s
/-- A fusion configuration change accepted: stored, in force at the next close (R139). -/
def fusionCfg (f : Cfg → Cfg) (s : State) : State := updFus (fun x => { x with cfgPending := true }) (setCfg f (noteFusion s))

/-- A stream definition accepted; at an enable REJECTED is cleared, and fusion will start the stream afresh (R143, R177). -/
def defineStream (p : List Byte) (s : State) : State :=
  let turnsOn := descFld p 60 1 = 1 && !strOn s (u8 p 0)
  updRt (u8 p 0) (fun x => if turnsOn then { x with rejected := 0, renew := true } else x) (fusionCfg (fun c => { c with streams := c.streams.set (u8 p 0) p }) s)

/-- An answer waits for the parsing device (R483). -/
def askSource (code : Nat) (r : Req) (dev : Nat) (s : State) : Ans :=
  let t := sendLong 6 dev s.epochHeld (relayBytes code r) false s
  .later { t with hif := { t.hif with srcJob := some { code := code, req := r, wait := [dev] } } }

/-- STREAM_DEFINE (R139, R141, R142, R483): the parser arguments go to SOURCE_DEV first; SOURCE_DEV and the other managers take what the
ACTIVE manager passes. -/
def bodyStreamDefine (r : Req) (s : State) : Ans :=
  if isCopy 0x0301 r s then
    (if descFld r.payload 16 8 = s.dev && lacksSource s.variant.units r.payload then no .absent s else okay (defineStream r.payload s))
  else match checkStreamDefine r s with
  | some st => no st s
  | none =>
    if s.hif.srcJob.isSome then no .busy s
    else if descFld r.payload 16 8 = s.dev then okay (shareCfg 0x0301 r [0, 1, 2] (defineStream r.payload s))
    else askSource 0x0301 r (descFld r.payload 16 8) s
def execStreamDefine (r : Req) (s : State) : Res := mbx 0x0301 lenStreamDefine bodyStreamDefine r s

/-- STREAM_READ (R483). -/
def bodyStreamRead (r : Req) (s : State) : Ans :=
  let n := u8 r.payload 0
  if n > 47 then no .range s
  else if !strDefined s n then no .state s else give (s.cfg.streams.getD n []) s
def execStreamRead (r : Req) (s : State) : Res := mbx 0x0302 (exactly 1) bodyStreamRead r s

/-- Entry `i` of TRANSFORM_LOAD. -/
def transformAt (p : List Byte) (i : Nat) : BitVec 384 := BitVec.ofNat 384 (ule p (8 + 48 * i) 48)
/-- ROT row `r`, column `c`, Q2.30 (Table 5.4). -/
def rotAt (t : BitVec 384) (r c : Nat) : Int := sfld t (96 + 96 * r + 32 * c) 32
/-- Every element of ROTᵀ·ROT − I is at most 2^−20 in magnitude (R147). -/
def rotationOk (t : BitVec 384) : Bool :=
  [0, 1, 2].all fun i => [0, 1, 2].all fun j =>
    let v := ([0, 1, 2].map fun k => rotAt t k i * rotAt t k j).sum - (if i = j then (2 ^ 60 : Int) else 0)
    decide (v.natAbs ≤ 2 ^ 40)

/-- TRANSFORM_LOAD (R147): every entry is checked before any is stored. -/
def bodyTransformLoad (r : Req) (s : State) : Ans :=
  let p := r.payload
  let n := u8 p 1
  let f := u8 p 0
  if f + n > 64 || !((List.range n).all fun i => rotationOk (transformAt p i)) then no .range s
  else okay (shareCfg 0x0303 r [0, 1, 2] (fusionCfg (fun c => { c with
    transforms := c.transforms.zipIdx.map fun x => if f ≤ x.2 && x.2 < f + n then transformAt p (x.2 - f) else x.1 }) s))
def execTransformLoad (r : Req) (s : State) : Res := mbx 0x0303 (counted 8 48 1 1 4) bodyTransformLoad r s

/-- REF_PREFER (R163, R164). -/
def bodyRefPrefer (r : Req) (s : State) : Ans :=
  let n := u8 r.payload 0
  if !(s.fus.streams.any (·.held)) then no .state s
  else if !(rtOf s n).held then no .badArg s
  else okay (shareCfg 0x0304 r [0, 1, 2] (updFus (fun x => { x with prefer := some n }) (noteFusion s)))
def execRefPrefer (r : Req) (s : State) : Res := mbx 0x0304 (exactly 1) bodyRefPrefer r s

/-- The ranges of Table 15.6 (R485). -/
def observerRangeOk (w : BitVec 384) : Bool :=
  let rg := fun lo n a b => a ≤ fld w lo n && fld w lo n ≤ b
  rg 0 16 40 200 && rg 16 16 5 50 && rg 32 8 0 1 && rg 40 8 0 8 && rg 48 8 1 5 && rg 64 16 100 10000 && rg 80 16 10 300 && rg 96 8 5 60 &&
    fld w 128 32 > 0

/-- OBSERVER_CONFIG (R166, R485). -/
def bodyObserverConfig (r : Req) (s : State) : Ans :=
  let w := BitVec.ofNat 384 (ule r.payload 0 48)
  if !observerRangeOk w then no .range s
  else okay (shareCfg 0x0305 r [0, 1, 2] (fusionCfg (fun c => { c with observer := w }) s))
def execObserverConfig (r : Req) (s : State) : Res := mbx 0x0305 (exactly 48) bodyObserverConfig r s

/-- The 44 bytes of STREAM_STATUS, with REJECTED of the parsing device (R177). -/
def streamStatusBytes (s : State) (n rejected : Nat) : List Byte :=
  words ((rtOf s n).counts.set 1 rejected) ++ leBytes 8 (streamRec s n)
/-- The counters of a stream cleared (R177, R478). -/
def clearStream (r : Req) (s : State) : State :=
  if clears r.payload 1 then updRt (u8 r.payload 0) (fun x => { x with counts := List.replicate 9 0, rejected := 0 }) s else s

/-- STREAM_STATUS (R177, R483). -/
def bodyStreamStatus (r : Req) (s : State) : Ans :=
  let n := u8 r.payload 0
  let d := strFld s n 16 8
  if n > 47 then no .range s
  else if !strDefined s n || d = s.dev then give (streamStatusBytes s n (rtOf s n).rejected) (clearStream r s)
  else if s.hif.srcJob.isSome then no .busy s
  else askSource 0x0306 r d s
def execStreamStatus (r : Req) (s : State) : Res := mbx 0x0306 (exactly 2) bodyStreamStatus r s

/-- The job on the parsing device ends (R483). -/
def endSource (j : Job) (st : Status) (rejected : Nat) (s : State) : State :=
  let s1 := { s with hif := { s.hif with srcJob := none } }
  if j.code = 0x0306 then finishJob j .ok (streamStatusBytes s1 (u8 j.req.payload 0) rejected) (clearStream j.req s1)
  else if st = .ok then
    finishJob j .ok [] (shareCfg 0x0301 j.req ([0, 1, 2].filter fun m => !j.wait.contains m) (defineStream j.req.payload s1))
  else finishJob j st [] s1

/-- SOURCE_DEV_CONFIRM (R483). -/
def execSourceDevConfirm (dev : Fin 64) (status rejected : Nat) (s : State) : Res :=
  match s.hif.srcJob with
  | none => .next s
  | some j => if j.wait.contains dev.val then .next (endSource j (Status.ofCode status) rejected s) else .next s

/-- SOURCE_DEV_CONFIRM_TIMEOUT (R483). -/
def execSourceDevConfirmTimeout (s : State) : Res :=
  match s.hif.srcJob with
  | none => .next s
  | some j => .next (endSource j .unreachable 0xFFFFFFFF s)

/-! ## One epoch of fusion (Table 5.7) -/

/-- Field of the stream descriptor in force in fusion (R139). -/
def fsFld (s : State) (n lo w : Nat) : Nat := descFld (s.fus.cfg.streams.getD n []) lo w
/-- Stream `n` is defined, and enabled, in the fusion in force. -/
def fsDefined (s : State) (n : Nat) : Bool := !(s.fus.cfg.streams.getD n []).isEmpty
def fsOn (s : State) (n : Nat) : Bool := fsDefined s n && fsFld s n 60 1 = 1
/-- Comparison group of a kind (Table 5.1): 1 position, 2 heading, 0 selected. -/
def groupOf (kind : Nat) : Nat := if 1 ≤ kind && kind ≤ 5 then 1 else if kind = 6 then 2 else 0
/-- A relative position reference. -/
def isRelative (kind : Nat) : Bool := 2 ≤ kind && kind ≤ 4
/-- Default age limit of a kind, ms (Table 5.1). -/
def kindAge (kind : Nat) : Nat := [0, 1000, 4000, 500, 1000, 500, 200, 100, 1000, 2000, 10000].getD kind 1000
/-- Age limit of stream `n`, ns. -/
def ageLimit (s : State) (n : Nat) : Int :=
  let a := fsFld s n 176 16
  (if a = 0 then kindAge (fsFld s n 8 8) else a) * 1000000
/-- Instant of epoch `e` in device time. -/
def instantOf (s : State) (e : Word) : Int := (s.cyc.instant : Int) + epochDiff e s.cyc.epoch * (s.cyc.e * 1000000 : Nat)

/-- The fusion configuration accepted before the close at the instant given takes effect; what was accepted later waits (R139, R143, R163).
DESIGN CHOICE (row 62): CONFLICT_MASK of event 0x0312 is that after the preferred stream's release. -/
def takeFusionCfg (close : Nat) (s : State) : State :=
  let late := s.fus.before.filter fun b => afterClose close b.time
  let b := late.getLast?.getD { time := 0, cfg := fusAhead s, prefer := s.fus.prefer, pending := s.fus.cfgPending, renew := s.fus.streams.map (·.renew) }
  let fresh := fun (x : StreamRt) => { x with
    confidence := 128, mask := 0, penalty := 0, held := false, agreeRun := 0, recover := 0, samples := [], anchor := none
    counts := List.replicate 9 0, frozenRef := [], frozenMs := 0, innov := [], drift := [], meas := [], lowMasked := false }
  let s1 := updFus (fun f => { f with
    cfg := b.cfg, cfgGen := if b.pending then f.cfgGen + 1 else f.cfgGen, cfgPending := f.cfgPending && !late.isEmpty, before := late
    prefer := if late.isEmpty || f.prefer = b.prefer then none else f.prefer }) s
  let turn := fun (t : State) n =>
    let on := fsOn t n
    let renew := b.renew.getD n false
    let waits := (rtOf t n).renew && !renew
    updRt n (fun x => if on && (!x.on || renew) then { fresh x with on := true, renew := waits }
      else if on then { x with on := true, renew := waits } else { x with on := false, renew := waits, held := false, agreeRun := 0, meas := [] }) t
  let s3 := (List.range 48).foldl turn s1
  match b.prefer with
  | none => s3
  | some n =>
    if (rtOf s3 n).held then
      let none_ := fun (x : StreamRt) => { x with agreeRun := 0 }
      let s4 := updFus (fun f => { f with preferred := some n, streams := f.streams.map none_ }) (updRt n (fun x => { x with held := false, confidence := 128 }) s3)
      event 0x0312 1 [n, conflictMask s4, s4.cyc.epoch.toNat] s4
    else s3

/-- A committed sample: stamp, quantities, sigma, epoch (Table 5.3). -/
def sampleOf (s : State) (e : Word) (c : Contrib) : List Int :=
  let taken := wd (bits c.body 32 32)
  let d := ((s.time.steps.filter fun x => decide (epochDiff taken x.1 < 0)).map fun x => x.2 * 1000000).sum
  let t := instantOf s e - d
  let st : Int := t + (BitVec.ofNat 32 (bits c.body 0 32) - BitVec.ofInt 32 t).toInt
  [st + d, sext 32 (bits c.body 96 32), sext 32 (bits c.body 128 32), sext 32 (bits c.body 160 32), Int.ofNat (bits c.body 80 16),
    Int.ofNat (bits c.body 32 32)]
/-- Stream of a sample record. -/
def sampleStream (c : Contrib) : Nat := bits c.body 64 8

/-- Samples kept in stamp order, newest first. -/
def putSample (x : List Int) : List (List Int) → List (List Int)
  | [] => [x]
  | y :: l => if x.getD 0 0 ≥ y.getD 0 0 then x :: y :: l else y :: putSample x l

/-- A sample beside those that an epoch can still need: no alignment reaches further back than 65,535 ms, where AGE_MS saturates (R153, R155). -/
def keepSample (s : State) (e : Word) (x : List Int) (l : List (List Int)) : List (List Int) :=
  putSample x (l.filter fun y => decide (y.getD 0 0 > instantOf s e - 70000000000))

/-- On-time samples of the epoch enter their streams; those of a disabled stream are dropped (R143). -/
def takeSample (e : Word) (s : State) (c : Contrib) : State :=
  let n := sampleStream c
  if !fsOn s n then updFus (fun f => { f with lateDrop := satInc f.lateDrop }) s
  else updRt n (fun x => { x with samples := keepSample s e (sampleOf s e c) x.samples, news := x.news + 1, counts := addAt x.counts 0 1 }) s

/-- Age and presence of a stream at t_e (R153, R155): none when it is masked for AGE. -/
def ageAt (s : State) (e : Word) (n : Nat) : Option Nat :=
  let t := instantOf s e
  let l := (rtOf s n).samples
  match l.find? fun x => decide (x.getD 0 0 ≤ t) with
  | none => none
  | some b =>
    let bs := b.getD 0 0
    match (l.filter fun x => decide (x.getD 0 0 > t)).getLast? with
    | some a => if a.getD 0 0 - bs ≤ 2 * ageLimit s n then some 0 else if t - bs ≤ ageLimit s n then some ((t - bs) / 1000000).toNat else none
    | none => if t - bs ≤ ageLimit s n then some ((t - bs) / 1000000).toNat else none

/-- The stream's latest stamp differs from device time by more than JUMP_THRESH while a jump is refused (R85). DESIGN CHOICE (row 37): device time is
that of the epoch's instant, which every manager shares. -/
def skewed (s : State) (e : Word) (n : Nat) : Bool :=
  s.time.refused && fsFld s n 56 2 = 0 && (match (rtOf s n).samples.head? with
    | some x => decide ((x.getD 0 0 - instantOf s e).natAbs > s.cfg.jumpUs * 1000) | none => false)

/-! ## Values at an instant (R148 to R154, R157) -/

/-- The quantity is an angle in units of 2^−32 turn (R154, Table 5.1). -/
def isAngle (kind q : Nat) : Bool := (kind = 6 && q = 0) || (kind = 8 && q = 1)
/-- Difference of two values, angles modulo one turn (R154). -/
def diffOf (angle : Bool) (a b : Rat) : Rat := if angle then wrapTo ((2 ^ 32 : Nat) : Rat) (a - b) else a - b
/-- Slope from an older point to a newer one; 0 at one instant. -/
def slopeOf (angle : Bool) (older newer : Int × Rat) : Rat :=
  if older.1 = newer.1 then 0 else diffOf angle newer.2 older.2 / ((newer.1 - older.1 : Int) : Rat)

/-- The finite-difference tangent at `b` between its neighbours; which of the two usual forms is meant is not stated (R153, row 5). -/
def tangentOf (angle : Bool) (a b c : Int × Rat) : Rat :=
  if Config.tangentMean || a.1 = c.1 then (slopeOf angle a b + slopeOf angle b c) / 2
  else (diffOf angle b.2 a.2 + diffOf angle c.2 b.2) / ((c.1 - a.1 : Int) : Rat)

/-- The value between two neighbouring points, linear or cubic Hermite; `before` and `after` are the points beyond the bracket (R153). -/
def between (cubic angle : Bool) (before after : Option (Int × Rat)) (b a : Int × Rat) (t : Int) : Rat :=
  let h : Rat := ((a.1 - b.1 : Int) : Rat)
  let u : Rat := ((t - b.1 : Int) : Rat) / h
  let d := diffOf angle a.2 b.2
  if !cubic then b.2 + d * u
  else
    let mb := match before with | some c => tangentOf angle c b a | none => slopeOf angle b a
    let ma := match after with | some c => tangentOf angle b a c | none => slopeOf angle b a
    b.2 + h * mb * (u - 2 * u ^ 2 + u ^ 3) + d * (3 * u ^ 2 - 2 * u ^ 3) + h * ma * (u ^ 3 - u ^ 2)

/-- Points, newest first, brought to an instant: interpolated, extrapolated at the rate of the last two, held, or none (R153). -/
def alignTo (cubic angle : Bool) (lim : Int) (pts : List (Int × Rat)) (t : Int) : Option Rat :=
  let older := pts.filter fun p => decide (p.1 ≤ t)
  let newer := (pts.filter fun p => decide (t < p.1)).reverse
  match older with
  | [] => none
  | b :: bs =>
    let held := if decide (t - b.1 ≤ lim) then
        some (match bs with | c :: _ => b.2 + slopeOf angle c b * ((t - b.1 : Int) : Rat) | [] => b.2)
      else none
    match newer with
    | a :: as => if decide (a.1 - b.1 ≤ 2 * lim) then some (between cubic angle bs.head? as.head? b a t) else held
    | [] => held

/-- Kind of stream `n`. -/
def kindOf (s : State) (n : Nat) : Nat := fsFld s n 8 8
/-- A stream's samples as points of quantity `q`, newest first. -/
def series (s : State) (n q : Nat) : List (Int × Rat) := (rtOf s n).samples.map fun x => (x.getD 0 0, ((x.getD (1 + q) 0 : Int) : Rat))
/-- Quantity `q` of a stream as sampled, at an instant. -/
def quantityAt (s : State) (n q : Nat) (t : Int) : Option Rat :=
  alignTo (kindOf s n = 6 || kindOf s n = 7) (isAngle (kindOf s n) q) (ageLimit s n) (series s n q) t

/-- The sample whose own figure counts: the newest at or before t_e, else the newest. -/
def figureOf (s : State) (e : Word) (n : Nat) : List Int :=
  let l := (rtOf s n).samples
  ((l.find? fun x => decide (x.getD 0 0 ≤ instantOf s e)).getD (l.headD []))
/-- σ of R157 in metres or radians: SIGMA, or with SIGMA_SRC 1 the larger of it and the sensor's own. -/
def sigmaOf (s : State) (e : Word) (n : Nat) : Rat :=
  let a : Rat := (fsFld s n 128 32 : Nat) / 65536
  if fsFld s n 59 1 = 1 then max a (((figureOf s e n).getD 4 0 : Int) / 1000) else a
/-- σ_eff² = σ² · 128 / c (R157). -/
def varOf (s : State) (e : Word) (n : Nat) : Rat := sigmaOf s e n ^ 2 * 128 / (max (rtOf s n).confidence 1 : Nat)

/-- A weighted mean with weights 1/σ², and its variance (R167). -/
def weighted (l : List (Rat × Rat)) : Rat × Rat :=
  let w := (l.map fun p => 1 / p.2).sum
  ((l.map fun p => p.1 / p.2).sum / w, 1 / w)
/-- The weighted mean of headings in radians about the first of them. -/
def weightedHdg (l : List (Rat × Rat)) : Rat × Rat :=
  let r := (l.headD (0, 1)).1
  let m := weighted (l.map fun p => (wrapRad (p.1 - r), p.2))
  (r + m.1, m.2)

/-- Heading in radians at a stamp, from the headings used in the last epoch, else from the estimate. DESIGN CHOICE (row 5): Table 5.7 moves
positions before it compares this epoch's headings. -/
def headingAt (s : State) (e : Word) (t : Int) : Rat :=
  let l := s.fus.attHdgs.filterMap fun n => (quantityAt s n 0 t).map fun v => (2 * piQ * v / ((2 ^ 32 : Nat) : Rat), varOf s e n)
  if l.isEmpty then s.fus.kal.at 2 else (weightedHdg l).1
/-- A heading or motion stream is usable at t_e before the epoch's tests: enabled, present, confident, not held. -/
def usableNow (s : State) (e : Word) (n : Nat) : Bool :=
  fsOn s n && !(rtOf s n).held && decide ((rtOf s n).confidence ≥ 64) && (quantityAt s n 0 (instantOf s e)).isSome
/-- The more confident of two streams, the first on a tie. -/
def surer (s : State) (a : Option Nat) (n : Nat) : Option Nat :=
  match a with | some m => if (rtOf s m).confidence ≥ (rtOf s n).confidence then a else some n | none => some n
/-- Roll and pitch at a stamp from the selected motion stream, or the surest usable one that has a value then; 0 when none is usable (R150). DESIGN
CHOICE (row 5): a stamp before every sample of the selected stream takes its oldest. -/
def motionAt (s : State) (e : Word) (t : Int) : Rat × Rat :=
  let has := fun (n : Nat) => (quantityAt s n 0 t).isSome && (quantityAt s n 1 t).isSome
  let others := (List.range 48).filter fun n => kindOf s n = 7 && usableNow s e n && has n
  let q := fun (n i : Nat) => (match quantityAt s n i t with
    | some v => v | none => (((((rtOf s n).samples.getLast?.getD []).getD (1 + i) 0 : Int)) : Rat)) / ((2 ^ 28 : Nat) : Rat)
  match s.fus.attMotion with
  | none => (0, 0)
  | some n => let m := if has n then n else (others.foldl (surer s) none).getD n; (q m 0, q m 1)

/-- Origin of the plane in hand: the fixed one, else one from which the first absolute stream's newest sample reads the estimate, or (0, 0) when POS_VALID is
clear (R152; DESIGN CHOICE, row 5: a plane to compare absolute references in before any is combined). -/
def planeOrigin (s : State) : Rat × Rat :=
  if s.fus.originFixed then (geoRad (sext 32 s.dp.originLat.toNat), geoRad (sext 32 s.dp.originLon.toNat))
  else match (List.range 48).find? fun n => fsOn s n && (kindOf s n = 1 || kindOf s n = 5) && !(rtOf s n).samples.isEmpty with
    | none => (0, 0)
    | some n =>
      let x := (rtOf s n).samples.headD []
      let o := (geoRad (x.getD 1 0), geoRad (x.getD 2 0))
      let at_ := if s.fus.posValid then (s.fus.kal.at 0, s.fus.kal.at 1) else (0, 0)
      originFor (ecef o.1 o.2 ((x.getD 3 0 : Int) / 65536)) at_.1 at_.2 12 o

/-- North and east of the reference point from one sample: converted or rotated, moved by the lever arm at the sample's attitude; of a relative
reference without its anchor (R148 to R150). -/
def pointOf (s : State) (e : Word) (n : Nat) (x : List Int) : Rat × Rat :=
  let t := s.fus.cfg.transforms.getD (fsFld s n 48 6) 0
  let a := motionAt s e (x.getD 0 0)
  let m := attitude (headingAt s e (x.getD 0 0)) a.2 a.1
  let q := fun (i : Int) => (i : Rat) / 65536
  let lever := mVec m [q (sfld t 0 32), q (sfld t 32 32), q (sfld t 64 32)]
  let rot := mkMat 3 3 fun r c => (rotAt t r c : Rat) / ((2 ^ 30 : Nat) : Rat)
  let p := if isRelative (kindOf s n) then let v := mVec m (mVec rot [q (x.getD 1 0), q (x.getD 2 0), 0]); (vAt v 0, vAt v 1)
    else toPlane (planeOrigin s) (ecef (geoRad (x.getD 1 0)) (geoRad (x.getD 2 0)) (q (x.getD 3 0)))
  (fixed 20 (p.1 - vAt lever 0), fixed 20 (p.2 - vAt lever 1))

/-- A stream's value at t_e: north and east, heading in radians, or its quantities as sampled; empty without one (R153). -/
def valueAt (s : State) (e : Word) (n : Nat) : Vec :=
  let t := instantOf s e
  let k := kindOf s n
  if groupOf k = 1 then
    let ps := (rtOf s n).samples.map fun x => (x.getD 0 0, pointOf s e n x)
    match alignTo false false (ageLimit s n) (ps.map fun p => (p.1, p.2.1)) t, alignTo false false (ageLimit s n) (ps.map fun p => (p.1, p.2.2)) t with
    | some a, some b => [fixed 20 a, fixed 20 b]
    | _, _ => []
  else if k = 6 then ((quantityAt s n 0 t).map fun v => [fixed 21 (2 * piQ * v / ((2 ^ 32 : Nat) : Rat))]).getD []
  else (([0, 1, 2].mapM fun q => quantityAt s n q t).map fun l => l.zipIdx.map fun v =>
    if isAngle k v.2 then let m : Rat := ((2 ^ 32 : Nat) : Rat); v.1 - m * (v.1 / m).floor else v.1).getD []

/-- The streams that give the attitude of an epoch: those used in the last one, else the headings and the motion stream that are usable now
(R150; DESIGN CHOICE, row 5). -/
def attitudeRefs (e : Word) (s : State) : State :=
  let on := s.fus.attHdgs.filter (fsOn s ·)
  let best := ((List.range 48).filter fun n => kindOf s n = 7 && usableNow s e n).foldl (surer s) none
  updFus (fun f => { f with
    attHdgs := if on.isEmpty then (List.range 48).filter fun n => kindOf s n = 6 && usableNow s e n else on
    attMotion := match f.attMotion with | some n => if usableNow s e n then some n else best | none => best }) s

/-- Every enabled stream brought to t_e (steps 3 to 5 of Table 5.7). -/
def alignStreams (e : Word) (s : State) : State :=
  updFus (fun f => { f with streams := f.streams.zipIdx.map fun x => { x.1 with meas := if fsOn s x.2 then valueAt s e x.2 else [] } }) s

/-- A stream's value with its anchor (R149). -/
def measOf (s : State) (n : Nat) : Vec :=
  let x := rtOf s n
  match x.anchor with
  | some a => if isRelative (kindOf s n) && !x.meas.isEmpty then [vAt x.meas 0 + a.1 / 65536, vAt x.meas 1 + a.2 / 65536] else x.meas
  | none => x.meas

/-- Squared distance of two values of a group, m² or rad². -/
def gap2 (g : Nat) (a b : Vec) : Rat :=
  if g = 2 then wrapRad (vAt a 0 - vAt b 0) ^ 2 else (vAt a 0 - vAt b 0) ^ 2 + (vAt a 1 - vAt b 1) ^ 2

/-- What the observer predicts of a group: low-frequency state and wave component. -/
def predicted (s : State) (g : Nat) : Vec :=
  let k := s.fus.kal
  if g = 2 then [k.at 2 + k.at 10] else [k.at 0 + k.at 6, k.at 1 + k.at 8]

/-- Squared innovation of a stream, and the observer's variance of it; of kinds 7 to 10 the innovation is not stated, and the observer has no state:
DESIGN CHOICE (row 5), σ_est is 0 (Table 5.5). -/
def innov2 (s : State) (n : Nat) : Rat :=
  let g := groupOf (kindOf s n)
  if g = 0 then Config.innovation (kindOf s n) (rtOf s n).meas (s.fus.est.map fun v => (v : Rat)) ^ 2 else gap2 g (measOf s n) (predicted s g)
def priorVar (s : State) (n : Nat) : Rat :=
  let g := groupOf (kindOf s n)
  if g = 1 then posVar s.fus.kal else if g = 2 then hdgVar s.fus.kal else 0
/-- The gate of Table 5.5: the innovation exceeds GATE · √(σ_eff² + σ_est²). -/
def gateFails (s : State) (e : Word) (n : Nat) : Bool :=
  decide (innov2 s n > ((fsFld s n 160 16 : Nat) / 256 : Rat) ^ 2 * (varOf s e n + priorVar s n))

/-- Candidates of a comparison disagree: their separation exceeds g = max(g_min, 4·√(σ_i² + σ_j²)), g_min 2 m or 1° (R160). -/
def gateMin (g : Nat) : Rat := if g = 2 then piQ / 180 else 2
def compGate2 (s : State) (e : Word) (i j : Nat) : Rat :=
  max (gateMin (groupOf (kindOf s i)) ^ 2) (16 * (sigmaOf s e i ^ 2 + sigmaOf s e j ^ 2))
def sep2 (s : State) (i j : Nat) : Rat := gap2 (groupOf (kindOf s i)) (measOf s i) (measOf s j)
def disagree (s : State) (e : Word) (i j : Nat) : Bool := i ≠ j && decide (sep2 s i j > compGate2 s e i j)

/-- A reference lies beyond 30,000 m north or east (R151). -/
def farOut (v : Vec) : Bool := decide (vAt v 0 > 30000 || vAt v 0 < -30000 || vAt v 1 > 30000 || vAt v 1 < -30000)

/-- Event parameters: centimetres, microradians, whole metres; a heading's centimetre is 0.0001 rad (Table 5.5). -/
def cmOf (x : Rat) : Nat := intBits 32 (toUnits 30 0 (x * 100))
def microRad (x : Rat) : Nat := intBits 32 (toUnits 30 0 (x * 1000000))
/-- An angle in radians reduced into one turn (R154). -/
def oneTurn (x : Rat) : Rat := let m : Rat := 2 * piQ; x - m * (x / m).floor
def metresOf (x : Rat) : Nat := intBits 32 (toUnits 30 0 x)
def cmIn (g : Nat) (x : Rat) : Nat := cmOf (if g = 2 then x * 100 else x)
/-- Centimetres of a Q16.16 metre value. -/
def toCm (i : Int) : Nat := intBits 32 (i * 100 / 65536)

/-! ## The observer's update and late samples (R167, R169, R171 to R174) -/

/-- The combined measurement of a list of streams on one axis: 0 north, 1 east, 2 heading (R167). -/
def combined (s : State) (e : Word) (ns : List Nat) (a : Nat) : Rat × Rat :=
  if a = 2 then weightedHdg (ns.map fun n => (vAt (measOf s n) 0, varOf s e n))
  else weighted (ns.map fun n => (vAt (measOf s n) a, varOf s e n))

/-- The posterior of an epoch from its prior: the combined heading, then north and east; a group that is reset takes its measurement (R167 to
R169). Without a position reference the bias stays as it is. -/
def posterior (s : State) (e : Word) (hs ps : List Nat) (resetH resetP : Bool) : Kal :=
  let o := s.fus.cfg.observer
  let frozen := ps.isEmpty
  let step := fun (reset : Bool) (a : Nat) (k : Kal) =>
    let c := combined s e (if a = 2 then hs else ps) a
    if reset then setAxis a c.1 k else measure o frozen a c.1 c.2 k
  let cov := fun (g : Nat) (reset : Bool) (v : Rat) (k : Kal) => if reset then { k with p := Config.resetCov g v k.cov } else k
  let k1 := if hs.isEmpty then s.fus.kal else cov 2 resetH (combined s e hs 2).2 (step resetH 2 s.fus.kal)
  if ps.isEmpty then k1 else cov 1 resetP (combined s e ps 0).2 (step resetP 1 (step resetP 0 k1))

/-- Seconds of one epoch. -/
def epochSec (s : State) : Rat := (s.cyc.e : Rat) / 1000

/-- The fusion state as it stood in a stored epoch (R171): prior, samples, confidences, anchors, attitude. -/
def restored (s : State) (r : RingEnt) (prior : Kal) : State :=
  let back := fun (x : StreamRt × Nat) =>
    let y := r.streams.getD x.2 {}
    { x.1 with state := y.state, mask := BitVec.ofNat 8 y.mask, confidence := y.confidence, samples := y.samples, anchor := y.anchor }
  updFus (fun f => { f with kal := prior, attHdgs := r.attHdgs, attMotion := r.attMotion, streams := f.streams.zipIdx.map back }) s

/-- A stored epoch with a sample added to stream `n`. -/
def addLate (n : Nat) (x : List Int) (s : State) (r : RingEnt) : RingEnt :=
  { r with streams := r.streams.zipIdx.map fun y => if y.2 = n then { y.1 with samples := keepSample s r.epoch x y.1.samples } else y.1 }

/-- One stored epoch repeated with a sample added to stream `n` (R171, R172): its decisions stand; a stream masked for AGE alone joins with its new
value. -/
def repeatEpoch (n : Nat) (x : List Int) (bias : Vec) (prior : Kal) (s : State) (r : RingEnt) : RingEnt :=
  let r1 := addLate n x s r
  let t := alignStreams r.epoch (restored s r1 prior)
  let joins := (r.streams.getD n {}).mask = 1 && !(measOf t n).isEmpty && !r.hdgs.contains n && !r.refs.contains n
  let g := groupOf (kindOf s n)
  let hs := if joins && g = 2 then r.hdgs ++ [n] else r.hdgs
  let ps := if joins && g = 1 then r.refs ++ [n] else r.refs
  let t1 := if ps.isEmpty then updFus (fun f => { f with kal := freezeBias bias f.kal }) t else t
  { r1 with prior := prior, bias := bias, hdgs := hs, refs := ps, post := posterior t1 r.epoch hs ps r.resetHdg r.resetPos }

/-- The stored epochs from the sample's own on, oldest first, repeated one after the other (R171). -/
def repeatFrom (n : Nat) (x : List Int) (s : State) : Vec → Kal → List RingEnt → List RingEnt
  | _, _, [] => []
  | bias, prior, r :: l =>
    let a := repeatEpoch n x bias prior s r
    match l with
    | [] => [a]
    | b :: _ => a :: repeatFrom n x s a.post.bias (predict s.fus.cfg.observer (epochSec s) b.tau a.post) l

/-- A late sample passes the gate against the restored state of its epoch (R172). -/
def lateGate (n : Nat) (x : List Int) (s : State) (r : RingEnt) : Bool :=
  let t := alignStreams r.epoch (restored s (addLate n x s r) r.prior)
  !(measOf t n).isEmpty && !gateFails t r.epoch n

/-- One late sample (R171 to R174): the epochs since its own repeated from the stored prior, or the sample dropped with event 0x0319. DESIGN CHOICE
(row 63): SAMPLES counts on-time samples alone; a late one that is used is counted in LATE_USED. -/
def takeLate (e : Word) (s : State) (c : Contrib) : State :=
  let n := sampleStream c
  let d := epochDiff e c.epoch
  let x := sampleOf s e c
  let es := epochAt s (x.getD 0 0).toNat
  let from_ := (s.fus.ring.takeWhile fun r => decide (epochDiff r.epoch es > 0)) ++ (s.fus.ring.filter fun r => r.epoch = es)
  let was := match s.fus.ring.find? (·.epoch = es) with | some r => r.streams.getD n {} | none => {}
  let admitted := fsOn s n && decide (1 ≤ d) && decide (d ≤ lateWindow s) && (was.state = 2 || was.state = 6 || was.mask = 1)
  match if admitted then s.fus.ring.find? (·.epoch = es) else none with
  | some r =>
    if lateGate n x s r then
      let again := repeatFrom n x s r.bias r.prior from_.reverse
      let kept := s.fus.ring.map fun y => (again.find? (·.epoch = y.epoch)).getD y
      updFus (fun f => { f with
        lateUsed := satInc f.lateUsed, lateApplied := true, ring := kept, kal := match again.getLast? with | some y => y.post | none => f.kal })
        (updRt n (fun y => { y with samples := keepSample s e x y.samples, news := y.news + 1 }) s)
    else event 0x0319 1 [n, d.toNat, lateWindow s, (nextFree s).toNat] (stepFree (updFus (fun f => { f with lateDrop := satInc f.lateDrop }) s))
  | none => event 0x0319 1 [n, d.toNat, lateWindow s, (nextFree s).toNat] (stepFree (updFus (fun f => { f with lateDrop := satInc f.lateDrop }) s))

/-! ## Anchors and penalties (R149, R156) -/

/-- A relative reference that passes its age and confidence tests without an anchor (R149). -/
def anchorable (s : State) (n : Nat) : Bool :=
  fsOn s n && isRelative (kindOf s n) && (rtOf s n).anchor.isNone && !(rtOf s n).meas.isEmpty && decide ((rtOf s n).confidence ≥ 64) && !(rtOf s n).held
/-- An absolute reference is usable: enabled, present, confident, unskewed, within range. -/
def absoluteUsable (s : State) (e : Word) : Bool :=
  (List.range 48).any fun n => fsOn s n && (kindOf s n = 1 || kindOf s n = 5) && !(rtOf s n).meas.isEmpty && !skewed s e n &&
    !farOut (measOf s n) && decide ((rtOf s n).confidence ≥ 64) && !(rtOf s n).held
/-- The anchors of one epoch, each with event 0x031E: the reference point reads the prior estimate, or with POS_VALID clear and no usable absolute reference
the origin (R149). -/
def captureAnchors (e : Word) (s : State) : State :=
  if !s.fus.posValid && absoluteUsable s e then s
  else
    let at_ := fun (i : Nat) => if s.fus.posValid then s.fus.kal.at i else 0
    ((List.range 48).filter (anchorable s)).foldl (fun t n =>
      let m := (rtOf s n).meas
      let a := (at_ 0 - vAt m 0, at_ 1 - vAt m 1)
      event 0x031E 1 [n, cmOf a.1, cmOf a.2] (updRt n (fun x => { x with anchor := some (toUnits 22 16 a.1, toUnits 22 16 a.2) }) t)) s

/-- The frozen-value test of a stream in an epoch (Table 5.5). -/
def frozenStep (s : State) (x : StreamRt) : StreamRt :=
  let v := ((x.samples.headD []).drop 1).take 3
  let moved := x.frozenRef.isEmpty || (v.zip x.frozenRef).any fun p => decide ((p.1 - p.2).natAbs > 1)
  if v.isEmpty then x else if moved then { x with frozenRef := v, frozenMs := 0 } else { x with frozenMs := x.frozenMs + s.cyc.e }

/-- The group of a stream dead-reckons, or did in the epoch before (R156, R169). -/
def groupDr (s : State) (n : Nat) : Bool :=
  let g := groupOf (fsFld s n 8 8)
  (g = 1 && s.fus.drPos) || (g = 2 && s.fus.drHdg)

/-- Enabled streams of a group with a value at t_e. -/
def presentIn (s : State) (e : Word) (g : Nat) : List Nat :=
  (List.range 48).filter fun n => fsOn s n && groupOf (fsFld s n 8 8) = g && (ageAt s e n).isSome

/-- Candidates of a group by what is known before the comparison (R160). -/
def peersIn (s : State) (e : Word) (g : Nat) : List Nat :=
  (presentIn s e g).filter fun n => !skewed s e n && !(g = 1 && farOut (measOf s n)) && !(isRelative (kindOf s n) && (rtOf s n).anchor.isNone) &&
    ((rtOf s n).held || decide ((rtOf s n).confidence ≥ 64))

/-- The median of numbers: the middle one, or the mean of the two in the middle. -/
def medianOf (l : List Rat) : Rat :=
  let m := l.mergeSort (fun a b => decide (a ≤ b))
  (vAt m ((m.length - 1) / 2) + vAt m (m.length / 2)) / 2

/-- Distance of a stream from its group's component-wise median; none with fewer than three candidates (Table 5.5). -/
def medianGap (s : State) (e : Word) (n : Nat) : Option Rat :=
  let g := groupOf (kindOf s n)
  let ps := peersIn s e g
  if g = 0 || ps.length < 3 || (rtOf s n).meas.isEmpty then none
  else
    let r := vAt (measOf s n) 0
    let med := if g = 2 then [r + medianOf (ps.map fun m => wrapRad (vAt (measOf s m) 0 - r))]
      else [medianOf (ps.map fun m => vAt (measOf s m) 0), medianOf (ps.map fun m => vAt (measOf s m) 1)]
    some (fixed 23 (sqrtQ (gap2 g (measOf s n) med)))

/-- Epochs of 60 s. -/
def driftEpochs (s : State) : Nat := 60000 / max 1 s.cyc.e
/-- A stream's drift history after an epoch; an epoch without a distance starts it anew (DESIGN CHOICE, row 5). -/
def driftStep (s : State) (e : Word) (n : Nat) (x : StreamRt) : StreamRt :=
  match medianGap s e n with
  | some d => { x with drift := (d :: x.drift).take (driftEpochs s) }
  | none => { x with drift := [] }
/-- Mean of numbers. -/
def meanOf (l : List Rat) : Rat := l.sum / (l.length : Nat)

/-- The penalties of a stream in an epoch: GATE, FROZEN, VARIANCE, DRIFT (Table 5.5). -/
def penalties (s : State) (e : Word) (n : Nat) : Nat :=
  let x := rtOf s n
  let g := groupOf (kindOf s n)
  let has := !x.meas.isEmpty && !(isRelative (kindOf s n) && x.anchor.isNone)
  let cm : Rat := (fsFld s n 224 16 : Nat) / (if g = 2 then 10000 else 100)
  (if has && !groupDr s n && gateFails s e n then 1 else 0) +
  (if fsFld s n 208 16 ≠ 0 && decide (x.frozenMs ≥ fsFld s n 208 16) then 2 else 0) +
  (if decide (x.innov.length ≥ 16) && decide (meanOf x.innov > (fsFld s n 200 8 : Nat) * varOf s e n) then 4 else 0) +
  (if g ≠ 0 && fsFld s n 224 16 ≠ 0 && decide ((peersIn s e g).length ≥ 3) && decide (x.drift.length ≥ driftEpochs s) && decide (meanOf x.drift > cm) then 8
    else 0)
/-- Their sum. -/
def penaltySum (p : Nat) : Nat := (if bit p 0 then 32 else 0) + (if bit p 1 then 16 else 0) + (if bit p 2 then 24 else 0) + (if bit p 3 then 8 else 0)

/-- Confidence after an epoch's penalties (R156). -/
def confStep (s : State) (n p : Nat) (x : StreamRt) : StreamRt :=
  if x.held then { x with penalty := BitVec.ofNat 8 p }
  else if p ≠ 0 then { x with confidence := x.confidence - penaltySum p, recover := 0, penalty := BitVec.ofNat 8 p }
  else if x.recover + 1 ≥ fsFld s n 192 8 then { x with confidence := min 255 (x.confidence + 1), recover := 0, penalty := 0 }
  else { x with recover := x.recover + 1, penalty := 0 }

/-- Skew of a stream's latest stamp against device time, µs (R85, event 0x031D). DESIGN CHOICE (row 62): its magnitude. -/
def skewUs (s : State) (e : Word) (n : Nat) : Nat :=
  match (rtOf s n).samples.head? with | some x => (x.getD 0 0 - instantOf s e).natAbs / 1000 | none => 0

/-- Age of the newest sample at or before t_e, ms (R155). -/
def sampleAge (s : State) (e : Word) (n : Nat) : Nat :=
  match (rtOf s n).samples.find? fun x => decide (x.getD 0 0 ≤ instantOf s e) with
  | some y => ((instantOf s e - y.getD 0 0) / 1000000).toNat
  | none => 65535

/-- The events of a stream's masks for range and skew (R85, R151, R178). -/
def maskEvents (old x : StreamRt) (e : Word) (n : Nat) (s : State) : State :=
  let on := fun (b : Nat) => x.mask.getLsbD b && !x.held
  let v := measOf s n
  let s1 := if on 6 then event 0x031C 2 [n, metresOf (vAt v 0), metresOf (vAt v 1)] s else s
  if on 4 && !old.mask.getLsbD 4 then event 0x031D 2 [n, skewUs s e n, s.cfg.jumpUs] s1 else s1

/-- The masking and unmasking of a stream by confidence, as the epoch's comparison leaves it (R158, R178). -/
def confEvents (s : State) (n : Nat) : State :=
  let x := rtOf s n
  let low := decide (x.confidence < 64)
  if !fsOn s n || x.held then s
  else if low then
    let s1 := updRt n (fun y => { y with mask := y.mask ||| 2, lowMasked := true }) s
    if x.lowMasked then s1 else event 0x0313 2 [n, x.confidence, x.penalty.toNat] s1
  else if x.lowMasked && x.mask = 0 then event 0x0314 1 [n, x.confidence] (updRt n (fun y => { y with lowMasked := false }) s)
  else s

/-- One stream's tests and masks before the comparison (step 6 of Table 5.7). -/
def testStream (e : Word) (s0 : State) (n : Nat) : State :=
  if !fsDefined s0 n then updRt n (fun x => { x with state := 0, mask := 0, penalty := 0 }) s0
  else if !fsOn s0 n then updRt n (fun x => { x with state := 1, mask := 0x20, penalty := 0 }) s0
  else
    let s := updRt n (fun x => driftStep s0 e n (frozenStep s0 x)) s0
    let kind := kindOf s n
    let age := ageAt s e n
    let skew := skewed s e n
    let far := groupOf kind = 1 && age.isSome && !(isRelative kind && (rtOf s n).anchor.isNone) && farOut (measOf s n)
    let unan := isRelative kind && (rtOf s n).anchor.isNone
    let p := penalties s e n
    let old := rtOf s n
    let x := confStep s n p { old with
      ageMs := min 65535 (age.getD (sampleAge s e n))
      counts := addAt (addAt (addAt (addAt (addAt (addAt old.counts 2 age.isNone.toNat) 3 (bit p 0).toNat) 4 (bit p 1).toNat) 5 (bit p 2).toNat) 6
        (bit p 3).toNat) 8 skew.toNat }
    let low := !x.held && decide (x.confidence < 64)
    let m := if x.held then 8 else pack [(1, age.isNone.toNat), (1, low.toNat), (1, 0), (1, 0), (1, skew.toNat), (1, 0), (1, far.toNat), (1, unan.toNat)]
    let y := { x with
      mask := BitVec.ofNat 8 m, state := if x.held then 5 else if m = 0 then 7 else 3, lowMasked := !x.held && x.lowMasked }
    maskEvents old y e n (updRt n (fun _ => y) s)

/-! ## Comparison (R160 to R165) -/

/-- Event and alarm code of a group's conflict. -/
def conflictCode (g : Nat) : Nat := if g = 1 then 0x0311 else 0x031A
/-- Streams of group `g` held. -/
def heldIn (s : State) (g : Nat) : List Nat := (List.range 48).filter fun n => groupOf (fsFld s n 8 8) = g && (rtOf s n).held

/-- The pair of candidates that lie farthest apart. -/
def widest (s : State) (c : List Nat) : Nat × Nat :=
  (c.flatMap fun i => c.map fun j => (i, j)).foldl (fun a p => if sep2 s p.1 p.2 > sep2 s a.1 a.2 then p else a) (c.headD 0, c.headD 0)

/-- A conflict of candidates (R162). -/
def conflict (e : Word) (g : Nat) (c : List Nat) (s : State) : State :=
  let s1 := c.foldl (fun t n => updRt n (fun x => { x with
    held := true, confidence := 63, mask := 8, state := 5, agreeRun := 0, recover := 0, lowMasked := false }) t) s
  let m := conflictMask s1
  let w := widest s c
  let u := fun (x : Rat) => if g = 1 then cmOf (sqrtQ x) else microRad (sqrtQ x)
  event (conflictCode g) 3 [m % 2 ^ 32, m / 2 ^ 32, u (sep2 s w.1 w.2), u (compGate2 s e w.1 w.2)] (raiseAlarm (conflictCode g) 0xFF 3 (m % 2 ^ 32) s1)

/-- The outliers among candidates (R160). -/
def outliers (s : State) (e : Word) (c : List Nat) : List Nat :=
  c.filter fun i => decide (2 * (c.countP (disagree s e i)) > c.length - 1)

/-- An outlier (R161): masked, the gate penalty taken once, report and event 0x0310 with the nearest of the agreeing candidates. -/
def markOutlier (e : Word) (c used : List Nat) (s : State) (n : Nat) : State :=
  let s1 := updRt n (fun x => { x with
    held := false, mask := (x.mask &&& ~~~8) ||| 4, state := 4, counts := addAt x.counts 7 1, recover := 0
    confidence := if x.penalty.getLsbD 0 then x.confidence else x.confidence - 32, penalty := x.penalty ||| 1 }) s
  let k := used.foldl (fun a m => if sep2 s n m < sep2 s n a then m else a) (used.headD n)
  let g := groupOf (kindOf s n)
  event 0x0310 3 [n, cmIn g (sqrtQ (sep2 s n k)), cmIn g (sqrtQ (compGate2 s e n k)), c.length] (report 0x0310 3 0xFF n s1)

/-- Held streams that agree with the majority are released at confidence 64 (R163). -/
def freeHeld (n : Nat) (s : State) : State :=
  updRt n (fun x => if x.held then { x with held := false, confidence := 64, mask := 0, state := 7, agreeRun := 0 } else x) s

/-- The alarm of a group's conflict clears in the epoch in which none of its streams remains held (R163). -/
def settleConflict (g : Nat) (s : State) : State := if (heldIn s g).isEmpty then clearAlarm (conflictCode g) 0xFF s else s

/-- The candidates of a group (R160): not masked before the comparison, and held streams with a value. -/
def candidates (s : State) (e : Word) (g : Nat) : List Nat :=
  (presentIn s e g).filter fun n => (rtOf s n).held || (rtOf s n).mask = 0

/-- The candidates that are compared. A conflict among held streams alone stands on; held streams stand apart from a preferred one, which they
would hold again, unless a further candidate gives the group a majority (R163, Table 5.12). -/
def compared (s : State) (e : Word) (g : Nat) : List Nat :=
  let all := candidates s e g
  let free := all.filter fun n => !(rtOf s n).held
  let pref := match s.fus.preferred with | some p => free.contains p | none => false
  let majority := decide (free.length ≥ 2) && decide (all.length ≥ 3) && decide ((outliers s e all).length < all.length)
  if free.isEmpty then [] else if pref && !majority then free else all

/-- The comparison of one group: the streams it uses (R160, R163). DESIGN CHOICE (row 62): of two candidates that agree, one of them held, only the free one
is used, since R163 gives no such end of a conflict. -/
def compareGroup (e : Word) (g : Nat) (s : State) : State × List Nat :=
  let c := compared s e g
  if c.length ≥ 3 then
    let out := outliers s e c
    if out.length = c.length then (conflict e g c s, [])
    else
      let used := c.filter fun n => !out.contains n
      (out.foldl (markOutlier e c used) (used.foldl (fun t n => freeHeld n t) s), used)
  else if c.length = 2 && disagree s e (c.headD 0) (c.getLastD 0) then (conflict e g c s, [])
  else (s, c.filter fun n => !(rtOf s n).held)

/-- Held streams timed against the preferred one (R163): consecutive agreement. -/
def agreeSteps (e : Word) (g : Nat) (s : State) : State :=
  match s.fus.preferred with
  | none => s
  | some p =>
    if groupOf (fsFld s p 8 8) ≠ g then s
    else (heldIn s g).foldl (fun t n =>
      updRt n (fun x => { x with agreeRun := if (ageAt s e n).isSome && !disagree s e p n then x.agreeRun + s.cyc.e else 0 }) t) s

/-- PREFERRED is cleared when its stream is disabled or masked (R164); agreement is then timed anew. -/
def dropPreference (s : State) : State :=
  match s.fus.preferred with
  | some p => if fsOn s p && (rtOf s p).mask = 0 then s
      else updFus (fun f => { f with preferred := none, streams := f.streams.map fun x => { x with agreeRun := 0 } }) s
  | none => s

/-- The used streams of a group marked: USED, or PREFERRED; each sample that entered them in this epoch enters the variance test with the innovation of the
epoch (Table 5.5; DESIGN CHOICE, row 5: the innovation of a sample is that of its stream at t_e). -/
def markUsed (used : List Nat) (s : State) : State :=
  used.foldl (fun t n => updRt n (fun x => { x with
    state := if t.fus.preferred = some n then 6 else 2, innov := (List.replicate x.news (fixed 24 (innov2 s n)) ++ x.innov).take 16 }) t) s

/-- The stream of the highest confidence, the lower number on a tie (R159). -/
def bestOf (s : State) : List Nat → Option Nat
  | [] => none
  | n :: l => match bestOf s l with
    | some m => if (rtOf s m).confidence > (rtOf s n).confidence then some m else some n
    | none => some n

/-- The selected stream of a kind (R159). -/
def selectKind (s : State) (kind : Nat) : Option Nat :=
  bestOf s ((List.range 48).filter fun n => fsOn s n && fsFld s n 8 8 = kind && (rtOf s n).mask = 0)

/-- REF_FEW (R165). -/
def refFew (k : Nat) (s : State) : State :=
  let m := fld s.fus.cfg.observer 48 8
  if k ≥ m then clearAlarm 0x031F 0xFF (updFus (fun f => { f with few := false }) s)
  else
    let s1 := raiseAlarm 0x031F 0xFF 3 k (updFus (fun f => { f with few := true }) s)
    if s.fus.few then s1 else event 0x031F 3 [k, m] s1

/-! ## Dead reckoning and the observer (R166 to R169, R151, R152) -/

/-- The reset test of R169: the combined measurement lies beyond max(g_min, 4·√(σ_comb² + σ_est²)) of the estimate. -/
def beyond (s : State) (e : Word) (g : Nat) (ns : List Nat) : Bool :=
  let k := s.fus.kal
  if g = 2 then
    let c := combined s e ns 2
    decide (wrapRad (c.1 - k.at 2) ^ 2 > max (gateMin 2 ^ 2) (16 * (c.2 + hdgVar k)))
  else
    let n := combined s e ns 0
    let m := combined s e ns 1
    decide ((n.1 - k.at 0) ^ 2 + (m.1 - k.at 1) ^ 2 > max (gateMin 1 ^ 2) (16 * (n.2 + posVar k)))

/-- Whether the epoch resets a group's estimate: the first measurement since reset, and after dead reckoning one beyond the test (R169). -/
def resetsPos (s : State) (e : Word) (used : List Nat) : Bool :=
  !used.isEmpty && ((!s.fus.posValid && s.fus.lastUsed = 0) || (s.fus.drPos && beyond s e 1 used))
def resetsHdg (s : State) (e : Word) (used : List Nat) : Bool :=
  !used.isEmpty && ((!s.fus.hdgValid && !s.fus.hdgSeen) || (s.fus.drHdg && beyond s e 2 used))

/-- Position after an epoch's comparison: dead reckoning begins or ends (R168, R169). -/
def posStep (e : Word) (used : List Nat) (s : State) : State :=
  let f := s.fus
  if used.isEmpty then
    let s1 := updFus (fun f => { f with drPos := true, drPosEpochs := f.drPosEpochs + 1, refUsed := 0 }) s
    if f.drPos then s1 else event 0x0316 2 [f.lastUsed] s1
  else
    let s1 := updFus (fun f => { f with drPos := false, drPosEpochs := 0, refUsed := used.length, lastUsed := used.length, posValid := true }) s
    let s2 := clearAlarm 0x0317 0xFF (updFus (fun f => { f with posLost := false }) s1)
    if resetsPos s e used then event 0x0318 2 [1, cmOf (combined s e used 0).1, cmOf (combined s e used 1).1] s2 else s2

/-- Heading likewise. -/
def hdgStep (e : Word) (used : List Nat) (s : State) : State :=
  if used.isEmpty then updFus (fun f => { f with drHdg := true, drHdgEpochs := f.drHdgEpochs + 1, hdgUsed := 0 }) s
  else
    let s1 := updFus (fun f => { f with hdgSeen := true, drHdg := false, drHdgEpochs := 0, hdgUsed := used.length, hdgValid := true }) s
    let s2 := clearAlarm 0x031B 0xFF (updFus (fun f => { f with hdgLost := false }) s1)
    if resetsHdg s e used then event 0x0318 2 [2, microRad (oneTurn (combined s e used 2).1)] s2 else s2

/-- The origin fixed at the first combined absolute measurement: the position from which it reads the prior estimate, or (0, 0) when POS_VALID is
clear; the absolute streams are brought into its plane (R152). -/
def fixOrigin (e : Word) (used : List Nat) (s : State) : State :=
  let abs := used.filter fun n => fsFld s n 8 8 = 1 || fsFld s n 8 8 = 5
  if s.fus.originFixed || abs.isEmpty then s
  else
    let o := planeOrigin s
    let p := fromPlane o (combined s e abs 0).1 (combined s e abs 1).1
    let at_ := fun (i : Nat) => if s.fus.posValid then s.fus.kal.at i else 0
    let fix := originFor p (at_ 0) (at_ 1) 12 o
    alignStreams e { s with
      fus := { s.fus with originFixed := true }
      dp := { s.dp with originLat := geoUnits 31 fix.1, originLon := geoUnits 31 fix.2 } }

/-- A sensor quantity as STATE carries it: quantity `q` of the selected stream of a kind, in its own format. -/
def sensorQty (s : State) (e : Word) (kind q slot : Nat) : Int :=
  match selectKind s kind with
  | some n => sat32 (toUnits (40 + slot) 0 (vAt (rtOf s n).meas q))
  | none => Config.noSensor slot e

/-- The observer updated and its estimate published (R151, R166 to R168): roll and pitch 0 without motion. -/
def observe (e : Word) (hs ps : List Nat) (resetH resetP : Bool) (s : State) : State :=
  let k := posterior s e hs ps resetH resetP
  let motion := (selectKind s 7).isSome
  let roll := fun (q : Nat) => if motion then sensorQty s e 7 q (14 + q) else 0
  let dir := match selectKind s 8 with
    | some n => toUnits 18 0 (vAt (rtOf s n).meas 1 / 65536)
    | none => Config.noSensor 18 e
  let est := published k ++ [roll 0, roll 1, sensorQty s e 8 0 16, sensorQty s e 10 0 17, Int.ofNat (intBits 16 dir), 0]
  let out := farOut [k.at 0, k.at 1]
  updFus (fun f => { f with kal := k, est := est, estEpoch := e, noMotion := !motion, posValid := f.posValid && !out }) s

/-- What the ring keeps of an epoch (step 9 of Table 5.7). -/
def ringEntry (e : Word) (bias : Vec) (prior : Kal) (tau : Vec) (att : List Nat × Option Nat) (hs ps : List Nat) (resetH resetP : Bool) (s : State) : RingEnt :=
  { epoch := e, bias := bias, prior := prior, post := s.fus.kal, tau := tau, hdgs := hs, refs := ps, resetHdg := resetH, resetPos := resetP
    attHdgs := att.1, attMotion := att.2
    streams := s.fus.streams.map fun x => {
      state := x.state, mask := x.mask.toNat, confidence := x.confidence, samples := x.samples, anchor := x.anchor } }

/-- The fusion of one epoch with its commit (Table 5.7). -/
def fuseEpoch (e : Word) (recs : List Contrib) (s : State) : State :=
  let xs := recs.filter (·.kind = 1)
  let s0 := updFus (fun f => { f with lateApplied := false, streams := f.streams.map fun x => { x with news := 0 } }) s
  let s1 := (xs.filter (!·.late)).foldl (takeSample e) s0
  let s2 := (xs.filter (·.late)).foldl (takeLate e) s1
  let tau := feedbackForce s2
  let prior := predict s2.fus.cfg.observer (epochSec s2 * max 1 (epochDiff e s2.fus.estEpoch)) tau s2.fus.kal
  let bias := s2.fus.kal.bias
  let s3 := captureAnchors e (alignStreams e (attitudeRefs e (updFus (fun f => { f with kal := prior }) s2)))
  let att := (s3.fus.attHdgs, s3.fus.attMotion)
  let s4 := dropPreference ((List.range 48).foldl (testStream e) s3)
  let h := compareGroup e 2 (agreeSteps e 2 s4)
  let resetH := resetsHdg h.1 e h.2
  let s5 := settleConflict 2 (hdgStep e h.2 (markUsed h.2 h.1))
  let p := compareGroup e 1 (agreeSteps e 1 s5)
  let fixed_ := fixOrigin e p.2 (markUsed p.2 p.1)
  let resetP := resetsPos fixed_ e p.2
  let s6 := settleConflict 1 (refFew (candidates s5 e 1).length (posStep e p.2 fixed_))
  let sel := [7, 8, 9, 10].filterMap (selectKind s6)
  let s7 := dropPreference (markUsed sel ((List.range 48).foldl confEvents s6))
  let s8 := observe e h.2 p.2 resetH resetP (if p.2.isEmpty then updFus (fun f => { f with kal := freezeBias bias f.kal }) s7 else s7)
  let s9 := updFus (fun f => { f with
    conflict := !(heldIn s7 1).isEmpty, attHdgs := h.2, attMotion := selectKind s7 7 }) s8
  updFus (fun f => { f with ring := (ringEntry e bias prior tau att h.2 p.2 resetH resetP s9 :: f.ring).take 8 }) s9

/-- A number of epochs after the last fused one, without contributions (R370). -/
def fuseEmpty : Nat → State → State
  | 0, s => s
  | n + 1, s => fuseEmpty n (fuseEpoch (s.fus.estEpoch + 1) [] s)

/-- The fusion of a committed epoch; epochs since the last fused one that no image carries are epochs without contributions (R370). -/
def fuse (e : Word) (recs : List Contrib) (s : State) : State :=
  fuseEpoch e recs (if s.fus.ring.isEmpty then s else fuseEmpty (epochDiff e s.fus.estEpoch - 1).toNat s)

/-! ## Rows of the fusion events -/

/-- POS_LOST (R168): dead reckoning has reached its limit. -/
def execPosLost (heading : Bool) (s : State) : Res :=
  let o := s.fus.cfg.observer
  if !s.isMgrRole then .next s
  else if heading then
    let sec := s.fus.drHdgEpochs * s.cyc.e / 1000
    if !s.fus.drHdg || s.fus.hdgLost || sec < fld o 96 8 then .next s
    else .next (event 0x031B 3 [sec] (raiseAlarm 0x031B 0xFF 3 sec (updFus (fun f => { f with hdgLost := true, hdgValid := false }) s)))
  else
    let sec := s.fus.drPosEpochs * s.cyc.e / 1000
    if !s.fus.drPos || s.fus.posLost || sec < fld o 80 16 then .next s
    else .next (event 0x0317 3 [sec] (raiseAlarm 0x0317 0xFF 3 sec (updFus (fun f => { f with posLost := true, posValid := false }) s)))

/-- PREFERENCE_RELEASE (R163): held streams that have agreed for 30 s. -/
def execPreferenceRelease (s : State) : Res :=
  if s.fus.preferred.isNone then .next s
  else
    let s1 := ((List.range 48).filter fun n => (rtOf s n).held && decide ((rtOf s n).agreeRun ≥ 30000)).foldl (fun t n => freeHeld n t) s
    .next (settleConflict 1 (settleConflict 2 s1))

end Sys2Proof.Machine
end

