-- ==== Sys2Proof/Machine/Commit.lean ====
section
/-! DEFINITION. What the records of a committed epoch do on every manager that computes in step: status values, thruster
availability, the power plant, solver outcomes, scenarios, build reports, compare reports, merged alarms (R208 to R213, R220 to
R223, R258 to R264, R339, R343, R344, R354 to R356, R366, R383). -/

namespace Sys2Proof.Machine

/-! ## Values of the status kinds (R366) -/

/-- Records of a kind (Table 11.8). -/
def ofKind (k : Nat) (cs : List Contrib) : List Contrib := cs.filter (·.kind = k)

/-- The record of the latest EPOCH tag, the last in commit order on a tie. -/
def latestTag : List Contrib → Option Contrib
  | [] => none
  | c :: cs =>
    match latestTag cs with
    | some d => if epochDiff c.epoch d.epoch > 0 then some c else some d
    | none => some c

/-- The value of one key: the last on-time record, else the LATE record of the latest tag (R366). -/
def chosen (cs : List Contrib) : Option Contrib :=
  match (cs.filter (!·.late)).getLast? with
  | some c => some c
  | none => latestTag (cs.filter (·.late))

/-- A DEVICES record shows a member (Table 11.5). -/
def DevRec.member (d : DevRec) : Bool := 1 ≤ d.role && d.role ≤ 4

/-- A device's DEVICES record after an epoch's records: MISSED from the epoch after the join (R376, R378). -/
def devStep (e : Word) (cs : List Contrib) (dev : Nat) (d : DevRec) : DevRec :=
  if !d.member then d
  else
    let rs := (ofKind 9 cs).filter (·.src = dev)
    let d1 := if d.joinEpoch = e then d else { d with missed := if rs.any (!·.late) then 0 else min 3 (d.missed + 1) }
    let d2 := { d1 with lates := min 65535 (d1.lates + cs.countP fun c => c.late && c.src = dev) }
    match chosen rs with
    | some c => { d2 with
        causes := BitVec.ofNat 16 (bits c.body 48 16), hifState := bits c.body 32 8, timeState := bits c.body 28 4
        netA := bit c.body 27, netB := bit c.body 26 }
    | none => d2

/-- DEVICE_STATUS records taken. -/
def commitDevices (e : Word) (cs : List Contrib) (s : State) : State :=
  { s with brd := { s.brd with devices := s.brd.devices.zipIdx.map fun x => devStep e cs x.2 x.1 } }

/-! ## Thrusters (R208, R303, R383) -/

/-- AVAIL_STATE and REASON of a defined thruster (Table 11.6): device absent, safe state, feedback lost, fault, not ready, not
deployed. -/
def availOf (kind : Nat) (dev : DevRec) (lost : Bool) (flags : Nat) : Nat × Nat :=
  if !dev.member then (2, 1)
  else if dev.causes ≠ 0 then (2, 4)
  else if lost then (2, 6)
  else if bit flags 2 then (2, 3)
  else if !bit flags 1 then (2, 2)
  else if kind = 3 && !bit flags 0 then (3, 5)
  else (1, 0)

/-- The record of thruster number `thr` that manager `m` sent for an epoch, as far as it is held here (R338, R340). -/
def sentBy (s : State) (m : Nat) (f : BitVec 16) (thr : Nat) : Option CmdRec :=
  if m = s.dev then (s.loop.sent.find? (·.1 = f)).bind fun x => x.2.find? (·.thr = thr)
  else match s.loop.cmds.getD m none with
    | some x => if x.1 = f then x.2.find? (·.thr = thr) else none
    | none => none

/-- CMP_OUTCOME and the applied command of a thruster after an epoch (Table 11.6, R342, R383): a compare report names the manager whose record the
worker applied; feedback without a report says that all agreed with the ACTIVE manager. DEDUCED (row 59): no record of Table 11.8 carries the command
itself. -/
def appliedStep (e : Word) (cs : List Contrib) (s : State) (n : Nat) (on : Bool) (r : ThrRec) : ThrRec :=
  let put := fun (cmp m : Nat) (f : Word) (x : ThrRec) => match sentBy s m (f.setWidth 16) (n + 1) with
    | some q => { x with cmp := cmp, cmdThrust := q.thrust, cmdAngle := q.angle, cmdEpoch := f }
    | none => { x with cmp := cmp }
  let told := (ofKind 4 cs).filter fun c => bits c.body 0 8 = n + 1
  let one := fun (x : ThrRec) (c : Contrib) =>
    if epochDiff (wd (bits c.body 96 32)) x.cmdEpoch < 0 then x
    else if bits c.body 40 8 = 0xFF then { x with cmp := bits c.body 8 8 } else put (bits c.body 8 8) (bits c.body 40 8) (wd (bits c.body 96 32)) x
  let f := e - 1
  let agreed := on && !told.any (fun c => bits c.body 96 32 = f.toNat) && (sentBy s s.brd.active (f.setWidth 16) (n + 1)).isSome
  let r1 := told.foldl one r
  if agreed then put 0 s.brd.active f r1 else r1

/-- A THRUSTERS record after an epoch's records (R366, R383). -/
def thrStep (e : Word) (cs : List Contrib) (s : State) (n : Nat) : ThrRec :=
  let p := s.cfg.thrusters.getD n []
  let old := s.brd.thr.getD n {}
  if p.isEmpty then {}
  else
    let dev := s.brd.devices.getD (thrFld p 16 8) {}
    let rs := (ofKind 2 cs).filter fun c => bits c.body 0 8 = n + 1
    let on := rs.any (!·.late)
    let quiet := if !dev.member || on || dev.joinEpoch = e then 0 else min 3 (old.quiet + 1)
    let v := match chosen rs with
      | some c =>
        { old with
          fbThrust := wd (bits c.body 32 32), fbAngle := wd (bits c.body 64 32), fbKw := wd (bits c.body 96 32)
          flags := BitVec.ofNat 8 (bits c.body 8 5) }
      | none => { old with flags := (old.flags &&& 0x1F) ||| 0x40 }
    let a := availOf (thrFld p 8 8) dev (old.reason = 6 && quiet ≥ 3) v.flags.toNat
    let first := decide (e = s.cyc.dpFirst)
    { appliedStep e cs s n on v with
      number := n + 1, kind := thrFld p 8 8, dev := thrFld p 16 8, section_ := thrFld p 24 8, avail := a.1, reason := a.2
      flags := if dev.causes ≠ 0 then v.flags ||| 0x20 else v.flags, quiet := quiet
      offered := a.1 = 1 && (if first then old.avail = 1 else old.offered) }

/-- Defined thrusters that the DP cycle does not offer to allocation: UNAVAIL (R208, R263). -/
def unavailMask (s : State) : Nat :=
  (List.range 24).foldl (fun a n =>
    if !(s.cfg.thrusters.getD n []).isEmpty && !(s.brd.thr.getD n {}).offered then a + 2 ^ n else a) 0

/-- A leaver's thruster: UNAVAILABLE with REASON 1 (R380). -/
def absentThr (r : ThrRec) : ThrRec := { r with avail := 2, reason := 1, quiet := 0, offered := false }

/-- One THRUSTERS record replaced, with event 0x1017 on a change of availability. -/
def setThr (e : Word) (n : Nat) (r : ThrRec) (s : State) : State :=
  let old := (s.brd.thr.getD n {}).avail
  let s1 := { s with brd := { s.brd with thr := s.brd.thr.set n r } }
  if old = r.avail then s1 else event 0x1017 2 [n + 1, old, r.avail, e.toNat] s1

/-- THRUSTER_FB records taken. -/
def commitThrusters (e : Word) (cs : List Contrib) (s : State) : State :=
  (List.range 24).foldl (fun t n => setThr e n (thrStep e cs s n) t) s

/-! ## Power plant (R202, R203, R211 to R213) -/

/-- The latest SECTION_STATUS of section `n`. -/
def sectionBody (s : State) (n : Nat) : Nat := s.brd.sections.getD (n - 1) 0

/-- The sections that a device reports. -/
def reportedBy (s : State) (dev : Nat) : List Nat :=
  ((powSections s.cfg.power).filter fun x => u8 x 1 = dev).map fun x => u8 x 0

/-- Generator set `g` is reported running with its breaker closed by its reporting device (R211). -/
def genOnline (s : State) (g : List Byte) : Bool :=
  (reportedBy s (u8 g 2)).any fun n => bit (bits (sectionBody s n) 48 16) (u8 g 0 - 1) && bit (bits (sectionBody s n) 32 16) (u8 g 0 - 1)

/-- A tie is reported closed by its reporting device (R203). -/
def tieClosed (s : State) (t : List Byte) : Bool :=
  (reportedBy s (u8 t 3)).any fun n => bit (bits (sectionBody s n) 24 8) (u8 t 0 - 1)

/-- One pass of lowering section labels over closed ties. -/
def tiePass (s : State) (g : List Nat) : List Nat :=
  ((powTies s.cfg.power).filter (tieClosed s)).foldl (fun g t =>
    let m := min (g.getD (u8 t 1) 0) (g.getD (u8 t 2) 0)
    (g.set (u8 t 1) m).set (u8 t 2) m) g

/-- Lowest section of each section's group, by section number (R203); six passes reach every section. -/
def groupTable (s : State) : List Nat := (List.range 6).foldl (fun g _ => tiePass s g) (List.range 7)

/-- Thruster power measured in section `n`, kW. -/
def thrKw (s : State) (n : Nat) : Nat :=
  ((s.brd.thr.filter fun r => r.number ≠ 0 && r.section_ = n).map (·.fbKw.toNat)).sum

/-- The POWER record of section `n` from what is reported, its group sums still to come. -/
def powStep (s : State) (groups : List Nat) (n : Nat) : PowRec :=
  let old := s.brd.pow.getD (n - 1) {}
  match powSection s.cfg.power n with
  | none => {}
  | some p =>
    let body := sectionBody s n
    let gens := (powGens s.cfg.power).filter fun g => u8 g 1 = n && genOnline s g
    let mask := gens.foldl (fun a g => a + 2 ^ (u8 g 0 - 1)) 0
    let load := bits body 96 32
    let tk := thrKw s n
    let measured := load - tk
    let hotel := if u8 p 2 = 1 then max (u32 p 12) measured else u32 p 12
    let tied := (List.range 7).any fun m => m ≠ 0 && m ≠ n && groups.getD m 0 = groups.getD n 0
    { old with
      number := n, group := groups.getD n n, genOn := BitVec.ofNat 16 mask, online := (gens.map fun g => u32 g 4).sum
      reserve := u32 p 4, hotel := hotel, thr := tk, factor := u16 p 16, load := load, avail := 0, plan := 0
      flags := BitVec.ofNat 8 (pack [(1, (s.brd.thr.any fun r => r.section_ = n && r.flags.getLsbD 3).toNat), (1, 0), (1, bits body 16 1),
        (1, (u8 p 2 = 1 && measured > u32 p 12 : Bool).toNat), (1, tied.toNat), (1, gens.isEmpty.toNat)]) }

/-- Sum of a quantity over a group. -/
def groupSum (l : List PowRec) (g : Nat) (f : PowRec → Nat) : Nat := ((l.filter fun r => r.number ≠ 0 && r.group = g).map f).sum

/-- Thruster numbers of a list whose section a plant's records put into a group (R203). -/
def thrOfGroup (s : State) (plant : List PowRec) (l : List Nat) (g : Nat) : List Nat :=
  l.filter fun t => plant.any fun r => r.number ≠ 0 && r.number = thrFld (thrDef s t) 24 8 && r.group = g

/-- Stage-1 planned thruster power of a group in kW (R213): the agreed solution's power variables. -/
def plannedKw (s : State) (l : List PowRec) (g : Nat) : Nat :=
  let p := (s.dp.agreed.getD []).headD []
  intBits 32 (toUnits 40 0 (1000 * ((thrOfGroup s l (thrIn s 0) g).map fun t => match p[t]? with | some x => x.power | none => 0).sum))

/-- A POWER record with its group's sums: AVAIL of R202 in the lowest section, the reserve limit and its runs of epochs; a section that heads no
group any longer is within the limit (R212). -/
def powGroup (s : State) (l : List PowRec) (r : PowRec) : PowRec :=
  if r.number = 0 then r
  else
    let g := r.group
    let on := groupSum l g (·.online)
    let res := groupSum l g (·.reserve)
    let isOver := groupSum l g (·.load) + res > on
    let flagged := if isOver then r.flags ||| 2 else r.flags
    let head := r.number = g
    { r with
      avail := if head then on - (res + groupSum l g (·.hotel)) else 0, plan := plannedKw s l g, flags := flagged
      overRun := if head && isOver then min 3 (r.overRun + 1) else 0, okRun := if !head || !isOver then min 3 (r.okRun + 1) else 0 }

/-- SECTION_STATUS records taken and the POWER section computed. -/
def commitPower (cs : List Contrib) (s : State) : State :=
  let bodies := s.brd.sections.zipIdx.map fun x =>
    match chosen ((ofKind 3 cs).filter fun c => bits c.body 0 8 = x.2 + 1) with
    | some c => c.body
    | none => x.1
  let s1 := { s with brd := { s.brd with sections := bodies } }
  let g := groupTable s1
  let l := [1, 2, 3, 4, 5, 6].map (powStep s1 g)
  let s2 := { s1 with brd := { s1.brd with pow := l.map (powGroup s1 l) } }
  if s.brd.pow.any (·.alarm) && !s2.brd.pow.any (·.alarm) then clearAlarm 0x1018 0xFF s2 else s2

/-! ## Merged alarms (R354 to R356) -/

/-- Codes of alarms with a clearing rule of their own: a report of one with STANDING clear opens no entry (R356). -/
def ownRule : List Nat :=
  [0x0C23, 0x0C24, 0x1013, 0x1018, 0x1016, 0x0311, 0x031A, 0x031F, 0x0317, 0x031B, 0x0110, 0x0914, 0x0614, 0x091C, 0x0915, 0x040A, 0x040B, 0x040E,
    0x0D13]

/-- One report merged into its entry, or opening one (R354, R355). -/
def mergeReport (e : Word) (code : BitVec 16) (subj src sev : Nat) (detail : Word) (standing opens : Bool) (s : State) : State :=
  let b := BitVec.ofNat 64 (2 ^ src)
  let hit := fun (a : Alarm) => a.code = code && a.subject = subj
  if s.brd.alarms.any hit then
    let go := fun (a : Alarm) =>
      if !hit a then a
      else { a with
        sev := max a.sev sev, last := e, reporters := a.reporters ||| b, quiet := 0, everStanding := a.everStanding || standing
        standing := if standing then a.standing ||| b else a.standing &&& ~~~b
        supp := if standing && a.standing.getLsbD src then a.supp else satInc a.supp }
    { s with brd := { s.brd with alarms := s.brd.alarms.map go } }
  else if !opens then s
  else
    let a : Alarm := {
      code := code, subject := subj, sev := sev, detail := detail, first := e, last := e, reporters := b, standing := if standing then b else 0
      everStanding := standing }
    event 0x0C20 3 [code.toNat, subj, src, e.toNat] { s with brd := { s.brd with alarms := s.brd.alarms ++ [a], alarmGen := s.brd.alarmGen + 1 } }

/-- What a record says of standing: keys and whether they stand (R354). -/
def standingOf (c : Contrib) : List (BitVec 16 × Nat × Bool) :=
  if c.kind = 8 then [(BitVec.ofNat 16 (bits c.body 0 16), c.subject, bit c.body 24)]
  else ([0, 1, 2].filter fun m => bit (bits c.body 32 8) m).map (fun m => (0x0C22, m, false)) ++ if bits c.body 8 8 = 3 then [(0x0C23, 0xFF, false)] else []

/-- Who reports an entry standing after a commit's reports, as every manager tracks it (R354, R355). -/
def trackStanding (cs : List Contrib) (l : List Alarm) : List Alarm :=
  let one := fun (c : Contrib) (l : List Alarm) (k : BitVec 16 × Nat × Bool) =>
    let b := BitVec.ofNat 64 (2 ^ c.src)
    l.map fun a => if a.code = k.1 && a.subject = k.2.1 then
        { a with standing := if k.2.2 then a.standing ||| b else a.standing &&& ~~~b, everStanding := a.everStanding || k.2.2 } else a
  (ofKind 4 cs ++ ofKind 8 cs).foldl (fun l c => (standingOf c).foldl (one c) l) l

/-- A FAULT_REPORT record merged (Table 11.8). -/
def mergeFault (s : State) (c : Contrib) : State :=
  let st := bit c.body 24
  mergeReport c.epoch (BitVec.ofNat 16 (bits c.body 0 16)) c.subject c.src (bits c.body 16 8) (wd (bits c.body 32 32)) st
    (st || !ownRule.contains (bits c.body 0 16)) s

/-- A compare report merged: one report per minority manager, and one of a SPLIT (R342, R354). -/
def mergeCompare (s : State) (c : Contrib) : State :=
  let thr := wd (bits c.body 0 8)
  let s1 := [0, 1, 2].foldl (fun t m =>
    if bit (bits c.body 32 8) m then mergeReport c.epoch 0x0C22 m c.src 3 thr false true t else t) s
  if bits c.body 8 8 = 3 then mergeReport c.epoch 0x0C23 0xFF c.src 3 thr false true s1 else s1

/-- Digests of counted managers against the ACTIVE manager's own (R339). -/
def mergeDigests (e : Word) (cs : List Contrib) (s : State) : State :=
  let dig := fun m => ((ofKind 6 cs).filter fun c => c.src = m && !c.late).getLast?.map (bits ·.body 0 32)
  match dig s.dev with
  | none => s
  | some own => s.countedMgrs.foldl (fun t m =>
      match dig m with
      | some d =>
        if m = s.dev || d = own then t
        else mergeReport e 0x0C28 m s.dev 3 (wd m) false true (event 0x0C28 3 [m, e.toNat, own, d] t)
      | none => t) s

/-- The ACTIVE manager's merge at a commit: every entry ages, then the reports of the commit (R354). -/
def commitAlarms (e : Word) (cs : List Contrib) (s : State) : State :=
  let s1 := { s with brd := { s.brd with alarms := s.brd.alarms.map fun a => { a with quiet := min 3 (a.quiet + 1) } } }
  (ofKind 8 cs).foldl mergeFault ((ofKind 4 cs).foldl mergeCompare (mergeDigests e cs s1))

/-! ## Compare reports (R343, R344) -/

/-- An epoch is a command epoch by its index in the DP cycle, and in DEGRADED every epoch is (R51, R225). -/
def isCmdEpoch (s : State) (f : Word) : Bool :=
  s.dp.mode = 7 || epochDiff f s.cyc.dpFirst % (s.cyc.k : Int) = ((4 * s.cyc.k / 5 + 1 : Nat) : Int) % (s.cyc.k : Int)

/-- The run of consecutive command epochs in which a manager is named, around each epoch of `at_` (R343): the longest. -/
def runAround (all named at_ : List Word) : Nat :=
  let step := fun (x : Nat × Bool × Nat) (f : Word) =>
    -- the run in hand, whether it holds an epoch of `at_`, and the longest that does
    if named.contains f then
      let hit := x.2.1 || at_.contains f
      (x.1 + 1, hit, if hit then max x.2.2 (x.1 + 1) else x.2.2)
    else (0, false, x.2.2)
  (all.reverse.foldl step (0, false, 0)).2.2

/-- MINORITY runs and the SPLIT countdown (R343, R344): a command epoch counts at the commit of the epoch after it, a report of it whenever it is
committed. -/
def commitCompares (e : Word) (cs : List Contrib) (s : State) : State :=
  let cmd := isCmdEpoch s (e - 1)
  let rs := ofKind 4 cs
  let epochs := if cmd then ((e - 1) :: s.mem.cmdEpochs).take 32 else s.mem.cmdEpochs
  let told := fun (m : Nat) => (rs.filter fun c => bit (bits c.body 32 8) m).map fun c => wd (bits c.body 96 32)
  let named := s.mem.named.zipIdx.map fun x => (x.1 ++ told x.2).filter epochs.contains
  let runs := named.zipIdx.map fun x => runAround epochs x.1 (told x.2 ++ epochs.take 1)
  let s1 := { s with mem := { s.mem with minority := runs, cmdEpochs := epochs, named := named } }
  match (rs.filter fun c => bits c.body 8 8 = 3).head? with
  | some c =>
    raiseAlarm 0x0C23 0xFF 3 (bits c.body 0 8)
      { s1 with mem := { s1.mem with splitOn := true, splitLeft := fld s.cfg.redundancy 32 16 } }
  | none => { s1 with mem := { s1.mem with splitLeft := s1.mem.splitLeft - cmd.toNat } }

/-! ## Solver outcomes (R220 to R223, R256 to R261, R265) -/

/-- Words of a scenario's result list: 0 result, 1 FAIL_RUN, 2 cycles without evaluation, 3 POS, 4 HDG, 5 POWER, 6 UTIL, 7 RES_CYCLE. -/
def scenOf (s : State) (n : Nat) : List Int := s.dp.scen.getD n (List.replicate 8 0)

/-- A quantity of a solution: the mantissa of variable `j` at stage `k` with Z's exponent (R241). -/
def solVal (x : Stall) (l : List StageSol) (k j : Nat) : Rat := ((l.getD (k - 1) {}).z.getD j 0 : Int) * (2 : Rat) ^ (blockFor x.desc 0x10 k).exp

/-- AVAIL of a group of the cycle's plant without lost generator sets and sections, with or without RESERVE_KW (R202, R218). -/
def plantAvail (s : State) (lostG lostS : Nat) (reserve : Bool) (g : Nat) : Nat :=
  let rs := s.sol.plant.filter fun r => r.number ≠ 0 && r.group = g && !lostS.testBit (r.number - 1)
  let on := (rs.map fun r =>
    (((powGens s.cfg.power).filter fun x => u8 x 1 = r.number && r.genOn.getLsbD (u8 x 0 - 1) && !lostG.testBit (u8 x 0 - 1)).map (u32 · 4)).sum).sum
  on - ((if reserve then (rs.map (·.reserve)).sum else 0) + (rs.map (·.hotel)).sum)

/-- Groups of the cycle's plant that keep a section (R203, R218). -/
def groupsLeft (s : State) (lostS : Nat) : List Nat :=
  (((s.sol.plant.filter fun r => r.number ≠ 0 && !lostS.testBit (r.number - 1)).map (·.group))).dedup

/-- Generator sets and sections that a scenario loses; a lost section's generator sets are lost with it (R217). -/
def scenGens (s : State) (n : Nat) : Nat := ule (s.cfg.scens.getD n []) 12 2
def scenSects (s : State) (n : Nat) : Nat := u8 (s.cfg.scens.getD n []) 6

/-- The four results of a scenario's solution (R220): position in cm and heading in 0.01° left of their limits, the smallest share of AVAIL left,
the largest share of a thrust limit used. -/
def scenResults (s : State) (n : Nat) : List Rat :=
  let x := stallOf s (firstScen s + n)
  let p := s.cfg.scens.getD n []
  let l := thrIn s 0
  let left := l.filter fun t => !(scenLoss s n).testBit t
  let ks := (List.range x.cand.length).map (· + 1)
  let v := solVal x x.cand
  let far := (ks.map fun k => sqrtQ (v k 0 * v k 0 + v k 1 * v k 1)).foldl max 0
  let turn := (ks.map fun k => max (v k 2) (-v k 2)).foldl max 0
  let share := ks.flatMap fun k => (groupsLeft s (scenSects s n)).map fun g =>
    let av : Rat := plantAvail s (scenGens s n) (scenSects s n) false g
    if av = 0 then Config.zeroAvail g
    else (av - 1000 * ((thrOfGroup s s.sol.plant left g).map fun t => v k (powerVar s l t)).sum) / av
  let used := ks.flatMap fun k => left.map fun t =>
    let f := v k (thrustVar s l t)
    if f ≥ 0 then f * 10 / (thrFld (thrDef s t) 112 16 : Nat) else -f * 10 / (max 1 (thrFld (thrDef s t) 128 16) : Nat)
  [(u16 p 2 : Nat) - 100 * far, (u16 p 4 : Nat) - turn * 18000 / piQ, 100 * share.foldl min 1, 100 * used.foldl max 0]

/-- Those results within their fields' ranges (Table 6.11). -/
def scenMargins (s : State) (n : Nat) : List Int :=
  let q := fun i => toUnits (41 + i) 0 ((scenResults s n).getD i 0)
  [max (-32768) (min 32767 (q 0)), max (-32768) (min 32767 (q 1)), max (-128) (min 127 (q 2)), max 0 (min 100 (q 3))]

/-- A scenario's result list after one cycle (R218, R222). -/
def scenStep (s : State) (evaluated : Bool) (n : Nat) : List Int :=
  let old := scenOf s n
  if (s.cfg.scens.getD n []).isEmpty || n ≥ s.cfg.nScen then List.replicate 8 0
  else if scenHopeless s n then [2, min 255 (old.getD 1 0 + 1), 0] ++ old.drop 3
  else if !evaluated then [3, old.getD 1 0, min 255 (old.getD 2 0 + 1)] ++ old.drop 3
  else
    let m := scenMargins s n
    let holds := decide ((scenResults s n).getD 0 0 ≥ 0) && decide ((scenResults s n).getD 1 0 ≥ 0)
    [if holds then 1 else 2, if holds then 0 else min 255 (old.getD 1 0 + 1), 0] ++ m ++ [Int.ofNat s.sol.cycle.toNat]

/-- Outcome word of manager `m` in the commit: on time only (R258). -/
def outcomeOf (cs : List Contrib) (m : Nat) : Option Nat := ((ofKind 5 cs).filter fun c => c.src = m && !c.late).getLast?.map (·.body)

/-- A word's SIGNATURE differs from the ACTIVE manager's; without a word of that one there is nothing to differ from (R258). -/
def sigDiffers (activeSig : Option Nat) (v : Nat) : Bool := match activeSig with | some a => bits v 32 32 ≠ a | none => false

/-- What makes a manager's outcome a cause of the fallback: CAUSE bits (Table 7.12). -/
def causeOf (activeSig : Option Nat) (w : Option Nat) : Nat :=
  match w with
  | none => 8
  | some v =>
    let f := bits v 72 8
    (if bit f 0 then 0 else (if bit f 1 then 1 else 0) + (if bit f 2 then 2 else 0) + (if bit f 3 then 4 else 0) + (if bit f 7 then 32 else 0)) +
      (if sigDiffers activeSig v then 16 else 0)

/-- A manager's outcome makes the cycle fall back. -/
def fallsBack (activeSig : Option Nat) (w : Option Nat) : Bool :=
  match w with
  | none => true
  | some v => !bit (bits v 72 8) 0 || sigDiffers activeSig v

/-- Managers of a mask. -/
def maskMgrs (m : BitVec 3) : List Nat := (List.range 3).filter (m.getLsbD ·)

/-- The managers counted at the commit of epoch p (R258): counted since the cycle's first epoch and still ACTIVE or STANDBY. -/
def countedNow (s : State) : List Nat := (maskMgrs s.dp.counted).filter fun m => let r := (s.brd.devices.getD m {}).role; r = 1 || r = 2

/-- The PLAN section (Table 7.12) with the outcome words of D0, D1, D2. -/
def planSec (s : State) (first : Word) (fallback : Bool) (cause mgrs : Nat) (ws : List (Option Nat)) : Nat :=
  let run := if fallback then min 255 (s.dp.shiftRun + 1) else 0
  let own := ((ws.getD s.brd.active none).getD 0)
  let f := bits own 72 8
  let thr := (ws.map fun w => bits (w.getD 0) 80 8).foldl max 0
  pack ([(32, (first + wd (4 * s.cyc.k / 5 + 1)).toNat), (8, 0), (8, thr), (1, fallback.toNat), (1, (run ≥ 5 : Bool).toNat), (1, bits f 4 1), (1, bits f 5 1),
    (1, bits f 6 1), (1, bits f 3 1), (1, s.sol.switched.toNat), (1, s.dp.building.isSome.toNat), (8, cause), (8, mgrs), (8, bits own 88 8), (8, run),
    (8, s.dp.structSource), (24, s.dp.unavail.toNat), (8, 0), (32, s.sol.cycle.toNat), (32, if fallback then s.dp.srcCycle.toNat else s.sol.cycle.toNat),
    (32, (stallOf s 0).sig.toNat), (32, if (stallOf s 0).pending then (stallOf s 0).pendSig.toNat else 0)] ++ ws.map fun w => (128, w.getD 0))

/-- A CONSEQ record (Table 6.11). -/
def conseqRec' (s : State) (n : Nat) : Nat :=
  let l := scenOf s n
  let v := fun i => l.getD i 0
  pack [(8, n), (8, (v 0).toNat), (8, 0), (8, (v 1).toNat), (32, (v 7).toNat), (16, intBits 16 (v 3)), (16, intBits 16 (v 4)), (8, intBits 8 (v 5)),
    (8, (v 6).toNat)]

/-- The CONSEQ section (Tables 6.10, 6.11). -/
def conseqSec (s : State) (evalMask : Nat) : Nat :=
  let failMask := (List.range 16).foldl (fun a n => if (scenOf s n).getD 1 0 ≥ 3 then a + 2 ^ n else a) 0
  let start := if s.cfg.nScen = 0 then 0 else s.sol.cycle.toNat % s.cfg.nScen
  pack ([(32, s.sol.cycle.toNat), (16, evalMask), (16, failMask), (8, start), (8, s.cfg.nScen), (1, (failMask ≠ 0 : Bool).toNat), (15, 0)] ++
    (List.range 16).map fun n => (128, conseqRec' s n))

/-- A stall's converged solution of the cycle becomes its last agreed one (R253, R265). -/
def takeCand (c : Word) (x : Stall) : Stall :=
  if x.candOk && x.candCycle = c then { x with sol := x.cand, solCycle := c, solSig := x.sig, solLoss := x.lossThr, hasSol := true } else x

/-- CONSEQ_FAIL clears where no FAIL_RUN is 3 or more (R222). -/
def settleConseq (s : State) : State :=
  let failing := BitVec.ofNat 16 ((List.range 16).foldl (fun a n => if (scenOf s n).getD 1 0 ≥ 3 then a + 2 ^ n else a) 0)
  let s1 := if s.dp.conseqFail && failing = 0 then clearAlarm 0x1013 0xFF { s with dp := { s.dp with conseqFail := false } } else s
  { s1 with dp := { s1.dp with conseqFailed := s1.dp.conseqFailed &&& failing } }

/-- The scenario results of the cycle (R221 to R223): solutions of evaluated scenarios become their warm sources, CONSEQ_FAIL clears
where no FAIL_RUN is 3 or more. -/
def commitScens (ws : List (Option Nat)) (counted : List Nat) (s : State) : State :=
  let ok := fun n => !counted.isEmpty && counted.all fun m => bit (bits ((ws.getD m none).getD 0) 96 16) n
  let defined := (List.range 16).filter fun n => n < s.cfg.nScen && !(s.cfg.scens.getD n []).isEmpty
  let evals := defined.filter fun n => ok n || scenHopeless s n
  let s1 := { s with dp := { s.dp with scen := (List.range 16).map fun n => scenStep s (ok n) n } }
  let s2 := (evals.filter ok).foldl (fun t n => updStall (firstScen t + n) (takeCand s.sol.cycle) t) s1
  let s3 := settleConseq s2
  let stale := (List.range 16).foldl (fun (m : BitVec 16) n => if evals.contains n then m &&& ~~~(BitVec.ofNat 16 (2 ^ n)) else m) s3.dp.conseqStale
  let s4 := { s3 with dp := { s3.dp with conseqStale := stale } }
  if defined.isEmpty then s4
  else { s4 with brd := { s4.brd with conseq := some (conseqSec s4 (evals.foldl (fun a n => a + 2 ^ n) 0)) } }

/-- Shadow solutions agreed by every counted manager (R260, R265). -/
def commitShadows (ws : List (Option Nat)) (counted : List Nat) (s : State) : State :=
  let ok := fun n => !counted.isEmpty && counted.all fun m => bit (bits ((ws.getD m none).getD 0) 112 16) n
  ((List.range (firstScen s)).filter fun n => n ≠ 0 && ok n).foldl (fun t n => updStall n (takeCand s.sol.cycle) t) s

/-- Signature differences at the commit of epoch p (R258): alarm STALL_FAULT and event 0x040E. -/
def signatureFault (activeSig : Option Nat) (w : Option Nat) (m : Nat) (s : State) : State :=
  match w with
  | some v => if sigDiffers activeSig v then event 0x040E 4 [0, activeSig.getD 0, bits v 32 32, m] (raiseAlarm 0x040E 0xFF 4 0 s) else s
  | none => s

/-- The commit of epoch p: the fallback decision, PLAN, scenarios, shadow solutions (R258 to R261). -/
def commitOutcome (e : Word) (cs : List Contrib) (s : State) : State :=
  if s.dp.mode = 0 || (stallOf s 0).desc.isEmpty || e ≠ epochP s s.cyc.dpFirst || s.sol.cycle ≠ s.cyc.dpCycle then s
  else
    let counted := countedNow s
    let ws := (List.range 3).map fun m => if counted.contains m then outcomeOf cs m else none
    let sig := (outcomeOf cs s.brd.active).map fun v => bits v 32 32
    let bad := counted.filter fun m => fallsBack sig (ws.getD m none)
    let fallback := s.dp.abandoned || !bad.isEmpty
    let cause := if s.dp.abandoned then 64 else bad.foldl (fun a m => a ||| causeOf sig (ws.getD m none)) 0
    let mgrs := (if s.dp.abandoned then counted else bad).foldl (fun a m => a + 2 ^ m) 0
    let s1 := if s.dp.abandoned then s else counted.foldl (fun t m => signatureFault sig (ws.getD m none) m t) s
    let s2 := if counted.contains s.dev && (ws.getD s.dev none).isNone then event 0x0403 2 [s.sol.cycle.toNat, e.toNat] s1 else s1
    let s3 := commitShadows ws counted (commitScens ws counted s2)
    { s3 with
      sol := { s3.sol with outcomes := ws }
      dp := { s3.dp with decision := some fallback, fbMgrs := BitVec.ofNat 3 mgrs, fbCause := BitVec.ofNat 8 cause }
      brd := { s3.brd with plan := some (planSec s3 s.cyc.dpFirst fallback cause mgrs ws) } }

/-! ## Derived builds (R263, R264) -/

/-- BUILD_DONE records noted by manager, late ones too (R366): of a derived build the chosen one, with LOSS masks at 0 every signature of a scenario's
structure (R240). -/
def noteBuilds (cs : List Contrib) (s : State) : State :=
  let of_ := fun (m : Nat) => (ofKind 7 cs).filter (·.src = m)
  let l := s.dp.built.zipIdx.map fun x =>
    match chosen ((of_ x.2).filter fun c => bits c.body 0 24 ≠ 0) with
    | some c => some (bits c.body 0 24, wd (bits c.body 32 32))
    | none => x.1
  let sc := s.dp.scenBuilt.zipIdx.map fun x =>
    x.1 ++ (((of_ x.2).filter fun c => bits c.body 0 24 = 0).map fun c => wd (bits c.body 32 32)).filter fun g => !x.1.contains g
  { s with dp := { s.dp with built := l, scenBuilt := sc } }

/-- The counted managers' reports for the running build. -/
def buildReports (s : State) : List (Nat × Word) :=
  match s.dp.building with
  | some mask => s.countedMgrs.filterMap fun m =>
      match s.dp.built.getD m none with
      | some b => if b.1 = mask.toNat then some (m, b.2) else none
      | none => none
  | none => []

/-- This manager's derived signature of the running build: as reported, else as it builds it. -/
def ownBuild (s : State) : Word :=
  match (buildReports s).find? (·.1 = s.dev), s.dp.building with
  | some x, _ => x.2
  | none, some mask => signature (derivedDesc s (stallOf s 0).mainDesc mask.toNat)
  | none, none => 0

/-- Two counted managers' reports for the running build differ: the managers whose signature differs from this one's (R264). -/
def buildDiffers (s : State) : Option (List (Nat × Word)) :=
  let rs := buildReports s
  if rs.any fun x => x.2 ≠ (rs.headD (0, 0)).2 then some (rs.filter fun x => x.2 ≠ ownBuild s) else none

/-- Build reports of a commit: signatures that differ end the build on every manager (R264). -/
def commitBuilds (cs : List Contrib) (s : State) : State :=
  let s1 := noteBuilds cs s
  match buildDiffers s1 with
  | none => s1
  | some ds =>
    let s2 := if s1.isActive then
        ds.foldl (fun t d => event 0x040E 4 [0, (ownBuild s1).toNat, d.2.toNat, d.1] t) (raiseAlarm 0x040E 0xFF 4 0 s1)
      else s1
    { s2 with dp := { s2.dp with building := none, derived := none, built := [none, none, none], builds := s2.dp.builds + 1 } }

/-! ## The commit -/

/-- What the committed records of epoch `e` do on every manager that computes in step. -/
def commitShared (e : Word) (cs : List Contrib) (s : State) : State :=
  commitBuilds cs (commitOutcome e cs (commitCompares e cs (commitPower cs (commitThrusters e cs (commitDevices e cs s)))))

/-- The ACTIVE manager's commit: that and the merge of reports. -/
def commitActive (e : Word) (cs : List Contrib) (s : State) : State := commitAlarms e cs (commitShared e cs s)

/-! ## Rows that act when a commit's counters stand at their limits -/

/-- FEEDBACK_LOST (R383): UNAVAILABLE with REASON 6. -/
def execFeedbackLost (thr : Fin 24) (s : State) : Res :=
  let r := s.brd.thr.getD thr.val {}
  if !s.isMgrRole || r.number = 0 || r.quiet < 3 || r.reason = 6 || r.reason = 1 || r.reason = 4 then .next s
  else .next (setThr s.cyc.epoch thr.val { r with avail := 2, reason := 6, offered := false } s)

/-- POWER_RESERVE (R212): raised after three epochs over the limit, cleared after three within it. -/
def execPowerReserve (group : Fin 6) (s : State) : Res :=
  let r := s.brd.pow.getD group.val {}
  let set := fun (on : Bool) (t : State) => { t with brd := { t.brd with pow := t.brd.pow.set group.val { r with alarm := on } } }
  if !s.isMgrRole || r.number = 0 then .next s
  else if !r.alarm && r.overRun ≥ 3 then
    let load := groupSum s.brd.pow r.group (·.load)
    .next (event 0x1018 3 [r.group, load, intBits 32 ((groupSum s.brd.pow r.group (·.online) : Int) - groupSum s.brd.pow r.group (·.reserve))]
      (raiseAlarm 0x1018 0xFF 3 r.group (set true s)))
  else if r.alarm && r.okRun ≥ 3 then
    let s1 := set false s
    .next (if s1.brd.pow.any (·.alarm) then s1 else clearAlarm 0x1018 0xFF s1)
  else .next s

/-- MINORITY_LIMIT (R343): the manager named latches FAIL_SILENT; on the others nothing happens. -/
def execMinorityLimit (mgr : Fin 3) (s : State) : Res :=
  if mgr.val ≠ s.dev || !s.isMgrRole || s.mem.minority.getD mgr.val 0 < fld s.cfg.redundancy 16 8 then .next s
  else .next (failSilent 1 s)

/-- SPLIT_CLEAR (R344). -/
def execSplitClear (s : State) : Res :=
  if !s.mem.splitOn || s.mem.splitLeft ≠ 0 then .next s
  else .next (clearAlarm 0x0C23 0xFF { s with mem := { s.mem with splitOn := false } })

/-- The members, by device number. -/
def memberSet (s : State) : BitVec 64 :=
  BitVec.ofNat 64 (s.brd.devices.zipIdx.foldl (fun a x => if x.1.member then a + 2 ^ x.2 else a) 0)

/-- An entry's clearing condition (R354). -/
def alarmOver (s : State) (a : Alarm) : Bool := if a.everStanding then a.standing &&& memberSet s = 0 else a.quiet ≥ 3

/-- ALARM_ENTRY_CLEAR (R354, R355). -/
def execAlarmEntryClear (code : BitVec 16) (subject : BitVec 8) (s : State) : Res :=
  match s.brd.alarms.find? fun a => a.code = code && a.subject = subject.toNat with
  | none => .next s
  | some a =>
    if !s.isActive || !alarmOver s a then .next s
    else
      let n := (List.range 64).countP (a.reporters.getLsbD ·)
      .next (event 0x0C21 1 [code.toNat, a.subject, n, a.supp] { s with brd := { s.brd with
        alarms := s.brd.alarms.filter (fun b => !(b.code = code && b.subject = a.subject)), alarmGen := s.brd.alarmGen + 1 } })

/-- CONSEQ_FAIL (R222): each scenario whose FAIL_RUN reaches 3 records event 0x1013; the first raises the alarm. -/
def execConseqFail (scen : Fin 16) (s : State) : Res :=
  let l := scenOf s scen.val
  if !s.isMgrRole || s.dp.conseqFailed.getLsbD scen.val || l.getD 1 0 < 3 then .next s
  else
    let s1 := { s with dp := { s.dp with conseqFail := true, conseqFailed := s.dp.conseqFailed ||| BitVec.ofNat 16 (2 ^ scen.val) } }
    .next (event 0x1013 3 [scen.val, intBits 32 (l.getD 3 0), intBits 32 (l.getD 4 0), (l.getD 7 0).toNat]
      (if s.dp.conseqFail then s1 else raiseAlarm 0x1013 0xFF 3 scen.val s1))

/-- CONSEQ_STALE (R222). -/
def execConseqStale (scen : Fin 16) (s : State) : Res :=
  let l := scenOf s scen.val
  if !s.isMgrRole || s.dp.conseqStale.getLsbD scen.val || l.getD 2 0 < 50 then .next s
  else .next (event 0x1019 2 [scen.val, (l.getD 2 0).toNat] (report 0x1019 2 0xFF scen.val
    { s with dp := { s.dp with conseqStale := s.dp.conseqStale ||| BitVec.ofNat 16 (2 ^ scen.val) } }))

/-- DEGRADED_PLAN (R259): raised at five shifted cycles. -/
def execDegradedPlan (s : State) : Res :=
  if !s.isMgrRole || s.dp.degradedPlan || s.dp.shiftRun < 5 then .next s
  else .next (event 0x040A 3 [s.dp.shiftRun, s.sol.cycle.toNat] (raiseAlarm 0x040A 0xFF 3 s.dp.shiftRun
    { s with dp := { s.dp with degradedPlan := true } }))

/-- The stored matrix in use, by its place, and whether it fits: that of the structure in force; else the full plant's, stored under signature 0 or the
main structure's (R226, Table 15.19). -/
def fallbackPick (s : State) : Option Nat × Bool :=
  let x := stallOf s 0
  let at_ := fun (g : Word) => s.cfg.fbMatrices.findIdx? (·.1 = g)
  match at_ x.sig with
  | some k => (some k, true)
  | none => let full := (at_ 0).orElse fun _ => at_ x.mainSig; (full, x.sig = x.mainSig && full.isSome)

/-- DEGRADED begins: integrators and commands of the fallback law start anew, and the set-point ramps on from where it stands (R188, R225). -/
def enterDegraded (d : Dp) : Dp :=
  { d with mode := 7, integ := [], prevErr := [], goodCycles := 0, fbCmd := [], rampFrom := d.ramp, rampAge := 0 }

/-- SOLVER_STALE (R224): twenty shifted cycles in an engaged mode move it to DEGRADED, the integrator at 0 (R225). -/
def execSolverStale (s : State) : Res :=
  if !s.isMgrRole || s.dp.shiftRun < 20 || !engaged s.dp.mode || s.dp.mode = 7 then .next s
  else
    let idx := (fallbackPick s).1.getD 0
    let old := s.dp.mode
    let s1 := updDp enterDegraded s
    .next (event 0x1010 1 [old, 7, s.cyc.dpCycle.toNat, 1] (event 0x1011 3 [s.dp.shiftRun, s.cyc.dpCycle.toNat, idx]
      (report 0x1011 3 0xFF s.dp.shiftRun s1)))

/-- QUORUM_LOST (R382): three closes below QUORUM make the ACTIVE manager step down. -/
def execQuorumLost (s : State) : Res :=
  if !s.isActive || s.mem.quorumRuns < 3 then .next s
  else
    let s1 := dropOpen (setRole .standby (abandonSwap 1 s))
    let s2 := { s1 with mem := { s1.mem with noQuorum := true, quorumRuns := 0 } }
    .next (event 0x0218 3 [memberCount s, s.quorum, s.cyc.epoch.toNat] (event 0x0C14 3 [reached s, s.quorum, s.expected]
      (report 0x0C14 3 0xFF (reached s) s2)))

/-- DERIVED_BUILD_COMPLETE (R263): the build is reported with its signature in the next contribution. -/
def execDerivedBuildComplete (s : State) : Res :=
  match s.dp.building with
  | none => .next s
  | some mask =>
    if !s.isMgrRole || s.dp.derived.isSome then .next s
    else .next (updDp (fun d => { d with derived := some (signature (derivedDesc s (stallOf s 0).mainDesc mask.toNat)) }) s)

end Sys2Proof.Machine
end

