-- ==== Sys2Proof/Machine/Board.lean ====
section
/-! DEFINITION. The Board commands and the Board stream; contributions received; admission and leaving of members (R362 to R381, R482;
class 0x02). -/

namespace Sys2Proof.Machine

/-- Board state changed. -/
def updBrd (f : Brd → Brd) (s : State) : State := { s with brd := f s.brd }
/-- Membership state changed. -/
def updMem (f : Mem → Mem) (s : State) : State := { s with mem := f s.mem }
/-- Counter `n` of R385 stepped. -/
def brdCount (n k : Nat) (s : State) : State := updBrd (fun b => { b with counts := addAt b.counts n k }) s
/-- DEVICES record of a device changed. -/
def updDev (d : Nat) (f : DevRec → DevRec) (s : State) : State := updBrd (fun b => { b with devices := upd b.devices d f }) s

/-! ## Reading and streaming images (R372 to R375) -/

/-- The image of an epoch, or the newest, when held and undamaged (R372, R518). -/
def readable (s : State) (newest : Bool) (e : Word) : Option Image :=
  (s.brd.images.find? fun i => newest || i.epoch = e).filter fun i => !s.brd.damaged.contains i.epoch

/-- Oldest and newest EPOCH held (Table 15.1). -/
def heldEpochs (s : State) : List Byte :=
  let ep := fun (i : Option Image) => match i with | some x => x.epoch.toNat | none => 0
  leBytes 4 (ep s.brd.images.getLast?) ++ leBytes 4 (ep s.brd.images.head?)

/-- BOARD_READ (R373). -/
def bodyBoardRead (r : Req) (s : State) : Ans :=
  let p := r.payload
  let off := u16 p 6
  let n := u8 p 8
  match readable s (bit (u8 p 5) 0) (w32 p 0) with
  | none => .done .stale (heldEpochs s) s
  | some i =>
    let area := if u8 p 4 = 0xFF then some ((imageBytes i).take 56) else (imgSec i (u8 p 4)).map secBytes
    if r.dma.isSome then give (imageBytes i) s
    else if n = 0 || n > 224 then no .range s
    else match area with
      | none => no .range s
      | some bs =>
        if off + n > bs.length then no .badArg s
        else give (leBytes 16 (pack [(32, i.epoch.toNat), (16, i.presence.toNat), (16, off), (8, n)]) ++ (bs.drop off).take n) s
def execBoardRead (r : Req) (s : State) : Res := mbx 0x0201 (exactly 12) bodyBoardRead r s

/-- A power of two from 2 to 4096 (R374). -/
def slotCount (n : Nat) : Bool := (List.range 12).any fun k => n = 2 ^ (k + 1)

/-- BOARD_STREAM_START (R374). -/
def bodyBoardStreamStart (r : Req) (s : State) : Ans :=
  let p := r.payload
  let udp := match r.path with | .udp _ _ _ => true | _ => false
  if udp then no .badArg s
  else if ule p 0 8 % 4096 ≠ 0 then no .badArg s
  else if !slotCount (u32 p 8) then no .range s
  else if s.brd.stream.on then no .busy s
  else okay (updBrd (fun b => { b with stream := {
    on := true, base := BitVec.ofNat 64 (ule p 0 8), slots := u32 p 8, consumedAddr := BitVec.ofNat 64 (ule p 12 8) } }) s)
def execBoardStreamStart (r : Req) (s : State) : Res := mbx 0x0202 (exactly 24) bodyBoardStreamStart r s

/-- BOARD_STREAM_STOP (R375). -/
def bodyBoardStreamStop (_ : Req) (s : State) : Ans :=
  if !s.brd.stream.on then no .state s
  else give (leBytes 4 s.brd.stream.written) (updBrd (fun b => { b with stream := { b.stream with on := false, queue := [] } }) s)
def execBoardStreamStop (r : Req) (s : State) : Res := mbx 0x0203 (exactly 0) bodyBoardStreamStop r s

/-- BOARD_STREAM_SLOT (R374, R375): CONSUMED is read, then the image and its trailer are written, or the image is skipped. -/
def execBoardStreamSlot (consumed : Word) (s : State) : Res :=
  let st := s.brd.stream
  match st.queue with
  | [] => .next s
  | i :: q =>
    if !st.on then .next s
    else
      let s0 := emit (.hostRead st.consumedAddr 4) (updBrd (fun b => { b with stream := { st with queue := q } }) s)
      if (wd st.written - consumed).toNat = st.slots then
        let first := if st.skipped = 0 then i.epoch else st.firstSkip
        .next (event 0x0219 1 [first.toNat, st.skipped + 1] (brdCount 9 1
          (updBrd (fun b => { b with stream := { b.stream with skipped := st.skipped + 1, firstSkip := first } }) s0)))
      else
        let a := st.base + BitVec.ofNat 64 (16384 * (st.written % st.slots))
        let bs := imageBytes i
        let seq := (st.written + 1) % 2 ^ 32
        let trailer := leBytes 32 (pack [(32, seq), (32, i.epoch.toNat), (32, bs.length), (32, st.skipped)])
        .next (brdCount 8 1 (emit (.hostWrite (a + 16352) trailer) (emit (.hostWrite a bs)
          (updBrd (fun b => { b with stream := { b.stream with written := seq, skipped := 0 } }) s0))))

/-- BOARD_STATUS (R385): a worker returns 0 for the publication and stream counters. -/
def bodyBoardStatus (r : Req) (s : State) : Ans :=
  let c := s.brd.counts
  let shown := if s.mem.role = .worker then [0, 0] ++ (c.drop 2).take 6 ++ [0, 0] else c
  give (words shown) (if clears r.payload 0 then updBrd (fun b => { b with counts := List.replicate 10 0 }) s else s)
def execBoardStatus (r : Req) (s : State) : Res := mbx 0x0204 (exactly 1) bodyBoardStatus r s

/-! ## Contributions (R363, R380) -/

/-- BOARD_CONTRIB_FRAME: a manager holds the records for their close (R337, R363). -/
def execBoardContribFrame (src : Fin 64) (seq : BitVec 16) (recs : List Contrib) (s : State) : Res :=
  if s.isManager && s.inRun && src.val ≠ s.dev then .next (holdRecs seq.toNat recs s) else .next s

/-- A record may be committed at the close of `e`: a member's, tagged later than its join epoch, or a leaver's tagged before its
leave (R378, R380). -/
def admissible (s : State) (e : Word) (c : Contrib) : Bool :=
  let d := s.brd.devices.getD c.src {}
  let joining := decide (0 ≤ epochDiff e d.joinEpoch) && decide (epochDiff e d.joinEpoch ≤ 8) && decide (epochDiff d.joinEpoch c.epoch ≥ 0)
  (d.member && (!joining || c.src = s.dev)) || (match d.left with | some l => decide (epochDiff c.epoch l < 0) && decide (epochDiff e l ≤ 8) | none => false)

/-! ## Members (R377 to R380) -/

/-- The first epoch whose close follows now. -/
def nextClose (s : State) : Word := if s.cyc.closed = some s.cyc.epoch then s.cyc.epoch + 1 else s.cyc.epoch

/-- Frames addressed to a leaver dropped from every queue (R380): the state and how many. -/
def dropFrames (d : Nat) (s : State) : State × Nat :=
  let hit := fun (f : Frame) => f.hdr.dst = d
  let n := (s.link.ports.map fun p => p.queue.countP (fun q => hit q.f) + p.held.countP (fun h => hit h.f)).sum
  let clean := fun (p : Port) => { p with queue := p.queue.filter (fun q => !hit q.f), held := p.held.filter (fun h => !hit h.f) }
  (brdCount 6 n { s with link := { s.link with ports := s.link.ports.map clean } }, n)

/-- Relayed commands pending for a leaver answered UNREACHABLE (R380, R466). -/
def dropRelays (d : Nat) (s : State) : State :=
  (s.hif.relays.filter (·.target = d)).foldl (fun t x =>
    respond x.code x.req Status.unreachable.code [] (trace x.code x.req Status.unreachable.code
      { t with hif := { t.hif with relays := t.hif.relays.filter (· ≠ x) } })) s

/-- Its own share of a leave on any device: queued frames dropped (R380). -/
def forget (d : Nat) (s : State) : State × Nat :=
  let r := dropFrames d s
  (dropRelays d r.1, r.2)

/-- A membership or role change committed in epoch `e`: MEMBER_GEN steps once per image (R376). -/
def memberChange (e : Word) (s : State) : State :=
  updBrd (fun b => { b with
    memberGen := if b.memberChange then b.memberGen else b.memberGen + 1, memberChange := true, changeEpoch := e }) s

/-- A leave committed in epoch `l` (R379, R380): `how` 0 declared, 1 detected. -/
def leaveCommit (l : Word) (how d : Nat) (s : State) : State :=
  if !(s.brd.devices.getD d {}).member then s
  else
    let r := forget d s
    let gone := r.1.brd.held.filter fun h => h.rec_.src = d && decide (epochDiff h.rec_.epoch l ≥ 0)
    let s1 := brdCount 7 gone.length (updBrd (fun b => { b with held := b.held.filter fun h => !gone.contains h }) r.1)
    let s2 := updDev d (fun x => { x with role := 0, drops := min 65535 r.2, left := some l }) s1
    let s3 := updMem (fun m => { m with uncounted := m.uncounted.filter (·.1 ≠ d), leaving := m.leaving.filter (· ≠ d) }) s2
    event 0x0211 2 [d, how, l.toNat, r.2] (memberChange l s3)

/-- Role of a joining device: STANDBY in a manager slot, WORKER elsewhere (R23, R378). -/
def joinRole (d : Nat) : Nat := if d ≤ 2 then 2 else 4

/-- Structures loaded here, which a joining manager receives (R351). -/
def loadedStalls (s : State) : List Nat := (List.range (firstScen s)).filter fun n => !(stallOf s n).desc.isEmpty

/-- A join committed in epoch `j` (R378); a manager is counted after it has confirmed every loaded structure (R351). -/
def joinCommit (j : Word) (d : Nat) (s : State) : State :=
  let v := ((s.mem.heard.getD d none).map (·.variant)).getD 0
  let s1 := updDev d (fun x => { x with role := joinRole d, variant := v, joinEpoch := j, missed := 0, lates := 0 }) s
  let s2 := memberChange j (updMem (fun m => { m with admitted := m.admitted.filter (· ≠ d) }) s1)
  let s3 := event 0x0210 1 [d, joinRole d, j.toNat, s2.brd.memberGen.toNat] s2
  if d ≤ 2 then
    let ns := loadedStalls s3
    updMem (fun m => { m with uncounted := (d, ns.length) :: m.uncounted.filter (·.1 ≠ d) }) s3
  else s3

/-- A device admitted: its handshake completes, and it joins at the first close that follows (R378). -/
def admitMember (d : Nat) (s : State) : State :=
  let s1 := updMem (fun m => { m with
    pendingJoin := m.pendingJoin.filter (·.1 ≠ d), admitted := if m.admitted.contains d then m.admitted else m.admitted ++ [d] }) s
  sendAnswer d 0 (if (s1.brd.devices.getD d {}).role = 5 then updDev d (fun x => { x with role := 0 }) s1 else s1)

/-- JOIN_PERMIT (R377). -/
def bodyJoinPermit (r : Req) (s : State) : Ans :=
  let d := u8 r.payload 0
  if d > 63 then no .range s
  else if !s.mem.pendingJoin.any (·.1 = d) then no .state s
  else if bit (u8 r.payload 1) 0 then
    okay (updDev d (fun x => if x.role = 5 then { x with role := 0 } else x) (updMem (fun m => { m with pendingJoin := m.pendingJoin.filter (·.1 ≠ d) }) s))
  else okay (admitMember d s)
def execJoinPermit (r : Req) (s : State) : Res := mbx 0x0205 (exactly 2) bodyJoinPermit r s

/-- Members left once the leaves declared so far and that of `d` are committed (R379). -/
def membersAfter (d : Nat) (s : State) : Nat :=
  memberCount s - ((d :: s.mem.leaving).dedup.filter fun x => (s.brd.devices.getD x {}).member).length

/-- LEAVE (R379). -/
def bodyLeave (r : Req) (s : State) : Ans :=
  let d := u8 r.payload 0
  if d = s.dev then no .role s
  else if !(s.brd.devices.getD d {}).member then no .badArg s
  else if membersAfter d s < s.quorum then no .state s
  else give (leBytes 4 (nextClose s).toNat) (updMem (fun m => { m with leaving := if m.leaving.contains d then m.leaving else m.leaving ++ [d] }) s)
def execLeave (r : Req) (s : State) : Res := mbx 0x0206 (exactly 1) bodyLeave r s

/-- MEMBER_CONFIG (R46, R482): bytes 4 to 7 only with CYCLE set. -/
def bodyMemberConfig (r : Req) (s : State) : Ans :=
  let p := r.payload
  let cyc := bit (u8 p 0) 1
  let e := u8 p 4
  let k := u8 p 5
  let c := u16 p 6
  if !(100 ≤ u16 p 2 && u16 p 2 ≤ 5000) then no .range s
  else if cyc && !(5 ≤ e && e ≤ 100 && 2 ≤ k && k ≤ 25 && 20 ≤ c && c ≤ 5 * e) then no .range s
  else if cyc && anyRun s then no .state s
  else
    let s1 := setCfg (fun g => { g with autoJoin := bit (u8 p 0) 0, window := u16 p 2 }) s
    okay (if cyc then
        let s2 := setCfg (fun g => { g with epochLen := e, cycleLen := k, closeOff := c }) s1
        { s2 with cyc := { s2.cyc with e := e, k := k, c := c } }
      else s1)
def execMemberConfig (r : Req) (s : State) : Res := mbx 0x0207 (exactly 8) bodyMemberConfig r s

/-- The entries of an INSTALL_TABLE payload: device, expected role, variant code. -/
def tableOf (p : List Byte) : List (Nat × Nat × Nat) :=
  (List.range (u8 p 0)).map fun i => (u8 p (4 + 2 * i), bits (u8 p (5 + 2 * i)) 4 4, bits (u8 p (5 + 2 * i)) 0 4)

/-- INSTALL_TABLE (R482): in RUN a table that omits a member is refused, a new one is copied and takes effect at the next epoch
boundary. -/
def bodyInstallTable (r : Req) (s : State) : Ans :=
  let t := tableOf r.payload
  let gen := ((s.mem.tableNext.map (·.2)).getD s.cfg.tableGen) + 1
  let put := fun (g : Cfg) => { g with table := t, tableGen := gen }
  if t.any (fun e => e.1 > 63) then no .range s
  else if !(t.all fun e => (e.2.1 = 1 || e.2.1 = 4) && 1 ≤ e.2.2 && e.2.2 ≤ 3) || !(t.map (·.1)).Nodup then no .badArg s
  else if s.inRun && (List.range 64).any (fun d => (s.brd.devices.getD d {}).member && !t.any (·.1 = d)) then no .state s
  else if s.inRun then
    let s1 := if isCopy 0x0208 r s then s else sendCopies 0x0208 r (standbys s) s
    give (leBytes 4 gen.toNat) (updMem (fun m => { m with tableNext := some (t, gen) }) (storeCfg put s1))
  else give (leBytes 4 gen.toNat) (setCfg put s)
def execInstallTable (r : Req) (s : State) : Res := mbx 0x0208 (counted 4 2 0 1 64) bodyInstallTable r s

/-! ## Events -/

/-- MISSED_EPOCHS (R379): the detected leave, in the epoch whose close took MISSED to 3. -/
def execMissedEpochs (dev : Fin 64) (s : State) : Res :=
  let d := s.brd.devices.getD dev.val {}
  match s.brd.open_ with
  | none => .next s
  | some i =>
    if !s.isActive || !d.member || d.missed < 3 || dev.val = s.dev then .next s
    else
      let mine := (List.range 24).filter fun n => let r := s.brd.thr.getD n {}; r.number ≠ 0 && r.dev = dev.val
      .next (mine.foldl (fun t n => setThr i.epoch n (absentThr (t.brd.thr.getD n {})) t) (leaveCommit i.epoch 1 dev.val s))

/-- PUB_INCOMPLETE (R369; an epoch that the image after it shows as not published has none to install): the frames of an image not installed by the instant of e + 2 are discarded; a STANDBY manager leaves and
rejoins. -/
def execPubIncomplete (epoch : Word) (missing : Nat) (s : State) : Res :=
  let here := s.brd.images.any fun i => i.epoch = epoch || (i.epoch = epoch + 1 && i.flags.getLsbD 2)
  if !s.inRun || here || epochDiff s.cyc.epoch epoch < 2 || s.isActive then .next s
  else if s.mem.role = .worker then .next (brdCount 5 1 s)
  else if s.mem.role = .standby then
    .next (event 0x0216 2 [epoch.toNat, missing] (updMem (fun m => { m with leaveSelf := true }) s))
  else .next s

end Sys2Proof.Machine
end

