-- ==== Sys2Proof/Machine/Ramp.lean ====
section
/-! DEFINITION. The ramped set-point: its way along a straight line or a track, its turn, and where it stands stages ahead (R186 to R191). -/

namespace Sys2Proof.Machine

/-- Milliseconds of motion in one DP cycle (R188). -/
def cycleMs (s : State) : Nat := s.cyc.k * s.cyc.e
/-- Element of a point. -/
def at3 (l : List Int) (n : Nat) : Int := l.getD n 0
/-- Metres of a Q16.16 value. -/
def metres (i : Int) : Rat := (i : Rat) / 65536
/-- Position and heading of the estimate. -/
def estPoint (s : State) : List Int := [at3 s.fus.est 0, at3 s.fus.est 1, Int.ofNat (intBits 32 (at3 s.fus.est 2))]
/-- Squared distance of two points, Q16.16 squared. -/
def dist2 (a b : List Int) : Nat := (at3 a 0 - at3 b 0).natAbs ^ 2 + (at3 a 1 - at3 b 1).natAbs ^ 2
/-- The shorter turn between two headings, a half turn to starboard (R188). -/
def turnBy (a b : Int) : Int := let d := sext 32 (intBits 32 (b - a)); if d = -2147483648 then 2147483648 else d
/-- ⌊√n⌋ of a number below 2^80. -/
def isqrt (n : Nat) : Nat := (List.range 40).foldl (fun r k => let t := r + 2 ^ (39 - k); if t * t ≤ n then t else r) 0

/-- The straight way from `a` to `b` after some milliseconds at a speed in mm/s: the point, and the time left over once it has arrived (R188). -/
def alongLine (speed : Nat) (ms : Rat) (a b : Rat × Rat) : (Rat × Rat) × Option Rat :=
  let dn := b.1 - a.1
  let de := b.2 - a.2
  let way := speed * ms / 1000000
  if dn * dn + de * de ≤ way * way then (b, some (ms - (if speed = 0 then 0 else sqrtQ (dn * dn + de * de) * 1000000 / speed)))
  else
    let d := sqrtQ (dn * dn + de * de)
    ((a.1 + dn * way / d, a.2 + de * way / d), none)

/-- A heading on its shorter way from `a` to `b` after some milliseconds at a rate in 0.01 °/s, in units of 2^−32 turn (R188). -/
def turning (rate : Nat) (ms : Rat) (a b : Rat) : Rat :=
  let full : Rat := ((2 ^ 32 : Nat) : Rat)
  let d := wrapTo full (b - a)
  let step := rate * ms * full / 36000000
  if (if d < 0 then -d else d) ≤ step then b else if d < 0 then a - step else a + step

/-- A point of the set-point in its formats. -/
def setpointOf (n e h : Rat) : List Int := [sat32 (toUnits 43 16 n), sat32 (toUnits 43 16 e), Int.ofNat (intBits 32 (toUnits 44 0 h))]
/-- Its position. -/
def posOf (p : List Int) : Rat × Rat := (metres (at3 p 0), metres (at3 p 1))

/-- The ramp toward the target some milliseconds after it started (R188). -/
def straight (d : Dp) (ms : Rat) : Rat × Rat × Rat :=
  let p := (alongLine d.rampSpeed ms (posOf d.rampFrom) (posOf d.target)).1
  (p.1, p.2, turning d.rampRate ms (at3 d.rampFrom 2) (at3 d.target 2))

/-- The track from a leg on, some milliseconds after it left a point: the leg in hand, where that leg began, and the point; the last waypoint
holds (R191). -/
def trackWalk (a : Rat × Rat) (ms : Rat) : Nat → List (List Int) → Nat × (Rat × Rat) × (Rat × Rat)
  | leg, [] => (leg, a, a)
  | leg, w :: ws =>
    match alongLine (at3 w 2).toNat ms a (posOf w) with
    | (p, none) => (leg, a, p)
    | (p, some left) => if ws.isEmpty then (leg, a, p) else trackWalk p left (leg + 1) ws

/-- Heading that a leg asks for: fixed, or along the leg plus an offset; a leg without length asks for none (R191, row 65). -/
def legHeading (d : Dp) (leg : Nat) (a : Rat × Rat) : Option Rat :=
  let w := d.track.getD leg []
  let off : Rat := at3 w 3 * 65536
  if at3 w 4 = 0 then some off
  else if a = posOf w then none
  else some (atan2Q ((posOf w).2 - a.2) ((posOf w).1 - a.1) * ((2 ^ 31 : Nat) : Rat) / piQ + off)

/-- The track some milliseconds after the ramp started on it. -/
def onTrack (d : Dp) (ms : Rat) : Nat × (Rat × Rat) × (Rat × Rat) := trackWalk (posOf d.rampFrom) ms d.rampLeg (d.track.drop d.rampLeg)

/-- One DP cycle of the ramp toward the target (R188). -/
def rampToward (s : State) : State :=
  let d := s.dp
  let p := straight d ((d.rampAge + 1) * cycleMs s : Nat)
  updDp (fun x => { x with ramp := setpointOf p.1 p.2.1 p.2.2, rampAge := d.rampAge + 1 }) s

/-- One DP cycle along the track (R191): the heading turns toward the leg's at RAMP_RATE. -/
def trackStep (s : State) : State :=
  let d := s.dp
  let p := onTrack d ((d.rampAge + 1) * cycleMs s : Nat)
  let w := d.track.getD p.1 []
  let goal := (legHeading d p.1 p.2.1).getD (at3 d.ramp 2)
  let h := turning d.rampRate (cycleMs s : Nat) (at3 d.ramp 2) goal
  let g := setpointOf 0 0 goal
  updDp (fun x => { x with
    target := [at3 w 0, at3 w 1, at3 g 2], ramp := setpointOf p.2.2.1 p.2.2.2 h, rampAge := d.rampAge + 1, trackLeg := p.1 }) s

/-- Whole seconds that a new target takes: the longer of way and turn (event 0x101A). -/
def rampSeconds (d : Dp) : Nat :=
  max (isqrt (dist2 d.rampFrom d.target * 10 ^ 6 / 2 ^ 32) / max d.rampSpeed 1)
    ((turnBy (at3 d.rampFrom 2) (at3 d.target 2)).natAbs * 36000 / (max d.rampRate 1 * 2 ^ 32))

/-- The ramp starts from the estimate (R187, R188): bit 0 of the due mask keeps the target there, bits 1 and 2 are new targets. -/
def startRamp (s : State) : State :=
  let due := s.dp.rampDue
  let e := estPoint s
  let hold := fun (k : Nat) (b : Nat) => if bit due 0 && !bit due b then at3 e k else at3 s.dp.target k
  let s1 := updDp (fun d => { d with
    target := [hold 0 1, hold 1 1, hold 2 2], ramp := e, rampFrom := e, rampAge := 0, rampLeg := d.trackLeg, rampDue := 0 }) s
  if due < 2 then s1
  else event 0x101A 1 [toCm (at3 s1.dp.target 0), toCm (at3 s1.dp.target 1), intBits 32 (at3 s1.dp.target 2) / 65536, rampSeconds s1.dp] s1

/-- The ramp at the publication of a DP cycle's first epoch; without STATE a start from the estimate waits (R187, R188, Table 6.1). -/
def rampStep (hasState : Bool) (s : State) : State :=
  let m := s.dp.mode
  if m = 0 || m = 2 then s
  else if m = 1 then
    if hasState then updDp (fun d => { d with target := estPoint s, ramp := estPoint s, rampFrom := estPoint s, rampAge := 0, rampDue := 0 }) s else s
  else if s.dp.rampDue ≠ 0 then (if hasState then startRamp s else s)
  else if m = 5 && !s.dp.track.isEmpty then trackStep s else rampToward s

/-- The heading of the track some stages ahead, turned stage by stage (R188, R191). -/
def trackHeading (s : State) : Nat → Rat
  | 0 => at3 s.dp.ramp 2
  | k + 1 =>
    let h := trackHeading s k
    let p := onTrack s.dp ((s.dp.rampAge * cycleMs s + (k + 1) * s.cfg.stageMs : Nat) : Rat)
    turning s.dp.rampRate (s.cfg.stageMs : Nat) h ((legHeading s.dp p.1 p.2.1).getD h)

/-- North, east in metres and heading in radians of the ramped set-point `k` stages ahead of the cycle (R188): in modes without a ramp it stands. -/
def rampAhead (s : State) (k : Nat) : Rat × Rat × Rat :=
  let d := s.dp
  let rad := fun (u : Rat) => 2 * piQ * u / ((2 ^ 32 : Nat) : Rat)
  let ms : Rat := (d.rampAge * cycleMs s + k * s.cfg.stageMs : Nat)
  if k = 0 || d.mode < 3 then ((posOf d.ramp).1, (posOf d.ramp).2, rad (at3 d.ramp 2))
  else if d.mode = 5 && !d.track.isEmpty then
    let p := (onTrack d ms).2.2
    (p.1, p.2, rad (trackHeading s k))
  else let p := straight d ms; (p.1, p.2.1, rad p.2.2)

end Sys2Proof.Machine
end

