-- ==== Sys2Proof/Machine/Problem.lean ====
section
/-! DEFINITION. The quadratic program of one DP cycle as stage data of stall 0, the pre-resident stalls and the scenarios, the plan that a solution
gives, and the fallback law (R190, R193, R195 to R205, R209, R218, R225, R226, R262). Units: m, rad, s, kN, MW (row 4). -/

namespace Sys2Proof.Machine

/-! ## What the builder reads of the Board epoch (R52, R190, R193, R197) -/

/-- Quantity `n` of an image's STATE (Table 5.10). -/
def imgEst (i : Image) (n : Nat) : Int := sext 32 (imgFld i 2 (32 + 32 * n) 32)
/-- POS_VALID, HDG_VALID of an image. -/
def imgPosValid (i : Image) : Bool := imgFld i 2 656 1 = 1
def imgHdgValid (i : Image) : Bool := imgFld i 2 657 1 = 1
/-- The estimate: north, east, heading, surge, sway, yaw rate. -/
def motionOf (i : Image) : Vec :=
  [metres (imgEst i 0), metres (imgEst i 1), turnRad (imgEst i 2), metres (imgEst i 3), metres (imgEst i 4), (imgEst i 5 : Rat) / ((2 ^ 28 : Nat) : Rat)]
/-- Heading at which the dynamics are rotated: the last one with HDG_VALID set (R193, R197). -/
def shipHeading (i : Image) (s : State) : Rat := turnRad (if imgHdgValid i then imgEst i 2 else s.dp.lastHdg.getD (imgEst i 2))
/-- North and east in vessel axes. -/
def toVessel (psi n e : Rat) : Rat × Rat := (cosQ psi * n + sinQ psi * e, cosQ psi * e - sinQ psi * n)
/-- The published bias in vessel axes, kN and kN·m (R197, R225). -/
def biasOf (i : Image) (psi : Rat) : Vec :=
  let v := toVessel psi ((imgEst i 9 : Rat) / 256) ((imgEst i 10 : Rat) / 256)
  [v.1, v.2, (imgEst i 11 : Rat) / 256]

/-- The target of the law `k` stages ahead: the ramped set-point; in GREEN the point of the window round it that lies nearest the estimate, and the
heading likewise (R188, R190). -/
def targetAhead (i : Image) (s : State) (k : Nat) : Rat × Rat × Rat :=
  let c := rampAhead s k
  if s.dp.mode ≠ 6 then c
  else
    let x := motionOf i
    let dn := vAt x 0 - c.1
    let de := vAt x 1 - c.2.1
    let r : Rat := (s.dp.radius : Rat) / 100
    let d := sqrtQ (dn * dn + de * de)
    let p := if dn * dn + de * de ≤ r * r then (vAt x 0, vAt x 1) else (c.1 + dn * r / d, c.2.1 + de * r / d)
    let w : Rat := s.dp.hdgWindow * piQ / 18000
    let dh := wrapRad (vAt x 2 - c.2.2)
    (p.1, p.2, if dh ≤ w && -w ≤ dh then vAt x 2 else if dh < 0 then c.2.2 - w else c.2.2 + w)

/-- The estimate lies inside the GREEN window of position, and of heading (R190, Table 6.4). -/
def insideWindow (i : Image) (s : State) : Bool × Bool :=
  let t := targetAhead i s 0
  let x := motionOf i
  (s.dp.mode = 6 && t.1 = vAt x 0 && t.2.1 = vAt x 1, s.dp.mode = 6 && t.2.2 = vAt x 2)

/-- The weights in force: those of the mode (in STANDBY the STATION_KEEP set, row 66), each term off where Tables 6.1 and 6.4 and R193 say so. -/
def weightsNow (i : Image) (s : State) : Weights :=
  let m := s.dp.mode
  let w := s.cfg.weights.getD (if m < 2 then 2 else m - 2) {}
  let win := insideWindow i s
  { w with
    pos := if m = 2 || m = 3 || (4 ≤ m && m ≤ 6 && !imgPosValid i) || win.1 then 0 else w.pos
    hdg := if (m = 2 && !s.dp.autoHdg) || (2 ≤ m && !imgHdgValid i) || win.2 then 0 else w.hdg
    force := if m = 2 then w.force else 0 }

/-! ## Thrusters: limits, power, reference (R198 to R201) -/

/-- Thrust limits in kN (R200). -/
def thrMax (p : List Byte) : Rat := (thrFld p 112 16 : Rat) / 10
def thrMin (p : List Byte) : Rat := if isTunnel p then -(thrFld p 128 16 : Rat) / 10 else 0
/-- Segment `j` of a power curve: slope in MW/kN and offset in MW (R201, Table 6.6). -/
def segment (p : List Byte) (j : Nat) : Rat × Rat :=
  let a := breakpoint p j
  let b := breakpoint p (j + 1)
  let slope := ((b.2 - a.2 : Int) : Rat) / 1000 / (((b.1 - a.1 : Int) : Rat) / 10)
  (slope, (a.2 : Rat) / 1000 - slope * ((a.1 : Rat) / 10))
/-- Power of a thrust in kN, MW above idle: the convex curve's value. -/
def powerAt (p : List Byte) (thrust : Rat) : Rat := ((List.range (nSeg p)).map fun j => let g := segment p j; g.1 * thrust + g.2).foldl max 0

/-- An angle in radians in units of 2^−16 turn, from 0 up to a turn. -/
def angleUnits (a : Rat) : Rat := let u := a * 32768 / piQ; u - 65536 * (u / 65536).floor
/-- The reverse. -/
def unitsAngle (u : Rat) : Rat := u * piQ / 32768
/-- An angle measured forward from another, in units of 2^−16 turn. -/
def forwardFrom (a b : Rat) : Rat := let d := b - a; d - 65536 * (d / 65536).floor
/-- The forbidden sector inside which an angle lies (R199). -/
def sectorAt (p : List Byte) (u : Rat) : Option (Nat × Nat) :=
  ((List.range (nSect p)).map (sector p)).find? fun x =>
    decide (0 < forwardFrom x.1 u) && decide (forwardFrom x.1 u < forwardFrom x.1 x.2)
/-- A reference angle inside a forbidden sector moved to the edge reached by turning toward decreasing angle (R199). -/
def outOfSector (p : List Byte) (a : Rat) : Rat := match sectorAt p (angleUnits a) with | some x => unitsAngle (x.1 : Nat) | none => a
/-- The bounds of an angle deviation in radians (R199). -/
def deltaBounds (s : State) (p : List Byte) (a : Rat) : Rat × Rat :=
  let half := min ((s.cfg.trust : Rat) * piQ / 180) ((thrFld p 160 16 : Rat) / 10 * piQ / 180 * s.cfg.stageMs / 1000)
  let u := angleUnits a
  let ss := (List.range (nSect p)).map (sector p)
  (-(ss.map fun x => unitsAngle (forwardFrom (x.2 : Nat) u)).foldl min half, (ss.map fun x => unitsAngle (forwardFrom u (x.1 : Nat))).foldl min half)

/-- The references of a DP cycle by stage and thruster number: the agreed solution of the cycle before, one stage earlier; measured after a cold
start and for a thruster that was not offered in the cycle before (R198). -/
def referencesOf (cold : Bool) (before : BitVec 24) (n : Nat) (s : State) : List (List (Rat × Rat)) :=
  let plan := s.dp.agreed.getD []
  (List.range n).map fun k => (List.range 24).map fun t =>
    let r := s.brd.thr.getD t {}
    let old := (plan.getD (min (k + 1) (plan.length - 1)) [])[t]?
    let v := match old with
      | some x => if cold || before.getLsbD t then none else some (x.thrust, x.ref + x.delta)
      | none => none
    let w := v.getD ((sext 32 r.fbThrust.toNat : Int) / (256 : Rat), turnRad r.fbAngle.toNat)
    (w.1, if isTunnel (thrDef s t) then 0 else outOfSector (thrDef s t) w.2)
/-- The reference of a thruster at stage `k`. -/
def refAt (s : State) (k t : Nat) : Rat × Rat := (s.sol.refs.getD (k - 1) []).getD t (0, 0)

/-! ## The problem of a stall (R195 to R205, R218) -/

/-- What distinguishes the problem of a stall from stall 0's: its thrusters, those whose power the ramp rows count from, those bounded to 0, the generator sets and sections lost, whether
RESERVE_KW counts (R200, R218, R262). -/
structure Variation where
  thr   : List Nat
  base  : List Nat
  off   : Nat := 0
  gens  : Nat := 0
  sects : Nat := 0
  reserve : Bool := true

/-- Force in vessel axes and moment of each variable's unit at stage `k` (R198). -/
def forceColumns (s : State) (l : List Nat) (k : Nat) : List Vec :=
  let tun := (tunsOf s l).map fun t => thrusterForce (thrDef s t) 1 0
  let azi := (azisOf s l).flatMap fun t =>
    let p := thrDef s t
    let r := refAt s k t
    let lin := max r.1 (thrMax p / 20)
    [thrusterForce p 1 r.2, vScale lin (thrusterForce p 1 (r.2 + piQ / 2))]
  List.replicate 6 [0, 0, 0] ++ tun ++ azi ++ List.replicate l.length [0, 0, 0]

/-- The continuous vessel model on the errors north, east, heading and the velocities (R197). -/
def vesselA (o : BitVec 384) (psi : Rat) : Mat := (observerA o psi).take 6 |>.map (·.take 6)
def vesselB (o : BitVec 384) : Mat := (observerB o).take 6

/-- What is common to the stages of one cycle: the discrete model at Δt, the bias, the target by stage, the weights. -/
structure Stages where
  ad    : Mat
  bd    : Mat
  bias  : Vec
  start : Vec
  target : Nat → Rat × Rat × Rat
  w     : Weights

/-- That part from an image (R197, R205). -/
def stagesOf (i : Image) (s : State) : Stages :=
  let psi := shipHeading i s
  let d := Config.discrete 1 ((s.cfg.stageMs : Rat) / 1000) (vesselA s.cfg.observer psi) (vesselB s.cfg.observer)
  let x := motionOf i
  let t := targetAhead i s
  { ad := d.1, bd := d.2, bias := biasOf i psi
    start := [vAt x 0 - (t 0).1, vAt x 1 - (t 0).2.1, wrapRad (vAt x 2 - (t 0).2.2), vAt x 3, vAt x 4, vAt x 5], target := t, w := weightsNow i s }

/-- Motion of the target over stage `k`, which the errors lose (R188, R195). -/
def targetStep (g : Stages) (k r : Nat) : Rat :=
  let a := g.target k
  let b := g.target (k + 1)
  if r = 0 then b.1 - a.1 else if r = 1 then b.2.1 - a.2.1 else if r = 2 then wrapRad (b.2.2 - a.2.2) else 0

/-- Weight in units of one. -/
def unit (n : Nat) : Rat := (n : Rat) / 1000
/-- Motion weight of state `j`, multiplied at the last stage (R205). -/
def motionWeight (w : Weights) (last : Bool) (j : Nat) : Rat :=
  (if j ≤ 1 then unit w.pos else if j = 2 then unit w.hdg else if j ≤ 4 then unit w.vel else unit w.yaw) * if last then unit w.term else 1

/-- The thruster of a list to which a thrust, angle deviation or power variable belongs, and which of the three it is (R195). -/
def varOwner (s : State) (l : List Nat) (j : Nat) : Option (Nat × Nat) :=
  match l.find? fun t => thrustVar s l t = j || (!isTunnel (thrDef s t) && deltaVar s l t = j) || powerVar s l t = j with
  | none => none
  | some t => some (t, if powerVar s l t = j then 2 else if thrustVar s l t = j then 0 else 1)

/-- H: the second derivative of the objective of Table 6.4. -/
def hessian (g : Stages) (s : State) (v : Variation) (cols : List Vec) (last : Bool) (r c : Nat) : Rat :=
  let w := g.w
  let diag : Rat := if r ≠ c then 0 else if r < 6 then motionWeight w last r else
    match varOwner s v.thr r with
    | some (t, 0) => (unit w.thrust + unit w.smooth) / (thrMax (thrDef s t) * thrMax (thrDef s t))
    | some (_, 1) => unit w.smooth
    | _ => 0
  2 * (diag + unit w.force * dot (cols.getD r []) (cols.getD c []) / 1000000)

/-- G: the first derivative at zero. -/
def gradient (g : Stages) (s : State) (v : Variation) (cols : List Vec) (k r : Nat) : Rat :=
  let w := g.w
  let demand : Vec := s.dp.joy.map fun x => (x : Rat) / 256
  let own : Rat := match varOwner s v.thr r with
    | some (t, 0) => -2 * unit w.smooth * (refAt s k t).1 / (thrMax (thrDef s t) * thrMax (thrDef s t))
    | some (_, 2) => unit w.power
    | _ => 0
  own - 2 * unit w.force * dot (cols.getD r []) demand / 1000000

/-- Bounds of a variable; none of a motion state or a power (R199, R200). -/
def boundsOf (s : State) (v : Variation) (k j : Nat) : Option (Rat × Rat) :=
  match varOwner s v.thr j with
  | none => none
  | some (t, q) =>
    let off := s.dp.unavail.getLsbD t || v.off.testBit t
    let p := thrDef s t
    match q with
    | 0 => some (if off then (0, 0) else (thrMin p, thrMax p))
    | 1 => some (if off then (0, 0) else deltaBounds s p (refAt s k t).2)
    | _ => none

/-- The group whose rows a section's rows carry: that of which it is the lowest section left (R203, R218). -/
def headGroup (s : State) (v : Variation) (n : Nat) : Option Nat :=
  let left := s.sol.plant.filter fun r => r.number ≠ 0 && !v.sects.testBit (r.number - 1)
  match left.find? fun r => r.number = n with
  | none => none
  | some r => if left.any fun q => q.group = r.group && q.number < n then none else some r.group

/-- One inequality row: its coefficients and its bound, none where relaxed (R201 to R203). DESIGN CHOICE (row 4): the power of the stage before is measured
at stage 1, and after it that of the reference thrusts, since the inequalities of R233 hold variables of one stage only. -/
def rowOf (s : State) (v : Variation) (k r : Nat) : (Nat → Rat) × Option Rat :=
  let l := v.thr
  match l.find? fun t => curveRow s l t ≤ r && r < curveRow s l t + nSeg (thrDef s t) with
  | some t =>
    let g := segment (thrDef s t) (r - curveRow s l t)
    (fun j => if j = thrustVar s l t then g.1 else if j = powerVar s l t then -1 else 0, some (-g.2))
  | none =>
    match (sectionList s).find? fun n => sectionRow s l n = r || sectionRow s l n + 1 = r with
    | none => (fun _ => 0, none)
    | some n =>
      match headGroup s v n with
      | none => (fun _ => 0, none)
      | some g =>
        let ts := thrOfGroup s s.sol.plant l g
        let left := s.sol.plant.filter fun q => q.number ≠ 0 && q.group = g && !v.sects.testBit (q.number - 1)
        let coef := fun (j : Nat) => if ts.any fun t => powerVar s l t = j then (1 : Rat) else 0
        let ramp : Rat := (left.map fun q => u32 ((powSection s.cfg.power q.number).getD []) 8).sum
        let before : Rat := if k = 1 then ((left.map (·.thr)).sum : Nat) / 1000 else ((thrOfGroup s s.sol.plant v.base g).map fun t => powerAt (thrDef s t) (refAt s (k - 1) t).1).sum
        (coef, some (if sectionRow s l n = r then (plantAvail s v.gens v.sects v.reserve g : Rat) / 1000
          else ramp / 1000 * s.cfg.stageMs / 1000 + before))

/-- Value of an entry of the problem at stage `k`; none is an unlimited bound (Table 7.6). -/
def problemVal (g : Stages) (s : State) (v : Variation) (n : Nat) (cols : List Vec) (k ty r c : Nat) : Option Rat :=
  match ty with
  | 0x01 => some (hessian g s v cols (k = n) r c)
  | 0x02 => some (gradient g s v cols k r)
  | 0x03 => some (if c < 6 then mAt g.ad r c else dot (g.bd.getD r []) (cols.getD c []))
  | 0x04 => some (dot (g.bd.getD r []) g.bias - targetStep g k r)
  | 0x05 => some ((rowOf s v k r).1 c)
  | 0x06 => (rowOf s v k r).2
  | 0x07 => (boundsOf s v k r).map (·.1)
  | 0x08 => (boundsOf s v k r).map (·.2)
  | _ => some (vAt g.start r)

/-- The mantissa that the builder writes: nearest, ties toward +∞, at the block's exponent; an unlimited bound is the block's end (R241, R203). -/
def mantissaOf (b : BlockEnt) (ty : Nat) : Option Rat → Int
  | some x => sat32 (nearest (x / (2 : Rat) ^ b.exp))
  | none => if ty = 7 then b.dmin else b.dmax

/-- The entries of one block type at one stage that differ from the stall's next copy, with their new mantissas (R246). -/
def changedEntries (g : Stages) (s : State) (v : Variation) (m : SolveIn) (n k ty : Nat) : List ((Nat × Nat × Nat × Nat) × Int) :=
  let nv := varCount s v.thr
  let ni := (v.thr.map fun t => nSeg (thrDef s t)).sum + 2 * (sectionList s).length
  let d := blockDims (List.replicate n { nv := nv, ns := 6, ni := ni }) ty k
  let cols := if k = 0 then [] else forceColumns s v.thr k
  let b := blockFor m.desc ty k
  (List.range d.1).flatMap fun r => ((List.range d.2).filter fun c => ty ≠ 1 || r ≤ c).filterMap fun c =>
    let x := mantissaOf b ty (problemVal g s v n cols k ty r c)
    if x = m.val k ty r c then none else some ((k, ty, r, c), x)

/-- The builder's batch of one stall for the DP cycle in hand (R246 to R248, R262). -/
def feedStall (g : Stages) (v : Variation) (n : Nat) (s : State) : State :=
  let x := stallOf s n
  if x.desc.isEmpty || x.damaged || x.lost || x.state = 7 then s
  else
    let k := nStages x.desc
    let m : SolveIn := { desc := x.desc, data := x.next, cfg := 0 }
    builderBatch n s.sol.cycle ([1, 2, 3, 4, 5, 6, 7, 8, 9].flatMap fun ty =>
      let sp := typeSpan ty k
      (List.range (sp.2 + 1 - sp.1)).flatMap fun j => changedEntries g s v m k (sp.1 + j) ty) s

/-- The batches of a DP cycle: stall 0, the scenarios, the pre-resident stalls (R218, R262). -/
def feedStalls (i : Image) (s : State) : State :=
  let g := stagesOf i s
  let l0 := thrIn s (stallOf s 0).lossThr.toNat
  let s1 := feedStall g { thr := l0, base := l0 } 0 s
  let s2 := ((List.range s.variant.scens).filter fun n => !(s.cfg.scens.getD n []).isEmpty).foldl (fun t n =>
    feedStall g { thr := thrIn s 0, base := thrIn s 0, off := scenLoss s n, gens := scenGens s n, sects := scenSects s n, reserve := false } (firstScen s + n) t) s1
  ((List.range (firstScen s)).filter (· ≠ 0)).foldl (fun t n => feedStall g { thr := thrIn s (stallOf s n).lossThr.toNat, base := l0 } n t) s2

/-! ## The plan of a solution (R209, R258) -/

/-- The thrusters of one stage of stall 0's solution. -/
def planStage (s : State) (x : Stall) (k : Nat) : List PlanPt :=
  let l := thrIn s x.lossThr.toNat
  (List.range 24).map fun t =>
    let r := refAt s k t
    if !l.contains t then { thrust := 0, ref := r.2, delta := 0, power := 0 }
    else
      let v := solVal x x.cand k
      { thrust := v (thrustVar s l t), ref := r.2, delta := if isTunnel (thrDef s t) then 0 else v (deltaVar s l t), power := v (powerVar s l t) }

/-- The plan that stall 0's solution gives, by stage (R209). -/
def planOf (s : State) : List (List PlanPt) := let x := stallOf s 0; (List.range x.cand.length).map fun k => planStage s x (k + 1)

/-- Thrust Q24.8 kN and angle 2^−32 turn of a plan's thruster (Table 6.8). -/
def planCmd (x : PlanPt) : Int × Int := (sat32 (toUnits 46 8 x.thrust), radTurn 47 (x.ref + x.delta))

/-! ## The fallback law (R225, R226) -/

/-- The matrix in use and whether it fits (R226). -/
def fallbackMatrix (s : State) : List Int × Bool :=
  ((match (fallbackPick s).1 with | some k => (s.cfg.fbMatrices.getD k (0, [])).2 | none => []), (fallbackPick s).2)

/-- First row of a thruster in a matrix over a list of thrusters: one row of a tunnel, two of an azimuth, in thruster order (Table 15.19). -/
def matrixRow (s : State) (l : List Nat) (t : Nat) : Nat := ((l.takeWhile (· ≠ t)).map fun u => if isTunnel (thrDef s u) then 1 else 2).sum

/-- Thrust and angle of one thruster from its demand: clamped to its limits; an azimuth's angle moved out of a forbidden sector to the nearer edge with
the thrust that falls on it (R225). -/
def clampThr (p : List Byte) (fx fy : Rat) : Rat × Rat :=
  if isTunnel p then (max (thrMin p) (min (thrMax p) fx), 0)
  else
    let t := min (thrMax p) (sqrtQ (fx * fx + fy * fy))
    let a := atan2Q fy fx
    match sectorAt p (angleUnits a) with
    | none => (t, a)
    | some x =>
      let back := forwardFrom (x.1 : Nat) (angleUnits a)
      let ahead := forwardFrom (angleUnits a) (x.2 : Nat)
      let e := unitsAngle (if back ≤ ahead then (x.1 : Nat) else (x.2 : Nat))
      (max 0 (t * cosQ (a - e)), e)

/-- The largest scale found by bisection with the power within a limit (R225). -/
def bisect (ok : Rat → Bool) : Nat → Rat → Rat → Rat
  | 0, lo, _ => lo
  | k + 1, lo, hi => let m := (lo + hi) / 2; if ok m then bisect ok k m hi else bisect ok k lo m

/-- The commands of the law from forces in vessel axes (R225). -/
def fallbackCmds (s : State) (m : List Int) (l : List Nat) (gone : Nat) (f : Vec) : List (Rat × Rat) :=
  let row := fun (k : Nat) => dot ([0, 1, 2].map fun c => ((m.getD (3 * k + c) 0 : Int) : Rat) / ((2 ^ 30 : Nat) : Rat)) f
  let raw := (List.range 24).map fun t =>
    if !l.contains t || gone.testBit t then (0, 0) else let k := matrixRow s l t; clampThr (thrDef s t) (row k) (row (k + 1))
  let scale := fun (t : Nat) =>
    match (s.brd.pow.find? fun r => r.number ≠ 0 && r.number = thrFld (thrDef s t) 24 8) with
    | none => (1 : Rat)
    | some r =>
      let g := r.group
      let ts := thrOfGroup s s.brd.pow l g
      let avail : Rat := ((s.brd.pow.map fun q => if q.group = g then q.avail else 0).sum : Nat)
      let within := fun (x : Rat) => decide (1000 * (ts.map fun u => powerAt (thrDef s u) (x * (raw.getD u (0, 0)).1)).sum ≤ avail)
      if within 1 then 1 else bisect within 8 0 1
  raw.zipIdx.map fun x => (x.1.1 * scale x.2, x.1.2)

/-- The fallback law of one committed epoch (R225, R226): the approximation is recorded with event 0x1012 once for a structure and mask. -/
def fallbackLaw (i : Image) (s : State) : State :=
  let x := stallOf s 0
  let psi := shipHeading i s
  let pos := posOf s.dp.ramp
  let v := toVessel psi (pos.1 - metres (imgEst i 0)) (pos.2 - metres (imgEst i 1))
  let err : Vec := [v.1, v.2, wrapRad (turnRad (at3 s.dp.ramp 2) - turnRad (imgEst i 2))]
  let dt : Rat := (s.cyc.e : Rat) / 1000
  let integ := (List.range 3).map fun k => fixed 50 (vAt s.dp.integ k + dt * vAt err k)
  let rate := (List.range 3).map fun k =>
    if s.dp.prevErr.isEmpty then 0 else let d := vAt err k - vAt s.dp.prevErr k; (if k = 2 then wrapRad d else d) / dt
  let gain := fun (k : Nat) => metres (s.cfg.fbGains.getD k 0)
  let force := (List.range 3).map fun k =>
    vAt (biasOf i psi) k + gain (3 * k) * vAt err k + gain (3 * k + 1) * vAt integ k + gain (3 * k + 2) * vAt rate k
  let m := fallbackMatrix s
  let exact := (look s.cfg.fbMatrices x.sig).isSome
  let cmds := fallbackCmds s m.1 (thrIn s (if exact then x.lossThr.toNat else 0)) s.dp.unavail.toNat force
  let note := !m.2 && s.dp.fbNoted ≠ some (x.sig, s.dp.unavail)
  let s1 := updDp (fun d => { d with
    fbCmd := cmds.map fun c => (sat32 (toUnits 48 8 c.1), radTurn 49 c.2), fbEpoch := i.epoch, integ := integ, prevErr := err
    fbNoted := if m.2 then none else some (x.sig, s.dp.unavail) }) s
  if note then event 0x1012 2 [x.sig.toNat, s.dp.unavail.toNat] s1 else s1

end Sys2Proof.Machine
end

