-- ==== Sys2Proof/Machine/Roles.lean ====
section
/-! DEFINITION. Membership frames, formation, takeover, role commands, and the comparison of command records at a worker (R25, R30 to R33,
R340 to R357, R377 to R381, R400; class 0x0C). -/

namespace Sys2Proof.Machine

/-! ## Membership frames heard (R25, R398, R400, R402) -/

/-- The sender of a MEMBER frame is a manager that has passed its self-test: READY, RUN or SAFE (R30). A JOIN_ANSWER without a role comes of a
device that is no manager (R22, R23). -/
def passed (m : Member) : Bool :=
  m.device ≤ 2 && m.variant ≠ 3 && 3 ≤ m.hifState && m.hifState ≤ 5 && !(m.subtype = 3 && m.role = 0)

/-- A MEMBER frame of another device, heard on the networks named: the ring map, the receive windows of a restarted source, an ended
RECOVERY episode. -/
def hear (a b : Bool) (m : Member) (s : State) : State :=
  let again := match look s.link.boots m.device with | some b => decide (b ≠ m.boot) | none => false
  updateRings { s with
    mem := { s.mem with
      lowerSeen := if passed m && decide (m.device < s.dev) then s.mem.lowerSeen ||| BitVec.ofNat 3 (2 ^ m.device) else s.mem.lowerSeen
      heard := s.mem.heard.set m.device (some m)
      quietA := if a then s.mem.quietA.set m.device 0 else s.mem.quietA
      quietB := if b then s.mem.quietB.set m.device 0 else s.mem.quietB
      recovering := if m.subtype = 6 then s.mem.recovering else s.mem.recovering.filter (· ≠ m.device) }
    link := { s.link with
      boots := put s.link.boots m.device m.boot
      windows := if again then s.link.windows.filter (·.src ≠ m.device) else s.link.windows } }

/-- A membership frame that carries the device's own number (R25): in RUN the cause latches at the next epoch boundary. -/
def ownNumber (net port : Nat) (s : State) : State :=
  let s1 := event 0x0C13 4 [s.dev, net, port] s
  let s2 := if s.safe.dupQuiet > 0 then report 0x0C13 4 s.dev s.dev s1 else s1
  let s3 := { s2 with safe := { s2.safe with dupQuiet := 0 } }
  if s3.inRun then { s3 with safe := { s3.safe with dupPending := true } } else latchCause 12 s3

/-- A membership frame that carries the device's own number and whose port the row does not give: network and port are free. -/
def ownNumberFree (s : State) : State :=
  let w := nextFree s
  ownNumber (bits w.toNat 0 1) (bits w.toNat 1 1) (stepFree s)

/-- Heard on a port, or the own number. -/
def hearOn (net port : Bool) (m : Member) (k : State → State) (s : State) : State :=
  if m.device = s.dev then ownNumber net.toNat port.toNat s else k (hear (!net) net m s)

/-- Heard on both networks, or the own number. -/
def hearBoth (m : Member) (k : State → State) (s : State) : State :=
  if m.device = s.dev then ownNumberFree s else k (hear true true m s)

/-- MEMBER_PRESENT (R400, R402). -/
def execMemberPresent (net port : Bool) (m : Member) (s : State) : Res :=
  if !linkRuns s || !portTalks s (portIx net port) then .next s else .next (hearOn net port m id s)

/-! ## Formation (R30 to R32) -/

/-- A lower-numbered manager that has passed its self-test is heard (R30): in the window that ends, or it stands in the ring map. -/
def lowerHeard (s : State) : Bool :=
  s.mem.lowerSeen ≠ 0 ||
    (List.range 3).any fun d => d < s.dev && match s.mem.heard.getD d none with | some m => passed m | none => false

/-- A formation window starts: what was heard in the one before counts no more (R30). -/
def newWindow (s : State) : State := updMem (fun m => { m with lowerSeen := 0 }) s

/-- A heard manager is ACTIVE. -/
def activeHeard (s : State) : Bool :=
  (List.range 3).any fun d => d ≠ s.dev && match s.mem.heard.getD d none with | some m => m.role = 1 | none => false

/-- NO_QUORUM, once per episode (R31, R33). -/
def noQuorum (s : State) : State :=
  if s.mem.noQuorum then s
  else event 0x0C14 3 [reached s, s.quorum, s.expected] (report 0x0C14 3 0xFF (reached s) (updMem (fun m => { m with noQuorum := true }) s))

/-- A manager forms the installation as ACTIVE: it selects a source, and epoch 0 falls on the next epoch instant (R48, R50, R75). -/
def formActive (s : State) : State :=
  let s0 := setRole .active (setLife .run (updMem (fun m => { m with noQuorum := false, joining := false, takeover := none }) s))
  let s1 := selectSource s0
  let own : DevRec := { role := 1, variant := s.variant.code }
  { s1 with
    cyc := { s1.cyc with
      e := s.cfg.epochLen, k := s.cfg.cycleLen, c := s.cfg.closeOff, holds := false, epoch := 0, dpCycle := 0, dpFirst := 0, closed := none }
    brd := { s1.brd with
      active := s.dev, devices := (s.brd.devices.map fun d => { d with role := 0 }).set s.dev own } }

/-- The device may not take part as a member: its self-test has not passed, or another device carries its number (R25, R30). -/
def barred (s : State) : Bool := !s.safe.testsBad.isEmpty || s.safe.causes.getLsbD 12

/-- What a manager in READY does at the end of its formation window (R30 to R32). -/
def formation (s : State) : State :=
  if activeHeard s then (if barred s then s else sendMember 2 s)
  else if !hasQuorum s then noQuorum s
  else
    let s1 := updMem (fun m => { m with noQuorum := false }) s
    if barred s || lowerHeard s then s1 else silentIfSafe (formActive s1)

/-- FORMATION_WINDOW_END (R30 to R32): the next window starts. -/
def execFormationWindowEnd (s : State) : Res :=
  if !s.isManager || s.rst.life ≠ .ready || s.mem.role ≠ .none then .next s else .next (newWindow (formation s))

/-- JOIN_REQUEST_TIMER (R351, R377, R400). -/
def execJoinRequestTimer (s : State) : Res :=
  if s.rst.life = .cloakroom then .next (sendMember 6 s)
  else if s.rst.life = .ready && !s.noRole && !s.safe.causes.getLsbD 12 then .next (sendMember 2 s)
  else if s.inRun && s.mem.role = .silent && s.safe.causes = 0 then .next (sendMember 2 s)
  else .next s

/-! ## Joining (R28, R29, R377, R378, R469) -/

/-- A JOIN request: a device without a role in a manager slot answers ROLE (R23); the ACTIVE manager admits, refuses or lists it, a SILENT
manager by the same rules (R28, R29, R351, R377); that of a leaver is considered at the next close (R379). -/
def takeJoin (m : Member) (s : State) : State :=
  let d := m.device
  let r := (s.brd.devices.getD d {}).role
  let known := s.cfg.table.any (·.1 = d)
  if s.noRole then sendAnswer d 7 s
  else if s.isActive && s.mem.leaving.contains d then
    updMem (fun x => { x with joinAfter := x.joinAfter.filter (·.device ≠ d) ++ [m] }) s
  else if !s.isActive || r = 1 || r = 2 || r = 4 then s
  else if d ≤ 2 && m.variant ≠ s.variant.code then refuseJoin d m.variant m.fwver.toNat 0 s
  else if d ≤ 2 && m.fwver ≠ s.fw.version then refuseJoin d m.variant m.fwver.toNat 1 s
  else if known && s.cfg.autoJoin then admitMember d s
  else if s.mem.admitted.contains d then s
  else if s.mem.pendingJoin.any (·.1 = d) then
    updMem (fun x => { x with pendingJoin := x.pendingJoin.map fun y => if y.1 = d then (d, 0) else y }) s
  else event 0x0212 1 [d, m.variant, known.toNat]
    (updDev d (fun x => if x.role = 3 then x else { x with role := 5, variant := m.variant }) (updMem (fun x => { x with pendingJoin := x.pendingJoin ++ [(d, 0)] }) s))

/-- JOIN_FRAME (R25, R28, R29, R377). -/
def execJoinFrame (net port : Bool) (m : Member) (s : State) : Res :=
  if !linkRuns s || !portTalks s (portIx net port) then .next s else .next (hearOn net port m (takeJoin m) s)

/-- Flow definitions of a handshake by number (Table 12.6). -/
def hsFlows (h : Handshake) : List (Nat × BitVec 128) :=
  h.flows.map fun b => (u8 b 0, BitVec.ofNat 128 (ule b 0 16))

/-- Thruster definitions of a handshake, 24 places. -/
def hsThrusters (h : Handshake) : List (List Byte) := (h.thrusters ++ List.replicate 24 []).take 24

/-- Outside the legacy scheme a manager refuses definitions whose protected values differ from its image in force, without one from its own
values: SEALED, or LOCKED (R324, R325, R329). -/
def refusesHandshake (h : Handshake) (s : State) : Bool :=
  let held := (imageInForce s).getD { thrusters := s.cfg.thrusters, power := s.cfg.power }
  s.isManager && !legacy s &&
    ((List.range 24).any (fun n => !(protChanges (thrProtected (held.thrusters.getD n []) ((hsThrusters h).getD n []))).isEmpty) ||
      !(protChanges (powProtected held.power h.power)).isEmpty)

/-- The descriptors that the ACTIVE manager passes are held (R592). -/
def takeThrusters (h : Handshake) (s : State) : State := { s with cfg := { s.cfg with thrusters := hsThrusters h } }

/-- The plant definitions passed to a member again: descriptors, and for a worker's next epoch boundary the power plant, whose reduction
triggers and factors it acts on (R180, R214, R592). -/
def takePlant (h : Handshake) (s : State) : State :=
  let s1 := takeThrusters h s
  if s.mem.role = .worker && h.power ≠ s.cfg.power then { s1 with cfgNext := some { s1.cfg with power := h.power } } else s1

/-- A manager takes the other class 0x10 definitions in force (R329). -/
def takeDefinitions (h : Handshake) (s : State) : State :=
  let c := if h.conseq.isEmpty then s.cfg else conseqCfg h.conseq s.cfg
  { s with cfg := h.fallback.foldl (fun c p => fallbackCfg p c) (h.weights.foldl (fun c p => weightsCfg p c) c) }

/-- A manager takes the track and the counters that the Board does not carry (R185, R191). -/
def takeCounters (h : Handshake) (s : State) : State :=
  { updDp (fun d => { d with track := h.track, trackLeg := h.trackLeg, goodCycles := h.goodCycles, joyTimer := h.joyMs }) s with
    brd := { s.brd with pow := s.brd.pow.zipIdx.map fun x =>
      match h.reserve[x.2]? with | some r => { x.1 with overRun := r.1, okRun := r.2.1, alarm := r.2.2 } | none => x.1 } }

/-- The JOIN handshake completes here: parameters, time, numbers, definitions (R45, R48, R94, R378, R401, R490, R592). -/
def adoptHandshake (h : Handshake) (s : State) : State :=
  let s0 := moveTime ((h.timeNs : Int) - s.time.ns) (takeThrusters h s)
  let s1 := { s0 with
    cyc := { s0.cyc with
      e := h.epochLen, k := h.cycleLen, c := h.closeOff, holds := h.holds, epoch := h.epoch, ticks := h.ticks
      grid := 10 * h.ticks + h.timeNs % 1000000 / 100000 + 1, gridNs := h.timeNs / 100000 * 100000
      instant := h.timeNs - h.timeNs % 1000000 - h.ticks * 1000000, dpCycle := h.dpCycle }
    time := { endSlew s0.time with state := 1, gen := h.timeGen, tickNs := h.timeNs }
    brd := { s0.brd with active := h.active }
    mem := { s0.mem with joining := true } }
  let s2 := if s.isManager then takeCounters h (takeDefinitions h s1) else s1
  flrPairs (regate s { s2 with cfg := { s2.cfg with power := h.power, flows := hsFlows h, jumpUs := h.jumpUs } })

/-- JOIN_ANSWER_FRAME (R377, R378, R400, R469): a member takes the definitions that the ACTIVE manager passes again (R592); a device without
a role, or whose number another device carries, completes no handshake (R23, R25). -/
def takeAnswer (m : Member) (hs : Option Handshake) (s : State) : State :=
  if m.addressee ≠ s.dev then s
  else if s.rst.life = .cloakroom then updMem (fun x => { x with answerSrc := some m.device }) s
  else match hs with
    | none => s
    | some h =>
      if m.status ≠ 0 || refusesHandshake h s then s
      else if s.rst.life = .ready then (if s.noRole || s.safe.causes.getLsbD 12 then s else adoptHandshake h s)
      else if s.inRun && m.device = s.brd.active then takePlant h s else s

/-- JOIN_ANSWER_FRAME. -/
def execJoinAnswerFrame (m : Member) (hs : Option Handshake) (s : State) : Res :=
  if !linkRuns s && s.rst.life ≠ .cloakroom then .next s else .next (hearBoth m (takeAnswer m hs) s)

/-- LEAVE_FRAME (R379): the ACTIVE manager commits it at the next close. -/
def execLeaveFrame (m : Member) (s : State) : Res :=
  let take := fun (t : State) =>
    if t.isActive && (t.brd.devices.getD m.device {}).member && !t.mem.leaving.contains m.device then
      updMem (fun x => { x with leaving := x.leaving ++ [m.device] }) t
    else t
  if !linkRuns s then .next s else .next (hearBoth m take s)

/-- RECOVERY_FRAME (R400): event 0x0B19 once per episode, answered ROLE. -/
def execRecoveryFrame (m : Member) (s : State) : Res :=
  let take := fun (t : State) =>
    if !t.isActive then t
    else
      let t1 := if t.mem.recovering.contains m.device then t
        else event 0x0B19 3 [m.device, m.boot.toNat] (updMem (fun x => { x with recovering := x.recovering ++ [m.device] }) t)
      sendAnswer m.device 7 t1
  if !linkRuns s then .next s else .next (hearBoth m take s)

/-! ## Takeover (R33, R346, R347) -/

/-- Another counted STANDBY manager has no cause latched, as the newest DEVICES section shows. -/
def otherClean (s : State) : Bool :=
  (standbys s).any fun n => (s.brd.devices.getD n {}).causes = 0

/-- A STANDBY manager decides to take over (R33, R91, R347): reason 0 SILENT frame, 1 no publication. -/
def decideTakeover (reason : Nat) (s : State) : State :=
  if s.mem.role ≠ .standby || !s.inRun || s.mem.takeover.isSome then s
  else if !hasQuorum s then noQuorum s
  else if s.safe.causes ≠ 0 && otherClean s then s
  else
    let s1 := abandonSwap 2 s
    selectSource <| setRole .active { s1 with
      mem := { s1.mem with takeover := some reason, takeoverAt := s.time.ns, takeoverFrom := s.brd.active, noQuorum := false }
      safe := { s1.safe with counters := s1.safe.counters ||| 8, takeoverEpochs := 0 } }

/-- STANDBY managers in RUN with lower device numbers: r of R347. -/
def lowerStandbys (s : State) : Nat := (standbys s).countP (· < s.dev)

/-- The next STANDBY in device-number order (Table 1.1, R34) among those that may decide (R347): those not heard SILENT, without a latched
cause where there is one. -/
def nextInOrder (s : State) : Bool :=
  let clean := fun (n : Nat) => (s.brd.devices.getD n {}).causes = 0
  !(standbys s).any fun n => n < s.dev && !s.mem.silentSeen.getLsbD n && (clean n || s.safe.causes ≠ 0)

/-- TAKEOVER_DECISION (R347): no publication by the instant of e + 1 + r, or a SILENT ACTIVE manager that could not be followed before. -/
def execTakeoverDecision (s : State) : Res :=
  if s.brd.active ≤ 2 && s.mem.silentSeen.getLsbD s.brd.active && nextInOrder s then .next (decideTakeover 0 s)
  else match s.newest with
    | some i => if epochDiff s.cyc.epoch i.epoch > 1 + lowerStandbys s then .next (decideTakeover 1 s) else .next s
    | none => .next s

/-- SILENT_FRAME (R346): reported while it stands; the next STANDBY manager in order may take over (R34, R347); a swap that names the manager is abandoned. -/
def takeSilent (m : Member) (s : State) : State :=
  if !s.inRun then s
  else
    let bitOf := BitVec.ofNat 3 (2 ^ m.device)
    let s1 := if alarmOn s 0x0C24 m.device then s
      else event 0x0C24 4 [m.device, 0xFF, s.epochHeld.toNat] (raiseAlarm 0x0C24 m.device 4 m.device s)
    let s2 := updMem (fun x => { x with silentSeen := x.silentSeen ||| bitOf }) s1
    let s3 := if s2.isActive && s2.brd.swapTarget = m.device then abandonSwap 0 s2 else s2
    if m.device = s3.brd.active && nextInOrder s3 then decideTakeover 0 s3 else s3

/-- SILENT_FRAME. -/
def execSilentFrame (m : Member) (s : State) : Res :=
  if !linkRuns s then .next s else .next (hearBoth m (takeSilent m) s)

/-! ## Comparison at the worker (R340 to R342) -/

/-- Managers that the newest image held shows as ACTIVE or STANDBY. -/
def shownMgrs (s : State) : List Nat :=
  match s.newest with
  | some i => (List.range 3).filter fun n => (imgDev i n).role = 1 || (imgDev i n).role = 2
  | none => []

/-- The ACTIVE manager of the newest image. -/
def shownActive (s : State) : Nat := match s.newest with | some i => imgFld i 7 80 8 | none => 0xFF

/-- Manager `m`'s record for thruster `thr` in command epoch `e`. -/
def cmdRec (s : State) (e : BitVec 16) (thr m : Nat) : Option CmdRec :=
  match s.loop.cmds.getD m none with
  | some (f, rs) => if f = e then rs.find? (·.thr = thr) else none
  | none => none

/-- A selection: OUTCOME, the class whose record is applied, the minority, the managers present (Table 10.1). -/
structure Selection where
  outcome  : Nat
  cls      : List Nat := []
  minority : List Nat := []
  present  : List Nat := []
  deriving DecidableEq, Repr

/-- Table 10.1 for counted managers `ms` with ACTIVE manager `act`. -/
def select (act : Nat) (ms : List Nat) (rec_ : Nat → Option CmdRec) : Selection :=
  let present := ms.filter fun m => (rec_ m).isSome
  let cls := fun (m : Nat) => present.filter fun n => rec_ n = rec_ m
  let out : Selection := { outcome := 4, present := present }
  if !ms.isEmpty && present.length = ms.length && present.all (fun m => rec_ m = rec_ (ms.headD 0)) then { out with outcome := 0, cls := present }
  else match present.find? fun m => decide (2 * (cls m).length > ms.length) with
  | some m => { out with outcome := 1, cls := cls m, minority := present.filter fun n => !(cls m).contains n }
  | none =>
    if !present.contains act then out
    else if present.any fun m => rec_ m ≠ rec_ act then { out with outcome := 3, cls := cls act }
    else if present = [act] then { out with outcome := 2, cls := [act] } else out

/-- A mask of managers. -/
def mgrMask (l : List Nat) : Nat := maskOf 3 l.contains

/-- The contexts of a thruster follow the record applied for it (R292). -/
def engageCtxs (thr : Nat) (r : CmdRec) (s : State) : State :=
  ((cmdPaths s).filter fun n => ctxThr s n = thr).foldl (fun t n =>
    if bit r.flags.toNat 4 then disableCtx n 2 t
    else if bit r.flags.toNat 0 && (ctxOf t n).state = 1 && (ctxOf t n).armed then enableCtx n 1 t else t) s

/-- The compare report of Table 10.2. -/
def compareBody (thr : Nat) (e : Word) (x : Selection) (act : Nat) (r : Option CmdRec) : Nat :=
  let mgr := if x.cls.isEmpty then 0xFF else if x.cls.contains act then act else x.cls.headD 0xFF
  pack [(8, thr), (8, x.outcome), (8, mgrMask x.present), (8, mgrMask x.cls), (8, mgrMask x.minority), (8, mgr), (16, 0),
    (32, match r with | some q => q.srcCycle.toNat | none => 0), (32, e.toNat)]

/-- The third counter runs from a comparison of differing records; the report is latched with it (R304). -/
def startCompare (x : Selection) (s : State) : State :=
  if x.minority.isEmpty && x.outcome ≠ 3 then s
  else updSafe (fun y => { y with counters := y.counters ||| 4, compareEpochs := 0, compareLatched := true }) s

/-- The report of one outcome other than AGREE, with its events (R342). -/
def reportCompare (thr : Nat) (e : Word) (x : Selection) (act : Nat) (r : Option CmdRec) (s : State) : State :=
  if x.outcome = 0 then s
  else
    let s1 := { s with mem := { s.mem with compares := s.mem.compares ++ [compareBody thr e x act r] } }
    let s2 := x.minority.foldl (fun t m => event 0x0C22 3 [thr, m, e.toNat, mgrMask x.present] t) s1
    startCompare x (if x.outcome = 3 then event 0x0C23 3 [thr, mgrMask x.present, e.toNat, mgrMask x.cls] s2 else s2)

/-- One thruster's record selected and applied (R341); reported when `told`. -/
def applyThr (told : Bool) (e : Word) (s : State) (n : Nat) : State :=
  let act := shownActive s
  let x := select act (shownMgrs s) (cmdRec s (e.setWidth 16) (n + 1))
  let r := (x.cls.head?).bind (cmdRec s (e.setWidth 16) (n + 1))
  let put := fun (a : Applied) => match r with
    | some q => { a with rec_ := some q, engaged := bit q.flags.toNat 0, cmp := x.outcome, cmdEpoch := e, age := (epochDiff s.cyc.epoch e).toNat }
    | none => { a with cmp := x.outcome }
  let s1 := { s with loop := { s.loop with applied := upd s.loop.applied n put } }
  let s2 := match r with
    | some q => engageCtxs (n + 1) q s1
    | none => s1
  if told then reportCompare (n + 1) e x act r s2 else s2

/-- The thrusters that this device reports. -/
def ownThrusters (s : State) : List Nat :=
  (List.range 24).filter fun n => let p := s.cfg.thrusters.getD n []; !p.isEmpty && thrFld p 16 8 = s.dev

/-- Every own thruster's record selected and applied; the reduction is released where the commands postdate it (R216, R341). -/
def applyAll (told : Bool) (e : Word) (s : State) : State :=
  let s1 := (ownThrusters s).foldl (applyThr told e) s
  driveOutputs (if isCmdEpoch s1 s1.cyc.epoch then flrRelease false s1 else s1)

/-- A device that applies commands: a worker, or the ACTIVE manager that drives thrusters itself (R292). -/
def appliesCommands (s : State) : Bool := s.inRun && (s.mem.role = .worker || s.mem.role = .active)

/-- CMD_FRAME (R340): stored for the comparison of its epoch, or counted in LATE_CMD. -/
def execCmdFrame (mgr : Fin 3) (epoch16 : BitVec 16) (recs : List CmdRec) (s : State) : Res :=
  let d := (epoch16 - s.cyc.epoch.setWidth 16).toInt
  if !appliesCommands s || mgr.val = s.dev then .next s
  else if d < 0 || (d = 0 && s.loop.cmdDone) then .next { s with loop := { s.loop with lateCmd := satAdd s.loop.lateCmd recs.length } }
  else .next { s with loop := { s.loop with cmds := s.loop.cmds.set mgr.val (some (epoch16, recs)) } }

/-- Records of the current epoch are held. -/
def cmdsHeld (s : State) : Bool :=
  s.loop.cmds.any fun c => match c with | some x => x.1 = s.cyc.epoch.setWidth 16 | none => false

/-- CMD_WAIT_EXPIRY (R340 to R342): a record of this epoch that arrives from now on is late. -/
def execCmdWaitExpiry (s : State) : Res :=
  if !appliesCommands s || s.loop.cmdDone || !s.cyc.holds then .next s
  else
    let s1 := { s with loop := { s.loop with cmdDone := true } }
    if !(cmdsHeld s || (isCmdEpoch s s.cyc.epoch && engaged s.dp.mode)) then .next s1
    else .next (applyAll true s.cyc.epoch { s1 with loop := { s1.loop with cmdLatest := s.cyc.epoch.setWidth 16 } })

/-- The epoch whose low 16 bits are given, nearest the current one. -/
def wideEpoch (s : State) (e : BitVec 16) : Word := s.cyc.epoch + wi ((e - s.cyc.epoch.setWidth 16).toInt)

/-- Re-selection after a takeover or a swap (R349): the latest command epoch's records, no reports. -/
def reselect (s : State) : State :=
  if !s.loop.reselect then s
  else
    let s1 := { s with loop := { s.loop with reselect := false } }
    if appliesCommands s1 && s1.loop.cmds.any (·.isSome) then applyAll false (wideEpoch s1 s1.loop.cmdLatest) s1 else s1

/-! ## Commands of class 0x0C -/

/-- ROLE_STATUS (R495). -/
def bodyRoleStatus (_ : Req) (s : State) : Ans :=
  let silent := maskOf 3 fun n => (s.brd.devices.getD n {}).role = 3
  give (leBytes 12 (pack [(8, s.mem.role.code), (8, s.brd.active), (8, mgrMask s.countedMgrs), (8, silent),
    (32, if s.brd.swapOn then s.brd.swapAt.toNat else 0), (8, s.brd.swapTarget), (8, s.mem.splitOn.toNat), (16, s.mem.splitLeft)])) s
def execRoleStatus (r : Req) (s : State) : Res := mbx 0x0C01 (exactly 0) bodyRoleStatus r s

/-- ROLE_SWAP (R353). -/
def bodyRoleSwap (r : Req) (s : State) : Ans :=
  let m := u8 r.payload 0
  if !(standbys s).contains m then no .badArg s
  else if (s.sol.outcomes.getD m none).isNone then no .state s
  else if s.brd.swapOn then no .busy s
  else
    let at_ := nextClose s + 2
    give (leBytes 4 at_.toNat) (updBrd (fun b => { b with swapOn := true, swapAt := at_, swapTarget := m }) s)
def execRoleSwap (r : Req) (s : State) : Res := mbx 0x0C02 (exactly 1) bodyRoleSwap r s

/-- MGR_SILENCE (R345): SILENT from the next epoch boundary. DESIGN CHOICE (row 81): another manager learns of it by a copy of the command. -/
def bodyMgrSilence (r : Req) (s : State) : Ans :=
  let m := u8 r.payload 0
  let take := fun (t : State) => updMem (fun x => { x with silencing := x.silencing ++ [(m, s.cyc.epoch + 1)] }) t
  if isCopy 0x0C03 r s then okay (if m = s.dev then take s else s)
  else if !s.countedMgrs.contains m then no .badArg s
  else if s.countedMgrs.length ≤ 1 then no .state s
  else give (leBytes 4 (s.cyc.epoch + 1).toNat) (take (if m = s.dev then s else sendCopies 0x0C03 r [m] s))
def execMgrSilence (r : Req) (s : State) : Res := mbx 0x0C03 (exactly 1) bodyMgrSilence r s

/-- The accepted redundancy word takes effect with an epoch whose close instant is given (R357). -/
def takeRedundancy (close : Nat) (s : State) : State :=
  match s.mem.redNext with
  | some (v, t) =>
    if close < t then s else updMem (fun m => { m with redNext := none }) { s with cfg := { s.cfg with redundancy := v } }
  | none => s

/-- REDUNDANCY_CONFIG (R357): stored now, in effect from the next epoch that closes; reserved bits are dropped. -/
def bodyRedundancyConfig (r : Req) (s : State) : Ans :=
  let w : BitVec 64 := BitVec.ofNat 64 (ule r.payload 0 8)
  let wait := fld w 0 16
  if !(100 ≤ wait && wait ≤ 5000 && wait < 100 * s.cyc.c && 1 ≤ fld w 16 8 && fld w 16 8 ≤ 10 && 1 ≤ fld w 32 16 && fld w 32 16 ≤ 1000) then
    no .range s
  else
    let v := w &&& 0x0000FFFF00FFFFFF
    let f := fun (c : Cfg) => { c with redundancy := v }
    okay (shareCfg 0x0C04 r [0, 1, 2]
      (storeCfg f (updMem (fun m => { m with redNext := some (v, s.time.ns) }) { s with cfgNext := s.cfgNext.map f })))
def execRedundancyConfig (r : Req) (s : State) : Res := mbx 0x0C04 (exactly 8) bodyRedundancyConfig r s

end Sys2Proof.Machine
end

