-- ==== Sys2Proof/Machine/Publish.lean ====
section
/-! DEFINITION. Set-points and their ramp, the start of a DP cycle, the problem and the structure of stall 0, the fallback law, the
composition of an image, and what an image does on the device that publishes or installs it (R180 to R194, R225, R226, R239, R258,
R262 to R264, R359 to R361, R367, R370). -/

namespace Sys2Proof.Machine

/-! ## What the SETPOINT section shows (R187 to R193) -/

/-- A mode that holds the position: STATION_KEEP, AUTO_TRACK, GREEN. -/
def holdsPosition (m : Nat) : Bool := m = 4 || m = 5 || m = 6

/-- FLAGS of the SETPOINT section (Table 6.3, R190, R191, R193). -/
def setpointFlags (s : State) : BitVec 8 :=
  let d := s.dp
  let m := d.mode
  let last := d.track.getD (d.track.length - 1) []
  let inWindow := m = 6 && decide (dist2 (estPoint s) d.ramp * 10000 ≤ d.radius ^ 2 * 2 ^ 32)
  let ended := m = 5 && !d.track.isEmpty && d.trackLeg + 1 = d.track.length && at3 d.ramp 0 = at3 last 0 && at3 d.ramp 1 = at3 last 1
  BitVec.ofNat 8 (pack [(1, (3 ≤ m && (at3 d.ramp 0 ≠ at3 d.target 0 || at3 d.ramp 1 ≠ at3 d.target 1) : Bool).toNat),
    (1, (3 ≤ m && at3 d.ramp 2 ≠ at3 d.target 2 : Bool).toNat), (1, d.autoHdg.toNat), (1, d.joyLost.toNat),
    (1, inWindow.toNat), (1, ended.toNat), (1, (holdsPosition m && !s.fus.posValid).toNat), (1, (engaged m && !s.fus.hdgValid).toNat)])
/-- The flags brought up to date. -/
def setFlags (s : State) : State := updDp (fun d => { d with flags := setpointFlags s }) s

/-! ## What takes effect with a DP cycle (R148, R180 to R187, R189, R239) -/

/-- A point of the old plane in the new one (R148, R189). -/
def carryPoint (s : State) (lat lon : Word) (n e : Rat) : Rat × Rat :=
  let o := fun (a b : Word) => (geoRad (sext 32 a.toNat), geoRad (sext 32 b.toNat))
  toPlane (o lat lon) (fromPlane (o s.dp.originLat s.dp.originLon) n e)
/-- That of a point in Q16.16. -/
def carry (s : State) (lat lon : Word) (p : List Int) : List Int :=
  let q := carryPoint s lat lon (metres (at3 p 0)) (metres (at3 p 1))
  sat32 (toUnits 43 16 q.1) :: sat32 (toUnits 43 16 q.2) :: p.drop 2
/-- That of the observer's position. -/
def carryKal (s : State) (lat lon : Word) (k : Kal) : Kal :=
  if k.x.isEmpty then k
  else let q := carryPoint s lat lon (k.at 0) (k.at 1); { k with x := (k.x.set 0 (fixed 0 q.1)).set 1 (fixed 1 q.2) }

/-- The origin moves: estimate, anchors, target, ramp and track are carried into the new plane, the ring with them (R148, R170, R189). -/
def moveOrigin (lat lon : Word) (s : State) : State :=
  let c := carry s lat lon
  let anchor := fun (a : Int × Int) => let p := c [a.1, a.2]; (at3 p 0, at3 p 1)
  let kal := carryKal s lat lon
  let ent := fun (r : RingEnt) => { r with
    prior := kal r.prior, post := kal r.post, streams := r.streams.map fun x => { x with anchor := x.anchor.map anchor } }
  let s1 := if !s.fus.originFixed then s
    else updDp (fun d => { d with target := c d.target, ramp := c d.ramp, rampFrom := c d.rampFrom, track := d.track.map c })
      (updFus (fun f => { f with
        est := c f.est, kal := kal f.kal, ring := f.ring.map ent, streams := f.streams.map fun x => { x with anchor := x.anchor.map anchor } }) s)
  updFus (fun f => { f with originFixed := true })
    (updDp (fun d => { d with originLat := lat, originLon := lon, originGen := d.originGen + 1 }) s1)

/-- The accepted mode takes effect (R180 to R184, R187, R259): event 0x1010. In OFF there is no agreed solution; SHIFT_RUN stands
(Table 7.15). -/
def takeMode (s : State) : State :=
  match s.dp.pendingMode with
  | none => s
  | some m =>
    let old := s.dp.mode
    let due := if 3 ≤ m && m ≤ 6 && (old ≤ 3 || old = 7) then 1 else 0
    let s1 := updDp (fun d => { d with
      mode := m, pendingMode := none, fbCmd := [], rampDue := due, rampFrom := d.ramp, rampAge := 0, rampLeg := 0, disengage := m = 1 && engaged old
      trackLeg := if m = 5 then 0 else d.trackLeg, joy := if m = 2 then [0, 0, 0] else d.joy, joyTimer := if m = 2 then 0 else d.joyTimer
      agreed := if old = 0 || m = 0 then none else d.agreed
      goodCycles := if old = 0 then 0 else d.goodCycles, decision := if m = 0 then none else d.decision }) s
    let s2 := if old = 0 || m = 0 then updStall 0 (fun x => { x with hasSol := false, sol := [] }) s1 else s1
    let s3 := if m = 0 then { s2 with sol := { s2.sol with
        pairs := [none, none, none, none], queue := [], running := false
        stalls := s2.sol.stalls.map fun x => if x.state = 4 then { x with state := 3, candOk := false } else x } } else s2
    event 0x1010 1 [old, m, s.cyc.dpCycle.toNat, 0] s3

/-- The accepted values take effect (R180, R186 to R192): the origin first, whose plane the target is given in; with another speed or
rate the ramp goes on from where it stands. -/
def takeValues (s : State) : State :=
  let p := s.dp.pend
  let s1 := match p.origin with | some o => moveOrigin o.1 o.2 s | none => s
  let faster := s.dp.mode ≠ 5 && (p.speed.getD s.dp.rampSpeed ≠ s.dp.rampSpeed || p.rate.getD s.dp.rampRate ≠ s.dp.rampRate)
  updDp (fun d => { d with
    pend := {}, rampFrom := if faster then d.ramp else d.rampFrom, rampAge := if faster then 0 else d.rampAge
    target := [match p.pos with | some v => v.1 | none => at3 d.target 0, match p.pos with | some v => v.2 | none => at3 d.target 1,
      p.hdg.getD (at3 d.target 2)]
    rampDue := (d.rampDue % 2) + (if p.pos.isSome || bit d.rampDue 1 then 2 else 0) + (if p.hdg.isSome || bit d.rampDue 2 then 4 else 0)
    rampSpeed := p.speed.getD d.rampSpeed, rampRate := p.rate.getD d.rampRate, radius := p.radius.getD d.radius
    hdgWindow := p.window.getD d.hdgWindow, joy := p.joy.getD d.joy, autoHdg := p.auto.getD d.autoHdg, track := p.track.getD d.track }) s1

/-- A scenario's stall after its definition changed (R217, R240, R266): a removed one is dispatched no more and keeps its last solution. -/
def rescenario (old : Cfg) (s : State) (n : Nat) : State :=
  let a := old.scens.getD n []
  let b := s.cfg.scens.getD n []
  let k := firstScen s + n
  if b.isEmpty then
    if a.isEmpty then s
    else settleConseq { updStall k (fun x => if x.state = 3 || x.state = 7 then { x with state := 6 } else x) s with
      dp := { s.dp with scen := s.dp.scen.set n (List.replicate 8 0), conseqStale := s.dp.conseqStale &&& ~~~(BitVec.ofNat 16 (2 ^ n)) } }
  else if (a.isEmpty || u8 a 1 ≠ u8 b 1) && !(stallOf s 0).mainDesc.isEmpty then buildScenario n s
  else s

/-- The ACTIVE manager passes the plant definitions to every member again (R180, R592). -/
def passDescriptors (s : State) : State := passTo (ownHandshake s) s

/-- The accepted configuration takes effect (R180). -/
def takeCfg (s : State) : State :=
  match s.cfgNext with
  | none => s
  | some c =>
    let s1 := flrPairs (regate s { s with cfg := c, cfgNext := none })
    let s2 := (List.range s.variant.scens).foldl (rescenario s.cfg) s1
    if s.isActive && (c.thrusters ≠ s.cfg.thrusters || c.power ≠ s.cfg.power) then passDescriptors s2 else s2

/-- What was accepted takes effect, and the managers are counted in the cycle (R180, R239, R258, R351). -/
def takeAccepted (close : Nat) (s : State) : State :=
  let s1 := updMem (fun m => { m with uncounted := m.uncounted.filter fun x => x.2 ≠ 0 }) s
  let s2 := activatePending close (takeValues (takeMode (takeCfg s1)))
  updDp (fun d => { d with counted := BitVec.ofNat 3 (mgrMask s2.countedMgrs) }) s2

/-- The pending values without those that were pending before. -/
def DpPend.since (b a : DpPend) : DpPend :=
  { pos := if b.pos = a.pos then none else b.pos, hdg := if b.hdg = a.hdg then none else b.hdg, speed := if b.speed = a.speed then none else b.speed
    rate := if b.rate = a.rate then none else b.rate, radius := if b.radius = a.radius then none else b.radius
    window := if b.window = a.window then none else b.window, origin := if b.origin = a.origin then none else b.origin
    joy := if b.joy = a.joy then none else b.joy, auto := if b.auto = a.auto then none else b.auto, track := if b.track = a.track then none else b.track }

/-- A DP cycle's first epoch closed: what was accepted before the close takes effect. A STANDBY manager learns of the close with the image: copies that
reached it after the close wait for the next cycle; the mode is the one that the image shows (R180, R239). -/
def takeDpCycle (close : Nat) (s : State) : State :=
  let late := s.dp.copies.filter fun a => afterClose close a.time
  match late.getLast? with
  | none => updDp (fun d => { d with copies := d.copies.filter fun a => afterClose close a.time }) (takeAccepted close s)
  | some a =>
    let s1 := takeAccepted close { updDp (fun d => { d with pend := a.pend }) s with cfgNext := a.cfg }
    { updDp (fun d => { d with
        pend := s.dp.pend.since a.pend
        copies := (s.dp.copies.filter fun b => afterClose close b.time).map fun b => { b with
          pend := b.pend.since a.pend, cfg := if b.cfg = a.cfg then none else b.cfg } }) s1 with
      cfgNext := if s.cfgNext = a.cfg then none else s.cfgNext }

/-! ## Structure switches and the DP cycle's problem (R52, R195 to R205, R262 to R264, R267, R367) -/

/-- Stall 0 takes a structure, with event 0x040C; an alarm of differing builds ends (R263, R264, Table 7.16). -/
def switchTo (source kind : Nat) (desc : List Byte) (sig : Word) (loss : Nat) (s : State) : State :=
  let old := (stallOf s 0).sig
  let s1 := updStall 0 (fun x => { x with desc := desc, sig := sig, kind := kind, cert := wd (hdrFld desc 192 32), lossThr := BitVec.ofNat 24 loss, data := [], next := [] }) s
  let s2 := updDp (fun d => { d with structSource := source, building := none, derived := none, built := [none, none, none] })
    { s1 with sol := { s1.sol with switched := true } }
  event 0x040C 2 [old.toNat, sig.toNat, loss, source] (clearAlarm 0x040E 0xFF s2)

/-- The signature that every counted manager has reported for the running build (R263). -/
def agreedBuild (s : State) (mask : Nat) : Option Word :=
  match (s.countedMgrs.map fun m => s.dp.built.getD m none) with
  | some b :: l => if b.1 = mask && l.all (fun x => x = some b) then some b.2 else none
  | _ => none

/-- The pre-resident stall that fits a mask: loaded, enabled, of the present main structure's family (R263). -/
def resident (s : State) (mask : Nat) : Option Nat :=
  (List.range (firstScen s)).find? fun n =>
    n ≠ 0 && !(stallOf s n).desc.isEmpty && stallOn s n && (stallOf s n).state = 3 && (stallOf s n).lossThr.toNat = mask

/-- The structure of stall 0 at the start of a DP cycle (R263, R264). -/
def switchStructure (s0 : State) : State :=
  let mask := unavailMask s0
  let changed := decide (s0.dp.unavail.toNat ≠ mask)
  let s := updDp (fun d => { d with unavail := BitVec.ofNat 24 mask, builds := if changed then 0 else d.builds })
    { s0 with sol := { s0.sol with switched := false } }
  let x := stallOf s 0
  let building := s.dp.building = some (BitVec.ofNat 24 mask)
  if x.lossThr.toNat = mask then updDp (fun d => { d with building := none, derived := none, built := [none, none, none] }) s
  else if mask = 0 then switchTo 0 0 x.mainDesc x.mainSig 0 s
  else match resident s mask with
    | some n => switchTo n 1 (stallOf s n).desc (stallOf s n).sig mask s
    | none =>
      match if building then agreedBuild s mask else none with
      | some sig => switchTo 0xFE 3 (derivedDesc s x.mainDesc mask) sig mask s
      | none =>
        if building || s.dp.builds ≥ 3 then s
        else event 0x040D 2 [mask, x.mainSig.toNat, s.cyc.dpCycle.toNat]
          (updDp (fun d => { d with building := some (BitVec.ofNat 24 mask), derived := none, built := [none, none, none] }) s)

/-- The DP cycle's problem is built and its solves dispatched (R52, R198, R248, R262, R263, R267). -/
def buildCycle (i : Image) (s0 : State) : State :=
  let s := switchStructure ((s0.sol.pairs.filterMap id).foldl stopSolve s0)
  let cold := match warmSource s 0 with | some v => v.1 ≠ (stallOf s 0).sig | none => true
  let s1 := updDp (fun d => { d with abandoned := false, decision := none })
    { s with sol := { s.sol with
        cycle := s.cyc.dpCycle, refs := referencesOf cold s0.dp.unavail (nStages (stallOf s 0).desc) s, plant := s.brd.pow
        s0Flags := if (stallOf s 0).state = 5 then 0x80 else 0, s0Iter := 0, preOk := 0, scenOk := 0
        running := true, pairs := [none, none, none, none] } }
  let s2 := feedStalls i s1
  dispatch 4 { s2 with sol := { s2.sol with queue := cycleQueue s2 } }

/-- A DP cycle whose first epoch has no STATE is not built (R367). -/
def abandonCycle (s : State) : State :=
  updDp (fun d => { d with abandoned := true, decision := none })
    { s with sol := { s.sol with
        cycle := s.cyc.dpCycle, s0Flags := 0, s0Iter := 0, preOk := 0, scenOk := 0, running := true, pairs := [none, none, none, none], queue := [] } }

/-- The heading of an image, kept while it is valid (R193). -/
def keepHeading (i : Image) (s : State) : State :=
  if (imgSec i 2).isSome && imgHdgValid i then updDp (fun d => { d with lastHdg := some (imgEst i 2) }) s else s

/-- The scenario structures that every counted manager has reported become ready at the start of a DP cycle (R240, R263). -/
def settleBuilds (s : State) : State :=
  (List.range s.variant.scens).foldl (fun t n =>
    let x := stallOf t (firstScen t + n)
    if x.state = 7 && !x.desc.isEmpty && !t.countedMgrs.isEmpty && t.countedMgrs.all (fun m => (t.dp.scenBuilt.getD m []).contains x.sig) then
      updStall (firstScen t + n) (fun y => { y with state := 3 }) t
    else t) s

/-- A manager's work for the DP cycle on an image: at its first epoch, in every mode, stalls reloaded and scenario builds agreed (R240, R267), and its
problem from that epoch's image; the fallback law in DEGRADED. -/
def dpWork (i : Image) (s0 : State) : State :=
  let hasState := (imgSec i 2).isSome
  let s := keepHeading i (if i.epoch = s0.cyc.dpFirst then settleBuilds (reloadStalls s0) else s0)
  let s1 := if s.dp.mode = 0 || (stallOf s 0).desc.isEmpty then s
    else if i.epoch = s.cyc.dpFirst && hasState then buildCycle i s
    else if s.sol.cycle ≠ s.cyc.dpCycle then abandonCycle s else s
  if s1.dp.mode = 7 && hasState then fallbackLaw i s1 else s1

/-! ## What an image does on every device (R214, R215, R294, R368, R372, R374, R457, R529, R540) -/

/-- A manager seen SILENT is seen so no longer when an image after one that showed it SILENT, or one that shows it gone, does not show it so
(R346). -/
def settleSilent (old : Option Image) (i : Image) (s : State) : State :=
  [0, 1, 2].foldl (fun t m =>
    let was := match old with | some x => (imgDev x m).role = 3 | none => false
    let r := (imgDev i m).role
    if t.mem.silentSeen.getLsbD m && r ≠ 3 && (was || r = 0) then
      clearAlarm 0x0C24 m (updMem (fun x => { x with silentSeen := x.silentSeen &&& ~~~(BitVec.ofNat 3 (2 ^ m)) }) t)
    else t) s

/-- The image enters history and the Board stream; committed compare reports need no further contribution (Table 9.3); interrupts, histograms, captures, inputs, reductions, and the managers' DP work. -/
def imageTaken (i : Image) (s : State) : State :=
  let old := s.newest
  let gen := fun (o : Option Image) => (match o with | some x => imgFld x 8 0 16 | none => 0 : Nat)
  let alarms := match old with | some x => imgAlarms x [] | none => []
  let keep := if s.isManager then 3000 else 2
  let s1 := updBrd (fun b => { b with
    images := (i :: b.images).take keep, stream := if b.stream.on then { b.stream with queue := b.stream.queue ++ [i] } else b.stream }) s
  let s2 := settleSilent old i (if gen old ≠ gen (some i) then raiseIrq 6 s1 else s1)
  let s3 := captureImage alarms i (histoSample i s2)
  let told := fun (b : Nat) => i.commit.any fun c => c.kind = 4 && c.src = s3.dev && c.body = b
  let s3 := updMem (fun m => { m with compares := m.compares.filter (!told ·) }) s3
  let s4 := updateGates (flrBoard (inputBack (fun l => l.inType = 1 && (imgSec i l.inSel).isSome) s3))
  if s4.isMgrRole then dpWork i s4 else s4

/-! ## Publication (R359 to R361, R367) -/

/-- The image of the closed epoch: the sections that the state gives beside those fixed at the close (Table 11.1). -/
def composeImage (late : Bool) (s : State) (o : Image) : Image :=
  let fusion : List Sec := if late then [] else [{ code := 1, bytes := 404, val := streamsSec s }, { code := 2, bytes := 88, val := stateSec s }]
  let plan : List Sec := if (stallOf s 0).desc.isEmpty then [] else [{ code := 4, bytes := 80, val := s.brd.plan.getD ((stallOf s 0).sig.toNat * 2 ^ 192) }]
  let conseq : List Sec := if (s.cfg.scens.take s.cfg.nScen).all (·.isEmpty) then [] else [{ code := 9, bytes := 268, val := s.brd.conseq.getD 0 }]
  let secs := o.secs ++ fusion ++ [{ code := 3, bytes := 64, val := setpointSec s }] ++ plan ++
    [{ code := 5, bytes := 768, val := thrustersSec s }, { code := 6, bytes := 192, val := powerSec s }, { code := 7, bytes := 1040, val := devicesSec s },
      alarmsSec s] ++ conseq
  let mask := secs.foldl (fun a x => a + 2 ^ x.code) 0
  let flags := o.flags ||| BitVec.ofNat 8 (pack [(3, 0), (1, late.toNat), (1, s.brd.memberChange.toNat)])
  { o with secs := secs, flags := flags, presence := BitVec.ofNat 16 (mask + if !conseq.isEmpty && s.variant = .MA then 2 ^ 11 else 0) }

/-- The request that copies a loaded structure. -/
def structCopy (s : State) (n : Nat) : Req :=
  let d := if n = 0 then (stallOf s n).mainDesc else (stallOf s n).desc
  { path := .relay 0 0, payload := d }

/-- The settings of this manager that a joining manager receives beside the structures: TIME_CONFIG's shared fields, redundancy, streams,
transforms, observer and stall configuration (R139, R268, R357, R490). -/
def settingCopies (s : State) : List (Nat × List Byte) :=
  let b := fun (n : Nat) => BitVec.ofNat 8 n
  [(0x0801, s.cfg.sources.map b ++ [0] ++ leBytes 4 s.cfg.jumpUs ++ List.replicate 40 0), (0x0C04, leBytes 8 ((s.mem.redNext.map (·.1)).getD s.cfg.redundancy).toNat)] ++
    (s.cfg.streams.filter (!·.isEmpty)).map (fun p => (0x0301, p)) ++
    s.cfg.transforms.zipIdx.map (fun x => (0x0303, [b x.2, 1, 0, 0, 0, 0, 0, 0] ++ leBytes 48 x.1.toNat)) ++
    [(0x0305, leBytes 48 s.cfg.observer.toNat)] ++
    (List.range s.variant.stalls).map (fun n => (0x0403, [b n, 0, 0, 0, 0, 0, 0, 0] ++ leBytes 8 ((cfgAhead s).stalls.getD n 0).toNat))

/-- Managers that the image about to be published shows as STANDBY and the one before it showed as no member or as SILENT. -/
def newMgrs (s : State) : List Nat :=
  (standbysInRun s).filter fun d => match s.newest with | some x => !imgMember x d || (imgDev x d).role = 3 | none => true

/-- A manager that has joined receives every loaded structure and those settings (R351). -/
def sendJoinCopies (s : State) : State :=
  (newMgrs s).foldl (fun t d =>
    let t1 := (settingCopies s).foldl (fun t x => sendCopies x.1 { path := .relay 0 0, payload := x.2 } [d] t) t
    (loadedStalls s).foldl (fun t n => sendCopies 0x0401 (structCopy s n) [d] t) t1) s

/-- The published image's own effects: counters, frames on both networks, copies to managers that have joined, the takeover ended (R304, R351,
R367, R385). -/
def sendImage (i : Image) (s : State) : State :=
  let s1 := sendJoinCopies (sendLong 5 0xFF i.epoch (imageBytes i) false (brdCount 0 1 (brdCount 2 i.ontime (brdCount 3 i.lateRecs s))))
  let s2 := updBrd (fun b => { b with open_ := none, memberChange := false, unpublished := false }) (updMem (fun m => { m with takeover := none }) s1)
  { s2 with undo := none, safe := { s2.safe with counters := s2.safe.counters &&& 7 } }

/-- The ACTIVE manager publishes the closed epoch: with its fusion result, or late without STREAMS and STATE (R367). -/
def publish (late : Bool) (s : State) : State :=
  match s.brd.open_ with
  | none => s
  | some o =>
    let todo := s.fus.todo.getD []
    let s0 := updFus (fun f => { f with todo := none }) s
    let s1 := if late then event 0x0214 2 [o.epoch.toNat] s0 else fuse o.epoch todo s0
    let s2 := setFlags (if o.epoch = s.cyc.dpFirst then rampStep (!late) s1 else s1)
    let i := composeImage late s2 o
    let s3 := imageTaken i (sendImage i s2)
    if late then fuse o.epoch todo s3 else s3

/-- FUSION_RESULT_READY (R367). -/
def execFusionResultReady (s : State) : Res := if s.isActive then .next (publish false s) else .next s

/-- PUBLICATION_DEADLINE (R367). -/
def execPublicationDeadline (s : State) : Res := if s.isActive then .next (publish true s) else .next s

/-- BOARD_LOST (R370): the closed epoch is not published; its commit is taken back, and it and the fusion are repeated with an empty set; its records
wait for the late list. -/
def boardLost (region : Nat) (s : State) : State :=
  match s.brd.open_ with
  | none => s
  | some o =>
    let s1 := updBrd (fun b => { b with unpublished := true }) (dropOpen s)
    let s2 := fuse o.epoch [] (commitShared o.epoch [] (brdCount 1 1 s1))
    let s2 := if o.epoch = s.cyc.dpFirst then rampStep true s2 else s2
    event 0x0213 3 [o.epoch.toNat, region] (report 0x0213 3 0xFF o.epoch.toNat s2)

end Sys2Proof.Machine
end

