-- ==== Sys2Proof/Machine/Epoch.lean ====
section
/-! DEFINITION. The clock of the cycle and what it starts: ticks, epoch instants with the agreed solution, commands and contributions, the
close of an epoch at the ACTIVE manager, and the installation of an image on every other device (R47 to R53, R87, R89, R208, R209, R225, R258,
R338, R339, R345 to R350, R353, R362 to R366, R368, R378 to R382). -/

namespace Sys2Proof.Machine

/-! ## TICK (R47, R47's millisecond; R72, R74, R88, R25, R192, R326, R532) -/

/-- A countdown in milliseconds, its last one left for the row that ends it. -/
def countDown (n : Nat) : Nat := if n = 0 then 0 else max 1 (n - 1)

/-- Epochs since each device, and a frame with the own number, was heard. -/
def quietStep (s : State) : State :=
  let more := fun (n : Nat) => min 3 (n + 1)
  { s with
    mem := { s.mem with quietA := s.mem.quietA.map more, quietB := s.mem.quietB.map more }
    safe := { s.safe with dupQuiet := more s.safe.dupQuiet } }

/-- The whole millisecond that device time crosses at the next tick: one that a grid row has already reached counts (R47). -/
def tickBoundary (t : Time) : Nat := max ((t.tickNs / 1000000 + 1) * 1000000) (t.ns / 1000000 * 1000000)

/-- Device time crosses the next whole millisecond (R47, R72); at a whole second the frequency adjustment enters its history. -/
def tickTime (t : Time) : Time :=
  let ns := tickBoundary t
  { slewed (runTo ns t) with
    tickNs := ns, syncQuiet := t.syncQuiet.map fun n => min 40 (n + 1), holdoverMs := if t.state = 2 then t.holdoverMs + 1 else 0
    freqHist := if ns % 1000000000 = 0 then (t.freq :: t.freqHist).take 64 else t.freqHist }

/-- A device whose JOIN requests have stayed away for two of their periods requests no longer (R377; DESIGN CHOICE, row 81). -/
def ageRequests (s : State) : State :=
  let l := s.mem.pendingJoin.map fun x => (x.1, x.2 + 1)
  let gone := (l.filter fun x => x.2 > 2000).map (·.1)
  gone.foldl (fun t d => updDev d (fun x => if x.role = 5 then { x with role := 0 } else x) t)
    (updMem (fun m => { m with pendingJoin := l.filter fun x => x.2 ≤ 2000 }) s)

/-- TICK (R47): a whole millisecond of device time. -/
def execTick (s : State) : Res :=
  if s.rst.life = .reset then .next s
  else
    let s1 := { s with
      time := tickTime s.time
      cyc := { s.cyc with ticks := s.cyc.ticks + 1 }
      safe := { s.safe with unlockMs := countDown s.safe.unlockMs }
      mram := { s.mram with lockoutMs := countDown s.mram.lockoutMs, wrong := s.mram.wrong.map (· + 1) }
      dp := { s.dp with joyTimer := if s.dp.mode = 2 || s.mem.joining then s.dp.joyTimer + 1 else s.dp.joyTimer } }
    let s1 := ageRequests s1
    let s2 := if !s1.cyc.holds && s1.cyc.ticks % max 1 s1.cyc.e = 0 then quietStep s1 else s1
    .next (archivePump (if linkRuns s2 then ptpTick s2 else s2))

/-! ## The agreed solution (R51, R208, R209, R253, R254, R258) -/

/-- Index of the command epoch in or after its DP cycle (R51, Table 2.4). -/
def cmdIndex (k : Nat) : Nat := 4 * k / 5 + 1

/-- The DP cycle whose commands leave at the present epoch instant (R51). -/
def cmdCycle (s : State) : Option Word :=
  let i := cmdIndex s.cyc.k
  if epochDiff s.cyc.epoch s.cyc.dpFirst ≠ ((i % max 1 s.cyc.k : Nat) : Int) then none
  else some (if i ≥ s.cyc.k then s.cyc.dpCycle - 1 else s.cyc.dpCycle)

/-- A solution with the thrust, angle deviation and power of the thrusters in a mask 0 in every stage (R258). -/
def withoutThr (s : State) (l : List Nat) (mask : Nat) (sol : List StageSol) : List StageSol :=
  let gone := (l.filter fun t => mask.testBit t).flatMap (varsOf s l)
  sol.map fun x => { x with z := x.z.zipIdx.map fun v => if gone.contains v.2 then 0 else v.1 }

/-- Stall 0's agreed solution shifted by one stage, the unavailable thrusters' entries 0 (R254, R258). -/
def shiftedSol (s : State) : List StageSol :=
  let x := stallOf s 0
  withoutThr s (thrIn s x.solLoss.toNat) s.dp.unavail.toNat (shiftSol 1 x.sol)

/-- The agreed plan shifted by one, the unavailable thrusters at 0; without an agreed solution every thrust is 0 (R258, R259). -/
def shiftedPlan (s : State) : List (List PlanPt) :=
  let l := s.dp.agreed.getD [List.replicate 24 { thrust := 0, ref := 0, delta := 0, power := 0 }]
  (shiftSol 1 l).map fun st => st.zipIdx.map fun y => if s.dp.unavail.getLsbD y.2 then { y.1 with thrust := 0, delta := 0, power := 0 } else y.1

/-- The cycle did not fall back: stall 0's solution is agreed (R258, R259). -/
def agree (c : Word) (s : State) : State :=
  let cmds := planOf s
  let s1 := updStall 0 (fun x => { x with
    sol := x.cand, solCycle := c, solSig := x.sig, solLoss := x.lossThr, hasSol := true, counts := x.counts.set 12 0
    flags := x.flags &&& ~~~(BitVec.ofNat 16 (2 ^ 1 + 2 ^ 12)) }) s
  clearAlarm 0x040A 0xFF (updDp (fun d => { d with
    agreed := some cmds, shiftRun := 0, srcCycle := c, goodCycles := d.goodCycles + 1, degradedPlan := false }) s1)

/-- The cycle fell back: the agreed solution shifted, with event 0x0409 (R258). -/
def fallBack (c : Word) (cause mgrs : Nat) (s : State) : State :=
  let run := min 255 (s.dp.shiftRun + 1)
  let cmds := shiftedPlan s
  let sol := shiftedSol s
  let mark := fun (x : Stall) => let y := stallFlag 1 { x with sol := sol, solCycle := c }; if run ≥ 5 then stallFlag 12 y else y
  let s1 := updStall 0 (fun x => let y := stallCount 11 1 (mark x); { y with counts := y.counts.set 12 run }) s
  event 0x0409 2 [c.toNat, run, cause, mgrs] (updDp (fun d => { d with agreed := some cmds, shiftRun := run, goodCycles := 0 }) s1)

/-- The command epoch of a DP cycle (R258): a cycle without a committed decision counts as missing every outcome. -/
def decideCycle (s : State) : State :=
  match cmdCycle s with
  | none => s
  | some c =>
    if !s.isMgrRole || s.dp.mode = 0 || (stallOf s 0).desc.isEmpty then s
    else if s.dp.decision.isNone || s.sol.cycle ≠ c then fallBack c 8 (mgrMask (countedNow s)) s
    else if s.dp.decision = some true then fallBack c s.dp.fbCause.toNat s.dp.fbMgrs.toNat s
    else agree c s

/-! ## Command frames (R208, R209, R225, R338, Table 6.8) -/

/-- The record of one thruster: of the fallback law (R225), or of the agreed solution (R258). -/
def cmdOf (s : State) (deg off : Bool) (t : Nat) : CmdRec :=
  let p := s.cfg.thrusters.getD t []
  let r := s.brd.thr.getD t {}
  let v := if deg then s.dp.fbCmd.getD t (0, 0) else match ((s.dp.agreed.getD []).headD [])[t]? with | some x => planCmd x | none => (0, 0)
  let held := r.avail ≠ 1 || !r.offered || s.dp.unavail.getLsbD t
  let dead := isTunnel p && !held && decide (v.1.natAbs * 10 < thrFld p 144 16 * 256)
  let flags := (if off then 16 else 1) + (if !deg && s.dp.shiftRun > 0 then 2 else 0) + (if deg then 4 else 0) + (if dead then 8 else 0)
  { thr := t + 1, flags := BitVec.ofNat 8 flags, mode := s.dp.mode, srcCycle := if deg then s.dp.fbEpoch else s.dp.srcCycle
    thrust := if held || dead then 0 else wi v.1, angle := if isTunnel p then 0 else if held then r.cmdAngle else wi v.2 }

/-- The records of every defined thruster. -/
def cmdRecs (s : State) (deg off : Bool) : List CmdRec :=
  ((List.range 24).filter fun t => !(s.cfg.thrusters.getD t []).isEmpty).map (cmdOf s deg off)

/-- A record's 16 bytes (Table 6.8). -/
def cmdBytes (r : CmdRec) : List Byte :=
  leBytes 16 (pack [(8, r.thr), (8, r.flags.toNat), (8, r.mode), (8, r.rsvd.toNat), (32, r.srcCycle.toNat), (32, r.thrust.toNat), (32, r.angle.toNat)])

/-- A command frame leaves now: at a command epoch of an engaged mode, in DEGRADED at every epoch after a computation, and with DISENGAGE once
after STANDBY took effect (R184, R225, R338). -/
def cmdDue (s : State) : Bool :=
  if s.dp.mode = 7 then !s.dp.fbCmd.isEmpty
  else (engaged s.dp.mode || s.dp.disengage) && (cmdCycle s).isSome

/-- CMD_SEND (R300, R338): a counted manager without a latched cause; a manager that drives thrusters keeps its own records. -/
def sendCommands (s : State) : State :=
  if !(s.isMgrRole && s.countedMgrs.contains s.dev && s.safe.causes = 0 && cmdDue s) then s
  else
    let rs := cmdRecs s (s.dp.mode = 7) s.dp.disengage
    let f := sysFlow 3
    let e16 := s.cyc.epoch.setWidth 16
    let s1 := sendTo 3 f.1 f.2.1 f.2.2 0xFF e16 (rs.flatMap cmdBytes) (fun h => { h with shifted := s.dp.mode ≠ 7 && s.dp.shiftRun > 0 }) s
    let s2 := updDp (fun d => { d with disengage := false }) { s1 with loop := { s1.loop with sent := ((e16, rs) :: s1.loop.sent).take 4 } }
    if s2.dev < 3 then { s2 with loop := { s2.loop with cmds := s2.loop.cmds.set s2.dev (some (e16, rs)) } } else s2

/-! ## Contributions (R339, R342, R356, R362, R383; Table 11.8) -/

/-- DEVICE_STATUS. -/
def statusRec (s : State) : Contrib :=
  let ok := fun (net : Bool) => (s.brd.active < 64 && reaches s net s.brd.active : Bool).toNat
  mkContrib s 9 0xFF 1 (pack [(26, 0), (1, ok true), (1, ok false), (4, s.time.state), (8, s.hifState), (8, 0), (16, s.safe.causes.toNat)]) s.cyc.epoch

/-- MGR_DIGEST (R339): bits [703:32] of STATE, then the stage-1 command records. -/
def digestRec (s : State) : Contrib :=
  mkContrib s 6 0xFF 1 (crc32 ((leBytes 88 (stateSec s)).drop 4 ++ (cmdRecs s false false).flatMap cmdBytes)) s.cyc.epoch

/-- THRUSTER_FB of one thruster: the measured values are free (row 1). -/
def thrusterRec (s : State) (x : Nat × Nat) : Contrib :=
  let w := fun (i : Nat) => (Config.freeWord (s.free + 4 * x.2 + i)).toNat
  let gate := gateActive s (thrFld (s.cfg.thrusters.getD x.1 []) 24 8)
  let own := pack [(8, x.1 + 1), (3, w 0), (1, gate.toNat), (1, s.dpe.toNat), (3, 0), (16, 0), (32, w 1), (32, w 2), (32, w 3)]
  mkContrib s 2 0xFF 2 own s.cyc.epoch

/-- SECTION_STATUS of one section: what its reporting device measures is free (row 1). -/
def sectionRec (s : State) (base : Nat) (x : Nat × Nat) : Contrib :=
  let w := fun (i : Nat) => (Config.freeWord (base + 3 * x.2 + i)).toNat
  mkContrib s 3 0xFF 2 (pack [(8, x.1), (8, 0), (1, w 0), (7, 0), (8, w 0 / 2), (32, w 1), (32, 0), (32, w 2)]) s.cyc.epoch

/-- FAULT_REPORT. -/
def faultRec (s : State) (code sev subj detail : Nat) (standing : Bool) : Contrib :=
  mkContrib s 8 subj 1 (pack [(16, code), (8, sev), (1, standing.toNat), (7, 0), (32, detail)]) s.cyc.epoch

/-- BUILD_DONE while the reports wait for the agreement (R240, R263): a scenario's structure has LOSS masks of 0. -/
def buildRec (s : State) : List Contrib :=
  let one := fun (mask : Nat) (sig : Word) => mkContrib s 7 0xFF 1 (mask + 2 ^ 32 * sig.toNat) s.cyc.epoch
  let scens := ((List.range s.variant.scens).map fun n => stallOf s (firstScen s + n)).filter fun x => x.state = 7 && !x.desc.isEmpty
  (match s.dp.building, s.dp.derived with | some m, some sig => [one m.toNat sig] | _, _ => []) ++ ((scens.map (·.sig)).dedup).map (one 0)

/-- The records of the present epoch. -/
def ownRecs (s : State) : List Contrib :=
  let thr := ownThrusters s
  let secs := reportedBy s s.dev
  [statusRec s] ++ (if s.isMgrRole then [digestRec s] ++ buildRec s else []) ++ thr.zipIdx.map (thrusterRec s) ++
    secs.zipIdx.map (sectionRec s (s.free + 4 * thr.length)) ++ s.mem.compares.map (fun b => mkContrib s 4 0xFF 2 b s.cyc.epoch) ++
    s.mem.standing.map (fun a => faultRec s a.1.toNat a.2.2.1 a.2.1 a.2.2.2.toNat true) ++
    s.mem.clearing.map (fun a => faultRec s a.1.toNat a.2.2.1 a.2.1 a.2.2.2.toNat false) ++
    s.mem.reports.map (fun a => faultRec s a.1 a.2.1 a.2.2.1 a.2.2.2 false) ++ s.mem.samples.map fun b => mkContrib s 1 0xFF 3 b s.cyc.epoch

/-- CONTRIBUTION_SEND (R362): a member's records, sent once; a compare report is sent until it is committed (Table 9.3). -/
def sendOwn (s : State) : State :=
  if !(s.inRun && s.mem.role ≠ .none) then s
  else
    let n := 4 * (ownThrusters s).length + 3 * (reportedBy s s.dev).length
    let s1 := sendContribs s.cyc.epoch (ownRecs s) s
    { s1 with
      free := s1.free + n
      mem := { s1.mem with clearing := [], reports := [], samples := [] } }

/-! ## EPOCH_INSTANT (R48, R50) -/

/-- The epoch number, and at a DP cycle's boundary the DP cycle number (R48, R50); a grid row that has run at this instant counts (R274). -/
def nextEpoch (s : State) : State :=
  let c := s.cyc
  let e := c.epoch + 1
  let turn := decide (epochDiff e c.dpFirst ≥ (c.k : Int))
  let c1 : Cyc := if !c.holds then { c with holds := true, epoch := 0, dpCycle := 0, dpFirst := 0, closed := none }
    else { c with epoch := e, dpCycle := if turn then c.dpCycle + 1 else c.dpCycle, dpFirst := if turn then e else c.dpFirst }
  let now := s.time.ns / 1000000 * 1000000
  { s with
    cyc := { c1 with instant := now, ticks := 0, grid := if c.gridNs < now then 0 else (c.gridNs - now) / 100000 + 1 }
    loop := { s.loop with cmdDone := false, applied := s.loop.applied.map fun a => { a with age := a.age + 1 } } }

/-- At epoch STEP_AT device time steps (R87); the ACTIVE manager slews the remainder and is locked again. -/
def applyStep (s : State) : State :=
  match s.time.stepAt with
  | none => s
  | some at_ =>
    if s.cyc.epoch ≠ at_ then s
    else
      let ms := s.time.stepMs
      let s1 := stepTime (ms * 1000000) s
      let s2 := updTime (fun t => { t with
        refused := false, stepAt := none, stepMs := 0, steps := ((at_, ms) :: t.steps).take 8
        state := if s.isActive then 1 else t.state, stepRest := 0 }) s1
      let s2 := if s.isActive then updTime (startSlew s.time.stepRest) s2 else s2
      event 0x0811 2 [(wi ms).toNat, at_.toNat, s2.time.gen.toNat] s2

/-- Configuration that takes effect at an epoch boundary: installation table, flow definitions, load reduction (R401, R482, R180). -/
def takeBoundary (s : State) : State :=
  let c := match s.mem.tableNext with | some x => { s.cfg with table := x.1, tableGen := x.2 } | none => s.cfg
  let flows := s.link.flowsNew.foldl (fun l x => put l x.1 x.2) c.flows
  let s1 := { s with cfg := { c with flows := flows }, mem := { s.mem with tableNext := none }, link := { s.link with flowsNew := [] } }
  takeFlr (if s.link.flowsNew.isEmpty then s1 else storeCfg (fun g => { g with flows := flows }) s1)

/-- Causes that latch at an epoch boundary: DUP_DEVICE in RUN, and FAIL_SILENT after MGR_SILENCE (R25, R345). -/
def boundaryCauses (s : State) : State :=
  let s1 := if s.safe.dupPending then latchCause 12 { s with safe := { s.safe with dupPending := false } } else s
  let mine := fun (x : Nat × Word) => x.1 = s1.dev && decide (epochDiff s1.cyc.epoch x.2 ≥ 0)
  if s1.mem.silencing.any mine then failSilent 2 { s1 with mem := { s1.mem with silencing := s1.mem.silencing.filter (!mine ·) } } else s1

/-- A swap reaches its epoch (R353). -/
def swapDue (s : State) : Bool := s.isMgrRole && s.brd.swapOn && decide (epochDiff s.cyc.epoch s.brd.swapAt ≥ 0)

/-- SWAP_AT (R91, R353): the target becomes ACTIVE, the former ACTIVE manager STANDBY; a target that is no STANDBY manager abandons the swap. -/
def doSwap (s : State) : State :=
  if !swapDue s then s
  else
    let new := s.brd.swapTarget
    let old := s.brd.active
    if (s.brd.devices.getD new {}).role ≠ 2 then abandonSwap 0 s
    else
      let s1 := updDev new (fun d => { d with role := 1 }) (updDev old (fun d => { d with role := 2 }) s)
      let s2 := memberChange s.cyc.epoch (updBrd (fun b => { b with active := new, swapOn := false, swapAt := 0, swapTarget := 0xFF }) s1)
      let s3 := { s2 with loop := { s2.loop with reselect := true } }
      let s4 := event 0x0C26 1 [old, new, s.brd.swapAt.toNat] s3
      if s.dev = new then selectSource (setRole .active s4) else setRole .standby s4

/-- A device's own leave (R89, R94, R332, R369). -/
def leaveNow (s : State) : State :=
  if s.inRun && s.mem.leaveSelf then updMem (fun m => { m with leaveSelf := false }) (sendMember 5 s) else s

/-- The counters that count epoch instants: since differing records were compared, and since a takeover was decided (R304). -/
def takeoverStep (s : State) : State :=
  { s with safe := { s.safe with
      compareEpochs := s.safe.compareEpochs + (s.safe.counters.getLsbD 2).toNat
      takeoverEpochs := s.safe.takeoverEpochs + (s.safe.counters.getLsbD 3).toNat } }

/-- In DEGRADED the reduction is released at an epoch instant (R216). -/
def releaseDegraded (s : State) : State := if appliesCommands s then flrRelease true s else s

/-- What an epoch instant starts after its number stands (R48). -/
def epochWork (s : State) : State :=
  let s1 := takeoverStep (quietStep (boundaryCauses (takeBoundary (applyStep s))))
  let s2 := decideCycle (doSwap s1)
  let s3 := if s2.inRun then sendMember 1 (leaveNow s2) else s2
  releaseDegraded (reselect (sendOwn (sendCommands s3)))

/-- EPOCH_INSTANT (R48). -/
def execEpochInstant (s : State) : Res :=
  if !s.cyc.holds && !s.isActive && !s.mem.joining then .next s
  else
    let s1 := nextEpoch s
    let s2 := if swapDue s1 && s1.isActive && s1.brd.open_.isSome then publish true s else s
    .next (epochWork (nextEpoch s2))

/-! ## EPOCH_CLOSE (R363 to R366) -/

/-- A record goes before another: by SRC, then SEQ of its frame, then place in it (R364). -/
def heldBefore (a b : Held) : Bool :=
  let d := (BitVec.ofNat 16 a.seq - BitVec.ofNat 16 b.seq).toInt
  a.rec_.src < b.rec_.src || (a.rec_.src = b.rec_.src && (decide (d < 0) || (d = 0 && a.pos < b.pos)))

/-- A record placed in the order of R364. -/
def placeHeld (a : Held) : List Held → List Held
  | [] => [a]
  | b :: l => if heldBefore a b then a :: b :: l else b :: placeHeld a l

/-- Records in the order of R364. -/
def sortHeld (l : List Held) : List Held := l.foldl (fun acc a => placeHeld a acc) []

/-- The records of an epoch's commit, on time then late, and those held back for a later epoch (R363, R364). -/
def commitSet (e : Word) (s : State) : List Contrib :=
  let due := s.brd.held.filter fun h => decide (epochDiff h.rec_.epoch e ≤ 0) && admissible s e h.rec_
  let now := due.filter fun h => h.rec_.epoch = e
  let late := due.filter fun h => h.rec_.epoch ≠ e
  (sortHeld now).map (fun h => { h.rec_ with late := false }) ++ (sortHeld late).map fun h => { h.rec_ with late := true }

/-- The records that fit the COMMIT section, taken in order up to the first that does not (R365). -/
def fitRecs : Nat → List Contrib → List Contrib
  | _, [] => []
  | room, c :: cs => if contribLen c ≤ room then c :: fitRecs (room - contribLen c) cs else []

/-- The old ACTIVE manager committed SILENT, this one ACTIVE: the takeover epoch (R347). -/
def takeOver (e : Word) (s : State) : State :=
  match s.mem.takeover with
  | none => s
  | some reason =>
    let old := s.brd.active
    if old = s.dev then s
    else
      let s1 := if (s.brd.devices.getD old {}).member then updDev old (fun d => { d with role := 3 }) s else s
      let s2 := memberChange e (updBrd (fun b => { b with active := s.dev }) (updDev s.dev (fun d => { d with role := 1 }) s1))
      event 0x0C25 2 [old, s.dev, e.toNat, reason] { s2 with loop := { s2.loop with reselect := true } }

/-- Managers committed SILENT: those named by MGR_SILENCE, those whose SILENT frame was received (R345, R346). -/
def silenceMgrs (e : Word) (s : State) : State :=
  let due := fun (x : Nat × Word) => decide (epochDiff e x.2 ≥ 0)
  let named := fun (m : Nat) => s.mem.silencing.any fun x => due x && x.1 = m
  let s1 := updMem (fun m => { m with silencing := m.silencing.filter (!due ·) }) s
  [0, 1, 2].foldl (fun t m =>
    if (t.brd.devices.getD m {}).role = 2 && (named m || t.mem.silentSeen.getLsbD m) then memberChange e (updDev m (fun d => { d with role := 3 }) t)
    else t) s1

/-- Leaves, then joins; a device that both leaves and joins only leaves (R378 to R380). -/
def commitMembers (e : Word) (s : State) : State :=
  let gone := s.mem.leaving
  let s1 := gone.foldl (fun t d => leaveCommit e 0 d t) s
  let s2 := updMem (fun m => { m with leaving := [] }) s1
  let s3 := (s2.mem.admitted.filter fun d => !gone.contains d).foldl (fun t d => joinCommit e d t) s2
  s3.mem.joinAfter.foldl (fun t m => takeJoin m t) (updMem (fun m => { m with joinAfter := [] }) s3)

/-- What an accepted STEP publishes at the close (R87). -/
def commitStep (e : Word) (s : State) : State :=
  if !s.time.stepWanted then s
  else
    let ms := Int.tdiv s.time.offset 1000000
    updTime (fun t => { t with stepWanted := false, stepAt := some (e + 4), stepMs := ms, stepRest := t.offset - ms * 1000000 }) s

/-- Devices whose third missed epoch the commit of `e` finds (R379): a DEVICE_STATUS is missing for the third time. -/
def foundMissing (e : Word) (cs : List Contrib) (s : State) : List Nat :=
  (List.range 64).filter fun d =>
    let x := s.brd.devices.getD d {}
    x.member && d ≠ s.dev && x.joinEpoch ≠ e && x.missed ≥ 2 && !(cs.any fun c => c.kind = 9 && c.src = d && !c.late)

/-- The members that no leave found at this close takes away (R382). -/
def membersKept (s : State) : Nat :=
  (s.brd.devices.zipIdx.filter fun x => x.1.member && (x.1.missed < 3 || x.2 = s.dev)).length

/-- What the commit may replace (R370). -/
def undoOf (e : Word) (cs : List Contrib) (s0 s : State) : Undo :=
  { held := s0.brd.held.filter fun h => decide (epochDiff h.rec_.epoch e ≤ 0) && cs.any fun c => { c with late := h.rec_.late } = h.rec_
    devices := s.brd.devices, thr := s.brd.thr, pow := s.brd.pow, sections := s.brd.sections, plan := s.brd.plan, conseq := s.brd.conseq
    alarms := s.brd.alarms, alarmGen := s.brd.alarmGen, mem := s.mem, dp := s.dp, sol := s.sol }

/-- The records committed, those dropped counted, and the rest held on; the records tagged `e` of a device whose leave this commit finds are discarded
(R363, R365, R380). -/
def takeCommit (e : Word) (s : State) : State × List Contrib × Bool :=
  let all := commitSet e s
  let fit := fitRecs 11264 all
  let gone := foundMissing e fit s
  let cs := fit.filter fun c => !(gone.contains c.src && c.epoch = e)
  let old := s.brd.held.filter fun h => decide (epochDiff h.rec_.epoch e ≤ 0)
  let s1 := brdCount 7 (old.length - all.length + (fit.length - cs.length)) (updBrd (fun b => { b with held := b.held.filter fun h => decide (epochDiff h.rec_.epoch e > 0) }) s)
  if fit.length = all.length then (s1, cs, false)
  else
    let n := all.length - fit.length
    (event 0x0215 2 [e.toNat, n, (all.map contribLen).sum] (brdCount 4 n s1), cs, true)

/-- The image of a closed epoch as far as its close fixes it (R359, R360, R364). -/
def openImage (e : Word) (cs : List Contrib) (full : Bool) (s : State) : Image :=
  let bytes := cs.flatMap contribBytes
  let late := cs.countP (·.late)
  { epoch := e, dpCycle := s.cyc.dpCycle, closeNs := wd (s.cyc.instant + s.cyc.c * 100000), publisher := s.dev,
    flags := BitVec.ofNat 8 (pack [(1, s.mem.takeover.isSome.toNat), (1, full.toNat), (1, s.brd.unpublished.toNat)]),
    ontime := cs.length - late, lateRecs := late, commit := cs,
    secs := [{ code := 0, bytes := 48, val := timeSec s }, { code := 10, bytes := bytes.length, val := leNat bytes }] }

/-- The close of an epoch (R363). -/
def closeEpoch (s0 : State) : State :=
  let e := s0.cyc.epoch
  let s1 := commitMembers e (silenceMgrs e (takeOver e (takeRedundancy s0.time.ns (publish true s0))))
  let s2 := takeFusionCfg s1.time.ns (commitStep e (if e = s1.cyc.dpFirst then takeDpCycle s1.time.ns s1 else s1))
  let r := takeCommit e s2
  let s3 := commitActive e r.2.1 { r.1 with undo := some (undoOf e r.2.1 s2 r.1) }
  let s4 := updMem (fun m => { m with quorumRuns := if membersKept s3 < s3.quorum then min 3 (m.quorumRuns + 1) else 0 }) s3
  let s5 := updFus (fun f => { f with todo := some r.2.1 }) s4
  { s5 with
    cyc := { s5.cyc with closed := some e }
    brd := { s5.brd with open_ := some (openImage e r.2.1 r.2.2 s5) } }

/-- The epoch's close instant lies less than 1 ms after a decision to take over: a later epoch is the takeover epoch (R347). -/
def closeTooSoon (s : State) : Bool :=
  s.mem.takeover.isSome && s.brd.active ≠ s.dev && decide (s.cyc.instant + s.cyc.c * 100000 < s.mem.takeoverAt + 1000000)

/-- EPOCH_CLOSE (R53, R347, R363). -/
def execEpochClose (s : State) : Res :=
  if !s.isActive || !s.cyc.holds || s.cyc.closed = some s.cyc.epoch || closeTooSoon s then .next s else .next (closeEpoch s)

/-! ## BOARD_IMAGE_INSTALL (R368) -/

/-- An image's first epoch of its DP cycle (Table 3.6). -/
def imgDpFirst (i : Image) : Word := wd (imgFld i 0 64 32)

/-- DEVICES of an image taken over; what this device alone keeps of a device stays (Tables 11.4, 11.5). -/
def adoptDevices (i : Image) (s : State) : State :=
  let now := fun (d : Nat) => { imgDev i d with left := (s.brd.devices.getD d {}).left }
  let pend := imgFld i 7 0 32
  updBrd (fun b => { b with
    devices := (List.range 64).map now, changeEpoch := wd pend, memberGen := BitVec.ofNat 16 (imgFld i 7 32 16)
    active := imgFld i 7 80 8, swapTarget := imgFld i 7 88 8, swapAt := wd (imgFld i 7 96 32), swapOn := imgFld i 7 88 8 ≠ 0xFF
    memberChange := false }) s

/-- Devices that an image shows as gone: their leave epoch noted, their frames dropped (R380). -/
def adoptLeaves (i : Image) (old : List DevRec) (s : State) : State :=
  let gone := (List.range 64).filter fun d => (old.getD d {}).member && !imgMember i d
  gone.foldl (fun t d => updDev d (fun x => { x with left := some i.epoch }) (forget d t).1) s

/-- TIME of an image (Table 3.6, R50, R87, R89): a step announced too late makes the device leave. -/
def adoptTime (i : Image) (s : State) : State :=
  let f := imgFld i 0
  let q := (epochDiff s.cyc.epoch (imgDpFirst i) / (max 1 s.cyc.k : Nat)).toNat
  let flags := f 192 8
  let at_ := wd (f 256 32)
  let pending := bit flags 1
  let missed := pending && decide (epochDiff s.cyc.epoch at_ ≥ 0) && !(s.time.steps.any fun x => x.1 = at_)
  let s1 := { s with
    cyc := { s.cyc with dpCycle := wd (f 32 32) + wd q, dpFirst := imgDpFirst i + wd (q * s.cyc.k) }
    time := { s.time with
      utc := sext 16 (f 208 16), refused := bit flags 0
      stepAt := if pending && !missed && decide (epochDiff s.cyc.epoch at_ < 0) then some at_ else s.time.stepAt
      stepMs := if pending && !missed then sext 32 (f 288 32) else s.time.stepMs } }
  if missed then updMem (fun m => { m with leaveSelf := true }) s1 else s1

/-- THRUSTERS, POWER and ALARMS of an image (R366). -/
def adoptPlant (i : Image) (s : State) : State :=
  let s1 := updBrd (fun b => { b with
    thr := (List.range 24).map fun n => imgThr i n (b.thr.getD n {}), pow := (List.range 6).map fun n => imgPow i n (b.pow.getD n {}) }) s
  if s.isManager then updBrd (fun b => { b with
    alarms := trackStanding i.commit (imgAlarms i b.alarms), alarmGen := BitVec.ofNat 16 (imgFld i 8 0 16)
    plan := match imgSec i 4 with | some x => some x.val | none => b.plan
    conseq := match imgSec i 9 with | some x => some x.val | none => b.conseq }) s1
  else s1

/-- The counters that PLAN and CONSEQ carry, at a manager that the DP cycle does not count and that therefore does not decide in step (R185, R261): the
shift run; every scenario's result, FAIL_RUN, margins and the cycles since its evaluation. -/
def adoptCounters (i : Image) (s : State) : State :=
  let one := fun (n : Nat) =>
    let f := fun lo w => imgFld i 9 (96 + 128 * n + lo) w
    let res := f 8 8
    let old := imgFld i 9 0 32 - f 32 32
    [Int.ofNat res, Int.ofNat (f 24 8), if res = 3 then Int.ofNat (min 255 old) else 0, sext 16 (f 64 16), sext 16 (f 80 16), sext 8 (f 96 8),
      Int.ofNat (f 104 8), Int.ofNat (f 32 32)]
  let l := (List.range 16).map one
  let mask := fun (p : List Int → Bool) => BitVec.ofNat 16 (l.zipIdx.foldl (fun a x => if p x.1 then a + 2 ^ x.2 else a) 0)
  if (maskMgrs s.dp.counted).contains s.dev then s
  else
    let s1 := if (imgSec i 4).isNone then s else updDp (fun d => { d with shiftRun := imgFld i 4 80 8, srcCycle := wd (imgFld i 4 160 32) }) s
    if (imgSec i 9).isNone then s1
    else updDp (fun d => { d with
      scen := l, conseqFail := imgFld i 9 80 1 = 1, conseqFailed := mask fun x => decide (x.getD 1 0 ≥ 3)
      conseqStale := mask fun x => decide (x.getD 2 0 ≥ 50) }) s1

/-- SETPOINT of an image (Table 6.3). -/
def adoptSetpoint (i : Image) (s : State) : State :=
  let f := imgFld i 3
  let v := fun (lo : Nat) => sext 32 (f lo 32)
  updDp (fun d => { d with
    target := [v 32, v 64, Int.ofNat (f 96 32)], ramp := [v 128, v 160, Int.ofNat (f 192 32)], rampSpeed := f 224 16, rampRate := f 240 16
    flags := BitVec.ofNat 8 (f 264 8), originGen := BitVec.ofNat 16 (f 272 16), radius := f 288 16, hdgWindow := f 304 16
    originLat := if f 320 32 = 0x80000000 then d.originLat else wd (f 320 32)
    originLon := if f 352 32 = 0x80000000 then d.originLon else wd (f 352 32)
    trackLeg := f 384 8, joy := [v 416, v 448, v 480], joyLost := bit (f 264 8) 3, autoHdg := bit (f 264 8) 2 }) s

/-- The mode that an image shows takes effect here: a mode that this manager has not yet taken, and DEGRADED at once (R181, R224). -/
def adoptMode (i : Image) (s : State) : State :=
  let m := imgFld i 3 256 8
  if m = s.dp.mode then s
  else if m = 7 then updDp enterDegraded s
  else updDp (fun d => { d with pendingMode := some m }) s

/-- The close instant of an image's epoch in this device's time (R360). -/
def imgClose (i : Image) (s : State) : Nat := ((s.time.ns : Int) + (i.closeNs - wd s.time.ns).toInt).toNat

/-- A DP cycle's first epoch, which closed at the instant given, at a manager that installs an image: an accepted mode that the image does not
show yet waits on (R180). -/
def takeShown (close : Nat) (i : Image) (s : State) : State :=
  if imgFld i 3 256 8 = s.dp.mode then
    updDp (fun d => { d with pendingMode := s.dp.pendingMode }) (takeDpCycle close (updDp (fun d => { d with pendingMode := none }) s))
  else takeDpCycle close (adoptMode i s)

/-- The epoch before an image that closed and was not published: an epoch without contributions on every manager (R370). -/
def takeLost (i : Image) (s : State) : State :=
  let e := i.epoch - 1
  let s1 := if e = imgDpFirst i then takeShown (imgClose i s - s.cyc.e * 1000000) i s else s
  let s2 := fuse e [] (commitShared e [] s1)
  if e = imgDpFirst i then rampStep true s2 else s2

/-- The decision that the commit of epoch p carries, as the image's PLAN section tells it (R258, R261). -/
def adoptDecision (i : Image) (s : State) : State :=
  let f := imgFld i 4
  if (imgSec i 4).isNone || wd (f 128 32) ≠ s.sol.cycle || i.epoch ≠ epochP s (solFirst s) then s
  else updDp (fun d => { d with decision := some (bit (f 48 8) 0), fbMgrs := BitVec.ofNat 3 (f 64 3), fbCause := BitVec.ofNat 8 (f 56 8) }) s

/-- The observer's states from the published quantities POS_N to BIAS_MZ; the rates of the wave components, which are not published, begin at 0 (row 5). -/
def adoptKal (q : List Int) : List Rat :=
  let v := fun (i frac : Nat) => ((q.getD i 0 : Int) : Rat) / ((2 ^ frac : Nat) : Rat)
  [v 0 16, v 1 16, turnRad (q.getD 2 0), v 3 16, v 4 16, v 5 28, v 6 16, 0, v 7 16, 0, v 8 28, 0, v 9 8, v 10 8, v 11 8]

/-- STATE of an image as the estimate of a manager that has none of its own yet (R351, Table 5.10). -/
def adoptEstimate (i : Image) (s : State) : State :=
  let f := imgFld i 2
  if (imgSec i 2).isNone then s
  else updFus (fun x => { x with
    kal := { x := adoptKal ((List.range 12).map fun n => sext 32 (f (32 + 32 * n) 32)), p := Config.resetCov 0 0 [] }
    est := ((List.range 18).map fun n => sext 32 (f (32 + 32 * n) 32)) ++ [sext 16 (f 608 16)] ++ x.est.drop 19
    estEpoch := wd (f 0 32), posValid := bit (f 656 8) 0, hdgValid := bit (f 656 8) 1, drPos := bit (f 656 8) 2, drHdg := bit (f 656 8) 3
    originFixed := imgFld i 3 320 32 ≠ 0x80000000 }) s

/-- A joining manager takes everything that the image shows (R351, R378). -/
def adoptFirst (i : Image) (s : State) : State :=
  updFus (fun f => { f with ring := [] })
    (updDp (fun d => { d with mode := imgFld i 3 256 8, rampFrom := d.ramp, rampAge := 0, rampLeg := d.trackLeg }) (adoptEstimate i (adoptSetpoint i s)))

/-- A newcomer with no structure to confirm counts from this DP cycle on; another counts once it holds one of the copies (R351). -/
def countSelf (i : Image) (s : State) : State :=
  let waits := (imgSec i 4).isSome
  if i.epoch = imgDpFirst i && !waits then updMem (fun m => { m with uncounted := m.uncounted.filter (·.1 ≠ s.dev) }) s else s

/-- A manager installs an image: it commits, fuses and moves the set-point as the ACTIVE manager did, then takes what the image shows
(R337, R361, R368). -/
def installManager (first : Bool) (i : Image) (s0 : State) : State :=
  let s1 := updBrd (fun b => { b with held := b.held.filter fun h => decide (epochDiff h.rec_.epoch i.epoch > 0) }) s0
  let s2 := if first then adoptFirst i s1 else if i.flags.getLsbD 2 then takeLost i s1 else s1
  let s3 := takeFusionCfg (imgClose i s0) (if i.epoch = imgDpFirst i then takeShown (imgClose i s0) i (countSelf i s2) else s2)
  let s4 := commitShared i.epoch i.commit (takeRedundancy (imgClose i s0) s3)
  let late := (imgSec i 2).isNone
  let s5 := if late then s4 else if first then adoptEstimate i (fuse i.epoch i.commit s4) else fuse i.epoch i.commit s4
  let s6 := if i.epoch = imgDpFirst i then rampStep (!late) s5 else s5
  let s7 := imageTaken i (adoptCounters i (adoptDecision i (adoptSetpoint i (adoptPlant i (adoptDevices i s6)))))
  if late then fuse i.epoch i.commit s7 else s7

/-- A worker installs an image (R368). -/
def installWorker (i : Image) (s : State) : State :=
  imageTaken i (updDp (fun d => { d with mode := imgFld i 3 256 8 }) (adoptPlant i s))

/-- A device that an image no longer lists has left (R332, R381): event 0x0217, its CMD_PATH contexts parked; an intrusive test that waited
runs. -/
def notListed (i : Image) (s : State) : State :=
  let s1 := event 0x0217 2 [i.epoch.toNat, imgFld i 7 32 16] s
  let s2 := loseTime ((cmdPaths s1).foldl (fun t n => disableCtx n 2 t) (setRole .none s1))
  let s3 := updMem (fun m => { m with joining := false, leaveSelf := false, takeover := none, lowerSeen := 0 }) (dropOpen s2)
  match s3.tests.waiting with
  | some c => startTest c { s3 with tests := { s3.tests with waiting := none } }
  | none => setLife .ready s3

/-- The device's own record in an image (R23, R25, R345, R351, R378, R381). -/
def ownListed (i : Image) (s : State) : State :=
  let r := (imgDev i s.dev).role
  let joined := s.rst.life = .ready && s.mem.joining && (r = 2 || r = 4) && !s.noRole && !s.safe.causes.getLsbD 12
  let alone := fun (t : State) => if r = 2 then updMem (fun m => { m with uncounted := (t.dev, 1) :: m.uncounted.filter (·.1 ≠ t.dev) }) t else t
  if joined then
    silentIfSafe (setRole (if r = 2 then .standby else .worker)
      (setLife .run (alone (updMem (fun m => { m with joining := false, noQuorum := false }) s))))
  else if !s.inRun then s
  else if r = 0 || r = 5 then notListed i s
  else if r = 3 && s.mem.role = .standby then failSilent 2 s
  else if r = 2 && s.mem.role = .silent && s.safe.causes = 0 then setRole .standby (alone s)
  else s

/-- One image installed (R368): a publication ends an episode of NO_QUORUM; a change of ACTIVE manager makes commands be selected again at the next epoch instant (R349). -/
def install (i : Image) (s : State) : State :=
  let first := s.rst.life = .ready
  let was := s.brd.active
  let old := s.brd.devices
  let s1 := adoptTime i (ownListed i (adoptLeaves i old (adoptDevices i s)))
  if !s1.inRun then driveOutputs s1
  else
    let s2 := if was ≠ s1.brd.active then { s1 with loop := { s1.loop with reselect := true } } else s1
    let s3 := { s2 with cyc := { s2.cyc with closed := some i.epoch } }
    let s3 := updMem (fun m => { m with noQuorum := false }) s3
    driveOutputs (if s3.isManager then installManager first i s3 else installWorker i s3)

/-- Two managers publish one epoch: the one that lists fewer members, or on equal counts the one of higher number, steps aside (R350). -/
def twoActive (i own : Image) (s : State) : State :=
  let mine := imgFld own 7 56 8
  let other := imgFld i 7 56 8
  if mine < other || (mine = other && s.dev > i.publisher) then
    failSilent 3 (event 0x0C29 3 [i.publisher, mine, other] s)
  else s

/-- A STANDBY manager's undecided takeover ends with another new ACTIVE manager's publication (R347). -/
def cancelTakeover (s : State) : State :=
  dropOpen (setRole .standby { s with mem := { s.mem with takeover := none }, safe := { s.safe with counters := s.safe.counters &&& 7 } })

/-- BOARD_IMAGE_INSTALL (R347, R350, R368): a late image of the manager it replaces leaves a decision to take over standing, and is dropped once the takeover
epoch has closed. -/
def execBoardImageInstall (img : Image) (s : State) : Res :=
  let newer := match s.newest with | some n => decide (epochDiff img.epoch n.epoch > 0) | none => true
  if !(s.inRun || (s.rst.life = .ready && s.mem.joining)) || img.publisher = s.dev then .next s
  else if s.isActive && s.mem.takeover.isNone then
    match s.brd.images.find? fun n => n.publisher = s.dev with
    | some own => .next (if s.brd.images.any fun n => n.epoch = img.epoch && n.publisher = s.dev then twoActive img own s else s)
    | none => .next s
  else if !newer then .next s
  else if !s.isActive then .next (install img s)
  else if img.publisher ≠ s.mem.takeoverFrom then .next (install img (cancelTakeover s))
  else if s.brd.active = s.dev then .next s else .next (install img s)

end Sys2Proof.Machine
end

