-- ==== Sys2Proof/Machine/HostLink.lean ====
section
/-! DEFINITION. The host link's own commands and events: direct registers, slots, the UDP path, notifications, DMA,
relaying and the host watchdog (chapter 14, class 0x01). -/

namespace Sys2Proof.Machine

/-- The device has a PCIe endpoint (R445). -/
def hasPcie (s : State) : Bool := s.variant ≠ .WK

/-- Host-link counter `n` of R473 stepped. -/
def hifCount (n : Nat) (s : State) : State := { s with hif := { s.hif with counts := addAt s.hif.counts n 1 } }

/-! ## Direct registers and slots -/

/-- A direct register as an aligned 32-bit read returns it; a write-only one returns undefined (Tables 0.4, 14.2 to 14.6, R447, R448). -/
def hifReg (s : State) (off : Nat) : Word :=
  match off with
  | 0x000 => s.hifId
  | 0x004 => s.variant.units
  | 0x008 => s.fw.version
  | 0x00C => s.hifStateWord
  | 0x010 => s.hifStraps
  | 0x020 => nextFree s
  | 0x024 => s.hif.done
  | 0x028 => s.hif.busy ||| wd (s.hif.noteBusy.toNat * 2 ^ 31)
  | 0x030 => s.hif.irqStat
  | 0x034 => s.hif.irqEn
  | 0x040 => s.epochHeld
  | 0x044 => wd s.time.ns
  | 0x050 => s.safeStat
  | 0x060 => s.hif.heartbeat
  | _ => 0

/-- What a host read of BAR0 returns: slots and the MSI-X table by bytes, direct registers by aligned words, other sizes of these undefined,
everything else 0; no read changes the device (R447). -/
def bar0Read (s : State) (off n : Nat) : List Byte :=
  let aligned := (n = 1 || n = 2 || n = 4 || n = 8) && off % n = 0
  if off < 0x1000 then
    if n = 4 && off % 4 = 0 then leBytes 4 (hifReg s off).toNat else (List.range n).map fun i => Config.freeByte (s.free + i)
  else if aligned && ((0x2000 ≤ off && off + n ≤ 0x4000) || off + n ≤ 0x1080) then Memory.readAll s.hif.ram off n
  else List.replicate n 0

/-- One ring of one slot (R453, R454): merged with a pending one, refused on an occupied slot, else waiting. -/
def ringSlot (s : State) (n : Fin 31) : State :=
  let s1 := hifCount 0 s
  if s.hif.waiting.any fun w => w.1 = .slot n then s1
  else if s.hif.busy.getLsbD n || s.hif.done.getLsbD n then
    event 0x0113 2 [n, (s.hif.busy.getLsbD n).toNat, (s.hif.done.getLsbD n).toNat] (raiseIrq 7 (hifCount 2 s1))
  else { s1 with hif := { s1.hif with waiting := s1.hif.waiting ++ [(.slot n, [])] } }

/-- HIF_DOORBELL (R453, R454, R471). -/
def execHifDoorbell (v : Word) (s : State) : Res :=
  if !hasPcie s || mailboxDown s then .next s
  else .next (serve (((List.finRange 31 : List (Fin 31)).filter fun n => v.getLsbD n.val).foldl ringSlot s))

/-- HIF_MBX_DONE: W1C, NOTE included (Table 14.4). -/
def execHifMbxDone (v : Word) (s : State) : Res :=
  if hasPcie s then .next { s with hif := { s.hif with done := s.hif.done &&& ~~~v } } else .next s

/-- HIF_IRQ_STAT: W1C (R457). -/
def execHifIrqStat (v : Word) (s : State) : Res :=
  if hasPcie s then .next { s with hif := { s.hif with irqStat := s.hif.irqStat &&& ~~~v } } else .next s

/-- HIF_IRQ_EN: an enable that rises over a set bit sends its message (R457). -/
def execHifIrqEn (v : Word) (s : State) : Res :=
  if !hasPcie s then .next s
  else
    let rising := (List.range 8).filter fun b => v.getLsbD b && !s.hif.irqEn.getLsbD b && s.hif.irqStat.getLsbD b
    let s1 := { s with hif := { s.hif with irqEn := v &&& 0xFF } }
    .next (rising.foldl (fun t b => emit (.msix (irqVector b)) t) s1)

/-- TIMEOUT as taken, in 10 ms units (R459). -/
def beatTimeout (n : Nat) : Nat := if n = 0 then 0 else max 10 (min n 1000)

/-- HOST_LOST stands while a watched path is lost (R460). -/
def hostAlarm (s : State) : State :=
  if s.hif.watches.any fun w => w.lost && w.timeout ≠ 0 then raiseAlarm 0x0110 s.dev 3 0 s
  else clearAlarm 0x0110 s.dev s

/-- A path as events 0x0110 and 0x0111 name it: code and source. -/
def watchPath : Watch → Nat × Word
  | .pcie => (0, 0)
  | .udp a => (1, a)

/-- A heartbeat on a path (R459, R460): a changed COUNT is a beat; TIMEOUT is taken. -/
def beat (p : Watch) (timeout : Nat) (count : BitVec 16) (s : State) : State :=
  let old := (s.hif.watches.find? (·.path = p)).getD { path := p }
  let isBeat := count ≠ old.count
  let w : WatchSt := { old with timeout := timeout, count := count, lost := old.lost && !isBeat }
  let s1 := { s with hif := { s.hif with watches := s.hif.watches.filter (·.path ≠ p) ++ [w] } }
  let s2 := if old.lost && isBeat then
      event 0x0111 1 [(watchPath p).1, (watchPath p).2.toNat, (s.time.ns - old.lostAt) / 1000000] s1
    else s1
  hostAlarm s2

/-- HIF_HEARTBEAT (R459). -/
def execHifHeartbeat (v : Word) (s : State) : Res :=
  if !hasPcie s then .next s
  else .next (beat .pcie (beatTimeout (fld v 16 16)) (v.setWidth 16) { s with hif := { s.hif with heartbeat := v } })

/-- BAR0_OTHER_WRITE (R447): slots and the MSI-X table store aligned writes; all else is ignored. -/
def execBar0OtherWrite (off : Nat) (bytes : List Byte) (s : State) : Res :=
  let n := bytes.length
  let ok := (n = 1 || n = 2 || n = 4 || n = 8) && off % n = 0
  let place := (0x2000 ≤ off && off + n ≤ 0x4000) || (0x1000 ≤ off && off + n ≤ 0x1080)
  if hasPcie s && ok && place then .next { s with hif := { s.hif with ram := Memory.writeAll s.hif.ram off bytes } }
  else .next s

/-- A slot request in progress across an endpoint reset answers nowhere (R446). -/
def gonePath (r : Req) : Req := match r.path with | .slot _ => { r with path := .gone } | _ => r

/-- The endpoint reset (R446): registers, rings, responses, notifications and the Board stream; the watchdog runs on. -/
def execEndpointReset (kind : Fin 4) (s : State) : Res :=
  if !hasPcie s then .next s
  else
    let go := fun (o : Option (Nat × Req)) => o.map fun x => (x.1, gonePath x.2)
    let job := fun (o : Option Job) => o.map fun j => { j with req := gonePath j.req }
    let rsp := ((List.range 31).filter fun n => s.hif.busy.getLsbD n).length
    let relays := s.hif.relays.map fun x => { x with req := gonePath x.req }
    let waiting := s.hif.waiting.filter fun w => match w.1 with | .slot _ => false | _ => true
    let h := { s.hif with
      busy := 0, done := 0, irqStat := 0, irqEn := 0, waiting := waiting, relays := relays, notes := [], noteBusy := false,
      execNow := go s.hif.execNow, dmaWait := go s.hif.dmaWait, copyJob := job s.hif.copyJob, srcJob := job s.hif.srcJob,
      counts := addAt (addAt s.hif.counts 11 s.hif.notes.length) 12 1 }
    .next (event 0x0114 2 [kind, rsp, s.hif.notes.length]
      { s with hif := h, brd := { s.brd with stream := { s.brd.stream with on := false, queue := [] } } })

/-! ## The UDP path -/

/-- Own address and prefix of a MAC (Table 14.11, R462). -/
def ownAddr (s : State) (mac : Nat) : Option (Word × Nat) :=
  (s.cfg.hostEntries.find? fun e => fld e 4 4 = 1 + mac).map fun e => (wd (fld e 32 32), fld e 8 8)

/-- A source inside an address entry's network. -/
def inNet (a : Word) (e : BitVec 64) : Bool := a.toNat / 2 ^ (32 - fld e 8 8) = fld e 32 32 / 2 ^ (32 - fld e 8 8)

/-- An allowed source (R463). -/
def allowedSource (s : State) (a : Word) : Bool := s.cfg.hostEntries.any fun e => fld e 4 4 = 3 && inNet a e

/-- A mailbox datagram is dropped under R463. -/
def udpRejected (s : State) (mac : Nat) (dst src : Word) (sumOk : Bool) (b : List Byte) : Bool :=
  !s.isManager || (ownAddr s mac).map (·.1) ≠ some dst || !sumOk || !allowedSource s src || b.length ≠ 16 + u16 b 6

/-- The UDP commands in execution (R464). -/
def udpBusy (s : State) : Nat := (s.hif.udp.filter (·.resp.isNone)).length

/-- UDP_MAILBOX_DATAGRAM (R463, R464). -/
def execUdpMailboxDatagram (mac : Fin 2) (dst src : Word) (port : BitVec 16) (checksumOk : Bool) (bytes : List Byte)
    (s : State) : Res :=
  if mailboxDown s then .next s
  else if udpRejected s mac dst src checksumOk bytes then
    .next (event 0x0115 2 [src.toNat, (nextFree s).toNat, mac] (stepFree (hifCount 4 s)))
  else
    let s1 := hifCount 3 s
    let tag := BitVec.ofNat 16 (u16 bytes 2)
    let key := fun (h : UdpHeld) => h.src = src && h.port = port && h.tag = tag
    let new : UdpHeld := { src := src, port := port, tag := tag, head := bytes.take 8, resp := none }
    let put := { s1 with hif := { s1.hif with udp := s1.hif.udp.filter (fun h => !key h) ++ [new] } }
    let path := Path.udp mac src port
    match s.hif.udp.find? fun h => key h && h.head = bytes.take 8 with
    | some h =>
      let s2 := hifCount 5 s1
      match h.resp with
      | some b => .next (emit (.udp mac src port b) s2)
      | none => .next s2
    | none =>
      if udpBusy s ≥ 16 then
        let r := parseReq path bytes
        .next (respond (u16 bytes 0) r 1 [] (trace (u16 bytes 0) r 1 put))
      else .next (serve { put with hif := { put.hif with waiting := put.hif.waiting ++ [(path, bytes)] } })

/-- UDP_RESPONSE_EXPIRY (R464). -/
def execUdpResponseExpiry (src : Word) (port tag : BitVec 16) (s : State) : Res :=
  .next { s with hif := { s.hif with
    udp := s.hif.udp.filter fun h => !(h.src = src && h.port = port && h.tag = tag && h.resp.isSome) } }

/-! ## Notifications -/

/-- The MAC that reaches an address: the one whose own network holds it, else the first with an own address. -/
def macFor (s : State) (a : Word) : Option (Fin 2) :=
  let near := fun (m : Fin 2) => match ownAddr s m.val with
    | some (o, p) => decide (a.toNat / 2 ^ (32 - p) = o.toNat / 2 ^ (32 - p))
    | none => false
  if near 0 then some 0 else if near 1 then some 1
  else if (ownAddr s 0).isSome then some 0 else if (ownAddr s 1).isSome then some 1 else none

/-- A notification's datagrams (R465). -/
def sendNote (b : List Byte) (s : State) : State :=
  (noteDests s).foldl (fun t d => match macFor s d.1 with
    | some m => emit (.udp m d.1 d.2 b) t
    | none => t) s

/-- NOTIFICATION (R458, R465): the front of the queue into slot 31, and to the UDP destinations. -/
def execNotification (s : State) : Res :=
  if mailboxDown s || s.hif.done.getLsbD 31 || s.hif.noteBusy then .next s
  else match s.hif.notes with
    | [] => .next s
    | (no, r, num) :: rest =>
      let b := noteBytes no (wd num) r (no - s.hif.notePlaced - 1)
      let s1 := sendNote b { s with hif := { s.hif with notes := rest, notePlaced := no } }
      if hasPcie s then
        let s2 := writeSlot 31 0 b (hifCount 10 s1)
        .next (raiseIrq 1 { s2 with hif := { s2.hif with done := s2.hif.done ||| wd (2 ^ 31) } })
      else .next (hifCount 10 s1)

/-- The endpoint's identity (Table 14.1): vendor, device, revision, subsystem vendor, subsystem and class code; a worker has no endpoint. -/
def endpointId (s : State) : Option (Nat × Nat × Nat × Nat × Nat × Nat) :=
  if hasPcie s then some (0x1F6A, 0x0640, Config.stepping.toNat, 0x1F6A, if s.variant = .MA then 1 else 2, 0x118000) else none

/-! ## DMA, relaying, the watchdog -/

/-- A fetched request goes on: relayed, or the command that executes next (R452, R466). -/
def fetched (code : Nat) (r : Req) (s : State) : State :=
  if r.target ≠ 0xFF && r.target.toNat ≠ s.dev then serve (sendRelay code r s)
  else { s with hif := { s.hif with execNow := some (code, r) } }

/-- DMA_READ_DONE (R452). -/
def execDmaReadDone (ok : Bool) (bytes : List Byte) (s : State) : Res :=
  match s.hif.dmaWait with
  | none => .next s
  | some (code, r) =>
    let s1 := { s with hif := { s.hif with dmaWait := none } }
    if !ok then .next (finish code r .badArg [] s1)
    else .next (fetched code { r with payload := bytes.take (r.dma.getD {}).reqLen } s1)

/-- DMA_READ_TIMEOUT (R452). -/
def execDmaReadTimeout (s : State) : Res :=
  match s.hif.dmaWait with
  | none => .next s
  | some (code, r) => .next (finish code r .timeout [] { s with hif := { s.hif with dmaWait := none } })

/-- The manager whose relayed requests the device executes (R469). -/
def relaySource (s : State) : Option Nat :=
  if s.rst.life = .cloakroom then s.mem.answerSrc
  else match s.newest with
    | some _ => some s.brd.active
    | none => none

/-- A relayed request is waiting or in execution. -/
def relayInProgress (s : State) (p : Path) : Bool :=
  s.hif.waiting.any (·.1 = p) || (s.hif.execNow.map (·.2.path)) = some p || (s.hif.copyJob.map (·.req.path)) = some p ||
    (s.hif.srcJob.map (·.req.path)) = some p

/-- MBX_RELAY_FRAME (R398, R469, R471). -/
def execMbxRelayFrame (src : Fin 64) (seq : BitVec 16) (replay : Bool) (bytes : List Byte) (s : State) : Res :=
  if mailboxDown s then .next s
  else if relaySource s ≠ some src.val then .next (hifCount 9 s)
  else
    let p := Path.relay src seq
    match replay, s.hif.answers.find? fun a => a.1 = src.val && a.2.1 = seq with
    | true, some a => .next (sendLong 6 src s.epochHeld a.2.2 false s)
    | _, _ =>
      if replay && relayInProgress s p then .next s
      else .next (serve { s with hif := { s.hif with waiting := s.hif.waiting ++ [(p, bytes)] } })

/-- A relay ends at the relaying manager: its answer goes to the host, with its trace (R466, R467, R480). -/
def endRelay (x : Relay) (st : Status) (pay : List Byte) (s : State) : State :=
  let s1 := { s with hif := { s.hif with relays := s.hif.relays.filter (· ≠ x) } }
  let tooLong := match x.req.dma with | some d => decide (pay.length > d.rspMax) | none => false
  if tooLong then respond x.code x.req Status.full.code [] (trace x.code x.req Status.full.code s1)
  else respond x.code x.req st.code pay (trace x.code x.req st.code s1)

/-- RELAY_ANSWER (R466). -/
def execRelayAnswer (src : Fin 64) (seq : BitVec 16) (bytes : List Byte) (s : State) : Res :=
  match s.hif.relays.find? fun x => x.target = src.val && x.seq = seq with
  | none => .next s
  | some x => .next (endRelay x (Status.ofCode (u16 bytes 8)) (bytes.drop 16) s)

/-- RELAY_RESEND (R467). -/
def execRelayResend (seq : BitVec 16) (s : State) : Res :=
  match s.hif.relays.find? fun x => x.seq = seq with
  | none => .next s
  | some x =>
    if x.repeats < 2 then
      let go := fun (y : Relay) => if y = x then { y with repeats := y.repeats + 1 } else y
      let s1 := hifCount 7 { s with hif := { s.hif with relays := s.hif.relays.map go } }
      .next (resendLong 6 x.target s.epochHeld seq (relayBytes x.code x.req) s1)
    else
      .next (event 0x0116 2 [x.target, x.code, x.req.tag.toNat, x.repeats] (hifCount 8 (endRelay x .timeout [] s)))

/-- HOST_LOST (R460). -/
def execHostLost (path : Watch) (s : State) : Res :=
  match s.hif.watches.find? fun w => w.path = path && w.timeout ≠ 0 && !w.lost with
  | none => .next s
  | some w =>
    let go := fun (x : WatchSt) => if x.path = path then { x with lost := true, lostAt := s.time.ns } else x
    let s1 := { s with hif := { s.hif with watches := s.hif.watches.map go } }
    .next (event 0x0110 3 [(watchPath path).1, (watchPath path).2.toNat, w.timeout * 10] (raiseIrq 5 (hostAlarm s1)))

/-! ## Class 0x01 -/

/-- IDENTIFY (Table 15.2). -/
def bodyIdentify (_ : Req) (s : State) : Ans :=
  give (leBytes 4 s.hifId.toNat ++ leBytes 4 s.variant.units.toNat ++ leBytes 4 s.fw.version.toNat ++
    leBytes 4 s.hifStateWord.toNat ++ leBytes 4 s.hifStraps.toNat ++ leBytes 4 s.safeStat.toNat ++
    leBytes 4 s.epochHeld.toNat ++ leBytes 2 s.mram.boot.toNat ++ leBytes 2 s.mram.failCount ++
    leBytes 4 (Config.otp 0).toNat ++ leBytes 4 (Config.otp 1).toNat ++
    leBytes 4 (if s.fw.validA then (Config.imageVersion s.fw.imgA).toNat else 0) ++
    leBytes 4 (if s.fw.validB then (Config.imageVersion s.fw.imgB).toNat else 0)) s
/-- IDENTIFY (R481). -/
def execIdentify (r : Req) (s : State) : Res := mbx 0x0101 (exactly 0) bodyIdentify r s

/-- HEARTBEAT (R459): UDP only, up to 8 sources. -/
def bodyHeartbeat (r : Req) (s : State) : Ans :=
  match r.path with
  | .udp _ a _ =>
    let known := s.hif.watches.any fun w => w.path = .udp a && w.timeout ≠ 0
    let n := (s.hif.watches.filter fun w => w.path ≠ .pcie && w.timeout ≠ 0).length
    let t := beatTimeout (u16 r.payload 2)
    if !known && n ≥ 8 then no .full s
    else okay (beat (.udp a) t (BitVec.ofNat 16 (u16 r.payload 0)) s)
  | _ => no .badArg s
/-- HEARTBEAT (R459). -/
def execHeartbeat (r : Req) (s : State) : Res := mbx 0x0102 (exactly 4) bodyHeartbeat r s

/-- Entry `i` of HOST_CONFIG's payload. -/
def hostEntry (p : List Byte) (i : Nat) : BitVec 64 := BitVec.ofNat 64 (ule p (8 + 8 * i) 8)
/-- A HOST_CONFIG entry outside R462's and Table 14.11's ranges. -/
def hostEntryBad (e : BitVec 64) : Bool :=
  let t := fld e 4 4
  let pre := fld e 8 8
  t > 4 || ((t = 1 || t = 2) && (pre < 8 || pre > 30)) || (t = 4 && fld e 16 16 = 0) || pre > 32
/-- HOST_CONFIG's length (R476, Table 14.10). -/
def lenHostConfig (p : List Byte) : Option Status :=
  let n := bits (u8 p 0) 0 5
  if p.length < 8 then some .badArg else if n > 16 then some .range
  else if p.length = 8 + 8 * n then none else some .badArg
/-- HOST_CONFIG (R462). -/
def bodyHostConfig (r : Req) (s : State) : Ans :=
  let p := r.payload
  let es := (List.range (bits (u8 p 0) 0 5)).map (hostEntry p)
  let sev := u8 p 1
  if s.variant = .WK && es.any (fun e => fld e 4 4 = 2) then no .absent s
  else if sev > 5 || es.any hostEntryBad || (es.filter (fun e => fld e 4 4 = 1)).length > 1 ||
      (es.filter (fun e => fld e 4 4 = 2)).length > 1 then no .range s
  else okay (setCfg (fun c => { c with notifySev := sev, hostEntries := es }) s)
/-- HOST_CONFIG (R462). -/
def execHostConfig (r : Req) (s : State) : Res := mbx 0x0103 lenHostConfig bodyHostConfig r s

/-- HOST_STATUS (R473, R478). -/
def bodyHostStatus (r : Req) (s : State) : Ans :=
  give (words s.hif.counts)
    (if clears r.payload 0 then { s with hif := { s.hif with counts := List.replicate 13 0 } } else s)
/-- HOST_STATUS (R473). -/
def execHostStatus (r : Req) (s : State) : Res := mbx 0x0104 (exactly 1) bodyHostStatus r s

end Sys2Proof.Machine
end

