-- ==== Sys2Proof/Machine/MemProt.lean ====
section
/-! DEFINITION. Memory protection: the two codes, the scrubbers, write-backs, hard sites, marked positions, merge buffers, and what an
uncorrectable code word does (chapter 16, class 0x0D). -/

namespace Sys2Proof.Machine

/-- One region's protection state changed. -/
def updRegion (n : Nat) (f : Region → Region) (s : State) : State :=
  { s with memp := { s.memp with regions := upd s.memp.regions n f } }
/-- Protection state of a region. -/
def regionOf (s : State) (n : Nat) : Region := s.memp.regions.getD n {}

/-- A region whose unit the variant carries (Table 0.1, R496): a worker has no solver, fusion and DDR4 regions. -/
def regionHere (s : State) (n : Nat) : Bool := n ≤ 8 && !(s.variant = .WK && (n = 0 || n = 3 || n = 8))
/-- The symbol-coded regions (Table 16.1). -/
def symbolCoded (n : Nat) : Bool := n = 1 || n = 8
/-- Data bytes of a code word (Table 16.1). -/
def wordBytes (n : Nat) : Nat := if symbolCoded n then 16 else 8
/-- Code words of a region (Table 2.2, Table 16.1); the DDR4 capacity is not stated. -/
def regionWords (n : Nat) : Option Nat :=
  if n = 8 then none else some ([2 ^ 20, 2 ^ 18, 2 ^ 19, 2 ^ 18, 2 ^ 18, 2 ^ 17, 3 * 2 ^ 17, 2 ^ 21].getD n 0)
/-- Period of a full scrub pass, ms (Table 16.1). -/
def scrubPeriod (s : State) (n : Nat) : Nat := if n = 8 then s.cfg.scrubMin * 60000 else if n = 7 then 60000 else 2000

/-! ## Commands (R496) -/

/-- MEM_STATUS (R513). -/
def bodyMemStatus (r : Req) (s : State) : Ans :=
  let n := u8 r.payload 0
  let g := regionOf s n
  let hard := (s.mram.hardSites.getD n []).length
  if n > 8 then no .range s
  else if !regionHere s n then no .absent s
  else
    let s1 := if clears r.payload 1 then
        { updRegion n (fun x => { x with
            corrected := 0, uncorrectable := 0, passes := 0, lastPassMs := 0, rmw := 0, merge := 0 }) s with
          mram := { s.mram with hardSites := s.mram.hardSites.set n [] } }
      else s
    give (leBytes 4 (pack [(8, n), (8, (symbolCoded n).toNat)]) ++
      words [g.corrected, g.uncorrectable, hard, g.passes, g.lastPassMs, g.rmw, g.merge] ++ leBytes 8 g.lastAddr) s1
/-- MEM_STATUS (R513). -/
def execMemStatus (r : Req) (s : State) : Res := mbx 0x0D01 (exactly 2) bodyMemStatus r s

/-- SCRUB_CONFIG (R514): from the next pass on. -/
def bodyScrubConfig (r : Req) (s : State) : Ans :=
  let m := u16 r.payload 0
  if s.variant = .WK then no .absent s
  else if !(30 ≤ m && m ≤ 4320) then no .range s
  else okay (setCfg (fun c => { c with scrubMin := m }) s)
/-- SCRUB_CONFIG (R514). -/
def execScrubConfig (r : Req) (s : State) : Res := mbx 0x0D02 (exactly 2) bodyScrubConfig r s

/-! ## Decoding (R506 to R508) -/

/-- What the decoder finds in a code word: no error, an error at a bit or symbol position, or an uncorrectable word with its failing bits. -/
inductive Ecc where
  | clean
  | fixed (pos : Nat)
  | bad (syndrome : Nat)
  deriving DecidableEq, Repr

/-- Even parity of the bits of a word at eight places. -/
def parityAt (w : Nat) (ix : Nat → Nat) : Bool := (List.range 8).foldl (fun p k => p != w.testBit (ix k)) false
/-- Failing row parities of an 80-bit word (R506). -/
def badRows (w : Nat) : List Nat := (List.range 8).filter fun i => parityAt w (fun j => 8 * i + j) != w.testBit (64 + i)
/-- Failing column parities of an 80-bit word (R506). -/
def badCols (w : Nat) : List Nat := (List.range 8).filter fun j => parityAt w (fun i => 8 * i + j) != w.testBit (72 + j)
/-- Positions as a mask. -/
def posMask (l : List Nat) : Nat := l.foldl (fun a i => a + 2 ^ i) 0

/-- The decision of Table 16.2. -/
def parityDecode (w : Nat) : Ecc :=
  match badRows w, badCols w with
  | [], [] => .clean
  | [i], [j] => .fixed (8 * i + j)
  | [i], [] => .fixed (64 + i)
  | [], [j] => .fixed (72 + j)
  | rs, cs => .bad (posMask rs + 256 * posMask cs)

/-- The 18 symbols of a code word (R509): byte n of a Board store word; on the DDR4 channel, whose word is its first x72 beat and above it its
second, the four bits of x4 device n in the first beat below those in the second. -/
def symbolsOf (region w : Nat) : List Nat :=
  (List.range 18).map fun n =>
    if region = 8 then bits w (4 * n) 4 + 16 * bits w (72 + 4 * n) 4 else bits w (8 * n) 8

/-- Product of two elements of GF(2^8): bits of `b` from the top, doubling modulo the field polynomial. -/
def gfMul (a b : Nat) : Nat :=
  (List.range 8).foldr (fun i acc =>
    let d := 2 * acc
    let r := if d.testBit 8 then d ^^^ Config.rsPoly else d
    if b.testBit i then r ^^^ a else r) 0
/-- Power of an element. -/
def gfPow (a : Nat) : Nat → Nat
  | 0 => 1
  | n + 1 => gfMul a (gfPow a n)
/-- The locator of symbol n. -/
def locator (n : Nat) : Nat := gfPow Config.rsElement n

/-- One syndrome of the code: the word's symbols at the root of the exponent. -/
def syndrome (syms : List Nat) (e : Nat) : Nat :=
  syms.zipIdx.foldl (fun acc x => acc ^^^ gfMul x.1 (gfPow (locator x.2) e)) 0

/-- The decoder of the Reed-Solomon code with two check symbols (R508): both syndromes zero, no error; two syndromes that one symbol's error
explains, that position; else uncorrectable. -/
def symbolDecode (syms : List Nat) : Ecc :=
  let a := syndrome syms Config.rsFirst
  let b := syndrome syms (Config.rsFirst + 1)
  if a = 0 ∧ b = 0 then .clean
  else match (List.range 18).find? fun n => a ≠ 0 && gfMul (locator n) a = b with
    | some n => .fixed n
    | none => .bad (a + 256 * b)

/-- The decoder of a region. -/
def eccOf (n w : Nat) : Ecc := if symbolCoded n then symbolDecode (symbolsOf n w) else parityDecode w

/-! ## Corrections (R510 to R512) -/

/-- A site corrected in the pass before with a completed write-back is hard: counted once, event 0x0D12 (R512). -/
def hardSite (n addr pos : Nat) (s : State) : State :=
  let known := s.mram.hardSites.getD n []
  if known.contains (addr, pos) || !(regionOf s n).prev.contains (addr, pos, true) then s
  else
    let l := known ++ [(addr, pos)]
    event 0x0D12 2 [n, addr * wordBytes n, pos, l.length] { s with mram := { s.mram with hardSites := s.mram.hardSites.set n l } }

/-- 256 corrections of one pass at one symbol position mark it (R510). -/
def markPos (n pos : Nat) (s : State) : State :=
  let g := regionOf s n
  if !symbolCoded n || g.passMixed || g.passCorr < 256 || g.mark.isSome then s
  else event 0x0D13 3 [n, pos, g.passCorr] (raiseAlarm 0x0D13 s.dev 3 n (updRegion n (fun x => { x with mark := some pos }) s))

/-- A correction: counted, recorded, its write-back queued (R511, R513). -/
def correct (n addr pos : Nat) (s : State) : State :=
  let note := fun (x : Region) => { x with
    corrected := satInc x.corrected, lastAddr := addr * wordBytes n
    writeBacks := if x.writeBacks.contains addr then x.writeBacks else x.writeBacks ++ [addr]
    sites := if x.sites.any (fun y => y.1 = addr && y.2.1 = pos) then x.sites else x.sites ++ [(addr, pos, false)]
    passCorr := x.passCorr + 1, passMixed := x.passMixed || (match x.passPos with | some p => p ≠ pos | none => false)
    passPos := if x.passPos.isSome then x.passPos else some pos }
  markPos n pos (hardSite n addr pos (event 0x0D10 0 [n, addr * wordBytes n, pos, 1] (updRegion n note s)))

/-! ## Uncorrectable code words (R518, Table 16.4) -/

/-- The reaction row of Table 16.4, counted from 1; 0 where no row names the use. -/
def reactionRow (n : Nat) (u : MemUse) : Nat :=
  if n = 2 then 5 else if n = 3 then 6
  else match u with
    | .none_ => 0 | .stall _ => if n = 8 then 2 else 1
    | .assembling => 3 | .history _ => 4 | .forwarded _ => 7 | .originated _ => 7 | .context _ => 8 | .filter _ => 9 | .trace _ _ => 10
    | .descriptor => 11 | .streamImage => 11 | .record _ => 12 | .ringHead => 13 | .configBank _ => 13 | .histograms _ => 13
    | .changeLog _ => 13 | .failCount => 13 | .staging _ _ => 14

/-- A stall's word (R267): with its DDR4 copy lost too it stays FAULTED. -/
def badStall (n k : Nat) (s : State) : State :=
  let x := stallOf s k
  if n = 8 then (if x.damaged then faultStall k n true s else updStall k (fun y => { y with lost := true }) s)
  else faultStall k n x.lost s

/-- A frame in the link buffers: the first waiting one of the kind is dropped; a forwarded one's outgoing copy ends in ABORT (R394). -/
def badFrame (port : Nat) (own : Bool) (s : State) : State :=
  let hit := fun (f : Frame) => (f.hdr.src = s.dev) = own
  let cut := fun (p : Port) =>
    if p.queue.any (fun q => hit q.f) then { p with queue := p.queue.eraseP fun q => hit q.f } else { p with held := p.held.eraseP fun h => hit h.f }
  let s1 := { s with link := { s.link with ports := upd s.link.ports port cut } }
  if own then { s1 with link := { s1.link with ports := upd s1.link.ports port fun p => { p with counts := addAt p.counts 13 1 } } }
  else emit (.abort (if port = 0 then 0 else if port = 1 then 1 else if port = 2 then 2 else 3)) s1

/-- A trace buffer's word: the capture ends DONE, the damaged word reads 0. -/
def badTrace (u i : Nat) (s : State) : State :=
  { s with loop := { s.loop with trace := upd s.loop.trace u fun t =>
      { t with state := if t.state = 0 then 0 else 3, await := false, buf := t.buf.set (t.buf.length - 1 - i) 0 } } }

/-- A staged chunk: staged again from its source, or lost; lost records are recorded as such (R539). -/
def badStaging (i : Nat) (again : Bool) (s : State) : State :=
  match s.arch.staging[i]? with
  | none => s
  | some c =>
    if again then s
    else
      let s1 := { s with arch := { s.arch with staging := s.arch.staging.eraseIdx i } }
      if u8 c.2 12 = 3 then event 0x0A12 3 [u32 c.2 20, 126] s1 else s1

/-- The image waiting for its stream slot is skipped (R374). -/
def badStream (s : State) : State :=
  match s.brd.stream.queue with
  | [] => s
  | i :: q =>
    let st := s.brd.stream
    brdCount 9 1 (updBrd (fun b => { b with stream := { st with
      queue := q, firstSkip := if st.skipped = 0 then i.epoch else st.firstSkip, skipped := st.skipped + 1 } }) s)

/-- What the use of an uncorrectable word brings about (Table 16.4). -/
def reactUse (n : Nat) (u : MemUse) (s : State) : State :=
  match u with
  | .none_ => s
  | .stall k => badStall n k s
  | .assembling => boardLost n s
  | .history e => updBrd (fun b => { b with damaged := e :: b.damaged.filter (· ≠ e) }) s
  | .forwarded p => badFrame p false s
  | .originated p => badFrame p true s
  | .context k => enterLost k (updCtx k (fun c => { c with u := parkValue s k }) s)
  | .filter ch => updFilt ch (fun c => { zeroHist c with settle := settleCount (chWord s ch) }) s
  | .trace t i => badTrace t i s
  | .descriptor =>
    match s.hif.dmaWait with
    | some x => finish x.1 x.2 .timeout [] { s with hif := { s.hif with dmaWait := none } }
    | none => s
  | .streamImage => badStream s
  | .record num => { s with mram := { s.mram with ringBad := num :: s.mram.ringBad.filter (· ≠ num) } }
  | .ringHead => { s with mram := { s.mram with ringOk := false } }
  | .configBank second =>
    { s with mram := if second then { s.mram with bank1 := { s.mram.bank1 with valid := false } }
                     else { s.mram with bank0 := { s.mram.bank0 with valid := false } } }
  | .histograms _ => s
  | .changeLog q => { s with mram := { s.mram with logBad := q :: s.mram.logBad.filter (· ≠ q) } }
  | .failCount => { s with mram := { s.mram with failOk := false } }
  | .staging i again => badStaging i again s

/-- An uncorrectable code word (R518): SUP SRAM latches MEMORY, Fusion SRAM on a manager FAIL_SILENT, else by its use. -/
def uncorrectable (n addr syndrome : Nat) (u : MemUse) (s : State) : State :=
  let s1 := event 0x0D11 4 [n, addr * wordBytes n, syndrome, reactionRow n u]
    (updRegion n (fun x => { x with uncorrectable := satInc x.uncorrectable }) s)
  if n = 2 then latchCause 10 { s1 with safe := { s1.safe with memOpen := true } }
  else if n = 3 then (if s1.isManager then failSilent 0 s1 else s1)
  else reactUse n u s1

/-! ## SCRUB_READ, WRITE_BACK, MERGE_BUFFER_EVICT -/

/-- The scrubbers run outside RESET and LOADING (R515). -/
def scrubRuns (s : State) (n : Nat) : Bool := regionHere s n && s.rst.life ≠ .reset && s.rst.life ≠ .loading

/-- A pass is complete: its duration, late beyond 1.5 periods (R513, R515). -/
def passDone (n : Nat) (s : State) : State :=
  let g := regionOf s n
  let ms := (s.time.ns - g.passStart) / 1000000
  let s1 := updRegion n (fun x => { x with
    passes := satInc x.passes, lastPassMs := min ms (2 ^ 32 - 1), prev := x.sites, sites := [], passCorr := 0, passPos := none, passMixed := false }) s
  if 2 * ms > 3 * g.period then event 0x0D14 2 [n, ms, g.period] s1 else s1

/-- A pass begins. -/
def passBegin (n : Nat) (s : State) : State :=
  updRegion n (fun x => { x with passStart := s.time.ns, period := scrubPeriod s n }) s

/-- The read at address 0 ends a pass of a region whose last word has been read, and begins the next. -/
def scrubWrap (n addr : Nat) (s : State) : State :=
  if addr ≠ 0 then s else passBegin n (if (regionOf s n).scrubAt = 0 then s else passDone n s)

/-- SCRUB_READ (R507, R510 to R512, R514, R518): the next word in ascending order, or the first after the last. -/
def execScrubRead (region : Fin 9) (addr word : Nat) (use : MemUse) (s : State) : Res :=
  let n := region.val
  let at_ := (regionOf s n).scrubAt
  let next := match regionWords n with
    | some k => addr = at_ % k
    | none => addr = at_ || addr = 0
  if !scrubRuns s n || !next then .next s
  else
    let s1 := updRegion n (fun x => { x with scrubAt := addr + 1 }) (scrubWrap n addr s)
    match eccOf n word with
    | .clean => .next s1
    | .fixed pos => .next (correct n addr pos s1)
    | .bad syn => .next (uncorrectable n addr syn use s1)

/-- WRITE_BACK (R511): done, or dropped after a newer write. -/
def execWriteBack (region : Fin 9) (addr : Nat) (overtaken : Bool) (s : State) : Res :=
  let n := region.val
  let mark := fun (l : List (Nat × Nat × Bool)) => l.map fun y => if y.1 = addr && !overtaken then (y.1, y.2.1, true) else y
  if !(regionOf s n).writeBacks.contains addr then .next s
  else .next (updRegion n (fun x => { x with writeBacks := x.writeBacks.filter (· ≠ addr), sites := mark x.sites, prev := mark x.prev }) s)

/-- MERGE_BUFFER_EVICT (R516): an entry that was never completed is completed by a read; its absorbed writes are counted. The merge
buffers run in READY and RUN (R517). -/
def execMergeBufferEvict (region : Fin 9) (addr writes : Nat) (parityOk : Bool) (use : MemUse) (s : State) : Res :=
  let n := region.val
  if !regionHere s n || !(s.rst.life = .ready || s.rst.life = .run) then .next s
  else
    let s1 := updRegion n (fun x => { x with rmw := satInc x.rmw, merge := satAdd x.merge writes }) s
    .next (if parityOk then s1 else uncorrectable n addr 0 use s1)

end Sys2Proof.Machine
end

