-- ==== Sys2Proof/Machine/Restart.lean ====
section
/-! DEFINITION. Resets, the release order, shadows, firmware images, self-tests, lockstep faults and Cloakroom mode (chapters 9 and 18,
classes 0x0E and 0x0F). -/

namespace Sys2Proof.Machine

/-- The reset controller's state changed. -/
def updRst (f : Rst → Rst) (s : State) : State := { s with rst := f s.rst }
/-- The self-test state changed. -/
def updTests (f : Tests → Tests) (s : State) : State := { s with tests := f s.tests }
/-- The firmware store changed. -/
def updFw (f : Fw → Fw) (s : State) : State := { s with fw := f s.fw }

/-! ## Reset (R544, R545, R549) -/

/-- Scope FULL (Table 18.1). -/
def fullScope (code : Nat) : Bool := code ≤ 1

/-- What the reset controller and the AON domain hold after the assertion of source `code` (R544, R545). -/
def resetRst (code : Nat) (s : State) : Rst :=
  let full := fullScope code
  let entry := if full || s.safe.causes = 0 then [(0x0910, 4, [1, 1, 0, 0])] else []
  let cut := match s.arch.pfail with
    | some x => if s.arch.writeProtect then [] else [(0x0A19, 2, [x.1, x.2, 1])]
    | none => []
  { asserted := s.rst.asserted ||| BitVec.ofNat 8 (2 ^ code)
    cause := s.rst.cause
    prevState := if s.rst.asserted = 0 then s.hifState else s.rst.prevState
    straps := s.rst.straps
    strapChanged := !full && s.rst.strapChanged
    strapDiff := if full then 0 else s.rst.strapDiff
    mgrIgnored := !full && s.rst.mgrIgnored
    noticed := !full && s.rst.noticed
    held := (if full then [] else s.rst.held) ++ entry ++ cut }

/-- What the safety controller holds: causes and trips by scope, RESTART latched; what its inputs read stays what they read (R301, R313, R544). -/
def resetSafe (code : Nat) (s : State) : Safe :=
  let full := fullScope code
  let x := (setOuts 0 s).safe
  let old := if full then 0 else x.causes
  { causes := old ||| 1
    firstCause := if old = 0 then 1 else x.firstCause
    groupTrip := if full then 0 else x.groupTrip
    injected := old.getLsbD 1 && x.injected
    mittenMask := if old.getLsbD 1 then x.mittenMask else 0
    sofb := x.sofb, siLevels := x.siLevels, clockBad := x.clockBad, railBad := x.railBad, railNot4 := x.railNot4
    celsius := x.celsius, halvesAgree := x.halvesAgree, refOk := if code = 0 then true else x.refOk
    testsBad := if full then [] else x.testsBad
    pinLow := x.pinLow, atFall := if full then 0 else x.atFall &&& 0xFFFE }

/-- What the archive keeps: the medium and what describes it (R531 to R541). -/
def resetArch (s : State) : Arch :=
  let a := s.arch
  { pageChunks := a.pageChunks, blockPages := a.blockPages, endurance := a.endurance, blks := a.blks, openBlk := a.openBlk
    captures := a.captures.filter (·.closed), capNext := a.capNext, chunks := a.chunks, nextChunk := a.nextChunk
    journal := a.journal, unsaved := a.unsaved }

/-- The symbol positions marked by region, which stay until power-on reset (R510). -/
def resetMemp (code : Nat) (s : State) : Memp :=
  { regions := s.memp.regions.map fun g => { mark := if code = 0 then none else g.mark } }

/-- The assertion of a reset source: all volatile state resets, within its scope (R544, R549). -/
def resetDevice (code : Nat) (s : State) : State :=
  let t : State := {
    pending := s.pending, free := s.free, outs := s.outs, variant := s.variant, mram := s.mram
    fw := { s.fw with version := 0, source := 0, load := none, chunks := [] }
    rst := resetRst code s, safe := resetSafe code s, arch := resetArch s, memp := resetMemp code s }
  let t1 := if t.rst.strapChanged then raiseAlarm 0x0915 t.dev 3 t.rst.straps.toNat t else t
  (List.range 9).foldl (fun u n => if (u.memp.regions.getD n {}).mark.isSome then raiseAlarm 0x0D13 u.dev 3 n u else u) t1

/-- POWER_ON_RESET (R544). -/
def execPowerOnReset (s : State) : Res := .next (resetDevice 0 s)
/-- BROWN_OUT (R544). -/
def execBrownOut (s : State) : Res := .next (resetDevice 1 s)
/-- SYSRST_N (R544). -/
def execSysrstN (s : State) : Res := .next (resetDevice 2 s)

/-- SUP_WATCHDOG (R544, R546): armed from SELFTEST on, not in RESET, LOADING and Cloakroom mode. -/
def execSupWatchdog (s : State) : Res :=
  if s.rst.life = .selftest || s.rst.life = .ready || s.rst.life = .run then .next (resetDevice 3 s) else .next s

/-- The device has been released and has not reached READY since. -/
def starting (s : State) : Bool :=
  s.rst.asserted = 0 &&
    (s.rst.life = .reset || s.rst.life = .loading || (s.rst.life = .selftest && !s.tests.startup.isEmpty))

/-- START_TIMEOUT (R557). -/
def execStartTimeout (s : State) : Res := if starting s then .next (resetDevice 7 s) else .next s

/-- DEVICE_RESET_DELAY (R498). -/
def execDeviceResetDelay (s : State) : Res :=
  match s.rst.delayed with
  | some code => .next (resetDevice (if code = 6 then 6 else 4) s)
  | none => .next s

/-- REF_CRYSTAL_FAULT (Table 9.13): the pins are de-energised and reset is held until a power-on reset. -/
def execRefCrystalFault (s : State) : Res :=
  let t := resetDevice 2 s
  .next { t with rst := { t.rst with asserted := s.rst.asserted }, safe := { t.safe with refOk := false } }

/-! ## Release order (R545, R547, R550) -/

/-- The lowest set bit of the asserted sources. -/
def lowestCode (b : BitVec 8) : Nat := ((List.range 8).find? fun n => b.getLsbD n).getD 0

/-- The failed-start counter at a release: one whose check fails is taken as 2 (R558). -/
def nextFail (m : Mram) : Nat := min 255 ((if m.failOk then m.failCount else 2) + 1)

/-- RESET_RELEASE (R545): the end of step 1. -/
def execResetRelease (straps : BitVec 12) (trimOk : Bool) (s : State) : Res :=
  if s.rst.life ≠ .reset || s.rst.asserted = 0 || !s.safe.refOk then .next s
  else
    let n := nextFail s.mram
    let boot := s.mram.boot + 1
    let full := s.rst.asserted.getLsbD 0 || s.rst.asserted.getLsbD 1
    let cause := lowestCode s.rst.asserted
    let latch := if full then straps else s.rst.straps
    .next { s with
      mram := { s.mram with boot := boot, failCount := n, failOk := true }
      rst := { s.rst with
        asserted := 0, cause := cause, straps := latch, trimOk := trimOk, step := 1
        mgrIgnored := s.variant = .WK && latch.getLsbD 6
        held := s.rst.held ++ [(0x0F10, 1, [cause, boot.toNat, n, s.rst.prevState])] } }

/-- The record ring checked at start-up; formatted where its head fails or none exists: the records in it stay behind the new head, with
their old SEQ and CRC (R523). -/
def checkRing (s : State) : State :=
  if s.mram.ringMade && s.mram.ringOk then s
  else
    let head := s.mram.head.toNat
    let reason := if s.mram.ringMade then 1 else 0
    event 0x0A1A 2 [reason, head]
      { s with mram := { s.mram with head := 0, ringOk := true, ringMade := true, archNext := 0 } }

/-- The notices recorded once per power-on reset (R8, R23, R24). -/
def notices (s : State) : State :=
  if s.rst.noticed then s
  else
    let d := s.dev
    let s1 := updRst (fun r => { r with noticed := true }) s
    let s2 := if s.rst.mgrIgnored then event 0x0C10 1 [d, s.hifStraps.toNat] s1 else s1
    if s.noRole then event 0x0C11 3 [d, if s.rst.mgrIgnored then 2 else if s.variant = .WK then 0 else 1, s.hifId.toNat] s2
    else if s.variant ≠ .WK && s.strap 6 && 3 ≤ d then event 0x0C12 1 [d] s2
    else s2

/-- The boot ROM reads a configuration bank into the shadows (R552). -/
def loadShadows (s : State) : State :=
  let b0 := s.mram.bank0
  let b1 := s.mram.bank1
  let take := fun (b : Bank) => updRst (fun r => { r with shadow := some b })
  let older := fun (b bad : Bank) =>
    if epochDiff bad.gen b.gen > 0 then event 0x0F13 2 [bad.gen.toNat, b.gen.toNat] (take b s) else take b s
  if b0.valid && b1.valid then take (if epochDiff b1.gen b0.gen > 0 then b1 else b0) s
  else if b0.valid then older b0 b1
  else if b1.valid then older b1 b0
  else event 0x0F14 4 [b0.gen.toNat, b1.gen.toNat] (report 0x0F14 4 s.dev b0.gen.toNat (take {} s))

/-- Cloakroom mode entered (R558, R559): no firmware image is started, HIF_FWVER SOURCE reads 3. -/
def enterCloakroom (reason : Nat) (s : State) : State :=
  let s1 := setLife .cloakroom (updFw (fun f => { f with version := 0xC000, source := 3 }) (updRst (fun r => { r with reason := reason }) s))
  event 0x0F11 4 [reason, s.mram.failCount, s.mram.boot.toNat] s1

/-- Step 3: SUP is released; the boot ROM records what was held and loads the shadows, or goes to Cloakroom mode
(R550, R552, R558, R561). -/
def enterLoading (s : State) : State :=
  let s1 := setLife .loading (updRst (fun r => { r with step := 3 }) s)
  let s2 := loadShadows (notices (flushHeld (checkRing s1)))
  if !s.rst.trimOk then enterCloakroom 1 s2 else if s.mram.failCount ≥ 3 then enterCloakroom 0 s2 else s2

/-- PLL_LOCK (R547). -/
def execPllLock (s : State) : Res :=
  if s.rst.life = .reset && s.rst.step = 2 then .next (updRst (fun r => { r with pllLocked := true }) s) else .next s

/-! ## Shadows applied (R553, R591) -/

/-- A loop context as its stored definition starts it: IDLE at its park value, with the stored coefficients (R288, R591). -/
def startCtx (n : Nat) (s : State) : State :=
  match s.cfg.loops.getD n none with
  | none => s
  | some l =>
    let s1 := updCtx n (fun c => { c with state := 1, coefs := l.coefs, suppressed := s.isSafe && l.cmdPath }) s
    let pk := parkValue s1 n
    let s2 := updCtx n (fun c => { c with u := pk, parkAt := pk }) s1
    if l.gate ≠ 0 && (l.coefs.getD 1 (0, 0)).1 ≠ (flrFactor s2 l.gate * 65536 : Nat) then writeGated n s2 else s2

/-- A filter channel as its stored word starts it (R105). -/
def startFilt (s : State) (x : Filt × Nat) : Filt := if chEn (chWord s x.2) then enableCh (chWord s x.2) x.1 else x.1

/-- A CAN channel as its stored word starts it (R416). -/
def startCan (s : State) (x : Can × Nat) : Can :=
  let w := canWord s x.2
  if x.2 < s.variant.cans && canEn w then { x.1 with state := if canListen w then 4 else 1 } else x.1

/-- The shadows applied in one step (R553). -/
def applyShadows (s : State) : State :=
  let c := ((s.rst.shadow.getD {}).body)
  let s1 := { s with
    cfg := c, cfgNext := none
    cyc := { s.cyc with e := c.epochLen, k := c.cycleLen, c := c.closeOff }
    time := { s.time with ref10Sel := c.use10m, ref10Run := c.use10m && ref10Ok s.time.ref10Hz }
    ao := s.ao.zipIdx.map fun (x : Ao × Nat) => { x.1 with powered := (c.ao.getD x.2 {}).en } }
  let s2 := { s1 with
    filt := s1.filt.zipIdx.map (startFilt s1)
    bus := { s1.bus with can := s1.bus.can.zipIdx.map (startCan s1) } }
  portRoles <| updateGates (takePairs (markBound ((List.range 128).foldl (fun t n => startCtx n t) (takeFusionCfg s2.time.ns s2))))

/-- The IGMPv2 joins of the groups in force (R441). -/
def joinGroups (s : State) : State :=
  (List.range 16).foldl (fun t n => joinGroup n (t.cfg.lan450.getD n 0) t) s

/-- The start-up self-tests of the variant (R333). -/
def startupTests (s : State) : List Nat := if s.variant = .WK then [1, 0x11] else [1, 2, 0x11]

/-- Step 6: the firmware applies the shadows and enters SELFTEST (R333, R553). -/
def enterSelftest (s : State) : State :=
  setLife .selftest (updTests (fun t => { t with startup := startupTests s })
    (updRst (fun r => { r with step := 6 }) (aoSupply (joinGroups (applyShadows s)))))

/-- RELEASE_GAP_EXPIRY (R547): step 6 waits while VDD_CORE is out of ±5 %. -/
def execReleaseGapExpiry (s : State) : Res :=
  if s.rst.life = .reset then
    if s.rst.asserted ≠ 0 || !s.safe.refOk then .next s
    else if s.rst.step = 1 then .next (updRst (fun r => { r with step := 2 }) s)
    else if s.rst.pllLocked then .next (enterLoading s)
    else .next s
  else if s.rst.life = .loading && s.rst.step = 5 && !s.safe.railBad.getLsbD 0 then .next (enterSelftest s)
  else .next s

/-- DDR4_TRAINING_DONE (R547). -/
def execDdr4TrainingDone (s : State) : Res :=
  if s.rst.life = .loading && s.rst.step = 4 then .next (updRst (fun r => { r with step := 5 }) s) else .next s

/-! ## Firmware images (R554, R555) -/

/-- HIF_FWVER of an image, with its SOURCE (Table 14.3). -/
def versionOf (bytes : List Byte) (source : Nat) : Word := Config.imageVersion bytes &&& 0xFFFF3FFF ||| wd (source * 16384)

/-- A verified image started: step 3 ends, and on a worker step 4 at once (R547). -/
def startImage (source : Nat) (bytes : List Byte) (s : State) : State :=
  updRst (fun r => { r with step := if s.variant = .WK then 5 else 4 })
    (updFw (fun f => { f with version := versionOf bytes source, source := source }) s)

/-- The image in a QSPI place: 0 A, 1 B. -/
def imageOf (s : State) (n : Nat) : List Byte := if n = 0 then s.fw.imgA else s.fw.imgB
/-- A QSPI image passes verification. -/
def imageGood (s : State) (n : Nat) : Bool := (if n = 0 then s.fw.validA else s.fw.validB) && Config.sigValid (imageOf s n)
/-- A rejected QSPI image's event. -/
def rejectImage (n : Nat) (s : State) : State := event 0x0F12 3 [n, 0, (Config.imageVersion (imageOf s n)).toNat] s

/-- The device boots from the PCIe host (R555). -/
def pcieBoot (s : State) : Bool := s.variant ≠ .WK && s.strap 10

/-- BOOT_ROM_DONE (R554, R555): the preferred image, then the other, else Cloakroom mode. -/
def execBootRomDone (s : State) : Res :=
  if s.rst.life ≠ .loading || s.rst.step ≠ 3 || pcieBoot s then .next s
  else
    let s1 := if s.strap 10 then event 0x0F17 1 [] s else s
    let a := if s.fw.prefB then 1 else 0
    let b := 1 - a
    .next (if imageGood s a then startImage a (imageOf s a) s1
      else if imageGood s b then startImage b (imageOf s b) (rejectImage a s1)
      else enterCloakroom 2 (rejectImage b (rejectImage a s1)))

/-- PCIE_BOOT_POLL (R555, Table 18.5): a descriptor other than the one rejected last; its image is read by DMA and verified. -/
def execPcieBootPoll (fetched : Option (List Byte)) (s : State) : Res :=
  let d := Memory.readAll s.hif.ram (slotAddr 0) 16
  if s.rst.life ≠ .loading || s.rst.step ≠ 3 || !pcieBoot s || u16 d 12 ≠ 0xB007 || crc16 (d.take 14) ≠ u16 d 14 || d = s.rst.badDesc then
    .next s
  else
    let len := u32 d 8
    let reject := fun (why version : Nat) (t : State) => event 0x0F12 3 [2, why, version] (updRst (fun r => { r with badDesc := d }) t)
    if len = 0 || len > 3145728 then .next (reject 2 0 s)
    else if ule d 0 8 % 8 ≠ 0 then .next (reject 1 0 s)
    else
      let s1 := emit (.hostRead (BitVec.ofNat 64 (ule d 0 8)) len) s
      match fetched with
      | none => .next (reject 1 0 s1)
      | some bytes =>
        if bytes.length ≠ len then .next (reject 1 0 s1)
        else if !Config.sigValid bytes then .next (reject 0 (Config.imageVersion bytes).toNat s1)
        else .next (startImage 2 bytes s1)

/-! ## Failed starts (R558) -/

/-- FAILED_START_CLEAR_TIMER (R558). -/
def execFailedStartClearTimer (s : State) : Res :=
  if !s.inRun || s.mram.failCount = 0 then .next s
  else .next (event 0x0F16 1 [s.mram.failCount, 0] { s with mram := { s.mram with failCount := 0, failOk := true } })

/-- FAILCOUNT_CLEAR body (R558). -/
def bodyFailcountClear (_ : Req) (s : State) : Ans :=
  let n := s.mram.failCount
  give (leBytes 1 n) (event 0x0F16 1 [n, 1] { s with mram := { s.mram with failCount := 0, failOk := true } })
/-- FAILCOUNT_CLEAR (R558). -/
def execFailcountClear (r : Req) (s : State) : Res := mbx 0x0F03 (exactly 0) bodyFailcountClear r s

/-! ## DEVICE_RESET (R498) -/

/-- DEVICE_RESET body (R498): the reset follows the answer by 10 ms. -/
def bodyDeviceReset (r : Req) (s : State) : Ans :=
  let relayed := match r.path with | .relay _ _ => true | _ => false
  if u8 r.payload 1 ≠ 0xA5 || u8 r.payload 0 ≠ 0 then no .badArg s
  else if (relayed && !s.strap 9) || (s.mem.role = .worker && cmdPathLive s) || (s.isActive && s.inRun && (standbys s).isEmpty) then no .state s
  else okay (updRst (fun x => { x with delayed := some (x.delayed.getD (if relayed then 6 else 4)) }) s)
/-- DEVICE_RESET (R498). -/
def execDeviceReset (r : Req) (s : State) : Res := mbx 0x0F01 (exactly 2) bodyDeviceReset r s

/-! ## FW_LOAD (R499) -/

/-- The byte written at an offset since BEGIN. -/
def loadByte (f : Fw) (i : Nat) : Option Byte :=
  match f.chunks.find? fun c => c.1 ≤ i && i < c.1 + c.2.length with
  | some c => c.2[i - c.1]?
  | none => none

/-- End of the bytes written since BEGIN. -/
def loadEnd (f : Fw) : Nat := f.chunks.foldl (fun m c => max m (c.1 + c.2.length)) 0

/-- The first `n` bytes of the image as written, erased bytes reading 0xFF. -/
def loadBytes (f : Fw) (n : Nat) : List Byte := (List.range n).map fun i => (loadByte f i).getD 0xFF

/-- The answer of FW_LOAD: bytes written since BEGIN and the CRC-32 up to the end written. -/
def loadAnswer (s : State) : List Byte :=
  leBytes 4 ((List.range (loadEnd s.fw)).filter fun i => (loadByte s.fw i).isSome).length ++ leBytes 4 (crc32 (loadBytes s.fw (loadEnd s.fw)))

/-- An image of the store set. -/
def putImage (n : Nat) (bytes : List Byte) (valid : Bool) (f : Fw) : Fw :=
  if n = 0 then { f with imgA := bytes, validA := valid } else { f with imgB := bytes, validB := valid }

/-- FW_LOAD body (R499). -/
def bodyFwLoad (r : Req) (s : State) : Ans :=
  let p := r.payload
  let op := u8 p 0
  let img := u8 p 1
  let off := u32 p 4
  let total := u32 p 8
  let data := p.drop 12
  let begun := match s.fw.load with | some l => l.1 = img | none => false
  let size := match s.fw.load with | some l => l.2 | none => 0
  let fresh := fun (i : Nat) => loadByte s.fw (off + i)
  if op > 3 || img > 1 then no .badArg s
  else if s.fw.source = img then no .state s
  else if op = 0 then
    if total = 0 || total > 8388608 then no .range s
    else
      let s1 := updFw (fun f => { putImage img [] false f with load := some (img, total), chunks := [] }) s
      give (loadAnswer s1) s1
  else if op = 3 then
    let s1 := updFw (fun f => let g := putImage img [] false f; if begun then { g with load := none, chunks := [] } else g) s
    give (loadAnswer s) s1
  else if !begun then no .state s
  else if op = 1 then
    if r.dma.isNone && data.length > 224 then no .badArg s
    else if off + data.length > size then no .range s
    else if data.zipIdx.any fun b => match fresh b.2 with | some old => old ≠ b.1 | none => false then no .badArg s
    else
      let s1 := if data.zipIdx.all fun b => (fresh b.2).isSome then s else updFw (fun f => { f with chunks := (off, data) :: f.chunks }) s
      give (loadAnswer s1) s1
  else
    let bytes := loadBytes s.fw size
    let done := fun (f : Fw) => { f with load := none, chunks := [] }
    if !Config.sigValid bytes then .done .badArg [] (updFw done s)
    else give (loadAnswer s)
      (updFw (fun f => { done (putImage img bytes true f) with prefB := if bit (u8 p 2) 0 then img = 1 else f.prefB }) s)

/-- Length of FW_LOAD (Table 15.18). -/
def lenFwLoad (p : List Byte) : Option Status := if p.length ≥ 12 then none else some .badArg
/-- FW_LOAD (R499). -/
def execFwLoad (r : Req) (s : State) : Res := mbx 0x0F02 lenFwLoad bodyFwLoad r s

/-! ## SAFE_IMAGE_LOAD (R325, R500) -/

/-- The sub-records of an image's body, at most `n`; none where they do not fill it. -/
def subRecords : Nat → List Byte → Option (List (Nat × List Byte))
  | _, [] => some []
  | 0, _ => none
  | n + 1, b =>
    let len := u16 b 2
    if b.length < 4 + len then none
    else (subRecords n (b.drop (4 + len))).map fun l => (u16 b 0, (b.drop 4).take len) :: l

/-- The composition that the device's place asks for (R500). -/
def composed (mgr : Bool) (l : List (Nat × List Byte)) : Bool :=
  let of := fun (c : Nat) => l.filter (·.1 = c)
  let thr := (of 0x1003).map fun x => u8 x.2 0
  (of 0x0901).length = 1 && (if mgr then (of 0x1004).length = 1 && thr.Nodup && l.length = 2 + thr.length else l.length = 1)

/-- One sub-record under its own command's rules, as in READY without protection: what the image defines so far goes on, or its refusal. -/
def checkRecord (x : Nat × List Byte) (c : Cfg) : Except Status Cfg :=
  let p := x.2
  let stop := fun (l : List (Option Status)) (d : Cfg) => match firstOf l with | some st => Except.error st | none => .ok d
  if x.1 = 0x0901 then
    stop [exactly 56 p, need (!safeRange p) .range] { c with safeGlobal := safeGlob p, so := safeSo p, si := safeSi p }
  else if x.1 = 0x1004 then
    stop [lenPowerDefine p, need (powRangeOk p) .range, need (problemFits c.thrusters p c.horizon) .structure_] { c with power := p }
  else
    let t := c.thrusters.set (u8 p 0 - 1) p
    stop [lenThrusterDefine p, need (1 ≤ thrFld p 8 8 && thrFld p 8 8 ≤ 3) .badArg, need (thrRangeOk p) .range,
      need (problemFits t c.power c.horizon) .structure_] { c with thrusters := t }

/-- The sub-records checked in order; the first that fails decides (R500). -/
def checkRecords : List (Nat × List Byte) → Cfg → Except Status Cfg
  | [], c => .ok c
  | x :: l, c => match checkRecord x c with | .ok d => checkRecords l d | .error st => .error st

/-- SAFE_IMAGE_LOAD body (R325, R500, Table 9.10). -/
def bodySafeImageLoad (r : Req) (s : State) : Ans :=
  let p := r.payload
  let body := p.drop 16
  let base := match newerBank s.mram with | some x => x.2.body | none => s.cfg
  let start := if s.isManager then { base with thrusters := List.replicate 24 [], power := [] } else base
  if sealed s then no .sealed_ s
  else if s.inRun then no .state s
  else if u32 p 8 ≠ crc32 body then no .badArg s
  else match subRecords (body.length / 4) body with
    | none => no .badArg s
    | some l =>
      if !composed s.isManager l then no .badArg s
      else match checkRecords l start with
        | .error st => no st s
        | .ok c =>
          let s1 := storeCfg (fun _ => c) s
          let image : Option SafeImage := some { thrusters := c.thrusters, power := c.power }
          let mark := fun (m : Mram) => match newerBank m with
            | some (true, _) => { m with bank1 := { m.bank1 with image := image } }
            | some (false, _) => { m with bank0 := { m.bank0 with image := image } }
            | none => m
          give (leBytes 4 (u32 p 0)) { s1 with mram := mark s1.mram }
/-- Length of SAFE_IMAGE_LOAD: its header and the body length it gives (R324, R500). -/
def lenSafeImage (p : List Byte) : Option Status := if p.length ≥ 16 && u32 p 4 = (p.drop 16).length then none else some .badArg
/-- SAFE_IMAGE_LOAD (R325). -/
def execSafeImageLoad (r : Req) (s : State) : Res := mbx 0x0F04 lenSafeImage bodySafeImageLoad r s

/-! ## Self-tests (R330 to R334) -/

/-- The test codes in the order of Table 9.12. -/
def testCodes : List Nat := [1, 2, 3, 0x10, 0x11, 0x12, 0x13]
/-- An intrusive test. -/
def intrusive (code : Nat) : Bool := code ≥ 0x10
/-- A test runs: requested, or in the start-up sequence. -/
def testRuns (s : State) (code : Nat) : Bool := s.tests.running = some code || s.tests.startup.head? = some code
/-- The lockstep injection runs (R332, R333). -/
def injecting (s : State) : Bool := s.rst.life = .selftest && testRuns s 0x11

/-- The last result of a test set: code, result, duration, epoch of the end, detail. -/
def setResult (code res ms detail : Nat) (s : State) : State :=
  updTests (fun t => { t with results := t.results.map fun x =>
    if x.1 = code then (code, res, ms, s.epochHeld, wd detail) else x }) s

/-- A test of an absent unit (R331). -/
def testAbsent (code regions : Nat) (s : State) : Bool :=
  (code = 2 && s.variant = .WK) || (code = 0x10 && (List.range 7).any fun n => regions.testBit n && !regionHere s n)

/-- Where an intrusive test may run (R331). -/
def mayIntrude (s : State) : Bool :=
  s.rst.life = .ready || s.mem.role = .standby ||
    (s.mem.role = .worker && (cmdPaths s).all (fun n => let c := s.loop.ctx.getD n {}; (c.state ≤ 1 : Bool) && !c.armed) &&
      s.dpeOuts.all fun n => !s.safe.outs.getLsbD n)

/-- The refusal of a self-test request (R331). -/
def testRefusal (code regions : Nat) (s : State) : Option Status :=
  firstOf [need (testCodes.contains code) .badArg, need (!testAbsent code regions s) .absent,
    need (!intrusive code || mayIntrude s) .role, need (s.tests.running.isNone && s.tests.waiting.isNone) .busy]

/-- SELFTEST_RUN body (R5, R331, R332, R334): an intrusive test in RUN waits for the leave. -/
def bodySelftestRun (r : Req) (s : State) : Ans :=
  let code := u8 r.payload 0
  let regions := u16 r.payload 2
  match testRefusal code regions s with
  | some .absent => no .absent s
  | some st => no st (event 0x0E12 1 [code, st.code] (if testRuns s code then s else setResult code 4 0 0 s))
  | none =>
    let s1 := updTests (fun t => { t with regions := regions }) s
    if intrusive code && s.inRun then
      okay (updTests (fun t => { t with waiting := some code }) { s1 with mem := { s1.mem with leaveSelf := true } })
    else
      okay (if intrusive code then startTest code s1 else updTests (fun t => { t with running := some code }) s1)
/-- SELFTEST_RUN (R331). -/
def execSelftestRun (r : Req) (s : State) : Res := mbx 0x0E01 (exactly 4) bodySelftestRun r s

/-- SELFTEST_STATUS body (R496, Table 15.17). -/
def bodySelftestStatus (_ : Req) (s : State) : Ans :=
  let entry := fun (x : Nat × Nat × Nat × Word × Word) => leBytes 12 (pack [(8, x.1), (8, if testRuns s x.1 then 1 else x.2.1),
    (16, min x.2.2.1 0xFFFF), (32, x.2.2.2.1.toNat), (32, x.2.2.2.2.toNat)])
  give (((s.tests.results.flatMap entry) ++ List.replicate 96 0).take 96) s
/-- SELFTEST_STATUS (R496). -/
def execSelftestStatus (r : Req) (s : State) : Res := mbx 0x0E02 (exactly 0) bodySelftestStatus r s

/-- A test's end recorded; a failed one latches SELFTEST (R334). -/
def testDone (r : TestResult) (s : State) : State :=
  let s1 := setResult r.code (if r.passed then 2 else 3) r.ms (if r.passed then 0 else r.detail.toNat) s
  let rest := s.safe.testsBad.filter (· ≠ r.code)
  let bad := if r.passed then rest else rest ++ [r.code]
  let s2 := { s1 with safe := { s1.safe with testsBad := bad } }
  if r.passed then event 0x0E10 0 [r.code, r.ms] s2
  else latchCause 13 (event 0x0E11 4 [r.code, r.unit.toNat, r.detail.toNat] s2)

/-- Every port in FAULT: it sends HELLOs only, forwards nothing and trains anew after (R389, R408). -/
def faultPorts (s : State) : State :=
  let one := fun (t : State) (ix : Fin 4) => setPort ix 7 (updPort ix (fun q => { q with hellos := 0 }) (endCopies ix t))
  [0, 1, 2, 3].foldl one s

/-- The injection's end: the SUP test latch is discarded, the ports train again unless a fault of the LNK pair stands (R332, R408). -/
def endInjection (s : State) : State :=
  let s1 := { s with safe := { s.safe with supTestLatch := false, injMask := 0 } }
  if s.safe.mittenOpen.getLsbD 3 then s1
  else (List.range 4).foldl (fun t ix => if (portOf t ix).state = 7 then setPort ix 1 t else t) s1

/-- A mitten pair that the variant has and that runs: the safety controller compares it (Table 2.1, R559). -/
def pairLive (s : State) (n : Nat) : Bool :=
  let here := n = 0 || n = 2 || n = 3 || (s.variant ≠ .WK && (n = 1 || n < 4 + s.variant.solPairs))
  let up := match s.rst.life with
    | .reset => false
    | .loading => n = 0
    | .cloakroom => n = 0 || n = 3
    | _ => true
  here && up

/-- The injection met its reactions (R332): every present pair mismatched and latched MITTEN, the SUP request was raised, DP_ENABLE is de-energised. -/
def injectionMet (s : State) : Bool :=
  (List.range 8).all (fun n => !pairLive s n || s.safe.injMask.getLsbD n) && s.safe.causes.getLsbD 1 && s.safe.supTestLatch &&
    s.dpeOuts.all fun n => !s.safe.outs.getLsbD n

/-- SELFTEST_COMPLETE (R332 to R334): after the last start-up test the device is READY; after an intrusive one it rejoins from READY. -/
def execSelftestComplete (r : TestResult) (s : State) : Res :=
  if !testRuns s r.code then .next s
  else
    let s1 := if r.code = 0x11 then endInjection s else s
    let s2 := testDone { r with passed := r.passed && (r.code ≠ 0x11 || injectionMet s) } s1
    if s.tests.running = some r.code then
      let s3 := updTests (fun t => { t with running := none }) s2
      .next (if intrusive r.code && s3.rst.life = .selftest && s3.tests.startup.isEmpty then setLife .ready s3 else s3)
    else
      let s3 := updTests (fun t => { t with startup := t.startup.drop 1 }) s2
      .next (if s3.tests.startup.isEmpty then archiveMounting (setLife .ready s3) else s3)

/-- PERIODIC_SELFTEST (R330): the tests that run by themselves. -/
def execPeriodicSelftest (r : TestResult) (s : State) : Res :=
  let on := s.rst.life = .selftest || s.rst.life = .ready || s.rst.life = .run
  if !on || !(1 ≤ r.code && r.code ≤ 3) || (r.code = 2 && s.variant = .WK) then .next s else .next (testDone r s)

/-! ## Lockstep (R43, R335, R408) -/

/-- MITTEN latched for a pair, with INJECTED where only the injection has mismatched (R301, R332). -/
def latchMitten (n : Nat) (test : Bool) (s : State) : State :=
  let m := BitVec.ofNat 8 (2 ^ n)
  let go := fun (x : Safe) =>
    let genuine := if test then x.mittenOpen else x.mittenOpen ||| m
    { x with mittenMask := x.mittenMask ||| m, mittenOpen := genuine, counters := x.counters ||| 1
             injMask := if test then x.injMask ||| m else x.injMask
             injected := test && genuine = 0 && (x.injected || !x.causes.getLsbD 1) }
  latchCause 1 { s with safe := go s.safe }

/-- MITTEN_MISMATCH (R43, R335, R408): a SUP mismatch outside an injection resets the device; an LNK mismatch puts every port in FAULT. -/
def execMittenMismatch (pair : Fin 8) (s : State) : Res :=
  let n := pair.val
  let test := injecting s
  if !pairLive s n then .next s
  else
    let s1 := latchMitten n test s
    let s2 := if n = 3 then faultPorts s1 else s1
    if n = 0 then
      if test then .next { s2 with safe := { s2.safe with supTestLatch := true } } else .next (resetDevice 5 s2)
    else .next s2

end Sys2Proof.Machine
end

