-- ==== Sys2Proof/Machine/Dispatch.lean ====
section
/-! DEFINITION. One arm per constructor of Instr: each a call of its meaning. -/

namespace Sys2Proof.Machine

/-- The effect of one command or event on everything but the queue. -/
def exec (i : Instr) (s : State) : Host.Outcome State Fault Refusal :=
  match i with
  | .identify r => Sys2Proof.Machine.execIdentify r s
  | .heartbeat r => Sys2Proof.Machine.execHeartbeat r s
  | .hostConfig r => Sys2Proof.Machine.execHostConfig r s
  | .hostStatus r => Sys2Proof.Machine.execHostStatus r s
  | .boardRead r => Sys2Proof.Machine.execBoardRead r s
  | .boardStreamStart r => Sys2Proof.Machine.execBoardStreamStart r s
  | .boardStreamStop r => Sys2Proof.Machine.execBoardStreamStop r s
  | .boardStatus r => Sys2Proof.Machine.execBoardStatus r s
  | .joinPermit r => Sys2Proof.Machine.execJoinPermit r s
  | .leave r => Sys2Proof.Machine.execLeave r s
  | .memberConfig r => Sys2Proof.Machine.execMemberConfig r s
  | .installTable r => Sys2Proof.Machine.execInstallTable r s
  | .streamDefine r => Sys2Proof.Machine.execStreamDefine r s
  | .streamRead r => Sys2Proof.Machine.execStreamRead r s
  | .transformLoad r => Sys2Proof.Machine.execTransformLoad r s
  | .refPrefer r => Sys2Proof.Machine.execRefPrefer r s
  | .observerConfig r => Sys2Proof.Machine.execObserverConfig r s
  | .streamStatus r => Sys2Proof.Machine.execStreamStatus r s
  | .stallLoadStructure r => Sys2Proof.Machine.execStallLoadStructure r s
  | .stallDelta r => Sys2Proof.Machine.execStallDelta r s
  | .stallConfig r => Sys2Proof.Machine.execStallConfig r s
  | .stallSolve r => Sys2Proof.Machine.execStallSolve r s
  | .stallStatus r => Sys2Proof.Machine.execStallStatus r s
  | .stallRead r => Sys2Proof.Machine.execStallRead r s
  | .loopDefine r => Sys2Proof.Machine.execLoopDefine r s
  | .loopCoefWrite r => Sys2Proof.Machine.execLoopCoefWrite r s
  | .loopControl r => Sys2Proof.Machine.execLoopControl r s
  | .traceArm r => Sys2Proof.Machine.execTraceArm r s
  | .traceRead r => Sys2Proof.Machine.execTraceRead r s
  | .loopStatus r => Sys2Proof.Machine.execLoopStatus r s
  | .filterConfig r => Sys2Proof.Machine.execFilterConfig r s
  | .filterBankLoad r => Sys2Proof.Machine.execFilterBankLoad r s
  | .filterBankSwap r => Sys2Proof.Machine.execFilterBankSwap r s
  | .dcbFreeze r => Sys2Proof.Machine.execDcbFreeze r s
  | .filterStatus r => Sys2Proof.Machine.execFilterStatus r s
  | .aoConfig r => Sys2Proof.Machine.execAoConfig r s
  | .canConfig r => Sys2Proof.Machine.execCanConfig r s
  | .canAutobaud r => Sys2Proof.Machine.execCanAutobaud r s
  | .canTx r => Sys2Proof.Machine.execCanTx r s
  | .canCancel r => Sys2Proof.Machine.execCanCancel r s
  | .canStatus r => Sys2Proof.Machine.execCanStatus r s
  | .canRxRead r => Sys2Proof.Machine.execCanRxRead r s
  | .canRouteDefine r => Sys2Proof.Machine.execCanRouteDefine r s
  | .uartConfig r => Sys2Proof.Machine.execUartConfig r s
  | .uartStatus r => Sys2Proof.Machine.execUartStatus r s
  | .uartRxRead r => Sys2Proof.Machine.execUartRxRead r s
  | .uartTx r => Sys2Proof.Machine.execUartTx r s
  | .lan61162Config r => Sys2Proof.Machine.execLan61162Config r s
  | .timeConfig r => Sys2Proof.Machine.execTimeConfig r s
  | .timeAcceptStep r => Sys2Proof.Machine.execTimeAcceptStep r s
  | .timeStatus r => Sys2Proof.Machine.execTimeStatus r s
  | .safeConfig r => Sys2Proof.Machine.execSafeConfig r s
  | .safeStatus r => Sys2Proof.Machine.execSafeStatus r s
  | .unlock r => Sys2Proof.Machine.execUnlock r s
  | .changelogRead r => Sys2Proof.Machine.execChangelogRead r s
  | .safeRequest r => Sys2Proof.Machine.execSafeRequest r s
  | .recordCursorSet r => Sys2Proof.Machine.execRecordCursorSet r s
  | .recordWindowRead r => Sys2Proof.Machine.execRecordWindowRead r s
  | .histoRead r => Sys2Proof.Machine.execHistoRead r s
  | .quotaSet r => Sys2Proof.Machine.execQuotaSet r s
  | .histoConfig r => Sys2Proof.Machine.execHistoConfig r s
  | .archiveStatus r => Sys2Proof.Machine.execArchiveStatus r s
  | .archiveRead r => Sys2Proof.Machine.execArchiveRead r s
  | .flowDefine r => Sys2Proof.Machine.execFlowDefine r s
  | .linkStatus r => Sys2Proof.Machine.execLinkStatus r s
  | .linkPortControl r => Sys2Proof.Machine.execLinkPortControl r s
  | .roleStatus r => Sys2Proof.Machine.execRoleStatus r s
  | .roleSwap r => Sys2Proof.Machine.execRoleSwap r s
  | .mgrSilence r => Sys2Proof.Machine.execMgrSilence r s
  | .redundancyConfig r => Sys2Proof.Machine.execRedundancyConfig r s
  | .memStatus r => Sys2Proof.Machine.execMemStatus r s
  | .scrubConfig r => Sys2Proof.Machine.execScrubConfig r s
  | .selftestRun r => Sys2Proof.Machine.execSelftestRun r s
  | .selftestStatus r => Sys2Proof.Machine.execSelftestStatus r s
  | .deviceReset r => Sys2Proof.Machine.execDeviceReset r s
  | .fwLoad r => Sys2Proof.Machine.execFwLoad r s
  | .failcountClear r => Sys2Proof.Machine.execFailcountClear r s
  | .safeImageLoad r => Sys2Proof.Machine.execSafeImageLoad r s
  | .dpModeSet r => Sys2Proof.Machine.execDpModeSet r s
  | .setpointSet r => Sys2Proof.Machine.execSetpointSet r s
  | .thrusterDefine r => Sys2Proof.Machine.execThrusterDefine r s
  | .powerDefine r => Sys2Proof.Machine.execPowerDefine r s
  | .conseqConfig r => Sys2Proof.Machine.execConseqConfig r s
  | .dpWeights r => Sys2Proof.Machine.execDpWeights r s
  | .fallbackLoad r => Sys2Proof.Machine.execFallbackLoad r s
  | .dpStatus r => Sys2Proof.Machine.execDpStatus r s
  | .joystickDemand r => Sys2Proof.Machine.execJoystickDemand r s
  | .trackLoad r => Sys2Proof.Machine.execTrackLoad r s
  | .hifDoorbell v => Sys2Proof.Machine.execHifDoorbell v s
  | .hifMbxDone v => Sys2Proof.Machine.execHifMbxDone v s
  | .hifIrqStat v => Sys2Proof.Machine.execHifIrqStat v s
  | .hifIrqEn v => Sys2Proof.Machine.execHifIrqEn v s
  | .hifHeartbeat v => Sys2Proof.Machine.execHifHeartbeat v s
  | .bar0OtherWrite off bytes => Sys2Proof.Machine.execBar0OtherWrite off bytes s
  | .udpMailboxDatagram mac dst src port checksumOk bytes => Sys2Proof.Machine.execUdpMailboxDatagram mac dst src port checksumOk bytes s
  | .udpResponseExpiry src port tag => Sys2Proof.Machine.execUdpResponseExpiry src port tag s
  | .notification => Sys2Proof.Machine.execNotification s
  | .endpointReset kind => Sys2Proof.Machine.execEndpointReset kind s
  | .dmaReadDone ok bytes => Sys2Proof.Machine.execDmaReadDone ok bytes s
  | .dmaReadTimeout => Sys2Proof.Machine.execDmaReadTimeout s
  | .mbxRelayFrame src seq replay bytes => Sys2Proof.Machine.execMbxRelayFrame src seq replay bytes s
  | .relayAnswer src seq bytes => Sys2Proof.Machine.execRelayAnswer src seq bytes s
  | .relayResend seq => Sys2Proof.Machine.execRelayResend seq s
  | .deviceResetDelay => Sys2Proof.Machine.execDeviceResetDelay s
  | .hostLost path => Sys2Proof.Machine.execHostLost path s
  | .copyConfirm mgr status signature => Sys2Proof.Machine.execCopyConfirm mgr status signature s
  | .copyConfirmTimeout => Sys2Proof.Machine.execCopyConfirmTimeout s
  | .sourceDevConfirmTimeout => Sys2Proof.Machine.execSourceDevConfirmTimeout s
  | .powerOnReset => Sys2Proof.Machine.execPowerOnReset s
  | .brownOut => Sys2Proof.Machine.execBrownOut s
  | .sysrstN => Sys2Proof.Machine.execSysrstN s
  | .supWatchdog => Sys2Proof.Machine.execSupWatchdog s
  | .startTimeout => Sys2Proof.Machine.execStartTimeout s
  | .resetRelease straps trimOk => Sys2Proof.Machine.execResetRelease straps trimOk s
  | .releaseGapExpiry => Sys2Proof.Machine.execReleaseGapExpiry s
  | .pllLock => Sys2Proof.Machine.execPllLock s
  | .bootRomDone => Sys2Proof.Machine.execBootRomDone s
  | .pcieBootPoll fetched => Sys2Proof.Machine.execPcieBootPoll fetched s
  | .ddr4TrainingDone => Sys2Proof.Machine.execDdr4TrainingDone s
  | .failedStartClearTimer => Sys2Proof.Machine.execFailedStartClearTimer s
  | .selftestComplete r => Sys2Proof.Machine.execSelftestComplete r s
  | .periodicSelftest r => Sys2Proof.Machine.execPeriodicSelftest r s
  | .mittenMismatch pair => Sys2Proof.Machine.execMittenMismatch pair s
  | .clockFault domain inRange => Sys2Proof.Machine.execClockFault domain inRange s
  | .refCrystalFault => Sys2Proof.Machine.execRefCrystalFault s
  | .supplyFault rail level => Sys2Proof.Machine.execSupplyFault rail level s
  | .overtemp celsius => Sys2Proof.Machine.execOvertemp celsius s
  | .scDisagree agree => Sys2Proof.Machine.execScDisagree agree s
  | .faultReactionCounter path => Sys2Proof.Machine.execFaultReactionCounter path s
  | .glovePulseStart out => Sys2Proof.Machine.execGlovePulseStart out s
  | .gloveOffWindowEnd out seen => Sys2Proof.Machine.execGloveOffWindowEnd out seen s
  | .glovePulseEnd out => Sys2Proof.Machine.execGlovePulseEnd out s
  | .gloveReturnWindowEnd out high => Sys2Proof.Machine.execGloveReturnWindowEnd out high s
  | .staticReadbackMismatch out high => Sys2Proof.Machine.execStaticReadbackMismatch out high s
  | .siChannelChange ch high => Sys2Proof.Machine.execSiChannelChange ch high s
  | .siDiscrepancy pair => Sys2Proof.Machine.execSiDiscrepancy pair s
  | .safeResetNFall => Sys2Proof.Machine.execSafeResetNFall s
  | .safeResetNRise lowMs => Sys2Proof.Machine.execSafeResetNRise lowMs s
  | .resetStuck => Sys2Proof.Machine.execResetStuck s
  | .strapSample pins => Sys2Proof.Machine.execStrapSample pins s
  | .unlockExpiry => Sys2Proof.Machine.execUnlockExpiry s
  | .lockoutEnd => Sys2Proof.Machine.execLockoutEnd s
  | .tick => Sys2Proof.Machine.execTick s
  | .epochInstant => Sys2Proof.Machine.execEpochInstant s
  | .epochClose => Sys2Proof.Machine.execEpochClose s
  | .fusionResultReady => Sys2Proof.Machine.execFusionResultReady s
  | .publicationDeadline => Sys2Proof.Machine.execPublicationDeadline s
  | .posLost heading => Sys2Proof.Machine.execPosLost heading s
  | .preferenceRelease => Sys2Proof.Machine.execPreferenceRelease s
  | .boardContribFrame src seq recs => Sys2Proof.Machine.execBoardContribFrame src seq recs s
  | .boardImageInstall img => Sys2Proof.Machine.execBoardImageInstall img s
  | .pubIncomplete epoch missing => Sys2Proof.Machine.execPubIncomplete epoch missing s
  | .boardStreamSlot consumed => Sys2Proof.Machine.execBoardStreamSlot consumed s
  | .missedEpochs dev => Sys2Proof.Machine.execMissedEpochs dev s
  | .feedbackLost thr => Sys2Proof.Machine.execFeedbackLost thr s
  | .quorumLost => Sys2Proof.Machine.execQuorumLost s
  | .powerReserve group => Sys2Proof.Machine.execPowerReserve group s
  | .minorityLimit mgr => Sys2Proof.Machine.execMinorityLimit mgr s
  | .splitClear => Sys2Proof.Machine.execSplitClear s
  | .alarmEntryClear code subject => Sys2Proof.Machine.execAlarmEntryClear code subject s
  | .conseqFail scen => Sys2Proof.Machine.execConseqFail scen s
  | .conseqStale scen => Sys2Proof.Machine.execConseqStale scen s
  | .degradedPlan => Sys2Proof.Machine.execDegradedPlan s
  | .solverStale => Sys2Proof.Machine.execSolverStale s
  | .formationWindowEnd => Sys2Proof.Machine.execFormationWindowEnd s
  | .joinRequestTimer => Sys2Proof.Machine.execJoinRequestTimer s
  | .takeoverDecision => Sys2Proof.Machine.execTakeoverDecision s
  | .outcomeInstant => Sys2Proof.Machine.execOutcomeInstant s
  | .solveDone stall => Sys2Proof.Machine.execSolveDone stall s
  | .derivedBuildComplete => Sys2Proof.Machine.execDerivedBuildComplete s
  | .scenarioBuildComplete scen => Sys2Proof.Machine.execScenarioBuildComplete scen s
  | .throttleSample celsius => Sys2Proof.Machine.execThrottleSample celsius s
  | .joyTimeout => Sys2Proof.Machine.execJoyTimeout s
  | .cmdFrame mgr epoch16 recs => Sys2Proof.Machine.execCmdFrame mgr epoch16 recs s
  | .cmdWaitExpiry => Sys2Proof.Machine.execCmdWaitExpiry s
  | .memberPresent net port m => Sys2Proof.Machine.execMemberPresent net port m s
  | .joinFrame net port m => Sys2Proof.Machine.execJoinFrame net port m s
  | .joinAnswerFrame m hs => Sys2Proof.Machine.execJoinAnswerFrame m hs s
  | .leaveFrame m => Sys2Proof.Machine.execLeaveFrame m s
  | .silentFrame m => Sys2Proof.Machine.execSilentFrame m s
  | .recoveryFrame m => Sys2Proof.Machine.execRecoveryFrame m s
  | .mapExpiry dev => Sys2Proof.Machine.execMapExpiry dev s
  | .syncSend => Sys2Proof.Machine.execSyncSend s
  | .syncFrame net port h rest corr offset => Sys2Proof.Machine.execSyncFrame net port h rest corr offset s
  | .linkDelayExchange port ns => Sys2Proof.Machine.execLinkDelayExchange port ns s
  | .syncLoss => Sys2Proof.Machine.execSyncLoss s
  | .ptpMessage mac m => Sys2Proof.Machine.execPtpMessage mac m s
  | .macTxDone mac fast event oneStep status raw => Sys2Proof.Machine.execMacTxDone mac fast event oneStep status raw s
  | .ppsInEdge stamp => Sys2Proof.Machine.execPpsInEdge stamp s
  | .ppsInMissing => Sys2Proof.Machine.execPpsInMissing s
  | .ppsOutRise => Sys2Proof.Machine.execPpsOutRise s
  | .ppsOutFall => Sys2Proof.Machine.execPpsOutFall s
  | .ref10Lost hz => Sys2Proof.Machine.execRef10Lost hz s
  | .helloSend => Sys2Proof.Machine.execHelloSend s
  | .helloReceive port dev net pnum nbState errorFree => Sys2Proof.Machine.execHelloReceive port dev net pnum nbState errorFree s
  | .portDown port => Sys2Proof.Machine.execPortDown port s
  | .linkFrameHeader port h => Sys2Proof.Machine.execLinkFrameHeader port h s
  | .linkFrameEnd port hseq f outcome => Sys2Proof.Machine.execLinkFrameEnd port hseq f outcome s
  | .ackReceive port hseq => Sys2Proof.Machine.execAckReceive port hseq s
  | .ackTimer port => Sys2Proof.Machine.execAckTimer port s
  | .resendReceive port hseq => Sys2Proof.Machine.execResendReceive port hseq s
  | .resendTimeout port hseq => Sys2Proof.Machine.execResendTimeout port hseq s
  | .quarantineEnd port => Sys2Proof.Machine.execQuarantineEnd port s
  | .degradedRestore port => Sys2Proof.Machine.execDegradedRestore port s
  | .nakFrame port src n => Sys2Proof.Machine.execNakFrame port src n s
  | .dataFrame src flow seq bytes => Sys2Proof.Machine.execDataFrame src flow seq bytes s
  | .recordFrame src recs => Sys2Proof.Machine.execRecordFrame src recs s
  | .traceFrame src words => Sys2Proof.Machine.execTraceFrame src words s
  | .tokenRefill code => Sys2Proof.Machine.execTokenRefill code s
  | .canFrameRx ch f rx => Sys2Proof.Machine.execCanFrameRx ch f rx s
  | .canAttemptStart ch stamp => Sys2Proof.Machine.execCanAttemptStart ch stamp s
  | .canAttemptEnd ch e => Sys2Proof.Machine.execCanAttemptEnd ch e s
  | .busOffRecovery ch => Sys2Proof.Machine.execBusOffRecovery ch s
  | .canRxOverrun ch lost => Sys2Proof.Machine.execCanRxOverrun ch lost s
  | .autobaudDwellEnd ch onError => Sys2Proof.Machine.execAutobaudDwellEnd ch onError s
  | .uartSentence u noise restarts chars framing stamp => Sys2Proof.Machine.execUartSentence u noise restarts chars framing stamp s
  | .uartTxSentenceDone u => Sys2Proof.Machine.execUartTxSentenceDone u s
  | .lan61162Datagram mac fast group port headerOk sentences raw => Sys2Proof.Machine.execLan61162Datagram mac fast group port headerOk sentences raw s
  | .sensorDatagram mac fast src port bytes raw => Sys2Proof.Machine.execSensorDatagram mac fast src port bytes raw s
  | .filterOutputSample ch cic done spacing => Sys2Proof.Machine.execFilterOutputSample ch cic done spacing s
  | .modulatorReset ch => Sys2Proof.Machine.execModulatorReset ch s
  | .afeFifoOverrun ch lost => Sys2Proof.Machine.execAfeFifoOverrun ch lost s
  | .loopRangePersist ch => Sys2Proof.Machine.execLoopRangePersist ch s
  | .aoReadbackSample out mv => Sys2Proof.Machine.execAoReadbackSample out mv s
  | .aoMismatch out => Sys2Proof.Machine.execAoMismatch out s
  | .loopGridInstant => Sys2Proof.Machine.execLoopGridInstant s
  | .inputCeased ctx => Sys2Proof.Machine.execInputCeased ctx s
  | .holdExpiry ctx => Sys2Proof.Machine.execHoldExpiry ctx s
  | .scrubRead region addr word use => Sys2Proof.Machine.execScrubRead region addr word use s
  | .writeBack region addr overtaken => Sys2Proof.Machine.execWriteBack region addr overtaken s
  | .mergeBufferEvict region addr writes parityOk use => Sys2Proof.Machine.execMergeBufferEvict region addr writes parityOk use s
  | .nandProgramDone ok => Sys2Proof.Machine.execNandProgramDone ok s
  | .archiveMountDone m => Sys2Proof.Machine.execArchiveMountDone m s
  | .archivePatrol block bits retries ageDays => Sys2Proof.Machine.execArchivePatrol block bits retries ageDays s
  | .histoHourlySnapshot => Sys2Proof.Machine.execHistoHourlySnapshot s
  | .incidentCaptureClose => Sys2Proof.Machine.execIncidentCaptureClose s
  | .powerFailNFall => Sys2Proof.Machine.execPowerFailNFall s
  | .powerFailNRise => Sys2Proof.Machine.execPowerFailNRise s
  | .archiveResume => Sys2Proof.Machine.execArchiveResume s
  | .timeSourceLost => Sys2Proof.Machine.execTimeSourceLost s
  | .sourceDevConfirm dev status rejected => Sys2Proof.Machine.execSourceDevConfirm dev status rejected s
  | .nandEraseDone block ok => Sys2Proof.Machine.execNandEraseDone block ok s

end Sys2Proof.Machine
end

