-- ==== Sys2Proof/Machine/Server.lean ====
section
/-! DEFINITION. The command that a mailbox code names (Tables 15.2 to 15.19). -/

namespace Sys2Proof.Machine

/-- The command of a mailbox code with a request; none for an undefined code. -/
def instrOf (code : Nat) (r : Req) : Option Instr :=
  match code with
  | 0x0101 => some (.identify r)
  | 0x0102 => some (.heartbeat r)
  | 0x0103 => some (.hostConfig r)
  | 0x0104 => some (.hostStatus r)
  | 0x0201 => some (.boardRead r)
  | 0x0202 => some (.boardStreamStart r)
  | 0x0203 => some (.boardStreamStop r)
  | 0x0204 => some (.boardStatus r)
  | 0x0205 => some (.joinPermit r)
  | 0x0206 => some (.leave r)
  | 0x0207 => some (.memberConfig r)
  | 0x0208 => some (.installTable r)
  | 0x0301 => some (.streamDefine r)
  | 0x0302 => some (.streamRead r)
  | 0x0303 => some (.transformLoad r)
  | 0x0304 => some (.refPrefer r)
  | 0x0305 => some (.observerConfig r)
  | 0x0306 => some (.streamStatus r)
  | 0x0401 => some (.stallLoadStructure r)
  | 0x0402 => some (.stallDelta r)
  | 0x0403 => some (.stallConfig r)
  | 0x0404 => some (.stallSolve r)
  | 0x0405 => some (.stallStatus r)
  | 0x0406 => some (.stallRead r)
  | 0x0501 => some (.loopDefine r)
  | 0x0502 => some (.loopCoefWrite r)
  | 0x0503 => some (.loopControl r)
  | 0x0504 => some (.traceArm r)
  | 0x0505 => some (.traceRead r)
  | 0x0506 => some (.loopStatus r)
  | 0x0601 => some (.filterConfig r)
  | 0x0602 => some (.filterBankLoad r)
  | 0x0603 => some (.filterBankSwap r)
  | 0x0604 => some (.dcbFreeze r)
  | 0x0605 => some (.filterStatus r)
  | 0x0606 => some (.aoConfig r)
  | 0x0701 => some (.canConfig r)
  | 0x0702 => some (.canAutobaud r)
  | 0x0703 => some (.canTx r)
  | 0x0704 => some (.canCancel r)
  | 0x0705 => some (.canStatus r)
  | 0x0706 => some (.canRxRead r)
  | 0x0707 => some (.canRouteDefine r)
  | 0x0708 => some (.uartConfig r)
  | 0x0709 => some (.uartStatus r)
  | 0x070A => some (.uartRxRead r)
  | 0x070B => some (.uartTx r)
  | 0x070C => some (.lan61162Config r)
  | 0x0801 => some (.timeConfig r)
  | 0x0802 => some (.timeAcceptStep r)
  | 0x0803 => some (.timeStatus r)
  | 0x0901 => some (.safeConfig r)
  | 0x0902 => some (.safeStatus r)
  | 0x0903 => some (.unlock r)
  | 0x0904 => some (.changelogRead r)
  | 0x0905 => some (.safeRequest r)
  | 0x0A01 => some (.recordCursorSet r)
  | 0x0A02 => some (.recordWindowRead r)
  | 0x0A03 => some (.histoRead r)
  | 0x0A04 => some (.quotaSet r)
  | 0x0A05 => some (.histoConfig r)
  | 0x0A06 => some (.archiveStatus r)
  | 0x0A07 => some (.archiveRead r)
  | 0x0B01 => some (.flowDefine r)
  | 0x0B02 => some (.linkStatus r)
  | 0x0B03 => some (.linkPortControl r)
  | 0x0C01 => some (.roleStatus r)
  | 0x0C02 => some (.roleSwap r)
  | 0x0C03 => some (.mgrSilence r)
  | 0x0C04 => some (.redundancyConfig r)
  | 0x0D01 => some (.memStatus r)
  | 0x0D02 => some (.scrubConfig r)
  | 0x0E01 => some (.selftestRun r)
  | 0x0E02 => some (.selftestStatus r)
  | 0x0F01 => some (.deviceReset r)
  | 0x0F02 => some (.fwLoad r)
  | 0x0F03 => some (.failcountClear r)
  | 0x0F04 => some (.safeImageLoad r)
  | 0x1001 => some (.dpModeSet r)
  | 0x1002 => some (.setpointSet r)
  | 0x1003 => some (.thrusterDefine r)
  | 0x1004 => some (.powerDefine r)
  | 0x1005 => some (.conseqConfig r)
  | 0x1006 => some (.dpWeights r)
  | 0x1007 => some (.fallbackLoad r)
  | 0x1008 => some (.dpStatus r)
  | 0x1009 => some (.joystickDemand r)
  | 0x100A => some (.trackLoad r)
  | _ => none

end Sys2Proof.Machine
end

