-- ==== Sys2Proof/Machine/Step.lean ====
section
/-! DEFINITION. One step: the command at the front of the queue; on an empty queue, the mailbox server's command. -/

namespace Sys2Proof.Machine

/-- On an empty queue the device executes the command that its mailbox server has taken, and else idles (row 11). -/
def idle (s : State) : Host.Outcome State Fault Refusal :=
  match s.hif.execNow with
  | none => .next s
  | some (code, r) =>
    match instrOf code r with
    | some i => exec i s
    | none => .next s

/-- One step: exec of the front of the queue on the state with the queue's rest. -/
def step (s : State) : Host.Outcome State Fault Refusal :=
  match s.pending with
  | [] => idle s
  | i :: rest => exec i { s with pending := rest }

/-- `s` with the command that a table word spells at the front of its queue; unchanged where it spells none. -/
def State.withFetchWord (s : State) (nbits w : Nat) : State :=
  match decodeTableWord nbits w with
  | some i => { s with pending := i :: s.pending }
  | none => s

end Sys2Proof.Machine
end

