-- ==== Sys2Proof/Safety.lean ====
section
/-! DEFINITION. What counts as a sound state, and the words that claims are stated in: when the mailbox takes a command, what
its answer is, and which fields an answer or an event leaves alone. -/

namespace Sys2Proof
open Sys2Proof.Machine

/-- The slot and MSI-X memory is in its canonical form. -/
def MemOk (s : State) : Prop := Memory.wf s.hif.ram = true

/-- With any cause latched no safety output is energised (R300, R301). -/
def SafeOk (s : State) : Prop := s.safe.causes ≠ 0 → s.safe.outs = 0

/-- A sound state: what every step keeps. -/
def Sound (s : State) : Prop := MemOk s ∧ SafeOk s

/-- The device takes the request of command `code` and an answer of these bytes: the mailbox is served (Table 14.13), the device
serves the command (R479) or the request is the ACTIVE manager's copy, and the answer is not longer than RSP_MAX (R452). -/
structure Takes (code : Nat) (r : Req) (pay : List Byte) (s : State) : Prop where
  up : mailboxDown s = false
  cloak : s.rst.life = .cloakroom → cloakServed code = true
  served : isCopy code r s = true ∨ roleRefusal code s = none
  fits : ∀ d, r.dma = some d → pay.length ≤ d.rspMax

/-- The command completes with STATUS OK and these bytes, and its effect is the state `u`. -/
def Answers (i : Instr) (code : Nat) (r : Req) (pay : List Byte) (s u : State) : Prop :=
  exec i s = .next (finish code r .ok pay u)

/-- The command is refused with a status, with no effect (R471). -/
def Refuses (i : Instr) (code : Nat) (r : Req) (st : Status) (s : State) : Prop :=
  exec i s = .next (finish code r st [] s)

/-- `t` differs from `s` at most in what recording and answering write: the outputs' log, the host link, Station Link queues,
the recorder, the record ring, the trace units and the held events. -/
structure Quiet (s t : State) : Prop where
  pending : t.pending = s.pending
  free : t.free = s.free
  variant : t.variant = s.variant
  cfg : t.cfg = s.cfg
  cfgNext : t.cfgNext = s.cfgNext
  mram : { t.mram with ring := s.mram.ring, head := s.mram.head, ringBad := s.mram.ringBad } = s.mram
  fw : t.fw = s.fw
  rst : { t.rst with held := s.rst.held } = s.rst
  safe : t.safe = s.safe
  time : t.time = s.time
  cyc : t.cyc = s.cyc
  brd : t.brd = s.brd
  mem : t.mem = s.mem
  dp : t.dp = s.dp
  sol : t.sol = s.sol
  fus : t.fus = s.fus
  loop : { t.loop with trace := s.loop.trace } = s.loop
  filt : t.filt = s.filt
  ao : t.ao = s.ao
  bus : t.bus = s.bus
  arch : t.arch = s.arch
  memp : t.memp = s.memp
  tests : t.tests = s.tests

end Sys2Proof
end

