-- ==== Sys2Proof/Certificates/Slice0/Obligations.lean ====
section
/-! DEFINITION. The statements for the provers, one per obligation. -/

open Sys2Proof Sys2Proof.Machine

/-- The command at the front of the queue is the one that a step executes, with the queue's rest. On an empty queue the command
that the mailbox server has taken executes (R455); with none taken the block idles (log 11). -/
def Obligations.StepRunsFront : Prop :=
  (∀ (c : Instr) (s : State), step { s with pending := c :: s.pending } = exec c s) ∧
  (∀ s : State, s.pending = [] → s.hif.execNow = none → step s = .next s) ∧
  (∀ (s : State) (code : Nat) (r : Req) (i : Instr), s.pending = [] → s.hif.execNow = some (code, r) →
    instrOf code r = some i → step s = exec i s)

/-- The state right after the assertion of power-on reset (R301, R544, R556, Tables 9.5, 14.3): life state RESET, RESTART latched
as first cause, no output energised, direct registers 0, no role, nothing in the slots. Readings of the model's own: log 7, 8, 9,
10, 18. -/
def Obligations.ResetState : Prop :=
  let s := State.reset
  s.hifState = 0 ∧ s.hifStateWord = 0 ∧ s.safe.causes = 1 ∧ s.safe.firstCause = 1 ∧ s.isSafe = true ∧ s.safe.outs = 0 ∧
  s.hif.busy = 0 ∧ s.hif.done = 0 ∧ s.hif.irqStat = 0 ∧ s.hif.irqEn = 0 ∧ s.hif.heartbeat = 0 ∧ s.hif.ram = [] ∧
  s.mem.role = .none ∧ s.cfg.so = [0x41, 0x42] ++ List.replicate 14 0x40 ∧
  s.cyc.e = 20 ∧ s.cyc.k = 5 ∧ s.cyc.c = 60 ∧ s.epochHeld = 0 ∧ s.dp.mode = 0 ∧ s.time.state = 0 ∧ s.pending = []

/-- The reset state is sound. Readings of the model's own: log 9, 10. -/
def Obligations.ResetSound : Prop :=
Sound State.reset

/-- Every step keeps the memory of slots and MSI-X table canonical, and no output energised while a cause is latched (R300, R301).
-/
def Obligations.StepKeepsSound : Prop :=
  ∀ s t : State, Sound s → step s = .next t → Sound t

/-- No command or event touches the queue of waiting commands. -/
def Obligations.ExecLeavesQueue : Prop :=
  ∀ (i : Instr) (s t : State), exec i s = .next t → t.pending = s.pending

/-- R3: the unit-presence word of each variant, and that nothing the device does changes it. -/
def Obligations.UnitPresence : Prop :=
  Variant.units .MA = 0x0001FFFF ∧ Variant.units .MB = 0x0001F7F3 ∧ Variant.units .WK = 0x0000F500 ∧
  ∀ (i : Instr) (s t : State), exec i s = .next t → t.variant.units = s.variant.units

/-- A latched cause stays latched under every command and event but the release sequence on SAFE_RESET_N and the resets of scope
FULL, power-on reset and brown-out (R301). -/
def Obligations.CausesStayLatched : Prop :=
  ∀ (i : Instr) (s t : State), (∀ ms, i ≠ .safeResetNRise ms) → i ≠ .powerOnReset → i ≠ .brownOut → exec i s = .next t →
    ∀ n, s.safe.causes.getLsbD n = true → t.safe.causes.getLsbD n = true

/-- The strap latch changes only at a reset release, BOOT too (R322, R544, R545). -/
def Obligations.StrapsAndBootChangeAtRelease : Prop :=
  ∀ (i : Instr) (s t : State), (∀ p o, i ≠ .resetRelease p o) → exec i s = .next t →
    t.rst.straps = s.rst.straps ∧ t.mram.boot = s.mram.boot

/-- Reading memory after a write: the written byte at its address, every other byte as before; and a write keeps the canonical
form, in which equal contents are equal lists. Readings of the model's own: log 8. -/
def Obligations.SlotMemory : Prop :=
  (∀ (m : List Host.Cell) (a b : Nat) (v : Byte), Memory.wf m = true →
    Memory.read (Memory.write m a v) b = if b = a then v else Memory.read m b) ∧
  (∀ (m : List Host.Cell) (a b : Nat) (vs : List Byte), Memory.wf m = true →
    Memory.read (Memory.writeAll m a vs) b = if a ≤ b ∧ b < a + vs.length then vs.getD (b - a) 0 else Memory.read m b) ∧
  (∀ (m : List Host.Cell) (a : Nat) (vs : List Byte), Memory.wf m = true → Memory.wf (Memory.writeAll m a vs) = true) ∧
  (∀ m n : List Host.Cell, Memory.wf m = true → Memory.wf n = true → (∀ a, Memory.read m a = Memory.read n a) → m = n)

/-- Recording an event changes only what recording writes: the recorder, the ring, notifications, trace units, RECORD frames, and
before SUP runs the held events. An event of a device whose SUP runs, with a token in its code's bucket, none suppressed, and no
armed trace unit on a code, is stored at the head of the ring under the head's number, and the head goes on (R522, R524, R526).
Readings of the model's own: log 70, 77. -/
def Obligations.EventRecorded : Prop :=
  (∀ (code sev : Nat) (ps : List Nat) (s : State), Quiet s (event code sev ps s) ∧ (event code sev ps s).hif.ram = s.hif.ram) ∧
  (∀ (code sev : Nat) (ps : List Nat) (s : State), s.supRuns = true → (bucketOf s (BitVec.ofNat 16 code)).tokens > 0 →
    (bucketOf s (BitVec.ofNat 16 code)).pending = 0 → codeUnits (BitVec.ofNat 16 code) s = [] →
    (event code sev ps s).mram.head = s.mram.head + 1 ∧
    (event code sev ps s).mram.ring = ((s.mram.head, mkEvent code sev ps s) :: s.mram.ring).take 262144)

/-- Answering leaves every field alone but what answering, recording and the taking of the next request write. -/
def Obligations.FinishFrame : Prop :=
  ∀ (code : Nat) (r : Req) (st : Status) (pay : List Byte) (s : State), Quiet s (finish code r st pay s)

/-- The answer to a slot's command (R449, R452, R453, Table 14.9): its 16-byte header with HCRC and its payload stand in the slot,
DONE is set, BUSY cleared, the execution count one higher, and every byte outside them is unchanged. Readings of the model's own:
log 8. -/
def Obligations.SlotAnswer : Prop :=
  ∀ (n : Fin 31) (code st : Nat) (r : Req) (pay : List Byte) (s : State), r.path = .slot n → r.dma = none → pay.length ≤ 240 →
    Memory.wf s.hif.ram = true →
    let h := header code r.tag.toNat r.target.toNat (reqFlags r) pay.length st (s.hif.seq + 1).toNat
    let t := respond code r st pay s
    t.hif.seq = s.hif.seq + 1 ∧ t.hif.done.getLsbD n = true ∧ t.hif.busy.getLsbD n = false ∧
    (∀ k, k < 16 → Memory.read t.hif.ram (slotAddr n + k) = h.getD k 0) ∧
    (∀ k, k < pay.length → Memory.read t.hif.ram (slotAddr n + 16 + k) = pay.getD k 0) ∧
    (∀ a, (a < slotAddr n ∨ slotAddr n + 16 + pay.length ≤ a) → Memory.read t.hif.ram a = Memory.read s.hif.ram a) ∧
    (∀ m : Fin 31, m ≠ n → t.hif.done.getLsbD m = s.hif.done.getLsbD m ∧ t.hif.busy.getLsbD m = s.hif.busy.getLsbD m)

/-- The refusals that come before every command's own (R39, R450, R471, R479): in RESET and LOADING nothing is answered; in
Cloakroom mode a command not served there returns STATE; of DP_MODE_SET, which the ACTIVE manager alone serves, a STANDBY manager
returns ROLE and a worker ABSENT; a payload of the wrong length is BAD_ARG. Readings of the model's own: log 31. -/
def Obligations.MailboxRefusals : Prop :=
  (∀ (r : Req) (s : State), s.rst.life = .reset ∨ s.rst.life = .loading →
    exec (.identify r) s = .next { s with hif := { s.hif with execNow := none } }) ∧
  (∀ (r : Req) (s : State), s.rst.life = .cloakroom → Refuses (.hostStatus r) 0x0104 r .state s) ∧
  (∀ (r : Req) (s : State), s.rst.life = .run → s.isManager = true → s.mem.role = .standby → isCopy 0x1001 r s = false →
    Refuses (.dpModeSet r) 0x1001 r .role s) ∧
  (∀ (r : Req) (s : State), s.rst.life = .run → s.isManager = false → Refuses (.dpModeSet r) 0x1001 r .absent s) ∧
  (∀ (r : Req) (s : State), s.rst.life = .run → r.payload.length ≠ 4 → Refuses (.heartbeat r) 0x0102 r .badArg s)

/-- The direct registers of BAR0 and its memory (R447, R448, R457, Table 14.4): writing 1 clears bits of HIF_MBX_DONE and
HIF_IRQ_STAT; HIF_IRQ_EN takes its 8 bits and sends a message for each enable that rises over a set bit; HIF_HEARTBEAT is kept and
sets COUNT and TIMEOUT of the PCIe path; an aligned write into the slots or the MSI-X table is stored, and nothing else changes;
such a write, and HIF_HEARTBEAT, are read back. -/
def Obligations.DirectRegisters : Prop :=
  (∀ (v : Word) (s : State), s.variant ≠ .WK →
    exec (.hifMbxDone v) s = .next { s with hif := { s.hif with done := s.hif.done &&& ~~~v } }) ∧
  (∀ (v : Word) (s : State), s.variant ≠ .WK →
    exec (.hifIrqStat v) s = .next { s with hif := { s.hif with irqStat := s.hif.irqStat &&& ~~~v } }) ∧
  (∀ (v : Word) (s : State), s.variant ≠ .WK →
    let rising := (List.range 8).filter fun b => v.getLsbD b && !s.hif.irqEn.getLsbD b && s.hif.irqStat.getLsbD b
    exec (.hifIrqEn v) s = .next { s with hif := { s.hif with irqEn := v &&& 0xFF }
                                          outs := s.outs ++ rising.map fun b => Out.msix (irqVector b) }) ∧
  (∀ (v : Word) (s : State), s.variant ≠ .WK →
    ∃ t, exec (.hifHeartbeat v) s = .next t ∧ t.hif.heartbeat = v ∧ t.hif.ram = s.hif.ram ∧ t.dp = s.dp ∧ t.cfg = s.cfg ∧
      t.safe = s.safe ∧ ∃ w ∈ t.hif.watches, w.path = .pcie ∧ w.count = v.setWidth 16 ∧
        w.timeout = if fld v 16 16 = 0 then 0 else max 10 (min (fld v 16 16) 1000)) ∧
  (∀ (off : Nat) (bytes : List Byte) (s : State), s.variant ≠ .WK → bytes.length ∈ [1, 2, 4, 8] → off % bytes.length = 0 →
    (0x2000 ≤ off ∧ off + bytes.length ≤ 0x4000 ∨ 0x1000 ≤ off ∧ off + bytes.length ≤ 0x1080) →
    exec (.bar0OtherWrite off bytes) s = .next { s with hif := { s.hif with ram := Memory.writeAll s.hif.ram off bytes } }) ∧
  (∀ (off : Nat) (bytes : List Byte) (s : State), s.variant ≠ .WK → bytes.length ∈ [1, 2, 4, 8] → off % bytes.length = 0 →
    (0x2000 ≤ off ∧ off + bytes.length ≤ 0x4000 ∨ 0x1000 ≤ off ∧ off + bytes.length ≤ 0x1080) → Memory.wf s.hif.ram = true →
    ∃ t, exec (.bar0OtherWrite off bytes) s = .next t ∧ bar0Read t off bytes.length = bytes) ∧
  (∀ (v : Word) (s : State), s.variant ≠ .WK → ∃ t, exec (.hifHeartbeat v) s = .next t ∧ bar0Read t 0x060 4 = leBytes 4 v.toNat)

/-- R454: a ring of a slot whose earlier ring is pending with BUSY 0 is merged with it, and no DOORBELL_ERR is raised; a ring of a
slot whose BUSY or DONE bit is 1 is ignored, sets DOORBELL_ERR, is counted in DOORBELL_ERR_COUNT and recorded as 0x0113. -/
def Obligations.RingOfOccupiedSlot : Prop :=
  (∀ (n : Fin 31) (s : State), s.variant ≠ .WK → mailboxDown s = false → (.slot n, []) ∈ s.hif.waiting →
    exec (.hifDoorbell (wd (2 ^ n.val))) s =
      .next (serve { s with hif := { s.hif with counts := addAt s.hif.counts 0 1 } })) ∧
  (∀ (n : Fin 31) (s : State), s.variant ≠ .WK → mailboxDown s = false → (∀ w ∈ s.hif.waiting, w.1 ≠ .slot n) →
    s.hif.busy.getLsbD n = true ∨ s.hif.done.getLsbD n = true →
    exec (.hifDoorbell (wd (2 ^ n.val))) s =
      .next (serve (event 0x0113 2 [n, (s.hif.busy.getLsbD n).toNat, (s.hif.done.getLsbD n).toNat]
        (raiseIrq 7 { s with hif := { s.hif with counts := addAt (addAt s.hif.counts 0 1) 2 1 } }))))

/-- A ring of a free slot while the server is free (R450, R453, Table 14.9): the device reads the slot's 256 bytes, sets BUSY, and
takes a request that passes the checks as the command it executes; nothing else of the host link changes. Readings of the model's
own: log 11. -/
def Obligations.RequestTaken : Prop :=
  ∀ (n : Fin 31) (s : State), s.variant ≠ .WK → mailboxDown s = false → s.rst.life ≠ .cloakroom → s.hif.waiting = [] →
    s.hif.execNow = none → s.hif.dmaWait = none → s.hif.busy.getLsbD n = false → s.hif.done.getLsbD n = false →
    let b := Memory.readAll s.hif.ram (slotAddr n) 256
    crc16 (b.take 14) = u16 b 14 → u16 b 6 ≤ 240 → bit (u8 b 5) 1 = false → (served (u16 b 0)).isSome = true → u8 b 4 = 0xFF →
    exec (.hifDoorbell (wd (2 ^ n.val))) s = .next { s with hif := { s.hif with
      counts := addAt s.hif.counts 0 1
      busy := s.hif.busy ||| wd (2 ^ n.val)
      execNow := some (u16 b 0, { path := .slot n, tag := BitVec.ofNat 16 (u16 b 2), target := 0xFF, notify := bit (u8 b 5) 0
                                  payload := (b.drop 16).take (u16 b 6) }) } }

/-- The UDP path, the relays and DMA reads (R452, R463, R464, R466, R467, R469): an accepted datagram waits in order of arrival
and is counted; a kept response expires; a fetched DMA request executes next, a failed or timed-out one ends BAD_ARG or TIMEOUT; a
relayed request waits in order; its answer goes to the host; an unanswered one is sent again twice and then ends TIMEOUT with
0x0116. Readings of the model's own: log 13, 33, 34, 35. -/
def Obligations.OtherMailboxPaths : Prop :=
  (∀ (mac : Fin 2) (dst src : Word) (port : BitVec 16) (b : List Byte) (s : State), mailboxDown s = false →
    udpRejected s mac dst src true b = false → udpBusy s < 16 →
    (∀ h ∈ s.hif.udp, ¬ (h.src = src ∧ h.port = port ∧ h.tag = BitVec.ofNat 16 (u16 b 2))) →
    exec (.udpMailboxDatagram mac dst src port true b) s = .next (serve { s with hif := { s.hif with
      counts := addAt s.hif.counts 3 1
      udp := s.hif.udp ++ [{ src := src, port := port, tag := BitVec.ofNat 16 (u16 b 2), head := b.take 8, resp := none }]
      waiting := s.hif.waiting ++ [(.udp mac src port, b)] } })) ∧
  (∀ (src : Word) (port tag : BitVec 16) (s : State),
    ∃ t, exec (.udpResponseExpiry src port tag) s = .next t ∧
      (∀ h ∈ t.hif.udp, h.src = src → h.port = port → h.tag = tag → h.resp = none) ∧
      t = { s with hif := { s.hif with udp := t.hif.udp } }) ∧
  (∀ (bytes : List Byte) (code : Nat) (r : Req) (s : State), s.hif.dmaWait = some (code, r) → r.target = 0xFF →
    exec (.dmaReadDone true bytes) s = .next { s with hif := { s.hif with
      dmaWait := none, execNow := some (code, { r with payload := bytes.take (r.dma.getD {}).reqLen }) } }) ∧
  (∀ (bytes : List Byte) (code : Nat) (r : Req) (s : State), s.hif.dmaWait = some (code, r) →
    exec (.dmaReadDone false bytes) s = .next (finish code r .badArg [] { s with hif := { s.hif with dmaWait := none } })) ∧
  (∀ (code : Nat) (r : Req) (s : State), s.hif.dmaWait = some (code, r) →
    exec .dmaReadTimeout s = .next (finish code r .timeout [] { s with hif := { s.hif with dmaWait := none } })) ∧
  (∀ (src : Fin 64) (seq : BitVec 16) (bytes : List Byte) (s : State), mailboxDown s = false → relaySource s = some src.val →
    exec (.mbxRelayFrame src seq false bytes) s =
      .next (serve { s with hif := { s.hif with waiting := s.hif.waiting ++ [(.relay src seq, bytes)] } })) ∧
  (∀ (x : Relay) (src : Fin 64) (bytes : List Byte) (s : State), s.hif.relays = [x] → x.target = src → x.req.dma = none →
    let st := (Status.ofCode (u16 bytes 8)).code
    exec (.relayAnswer src x.seq bytes) s = .next (respond x.code x.req st (bytes.drop 16)
      (trace x.code x.req st { s with hif := { s.hif with relays := [] } }))) ∧
  (∀ (x : Relay) (s : State), s.hif.relays = [x] → x.repeats < 2 →
    exec (.relayResend x.seq) s = .next (resendLong 6 x.target s.epochHeld x.seq (relayBytes x.code x.req)
      { s with hif := { s.hif with relays := [{ x with repeats := x.repeats + 1 }], counts := addAt s.hif.counts 7 1 } })) ∧
  (∀ (x : Relay) (s : State), s.hif.relays = [x] → 2 ≤ x.repeats → x.req.dma = none →
    ∃ t, exec (.relayResend x.seq) s = .next t ∧ t.hif.relays = [] ∧ Quiet s t)

/-- The endpoint reset, notifications and the host watchdog (R446, R458, R460): an endpoint reset returns the four registers to 0,
empties the notifications and stops the Board stream; the front notification goes into slot 31 with its number, sets NOTE and the
NOTIFY interrupt; a watched path that times out is lost, with alarm and event 0x0110, and neither DP mode, set-points, role nor
safety state change (R461). Readings of the model's own: log 33. -/
def Obligations.EndpointNotificationWatchdog : Prop :=
  (∀ (kind : Fin 4) (s : State), s.variant ≠ .WK → ∃ t, exec (.endpointReset kind) s = .next t ∧
    t.hif.busy = 0 ∧ t.hif.done = 0 ∧ t.hif.irqStat = 0 ∧ t.hif.irqEn = 0 ∧ t.brd.stream.on = false ∧ t.hif.watches = s.hif.watches ∧
    t.dp = s.dp ∧ t.safe = s.safe ∧ t.cfg = s.cfg ∧ t.mem = s.mem ∧ t.loop.ctx = s.loop.ctx) ∧
  (∀ (no num : Nat) (x : EvRec) (rest : List (Nat × EvRec × Nat)) (s : State), s.variant ≠ .WK → mailboxDown s = false →
    s.hif.done.getLsbD 31 = false → s.hif.noteBusy = false → s.hif.notes = (no, x, num) :: rest → noteDests s = [] →
    exec .notification s =
      let s1 := writeSlot 31 0 (noteBytes no (wd num) x (no - s.hif.notePlaced - 1)) { s with hif := { s.hif with
        notes := rest, notePlaced := no, counts := addAt s.hif.counts 10 1 } }
      .next (raiseIrq 1 { s1 with hif := { s1.hif with done := s.hif.done ||| wd (2 ^ 31) } })) ∧
  (∀ (path : Watch) (w : WatchSt) (s : State), s.hif.watches = [w] → w.path = path → w.timeout ≠ 0 → w.lost = false →
    ∃ t, exec (.hostLost path) s = .next t ∧ t.hif.watches = [{ w with lost := true, lostAt := s.time.ns }] ∧
      alarmOn t 0x0110 s.dev = true ∧ t.hif.irqStat.getLsbD 5 = true ∧ t.dp = s.dp ∧ t.safe = s.safe ∧ t.cfg = s.cfg ∧
      t.mem.role = s.mem.role ∧ t.loop.ctx = s.loop.ctx)

/-- Class 0x01 (R459, R462, R473, R478, R481): IDENTIFY answers 48 bytes that begin with HIF_ID and the unit-presence word and
changes nothing; HEARTBEAT over UDP is a beat of its source; HOST_CONFIG takes NOTIFY_SEV and its entries into the running and the
stored configuration; HOST_STATUS answers the counters and with CLEAR set clears them. Readings of the model's own: log 31, 75. -/
def Obligations.HostCommands : Prop :=
  (∀ (r : Req) (s : State), ∃ pay, pay.length = 48 ∧ pay.take 8 = leBytes 4 s.hifId.toNat ++ leBytes 4 s.variant.units.toNat ∧
    (Takes 0x0101 r pay s → r.payload = [] → Answers (.identify r) 0x0101 r pay s s)) ∧
  (∀ (r : Req) (mac : Fin 2) (src : Word) (port : BitVec 16) (s : State), r.path = .udp mac src port → Takes 0x0102 r [] s →
    r.payload.length = 4 → s.hif.watches = [] →
    Answers (.heartbeat r) 0x0102 r [] s (beat (.udp src)
      (if u16 r.payload 2 = 0 then 0 else max 10 (min (u16 r.payload 2) 1000)) (BitVec.ofNat 16 (u16 r.payload 0)) s)) ∧
  (∀ (r : Req) (s : State), let n := bits (u8 r.payload 0) 0 5
    let es := (List.range n).map (hostEntry r.payload)
    Takes 0x0103 r [] s → s.variant ≠ .WK → n ≤ 16 → r.payload.length = 8 + 8 * n → u8 r.payload 1 ≤ 5 →
    (∀ e ∈ es, hostEntryBad e = false) → (es.filter fun e => fld e 4 4 = 1).length ≤ 1 → (es.filter fun e => fld e 4 4 = 2).length ≤ 1 →
    Answers (.hostConfig r) 0x0103 r [] s (setCfg (fun c => { c with notifySev := u8 r.payload 1, hostEntries := es }) s)) ∧
  (∀ (r : Req) (s : State), Takes 0x0104 r (s.hif.counts.flatMap (leBytes 4)) s → r.payload.length = 1 →
    Answers (.hostStatus r) 0x0104 r (s.hif.counts.flatMap (leBytes 4)) s
      (if bit (u8 r.payload 0) 0 then { s with hif := { s.hif with counts := List.replicate 13 0 } } else s))

/-- The checks of R405 in their order: HCRC, type and version, distance of the epoch, length; the first that fails names the NAK
code. Frames (R394, R397, R398, R405 to R407): an accepted header starts cut-through; an intact frame is counted and its
cut-through ends; a damaged one asks for a re-send; quarantine ends UP with 0x0B13; a NAK is counted and recorded; a newer DATA
payload of a bound flow is delivered, an older one is not. Readings of the model's own: log 38. -/
def Obligations.FramesAndChecks : Prop :=
  (∀ (ix : Nat) (h : Hdr) (s : State), h.hops ≠ 0 →
    violation s ix h =
      if h.hcrcOk = false then some 1
      else if ¬ (1 ≤ h.type ∧ h.type ≤ 10 ∧ h.ver = 1) then some 2
      else if s.cyc.holds = true ∧ h.type ∉ [1, 2, 6, 9] ∧
          (4 < (h.epoch16 - s.cyc.epoch.setWidth 16).toInt ∨ (h.epoch16 - s.cyc.epoch.setWidth 16).toInt < -4) then some 4
      else if h.len > maxLen s h then some 5
      else none) ∧
  (∀ (port : Fin 4) (h : Hdr) (s : State), s.link.ports.length = 4 → (portOf s port).state = 3 → violation s port h = none →
    ∃ t, exec (.linkFrameHeader port h) s = .next t ∧ (portOf t port).cut = some h ∧ (portOf t port).counts = (portOf s port).counts ∧
      t = { s with link := { s.link with ports := t.link.ports } }) ∧
  (∀ (port : Fin 4) (f : Frame) (s : State), s.link.ports.length = 4 → (portOf s port).state = 3 → (portOf s port).missing = [] →
    (portOf s port).unacked = 0 → (portOf s port).cut = none →
    exec (.linkFrameEnd port (portOf s port).rxNext f .intact) s = .next (updPort port (fun p => { p with
      counts := addAt (addAt p.counts 0 1) 4 0, rxNext := p.rxNext + 1, unacked := 1 }) s)) ∧
  (∀ (port : Fin 4) (f : Frame) (s : State), s.link.ports.length = 4 → (portOf s port).state = 3 → (portOf s port).missing = [] →
    (portOf s port).cut = none → ∃ t, exec (.linkFrameEnd port (portOf s port).rxNext f .crcOrLength) s = .next t ∧
      t.outs = s.outs ++ [.ordered port 5 (portOf s port).rxNext.toNat] ∧ (portOf t port).missing = [(portOf s port).rxNext] ∧
      (portOf t port).rxNext = (portOf s port).rxNext + 1 ∧ t = { s with outs := t.outs, link := { s.link with ports := t.link.ports } }) ∧
  (∀ (port : Fin 4) (s : State), (portOf s port).state = 5 → exec (.quarantineEnd port) s = .next (event 0x0B13 1 [port, 0]
    (setPort port 3 (updPort port (fun p => { p with quarEnd := 0, viols := [] }) s)))) ∧
  (∀ (port : Fin 4) (src : Fin 64) (n : Nak) (s : State), portTalks s port = true → exec (.nakFrame port src n) s =
    .next (event 0x0B15 2 [n.code, src, n.origFlow, n.origSeq.toNat] (portCount port 12 1 s))) ∧
  (∀ (src : Fin 64) (flow : BitVec 8) (seq : BitVec 16) (bytes : List Byte) (d : BitVec 128) (s : State),
    look s.cfg.flows flow.toNat = some d → flowBound s flow.toNat = true → fld d 32 8 = src → forMe s (fld d 40 8) = true →
    (∀ w ∈ s.link.windows, ¬ (w.src = src ∧ w.flow = flow.toNat)) →
    ∃ t, exec (.dataFrame src flow seq bytes) s = .next t ∧ look t.loop.flowRx flow.toNat = some bytes ∧
      t = { s with link := t.link, loop := { s.loop with flowRx := t.loop.flowRx } }) ∧
  (∀ (src : Fin 64) (flow : BitVec 8) (seq : BitVec 16) (bytes : List Byte) (d : BitVec 128) (w : Window) (s : State),
    look s.cfg.flows flow.toNat = some d → flowBound s flow.toNat = true → fld d 32 8 = src → forMe s (fld d 40 8) = true →
    s.link.windows = [w] → w.src = src → w.flow = flow.toNat → (seq - w.newest).toInt ≤ 0 →
    exec (.dataFrame src flow seq bytes) s = .next { s with link := { s.link with counts := addAt s.link.counts 0 1 } }) ∧
  (∀ (dev : Fin 64) (s : State), s.mem.heard.length = 64 → (s.mem.heard.getD dev none).isSome = true → 3 ≤ s.mem.quietA.getD dev 0 →
    3 ≤ s.mem.quietB.getD dev 0 → ∃ t, exec (.mapExpiry dev) s = .next t ∧ t.mem.heard = s.mem.heard.set dev none ∧
      t.dp = s.dp ∧ t.safe = s.safe ∧ t.cfg = s.cfg ∧ t.mem.role = s.mem.role)

/-- Ordered sets and port states (R389, R404, R411): a HELLO leaves every port; the sixteenth error-free HELLO in a row brings a
port UP with its neighbour; a HELLO of the wrong network makes it MISWIRED; PORT_DOWN empties the port and forgets its neighbour.
The hop layer (R392, R393): an ACK releases the held frames up to its HSEQ; unacknowledged frames are acknowledged at the timer; a
re-send repeats a held frame and counts, and after the third the hop is DEGRADED; ten seconds without error restore it. Readings
of the model's own: log 38. -/
def Obligations.PortsAndHops : Prop :=
  (∀ s : State, linkRuns s = true → ∃ t, exec .helloSend s = .next t ∧
    t.outs = s.outs ++ ([0, 1, 2, 3] : List (Fin 4)).map (fun ix => Out.ordered ix 6
      (pack [(8, s.dev), (4, (portOf s ix).state), (2, 0), (1, ix % 2), (1, ix / 2)])) ∧ t = { s with outs := t.outs }) ∧
  (∀ (port : Fin 4) (dev : Fin 64) (far : Fin 8) (s : State), linkRuns s = true → s.link.ports.length = 4 →
    (portOf s port).state = 1 ∨ (portOf s port).state = 2 → (portOf s port).hellos ≥ 15 →
    ∃ t, exec (.helloReceive port dev (decide (port.val / 2 = 1)) (decide (port.val % 2 = 0)) far true) s = .next t ∧
      (portOf t port).state = 3 ∧ (portOf t port).nb = dev ∧ t.dp = s.dp ∧ t.safe = s.safe ∧ t.cfg = s.cfg) ∧
  (∀ (port : Fin 4) (dev : Fin 64) (pnum : Bool) (far : Fin 8) (s : State), linkRuns s = true → s.link.ports.length = 4 →
    (portOf s port).state = 1 ∨ (portOf s port).state = 2 →
    ∃ t, exec (.helloReceive port dev (decide (port.val / 2 = 0)) pnum far true) s = .next t ∧
      (portOf t port).state = 6 ∧ (portOf t port).nb = dev ∧ t.dp = s.dp ∧ t.safe = s.safe ∧ t.cfg = s.cfg) ∧
  (∀ (port : Fin 4) (s : State), linkRuns s = true → s.link.ports.length = 4 → (portOf s port).state = 3 →
    ∃ t, exec (.portDown port) s = .next t ∧ (portOf t port).state = 1 ∧ (portOf t port).nb = 0xFF ∧ (portOf t port).held = [] ∧
      (portOf t port).queue = [] ∧ t.dp = s.dp ∧ t.safe = s.safe ∧ t.cfg = s.cfg) ∧
  (∀ (port : Fin 4) (hseq : BitVec 8) (s : State), s.link.ports.length = 4 → (portOf s port).queue = [] →
    (∃ h ∈ (portOf s port).held, h.hseq = hseq) → ∃ t, exec (.ackReceive port hseq) s = .next t ∧
      (portOf t port).held = ((portOf s port).held.dropWhile (fun h => h.hseq ≠ hseq)).drop 1 ∧
      t = { s with link := { s.link with ports := t.link.ports } }) ∧
  (∀ (port : Fin 4) (s : State), (portOf s port).unacked ≠ 0 → portTalks s port = true → exec (.ackTimer port) s =
    .next (emit (.ordered port 4 (ackPoint (portOf s port)).toNat) (updPort port (fun p => { p with unacked := 0 }) s))) ∧
  (∀ (port : Fin 4) (h : HeldFrame) (s : State), (portOf s port).held = [h] → portTalks s port = true → h.whole = true → h.resent < 3 →
    let t := updPort port (fun p => { p with held := [{ h with resent := h.resent + 1 }], counts := addAt (addAt p.counts 5 1) 1 1 }) s
    exec (.resendReceive port h.hseq) s = .next t ∧ exec (.resendTimeout port h.hseq) s = .next t) ∧
  (∀ (port : Fin 4) (h : HeldFrame) (s : State), s.link.ports.length = 4 → (portOf s port).state = 3 → (portOf s port).held = [h] →
    h.whole = true → 3 ≤ h.resent → ∃ t, exec (.resendTimeout port h.hseq) s = .next t ∧ (portOf t port).state = 4 ∧ (portOf t port).held = [] ∧
      t.dp = s.dp ∧ t.safe = s.safe ∧ t.cfg = s.cfg) ∧
  (∀ (port : Fin 4) (s : State), (portOf s port).state = 4 → (portOf s port).degradedErr = false →
    exec (.degradedRestore port) s = .next (setPort port 3 s))

/-- Class 0x0B (R401, R410, R411): FLOW_DEFINE of a flow that fits keeps the descriptor for the next epoch; LINK_STATUS part 0
answers the summary and with CLEAR clears its counters; LINK_PORT_CONTROL moves the port of the addressed device. Readings of the
model's own: log 38. -/
def Obligations.LinkCommands : Prop :=
  (∀ (r : Req) (s : State), let d : BitVec 128 := BitVec.ofNat 128 (ule r.payload 0 16)
    Takes 0x0B01 r [] s → r.payload.length = 16 → 16 ≤ fld d 0 8 → inTable s (fld d 32 8) = true → 0xFE ≤ fld d 40 8 →
    fld d 54 2 ≠ 0 → 1 ≤ fld d 64 16 → fld d 64 16 ≤ 1008 → 1 ≤ fld d 80 16 → fld d 80 16 ≤ 10000 → s.cfg.flows = [] → s.link.flowsNew = [] →
    flowBudget d ≤ flowRoom s → flowUsed s (fld d 0 8) = false →
    Answers (.flowDefine r) 0x0B01 r [] s { s with link := { s.link with flowsNew := put s.link.flowsNew (fld d 0 8) d } }) ∧
  (∀ (r : Req) (s : State), Takes 0x0B02 r (linkSummary s) s → r.dma = none → r.payload.length = 4 → u8 r.payload 0 = 0 →
    ∃ u, Answers (.linkStatus r) 0x0B02 r (linkSummary s) s u ∧
      u.link.counts = (if bit (u8 r.payload 1) 0 then List.replicate 5 0 else s.link.counts) ∧
      u = { s with link := { s.link with counts := u.link.counts, ports := u.link.ports } }) ∧
  (∀ (r : Req) (s : State), let ix := u8 r.payload 0
    let u := setPort ix 1 s
    Takes 0x0B03 r (leBytes 1 (portOf u ix).state) s → r.payload.length = 2 → ix < 4 → u8 r.payload 1 = 1 → (portOf s ix).state = 0 →
    Answers (.linkPortControl r) 0x0B03 r (leBytes 1 (portOf u ix).state) s u) ∧
  (∀ (ix st : Nat) (s : State), s.link.ports.length = 4 → ix < 4 → (portOf (setPort ix st s) ix).state = st)

/-- Time sources and PTP (R74, R75, R78, R79, R81, R97): a lost source gives way to the next usable of SOURCES, else HOLDOVER with
0x0812; an unsupported message is counted and ignored; the stored stamp of a Sync, the descriptor, insertion or Follow_Up of an
event message sent; PPS_IN's offset; the 10 MHz input given up outside 2 % and taken back within it. Readings of the model's own:
log 5, 27, 37. -/
def Obligations.TimeInputs : Prop :=
  (∀ (c : Nat) (s : State), s.isActive = true → s.time.source ≠ 0 →
    (s.cfg.sources.filter fun c => c ≠ s.time.source && c ≠ 0 && c ≠ 0xFF).find? (sourceUsable s) = some c →
    exec .timeSourceLost s = .next { s with time := { s.time with source := c, srcChanged := true } }) ∧
  (∀ s : State, s.isActive = true → s.time.source ≠ 0 → s.time.state = 1 → (∀ c ∈ s.cfg.sources, sourceUsable s c = false) →
    ∃ t, exec .timeSourceLost s = .next t ∧ t.time.state = 2 ∧ t.time.source = 0 ∧ t.dp = s.dp ∧ t.safe = s.safe ∧ t.cfg = s.cfg) ∧
  (∀ (mac : Fin 2) (m : PtpMsg) (s : State), macFld s mac 0 8 ≠ 0 → mac = 0 ∨ s.variant ≠ .WK → m.supported = false →
    exec (.ptpMessage mac m) s = .next { s with time := { s.time with mac := upd s.time.mac mac fun t =>
      { t with unsupported := min (t.unsupported + 1) 0xFFFFFFFF } } }) ∧
  (∀ (mac : Fin 2) (m : PtpMsg) (s : State), macFld s mac 0 8 ≠ 0 → mac = 0 ∨ s.variant ≠ .WK → m.supported = true → m.kind = 0 →
    m.domain = macFld s mac 32 8 → m.transport = macFld s mac 16 8 → m.offset = none →
    let t : State := { s with time := { s.time with mac := upd s.time.mac mac fun t =>
      { t with lastStamp := m.raw - macFld s mac (if m.fast then 96 else 64) 16 - 8 } } }
    exec (.ptpMessage mac m) s = .next (if isSlave s mac && macFld s mac 8 8 = 0 then sendPtp mac 1 t else t)) ∧
  (∀ (mac : Fin 2) (fast : Bool) (kind : Fin 16) (oneStep : Bool) (raw : Nat) (s : State), mac = 0 ∨ s.variant ≠ .WK → kind.val ≤ 3 →
    let st := raw - 8 + macFld s mac (if fast then 112 else 80) 16
    let ins := oneStep && macFld s mac 24 8 = 1 && (kind.val = 0 || (kind.val = 3 && macFld s mac 8 8 = 1))
    let t : State := { s with time := { s.time with mac := upd s.time.mac mac fun t =>
      { t with desc := [0, wd (2 ^ 31 + 2 ^ 30 * ins.toNat), wd (st / 2 ^ 32), wd st], lastStamp := st } } }
    exec (.macTxDone mac fast kind oneStep 0 raw) s = .next
      (if ins then emit (.txStamp mac (decide (kind.val = 3)) st (decide (macFld s mac 16 8 = 0))) t
       else if kind.val = 0 then sendPtp mac 8 t else if kind.val = 3 then sendPtp mac 10 t else t)) ∧
  (∀ (stamp : Nat) (s : State), s.time.everPtp = false → stamp % 1000000000 < 500000000 →
    exec (.ppsInEdge stamp) s = .next { s with time := { s.time with
      ppsErr := max (-32767) (min 32767 (stamp % 1000000000 : Nat)), ppsMissing := false } }) ∧
  (∀ s : State, exec .ppsInMissing s = .next { s with time := { s.time with ppsMissing := true } }) ∧
  (∀ s : State, exec .ppsOutRise s = .next { s with time := { s.time with ppsHigh := decide (s.time.state ≠ 0) } }) ∧
  (∀ s : State, exec .ppsOutFall s = .next { s with time := { s.time with ppsHigh := false } }) ∧
  (∀ (hz : Nat) (s : State), s.time.ref10Sel = true → s.time.ref10Lost = false → hz < 9800000 ∨ 10200000 < hz →
    exec (.ref10Lost hz) s = .next (event 0x0814 2 [hz] { s with time := { s.time with ref10Hz := hz, ref10Run := false, ref10Lost := true } })) ∧
  (∀ (hz : Nat) (s : State), s.time.ref10Sel = true → 9800000 ≤ hz → hz ≤ 10200000 →
    exec (.ref10Lost hz) s = .next { s with time := { s.time with ref10Hz := hz, ref10Run := true, ref10Lost := false } })

/-- Station Link time (R92, R94, R95): the ACTIVE manager sends SYNC; a SYNC notes its hops on its port and goes on; a link delay
joins the last 16; without SYNC a following device enters HOLDOVER with 0x0812. Readings of the model's own: log 5, 37. -/
def Obligations.LinkTime : Prop :=
  (∀ s : State, s.isActive = true → s.inRun = true → exec .syncSend s = .next (sendSys 2 0xFF s.epochHeld (leBytes 8 0 ++ leBytes 8 s.time.ns) s)) ∧
  (∀ (net port : Bool) (h : Hdr) (rest : List Byte) (corr : Nat) (o : Int) (s : State), portTalks s (portIx net port) = true → h.src ≠ s.dev →
    h.dst ≠ s.dev → s.inRun = false →
    ∃ t, exec (.syncFrame net port h rest corr o) s = .next t ∧ t.time.syncHops = s.time.syncHops.set (portIx net port) h.hops ∧ t.time.syncQuiet = s.time.syncQuiet.set (portIx net port) 0 ∧
      t.time.ns = s.time.ns ∧ t.dp = s.dp ∧ t.safe = s.safe ∧ t.cfg = s.cfg) ∧
  (∀ (port : Fin 4) (ns : Nat) (s : State), portUp s port = true → exec (.linkDelayExchange port ns) s = .next (sendExchange port { s with time := { s.time with
      linkDelay := upd s.time.linkDelay port fun l => (ns :: l).take 16 } })) ∧
  (∀ s : State, s.inRun = true → s.isActive = false → s.time.state = 1 → ∃ t, exec .syncLoss s = .next t ∧
    t.time.state = 2 ∧ t.time.ns = s.time.ns ∧ t.dp = s.dp ∧ t.safe = s.safe ∧ t.cfg = s.cfg ∧ t.mem = s.mem)

/-- Class 0x08 (R80, R86 to R88, R490, R491): TIME_CONFIG in its ranges is kept; an accepted SLEW returns to LOCKED and slews the
whole offset, TIME_GEN unchanged; an accepted STEP waits for the next close; TIME_STATUS changes nothing. Readings of the model's
own: log 31, 37. -/
def Obligations.TimeCommands : Prop :=
  (∀ (r : Req) (s : State), let p := r.payload
    let b0 : BitVec 128 := BitVec.ofNat 128 (ule p 16 16)
    let b1 : BitVec 128 := BitVec.ofNat 128 (ule p 32 16)
    Takes 0x0801 r [] s → passedOn r s = false → p.length = 48 → s.variant ≠ .WK → s.isActive = true → macBlockBad b0 = false → macBlockBad b1 = false →
    (∀ c ∈ (p.take 3).map BitVec.toNat, c ≤ 3 ∨ c = 0xFF) → 1 ≤ u32 p 4 → u32 p 4 ≤ 1000000 → 1 ≤ u16 p 8 → u16 p 8 ≤ 500 →
    ∃ u, Answers (.timeConfig r) 0x0801 r [] s u ∧ u.cfg = { s.cfg with
        sources := (p.take 3).map BitVec.toNat, jumpUs := u32 p 4, use10m := bit (u8 p 3) 0, ppsWidth := u16 p 8
        macBlocks := [b0, b1] } ∧ u.time.ref10Sel = bit (u8 p 3) 0 ∧
      u.time.ref10Run = (bit (u8 p 3) 0 && ref10Ok s.time.ref10Hz) ∧
      u.time.ref10Lost = (bit (u8 p 3) 0 && s.time.ref10Lost && !ref10Ok s.time.ref10Hz) ∧ u.dp = s.dp ∧ u.safe = s.safe) ∧
  (∀ (r : Req) (s : State), let pay := leBytes 4 (wi (offsetUs s.time.offset)).toNat
    Takes 0x0802 r pay s → r.payload.length = 1 → u8 r.payload 0 = 1 → s.time.refused = true → s.time.srcPresent = true →
    -1000000000 ≤ s.time.offset → s.time.offset ≤ 1000000000 →
    Answers (.timeAcceptStep r) 0x0802 r pay s (event 0x0813 1 [s.time.source, (wi s.time.offset).toNat]
      { s with time := startSlew s.time.offset { s.time with state := 1, refused := false } })) ∧
  (∀ (r : Req) (s : State), let pay := leBytes 4 (wi (offsetUs s.time.offset)).toNat
    Takes 0x0802 r pay s → r.payload.length = 1 → u8 r.payload 0 = 0 → s.time.refused = true → s.time.srcPresent = true →
    Answers (.timeAcceptStep r) 0x0802 r pay s { s with time := { s.time with stepWanted := true } }) ∧
  (∀ (r : Req) (s : State), ∃ pay, pay.take 4 = leBytes 1 s.time.state ++ leBytes 1 s.time.source ++ leBytes 2 s.time.gen.toNat ∧
    (Takes 0x0803 r pay s → r.payload = [] → Answers (.timeStatus r) 0x0803 r pay s s))

/-- R107: on an enabled channel a FILTER_CONFIG that changes a field other than DCB_CORNER, DCB_EN and EN returns STATE with no
effect; a change of these alone is taken, and the word in force stays until the channel's next output-sample boundary. -/
def Obligations.EnabledFilterChannel : Prop :=
  (∀ (r : Req) (s : State), let ch := u8 r.payload 0
    let w := chMask (BitVec.ofNat 64 (ule r.payload 8 8))
    Takes 0x0601 r [] s → r.payload.length = 16 → ch < 16 → chRange w = false → fld (chSet s ch) 0 1 = 1 →
    w &&& 0x000001FFFFF30000#64 ≠ chSet s ch &&& 0x000001FFFFF30000#64 → Refuses (.filterConfig r) 0x0601 r .state s) ∧
  (∀ (r : Req) (s : State), let ch := u8 r.payload 0
    let w := chMask (BitVec.ofNat 64 (ule r.payload 8 8))
    Takes 0x0601 r [] s → r.payload.length = 16 → ch < 16 → s.filt.length = 16 → s.cfg.filters.length = 16 → chRange w = false →
    fld (chSet s ch) 0 1 = 1 → fld w 0 1 = 1 → w &&& 0x000001FFFFF30000#64 = chSet s ch &&& 0x000001FFFFF30000#64 →
    ∃ u, Answers (.filterConfig r) 0x0601 r [] s u ∧ chSet u ch = w ∧ chWord u ch = chWord s ch ∧ (∀ j, j ≠ ch → filtOf u j = filtOf s j)) ∧
  (∀ (ch : Fin 16) (stream done spacing : Nat) (s : State), s.filt.length = 16 → chRuns s ch = true → (filtOf s ch).ending = none →
    ∃ t, exec (.filterOutputSample ch stream done spacing) s = .next t ∧ chWord t ch = chSet s ch)

/-- Filter samples (R104, R117, R120, R126 to R128): an output sample is the mean of its block of chain samples, takes the next
SEQ, the stamp of R117 and one settling count, and leaves the histories of the CIC, the FIR and the DC estimate as its block left
them; a modulator reset sets its settling run with 0x0610; an overrun skips the lost SEQs with 0x0615; a lasting loop-range
condition is recorded once. Class 0x06 on the filter chain (R105, R109, R110, R112, R115, R122, R124, R130): enabling a channel
starts its histories and settling; a bank load writes the inactive bank, and answers the checksum and which bank; a swap waits for
the boundary on an enabled channel and acts at once on a disabled one; the DC estimate is frozen and released; the status of
channels is answered, and the counters cleared with CLEAR. Readings of the model's own: log 2, 39. -/
def Obligations.FilterChain : Prop :=
  (∀ (ch : Fin 16) (stream done spacing : Nat) (s : State), s.filt.length = 16 → chRuns s ch = true →
    (filtOf s ch).ending = none → (filtOf s ch).swapPending = false → (chDcb (chSet s ch) = chDcb (chWord s ch)) →
    let w := chWord s ch
    let x := cicRun (chD1 w) (chRF w * chD3 w) stream (filtOf s ch)
    let blk := chainBlock w (filtOf s ch).active (chD3 w) x.1 x.2
    ∃ t, exec (.filterOutputSample ch stream done spacing) s = .next t ∧ (filtOf t ch).value = (sat24 (roundDiv blk.2.1 (chD3 w : Nat))).1 ∧
      (filtOf t ch).cicInt = blk.1.cicInt ∧ (filtOf t ch).firHist = blk.1.firHist ∧ (filtOf t ch).m = blk.1.m ∧ (filtOf t ch).seq = (filtOf s ch).seq + 1 ∧
      (filtOf t ch).lastSeq = (filtOf s ch).seq ∧ (filtOf t ch).stamp = filterStamp (chWord s ch) done spacing ∧
      (filtOf t ch).settle = (filtOf s ch).settle - 1 ∧ (filtOf t ch).hasSample = true ∧ t.dp = s.dp ∧ t.safe = s.safe ∧ t.cfg = s.cfg) ∧
  (∀ (ch : Fin 16) (s : State), s.filt.length = 16 → chRuns s ch = true →
    let c := filtOf s ch
    let k := addAt c.counts 2 1
    exec (.modulatorReset ch) s = .next (event 0x0610 2 [ch, k.getD 2 0]
      { s with filt := s.filt.set ch { c with modOvr := settleCount (chWord s ch), counts := k } })) ∧
  (∀ (ch : Fin 16) (lost : Nat) (s : State), s.filt.length = 16 → chRuns s ch = true →
    let c := filtOf s ch
    exec (.afeFifoOverrun ch lost) s = .next (event 0x0615 4 [ch, lost] { s with filt := s.filt.set ch { c with
      seq := c.seq + BitVec.ofNat 16 lost, settle := settleCount (chWord s ch),
      cicInt := List.replicate 4 0, cicComb := List.replicate 4 0, firHist := List.replicate 64 0, medHist := [] } })) ∧
  (∀ (ch : Fin 16) (s : State), s.filt.length = 16 → (filtOf s ch).rangeOn = true → (filtOf s ch).rangeDone = false →
    let c := filtOf s ch
    exec (.loopRangePersist ch) s = .next (event 0x0613 3 [ch, valueWord c.value, (bit c.flags.toNat 8).toNat]
      { s with filt := s.filt.set ch { c with rangeDone := true, counts := addAt c.counts 4 1 } })) ∧
  (∀ (r : Req) (s : State), let ch := u8 r.payload 0
    let w := chMask (BitVec.ofNat 64 (ule r.payload 8 8))
    Takes 0x0601 r [] s → r.payload.length = 16 → ch < 16 → chRange w = false → fld (chSet s ch) 0 1 = 0 → fld w 0 1 = 1 →
    Answers (.filterConfig r) 0x0601 r [] s (updFilt ch (enableCh w) (setCfg (fun c => { c with filters := c.filters.set ch w }) s))) ∧
  (∀ (r : Req) (s : State), let ch := u8 r.payload 0
    let h := (List.range 32).map fun i => i32 r.payload (4 + 4 * i)
    let pay := leBytes 2 (bankCrc h) ++ leBytes 1 (!(filtOf s ch).active).toNat
    Takes 0x0602 r pay s → r.payload.length = 132 → ch < 16 → 2 ^ 29 ≤ 2 * h.sum → 2 * h.sum ≤ 3 * 2 ^ 29 →
    (filtOf s ch).swapPending = false →
    Answers (.filterBankLoad r) 0x0602 r pay s (updFilt ch (fun c => if c.active then { c with bankA := h } else { c with bankB := h }) s)) ∧
  (∀ (r : Req) (s : State), let ch := u8 r.payload 0
    Takes 0x0603 r [1] s → r.payload.length = 1 → ch < 16 → (filtOf s ch).swapPending = false → fld (chSet s ch) 0 1 = 1 →
    Answers (.filterBankSwap r) 0x0603 r [1] s (updFilt ch (fun c => { c with swapPending := true }) s)) ∧
  (∀ (r : Req) (s : State), let ch := u8 r.payload 0
    Takes 0x0603 r [0] s → r.payload.length = 1 → ch < 16 → (filtOf s ch).swapPending = false → fld (chSet s ch) 0 1 = 0 →
    ∃ u, Answers (.filterBankSwap r) 0x0603 r [0] s u ∧ (s.filt.length = 16 → (filtOf u ch).active = !(filtOf s ch).active) ∧
      u.cfg = s.cfg ∧ u.safe = s.safe ∧ u.dp = s.dp) ∧
  (∀ (r : Req) (s : State), let ch := u8 r.payload 0
    Takes 0x0604 r [] s → r.payload.length = 2 → ch < 16 → u8 r.payload 1 = 1 → chDcb (chSet s ch) = true → (filtOf s ch).frozen = false →
    Answers (.dcbFreeze r) 0x0604 r [] s (event 0x0616 1 [ch, 1, intBits 32 ((filtOf s ch).m / (2 ^ 16 : Nat))]
      (updFilt ch (fun c => { c with frozen := true }) s))) ∧
  (∀ (r : Req) (s : State), let ch := u8 r.payload 0
    Takes 0x0604 r [] s → r.payload.length = 2 → ch < 16 → u8 r.payload 1 = 0 → chDcb (chSet s ch) = true → (filtOf s ch).frozen = true →
    Answers (.dcbFreeze r) 0x0604 r [] s (event 0x0616 1 [ch, 0, intBits 32 ((filtOf s ch).m / (2 ^ 16 : Nat))]
      (updFilt ch (fun c => { c with frozen := false, dcbSettle := dcbCount (chSet s ch) }) s))) ∧
  (∀ (r : Req) (s : State), let ch := u8 r.payload 0
    let pay := leBytes 8 (filterWord s ch) ++ words (filtOf s ch).counts
    Takes 0x0605 r pay s → r.payload.length = 3 → ch < 16 → u8 r.payload 1 = 1 →
    Answers (.filterStatus r) 0x0605 r pay s
      (if bit (u8 r.payload 2) 0 then updFilt ch (fun c => { c with counts := List.replicate 5 0 }) s else s))

/-- Analog outputs (R132 to R136): a configuration in its ranges is kept, and a first enable drives code 0; a readback is compared
with the codes of the last 2 ms; a mismatch that has lasted FB_TIME is recorded as 0x0614, and under action 1 holds the output at
zero. Readings of the model's own: log 40. -/
def Obligations.AnalogOutputs : Prop :=
  (∀ (r : Req) (s : State), let p := r.payload
    let o := u8 p 0
    let pay := leBytes 2 0 ++ leBytes 2 (intBits 16 (aoOf s o).readback)
    Takes 0x0606 r pay s → p.length = 16 → o < 8 → s.ao.length = 8 → s.cfg.ao.length = 8 → u8 p 1 = 1 → 10 ≤ u16 p 10 → u16 p 10 ≤ 1000 →
    1 ≤ u8 p 12 → u8 p 12 ≤ 100 → u8 p 13 ≤ 2 → (aoCfg s o).en = false → (aoOf s o).test = false → s.safe.railBad.getLsbD 8 = false →
    ∃ u, Answers (.aoConfig r) 0x0606 r pay s u ∧ (aoOf u o).powered = true ∧ (aoOf u o).code = 0 ∧ (aoOf u o).heldZero = false ∧
      aoCfg u o = { en := true, gain := i32 p 4, offset := sext 16 (u16 p 8), tol := u16 p 10, time := u8 p 12, action := u8 p 13 } ∧
      (∀ j, j ≠ o → aoOf u j = aoOf s j ∧ aoCfg u j = aoCfg s j) ∧ u.safe = s.safe ∧ u.dp = s.dp) ∧
  (∀ (out : Fin 8) (mv : Int) (s : State), s.ao.length = 8 → (aoOf s out).powered = true →
    inBand (aoCfg s out) ((aoOf s out).code :: (aoOf s out).recent.take 20) mv = false →
    ∃ t, exec (.aoReadbackSample out mv) s = .next t ∧ (aoOf t out).readback = mv ∧ (aoOf t out).outMs = (aoOf s out).outMs + 1 ∧
      (aoOf t out).inMs = 0 ∧ (aoOf t out).code = (aoOf s out).code ∧ t.safe = s.safe ∧ t.cfg = s.cfg) ∧
  (∀ (out : Fin 8) (s : State), s.ao.length = 8 → (aoOf s out).powered = true → (aoOf s out).mismatch = false →
    (aoCfg s out).time ≤ (aoOf s out).outMs → (aoCfg s out).action = 1 → s.safe.causes = 0 →
    ∃ t, exec (.aoMismatch out) s = .next t ∧ (aoOf t out).mismatch = true ∧ (aoOf t out).heldZero = true ∧ (aoOf t out).code = 0 ∧
      alarmOn t 0x0614 s.dev = true ∧ t.safe = s.safe ∧ t.cfg = s.cfg)

/-- R421: an overrun counts the lost frames in RX_OVERRUN, advances SEQ by their number, sets LOST in the next record and records
0x0712; no lost frame is routed. A frame received enters the ring under the next SEQ, with LOST where frames were lost before it.
-/
def Obligations.CanOverrun : Prop :=
  (∀ (ch : Fin 8) (lost : Nat) (s : State), s.bus.can.length = 8 → ch.val < s.variant.cans → fld (canWord s ch) 0 1 = 1 →
    ∃ t, exec (.canRxOverrun ch lost) s = .next t ∧ t = event 0x0712 3 [ch, lost] { s with bus := t.bus } ∧
      t.bus.routes = s.bus.routes ∧ (canOf t ch).seq = (canOf s ch).seq + BitVec.ofNat 16 lost ∧ (canOf t ch).lostNext = true ∧
      (canOf t ch).counts = addAt (canOf s ch).counts 10 lost ∧ (canOf t ch).ring = (canOf s ch).ring ∧
      (∀ j : Fin 8, j ≠ ch → canOf t j = canOf s j)) ∧
  (∀ (ch : Fin 8) (f : CanFrame) (stamp : Nat) (s : State), s.bus.can.length = 8 → ch.val < s.variant.cans → f.self = false →
    (canOf s ch).auto = none → fld (canWord s ch) 0 1 = 1 →
    ∃ t x, exec (.canFrameRx ch f ⟨stamp, .ok⟩) s = .next t ∧ (canOf t ch).ring = (x :: (canOf s ch).ring).take 512 ∧ x.f = f ∧
      x.lost = (canOf s ch).lostNext ∧ x.seq = (canOf s ch).seq ∧ x.stamp = wd (canStamp s ch stamp) ∧
      (canOf t ch).seq = (canOf s ch).seq + 1 ∧ (canOf t ch).lostNext = false) ∧
  (∀ (ch : Fin 8) (f : CanFrame) (stamp : Nat) (kind : Fin 5) (primary : Bool) (s : State), s.bus.can.length = 8 → ch.val < s.variant.cans → f.self = false →
    (canOf s ch).auto = none → fld (canWord s ch) 0 1 = 1 → (canOf s ch).state = 1 ∨ (canOf s ch).state = 2 → (canOf s ch).tec < 256 →
    ∃ t, exec (.canFrameRx ch f ⟨stamp, .error kind primary⟩) s = .next t ∧ (canOf t ch).rec_ = (canOf s ch).rec_ + (if primary then 8 else 1) ∧
      (canOf t ch).ring = (canOf s ch).ring ∧ t.bus.routes = s.bus.routes ∧ t.dp = s.dp ∧ t.cfg = s.cfg)

/-- Transmit attempts and the bus (R417, R426, R428, R433): the attempt puts the winning PENDING buffer on the bus with its stamp;
success ends it SENT and its frame enters the ring; lost arbitration takes a retry, and without one the buffer ends ABANDONED with
0x0713; an error frame counts by its kind; BUS_OFF recovers to ERROR_ACTIVE where BOFF_AUTO is set; a detection that has tried
every candidate of its last pass FAILS with 0x0716. Readings of the model's own: log 41, 42. -/
def Obligations.CanAttempts : Prop :=
  (∀ (ch : Fin 8) (stamp b : Nat) (s : State), s.bus.can.length = 8 → fld (canWord s ch) 0 1 = 1 → (canOf s ch).state = 1 →
    (canOf s ch).onBus = none → (canOf s ch).bufs.length = 32 → winner (canOf s ch).bufs = some b → b < 32 →
    ∃ t, exec (.canAttemptStart ch stamp) s = .next t ∧ (bufOf t ch b).status = 2 ∧ (bufOf t ch b).stamp = wd (canStamp s ch stamp) ∧
      (canOf t ch).onBus.map (·.val) = some b ∧ t = { s with bus := { s.bus with can := t.bus.can } }) ∧
  (∀ (ch : Fin 8) (b : Fin 32) (s : State), s.bus.can.length = 8 → (canOf s ch).bufs.length = 32 → (canOf s ch).onBus = some b →
    (bufOf s ch b).cancel = false → (bufOf s ch b).held = none → (canOf s ch).state = 1 → (canOf s ch).tec < 128 → (canOf s ch).rec_ < 128 →
    ∃ t, exec (.canAttemptEnd ch .success) s = .next t ∧ (bufOf t ch b).status = 3 ∧ (canOf t ch).onBus = none ∧
      (canOf t ch).tec = (canOf s ch).tec - 1 ∧ (canOf t ch).ring.length = min ((canOf s ch).ring.length + 1) 512 ∧ t.dp = s.dp ∧ t.cfg = s.cfg) ∧
  (∀ (ch : Fin 8) (b : Fin 32) (s : State), s.bus.can.length = 8 → (canOf s ch).bufs.length = 32 → (canOf s ch).onBus = some b →
    (bufOf s ch b).cancel = false → (bufOf s ch b).held = none → fld (canWord s ch) 0 1 = 1 →
    ∃ t, exec (.canAttemptEnd ch .lostArbitration) s = .next t ∧ (canOf t ch).onBus = none ∧ t.safe = s.safe ∧ t.cfg = s.cfg ∧
      (if (bufOf s ch b).retryLeft = 0 then (bufOf t ch b).status = 6
       else (bufOf t ch b).status = 1 ∧ (bufOf t ch b).retryLeft = (bufOf s ch b).retryLeft - 1)) ∧
  (∀ (ch : Fin 8) (b : Fin 32) (kind : Fin 5) (s : State), s.bus.can.length = 8 → (canOf s ch).bufs.length = 32 →
    (canOf s ch).onBus = some b → (canOf s ch).counts.length = 13 → (canOf s ch).state = 1 → (canOf s ch).tec < 120 → (canOf s ch).rec_ < 128 →
    ∃ t, exec (.canAttemptEnd ch (.error kind false)) s = .next t ∧ (canOf t ch).onBus = none ∧ (canOf t ch).tec = (canOf s ch).tec + 8 ∧
      (canOf t ch).state = 1 ∧ (canOf t ch).counts = addAt (addAt (canOf s ch).counts (2 + kind) 1) 7 1 ∧ t.safe = s.safe ∧ t.cfg = s.cfg) ∧
  (∀ (ch : Fin 8) (s : State), s.bus.can.length = 8 → (canOf s ch).state = 3 → fld (canWord s ch) 7 1 = 1 →
    exec (.busOffRecovery ch) s = .next (event 0x0710 2 [ch, 3, 1, 0] (updCan ch (fun c => { c with state := 1, tec := 0, rec_ := 0 }) s))) ∧
  (∀ (ch : Fin 8) (a : Autobaud) (s : State), s.bus.can.length = 8 → (canOf s ch).auto = some a → a.nominal = none → a.cand = 3 →
    a.passes ≤ a.pass + 1 → exec (.autobaudDwellEnd ch false) s =
      .next (event 0x0716 2 [ch, a.passes] (updCan ch (fun c => { c with state := 7, auto := none }) s))) ∧
  (∀ (ch : Fin 8) (a : Autobaud) (s : State), (canOf s ch).auto = some a → a.nominal = none → a.cand < 3 →
    exec (.autobaudDwellEnd ch false) s = .next (updCan ch (fun c => { c with auto := some { a with cand := a.cand + 1, good := 0 } }) s))

/-- CAN commands (R416, R422, R423, R427, R430, R433, R443): enabling a channel empties its ring and zeroes its error counters;
detection starts on a disabled channel; a frame is queued in its buffer; a pending buffer is CANCELLED; records and status are
read; a route takes its word and loses its value. Readings of the model's own: log 31, 42, 43. -/
def Obligations.CanCommands : Prop :=
  (∀ (r : Req) (s : State), let w := canMask (BitVec.ofNat 96 (ule r.payload 0 12))
    let ch := fld w 1 3
    Takes 0x0701 r [] s → r.payload.length = 12 → ch < s.variant.cans → canRange w = false → fld (canWord s ch) 0 1 = 0 → fld w 0 1 = 1 →
    Answers (.canConfig r) 0x0701 r [] s (updCan ch (fun c => { c with
      state := if fld w 4 2 = 1 then 4 else 1, tec := 0, rec_ := 0, ring := [], seq := 0, lostNext := false, auto := none,
      dataUnknown := false, offAt := none }) (setCfg (fun c => { c with can := c.can.set ch w }) s))) ∧
  (∀ (r : Req) (s : State), let ch := u8 r.payload 0
    Takes 0x0702 r [] s → r.payload.length = 5 → ch < s.variant.cans → u8 r.payload 1 = 1 → 100 ≤ u16 r.payload 2 → u16 r.payload 2 ≤ 10000 →
    1 ≤ u8 r.payload 4 → u8 r.payload 4 ≤ 15 → fld (canWord s ch) 0 1 = 0 → (canOf s ch).auto = none → (canOf s ch).onBus = none →
    Answers (.canAutobaud r) 0x0702 r [] s (updCan ch (fun c => { c with
      state := 5, dataUnknown := false, auto := some { dwell := u16 r.payload 2, passes := u8 r.payload 4 } }) s)) ∧
  (∀ (r : Req) (s : State), let h : BitVec 64 := BitVec.ofNat 64 (ule r.payload 0 8)
    let ch := fld h 5 3
    let b := fld h 0 5
    Takes 0x0703 r [1] s → fld h 51 1 = 0 → fld h 52 1 = 0 → fld h 56 4 ≤ 8 → r.payload.length = 8 + fld h 56 4 → ch < s.variant.cans →
    (canOf s ch).state = 1 → (bufOf s ch b).bound = false → (bufOf s ch b).status ≠ 2 →
    Answers (.canTx r) 0x0703 r [1] s (updBuf ch b (fun x => { x with
      header := h, data := r.payload.drop 8, status := 1, collision := false, cancel := false, run := 0, attempts := 0, retryLeft := fld h 60 4 }) s)) ∧
  (∀ (r : Req) (s : State), let ch := u8 r.payload 0
    let b := u8 r.payload 1
    Takes 0x0704 r [5] s → r.payload.length = 2 → ch < s.variant.cans → b < 32 → s.bus.can.length = 8 → (canOf s ch).bufs.length = 32 →
    (bufOf s ch b).status = 1 →
    Answers (.canCancel r) 0x0704 r [5] s (updBuf ch b (fun x => { x with status := 5, cancel := false }) s)) ∧
  (∀ (r : Req) (s : State), let ch := u8 r.payload 0
    let c := canOf s ch
    let pay := leBytes 4 (pack [(8, c.state), (8, c.dataUnknown.toNat), (8, min 255 c.tec), (8, min 255 c.rec_)]) ++ words c.counts
    Takes 0x0705 r pay s → r.payload.length = 4 → ch < s.variant.cans → u8 r.payload 2 ≤ 32 → u8 r.payload 3 = 0 →
    Answers (.canStatus r) 0x0705 r pay s
      (if bit (u8 r.payload 1) 0 then updCan ch (fun c => { c with counts := List.replicate 13 0 }) s else s)) ∧
  (∀ (r : Req) (x : CanRec) (s : State), let ch := u8 r.payload 0
    let pay := leBytes 2 ((canOf s ch).seq - 1).toNat ++ leBytes 6 1 ++ canRecBytes x
    Takes 0x0706 r pay s → r.payload.length = 4 → ch < s.variant.cans → (canOf s ch).ring = [x] → u16 r.payload 2 = x.seq.toNat →
    Answers (.canRxRead r) 0x0706 r pay s s) ∧
  (∀ (r : Req) (s : State), let w := (BitVec.ofNat 128 (ule r.payload 0 16)) &&& 0xFFFFFFF8FFFFFFFFFFFFFFF1000000FF#128
    let n := fld w 0 8
    Takes 0x0707 r [] s → r.payload.length = 16 → n ≤ 63 → fld w 40 2 ≠ 3 → 1 ≤ fld w 48 16 → fld w 48 16 ≤ 10000 →
    fld w 64 3 < s.variant.cans → routeBound s n = false →
    Answers (.canRouteDefine r) 0x0707 r [] s (setCfg (fun c => { c with routes := c.routes.set n w })
      { s with bus := { s.bus with routes := s.bus.routes.set n (0, false) } }))

/-- UARTs and IEC 61162-450 (R436 to R441, R443, R484): configuration is kept; a sentence is queued and starts on an idle line;
the end of one starts the next; a received sentence enters the ring with its stamp and flags; a datagram is counted and its
sentences enter the MAC's ring; a sensor datagram becomes a sample of the stream that matches it. Readings of the model's own: log
15, 43. -/
def Obligations.SerialPorts : Prop :=
  (∀ (r : Req) (s : State), let w := (BitVec.ofNat 64 (ule r.payload 0 8)) &&& 0xFFFFFFFFFF000707#64
    let u := fld w 0 3
    Takes 0x0708 r [] s → r.payload.length = 8 → 4800 ≤ fld w 40 24 → fld w 40 24 ≤ 921600 → fld w 24 16 ≤ 10000 → fld (uartWord s u) 8 1 = 0 →
    Answers (.uartConfig r) 0x0708 r [] s (setCfg (fun c => { c with uarts := c.uarts.set u w }) s)) ∧
  (∀ (r : Req) (s : State), let i := u8 r.payload 0
    let pay := leBytes 4 (pack [(8, fld (uartWord s i) 8 1), (8, 8 - (uartOf s i).tx.length)]) ++ words (uartOf s i).counts
    Takes 0x0709 r pay s → r.payload.length = 2 → i < 8 →
    Answers (.uartStatus r) 0x0709 r pay s
      (if bit (u8 r.payload 1) 0 then updUart i (fun x => { x with counts := List.replicate 6 0 }) s else s)) ∧
  (∀ (r : Req) (x : SentRec) (s : State), let i := u8 r.payload 0
    let pay := leBytes 2 ((uartOf s i).seq - 1).toNat ++ leBytes 6 1 ++ sentRecBytes x
    Takes 0x070A r pay s → r.payload.length = 4 → i < 8 → (uartOf s i).ring = [x] → u16 r.payload 2 = x.seq.toNat →
    Answers (.uartRxRead r) 0x070A r pay s s) ∧
  (∀ (r : Req) (u : Fin 8) (s : State), let line := uartLine (uartWord s u) (r.payload.drop 4)
    Takes 0x070B r (leBytes 1 7) s → u8 r.payload 0 = u → 1 ≤ u8 r.payload 1 → u8 r.payload 1 ≤ 79 → r.payload.length = 4 + u8 r.payload 1 →
    line.length ≤ 82 → fld (uartWord s u) 8 1 = 1 → (uartOf s u).tx = [] →
    Answers (.uartTx r) 0x070B r (leBytes 1 7) s (emit (.uartSend u line) (updUart u (fun x => { x with tx := x.tx ++ [line] }) s))) ∧
  (∀ (r : Req) (s : State), let w := (BitVec.ofNat 128 (ule r.payload 0 16)) &&& 0xFFFFFFFFFFFFFFFFFFFFFFFF0000010F#128
    Takes 0x070C r [] s → r.payload.length = 16 → fld w 3 1 < s.variant.lans →
    Answers (.lan61162Config r) 0x070C r [] s (joinGroup (8 * fld w 3 1 + fld w 0 3) w
      (setCfg (fun c => { c with lan450 := c.lan450.set (8 * fld w 3 1 + fld w 0 3) w }) s))) ∧
  (∀ (u : Fin 8) (a b : List Byte) (rest : List (List Byte)) (s : State), (uartOf s u).tx = a :: b :: rest →
    exec (.uartTxSentenceDone u) s = .next (emit (.uartSend u b) (updUart u (fun x => { x with tx := b :: rest }) s))) ∧
  (∀ (u : Fin 8) (chars : List Byte) (stamp : Nat) (s : State), s.bus.uart.length = 8 → fld (uartWord s u) 8 1 = 1 →
    let fl := sentenceFlags chars false (decide (fld (uartWord s u) 9 1 = 1)) false
    let t0 := stamp - 10 - fld (uartWord s u) 24 16
    ∃ t, exec (.uartSentence u 0 0 chars false stamp) s = .next t ∧
      (uartOf t u).ring = (sentRec chars fl (uartOf s u).seq (epochOf s t0) t0 :: (uartOf s u).ring).take 128 ∧
      (uartOf t u).seq = (uartOf s u).seq + 1 ∧ t.dp = s.dp ∧ t.safe = s.safe ∧ t.cfg = s.cfg) ∧
  (∀ (mac : Fin 2) (fast : Bool) (group : Word) (port : BitVec 16) (raw : Nat) (s : State), s.bus.lan.length = 2 → mac.val < s.variant.lans →
    groupEntries s mac group port ≠ [] → exec (.lan61162Datagram mac fast group port true [] raw) s =
      .next { s with bus := { s.bus with lan := upd s.bus.lan mac fun x => { x with counts := addAt x.counts 0 1 } } }) ∧
  (∀ (mac : Fin 2) (fast : Bool) (group : Word) (port : BitVec 16) (x : LanSentence) (raw : Nat) (s : State), s.bus.lan.length = 2 →
    mac.val < s.variant.lans → groupEntries s mac group port ≠ [] → (s.bus.lan.getD mac {}).ring.length < 256 →
    ∃ t y, exec (.lan61162Datagram mac fast group port true [x] raw) s = .next t ∧ (t.bus.lan.getD mac {}).ring = y :: (s.bus.lan.getD mac {}).ring ∧
      y.text = (x.chars ++ [0x0D, 0x0A]).take 82 ∧ y.stamp = wd (rxStamp s mac fast raw)) ∧
  (∀ (mac : Fin 2) (fast : Bool) (src : Word) (port : BitVec 16) (bytes : List Byte) (raw n stamp : Nat) (vs : List Int) (s : State),
    mac.val < s.variant.lans → s.inRun = true →
    ((strFrom s [1 + mac.val]).filter fun k => strFld s k 40 8 = 17 && u16 (strArgs s k) 0 = port.toNat &&
      (u32 (strArgs s k) 4 = 0 || u32 (strArgs s k) 4 = src.toNat)) = [n] → (specField (strArgs s n) 32 bytes).isSome = true →
    sampleStamp s n (rxStamp s mac fast raw) (specTime s (strArgs s n) bytes) = some stamp →
    specValues (strKind s n) (strArgs s n) bytes = some vs →
    exec (.sensorDatagram mac fast src port bytes raw) s =
      .next { s with mem := { s.mem with samples := s.mem.samples ++ [sampleBody s n stamp vs] } })

/-- R328: SAFE_STATUS, CHANGELOG_READ and SAFE_REQUEST are never refused as SEALED or LOCKED, and SAFE_REQUEST latches
HOST_REQUEST in any role and any life state but RESET, LOADING and CLOAKROOM. -/
def Obligations.SafeRequestLatches : Prop :=
  (∀ (r : Req) (s : State), s.rst.life ≠ .reset → s.rst.life ≠ .loading → s.rst.life ≠ .cloakroom → r.payload = [] →
    Answers (.safeRequest r) 0x0905 r [] s (latchCause 5 s) ∧ (latchCause 5 s).safe.causes.getLsbD 5 = true) ∧
  (∀ (i : Instr) (code : Nat) (r : Req) (s : State),
    (i, code) ∈ [(.safeStatus r, 0x0902), (.changelogRead r, 0x0904), (.safeRequest r, 0x0905)] → mailboxDown s = false →
    ∃ st pay u, exec i s = .next (finish code r st pay u) ∧ st ≠ .sealed_ ∧ st ≠ .locked)

/-- Entering the safe state (R134, R291, R300, R301): the first cause latched is FIRST_CAUSE, every output is de-energised, every
enabled analog output stands at code zero, and every CMD_PATH context is unarmed and suppressed. A second cause joins the first
and leaves FIRST_CAUSE (R301, R302). -/
def Obligations.CauseLatched : Prop :=
  (∀ (n : Nat) (s : State), n < 16 → s.safe.causes = 0 → s.loop.ctx.length = 128 →
    (latchCause n s).safe.causes = BitVec.ofNat 16 (2 ^ n) ∧ (latchCause n s).safe.firstCause = n + 1 ∧ (latchCause n s).isSafe = true ∧
    (latchCause n s).safe.outs = 0 ∧ (∀ o < 8, (aoCfg s o).en = true → (aoOf (latchCause n s) o).code = 0) ∧
    (∀ c ∈ cmdPaths s, ((latchCause n s).loop.ctx.getD c {}).armed = false ∧ ((latchCause n s).loop.ctx.getD c {}).suppressed = true)) ∧
  (∀ (n : Nat) (s : State), n < 16 → s.safe.causes ≠ 0 →
    (latchCause n s).safe.causes = s.safe.causes ||| BitVec.ofNat 16 (2 ^ n) ∧ (latchCause n s).safe.firstCause = s.safe.firstCause ∧
    (latchCause n s).safe.outs = s.safe.outs)

/-- The output of a context's law lies between UMIN and UMAX, but for RATELIM in wrap mode; SCALE multiplies by the gated or the
plain coefficient; PID2 follows the formulas of R283 with the saturating arithmetic of R282. Readings of the model's own: log 14.
-/
def Obligations.LoopLaws : Prop :=
  (∀ (l : LoopCfg) (c : Ctx) (x : Q), sfld l.desc 224 32 ≤ sfld l.desc 256 32 → ¬ (l.law = 4 ∧ l.flag 6 = true) →
    sfld l.desc 224 32 ≤ (runLaw l c x).u ∧ (runLaw l c x).u ≤ sfld l.desc 256 32) ∧
  (∀ (l : LoopCfg) (c : Ctx) (x k : Int) (sh : Nat), l.law = 5 → c.gated = false → c.coefs.getD 0 (0, 0) = (k, sh + 1) →
    (runLaw l c (x, false)).v = sat32 ((k * x + 2 ^ sh) / 2 ^ (sh + 1))) ∧
  (∀ (l : LoopCfg) (c : Ctx) (x : Int), l.law = 1 →
    let m := fun i y => (mulQ (c.coefs.getD i (0, 0)) (y, false)).1
    let w := sat32 (m 6 c.r - x)
    let p := m 0 (sat32 (m 1 c.r - x))
    let d := sat32 (m 5 c.d + m 4 (sat32 (w - c.w1)))
    let v := sat32 (sat32 (p + c.i) + d)
    let u := min (max v (sfld l.desc 224 32)) (sfld l.desc 256 32)
    let o := runLaw l c (x, false)
    o.v = v ∧ o.u = u ∧ o.c.p = p ∧ o.c.d = d ∧ o.c.w1 = w ∧
      o.c.i = sat32 (c.i + sat32 (m 2 (sat32 (c.r - x)) + m 3 (sat32 (u - v)))))

/-- Time of the loop engine and loss of inputs (R54, R274, R281): a grid instant moves device time to the first TIME clock at or
after the next whole 100 µs and counts; a context in RUN whose input ceases enters HOLD; after HOLD it parks, or where it stands
parked already it is LOST. Readings of the model's own: log 27, 45. -/
def Obligations.LoopEvents : Prop :=
  (∀ s : State, linkRuns s = true → s.cyc.gridNs % 100000 = 0 → s.cyc.gridNs ≤ s.time.ns → s.time.ns ≤ s.cyc.gridNs + 100000 →
    ∃ t, exec .loopGridInstant s = .next t ∧ t.time = runTo (s.cyc.gridNs + 100000) s.time ∧ t.cyc.gridNs = s.cyc.gridNs + 100000 ∧
      t.cyc.grid = s.cyc.grid + 1 ∧ t.cyc.epoch = s.cyc.epoch ∧ t.dp = s.dp) ∧
  (∀ (n : Fin 128) (s : State), s.loop.ctx.length = 128 → ctxDefined s n = true → (s.cfg.loopOf n).inType ≤ 2 → (ctxOf s n).state = 2 →
    ∃ t, exec (.inputCeased n) s = .next t ∧ (ctxOf t n).state = 4 ∧ (ctxOf t n).ceased = true ∧ (ctxOf t n).inLost = true ∧
      (ctxOf t n).u = (ctxOf s n).u ∧ t.safe = s.safe ∧ t.cfg = s.cfg) ∧
  (∀ (n : Fin 128) (s : State), s.loop.ctx.length = 128 → (ctxOf s n).state = 4 → (ctxOf s n).u ≠ parkValue s n →
    ∃ t, exec (.holdExpiry n) s = .next t ∧ (ctxOf t n).state = 3 ∧ (ctxOf t n).toLost = true ∧ (ctxOf t n).parkAt = parkValue s n ∧
      t.cfg = s.cfg ∧ t.safe.causes = s.safe.causes) ∧
  (∀ (n : Fin 128) (s : State), s.loop.ctx.length = 128 → (ctxOf s n).state = 4 → (ctxOf s n).u = parkValue s n → (ctxOf s n).writes = [] →
    (s.cfg.loopOf n).cmdPath = false → ∃ t, exec (.holdExpiry n) s = .next t ∧ (ctxOf t n).state = 5 ∧
      (ctxOf t n).counts = addAt (ctxOf s n).counts 5 1 ∧ t.cfg = s.cfg ∧ t.safe.causes = s.safe.causes)

/-- Class 0x05 (R278, R284, R285, R296 to R298): an accepted definition is kept and its context stands IDLE at its park value; a
coefficient is written with a shift; a context is enabled from IDLE, its target set, its status read; a trace unit is armed,
disarmed and read. Readings of the model's own: log 44, 46, 75. -/
def Obligations.LoopCommands : Prop :=
  (∀ (r : Req) (s : State), let l : LoopCfg := { desc := BitVec.ofNat 384 (ule r.payload 0 48), coefs := List.replicate 10 (0, 0) }
    let n := l.f 0 8
    Takes 0x0501 r [] s → r.payload.length = 48 → s.loop.ctx.length = 128 → s.cfg.loops.length = 128 → (ctxOf s n).state = 0 → loopRange l = false →
    l.outType = 0 → l.gate = 0 → loopNoSource s n l = false → loopFull s n l = false →
    ∃ u, Answers (.loopDefine r) 0x0501 r [] s u ∧ (ctxOf u n).state = 1 ∧ (u.cfg.loopOf n).desc = l.desc ∧ u.safe = s.safe ∧ u.dp = s.dp) ∧
  (∀ (r : Req) (s : State), let n := u8 r.payload 0
    let l := s.cfg.loopOf n
    let gen := (ctxOf s n).gen + BitVec.ofNat 16 ((ctxOf s n).writes.length + 1)
    Takes 0x0502 r (leBytes 2 gen.toNat) s → r.payload.length = 8 → n ≤ 127 → (ctxOf s n).state ≠ 0 → u8 r.payload 1 < lawCoefs l.law →
    u8 r.payload 2 ≤ 47 → l.law ≠ 4 → l.gate = 0 →
    Answers (.loopCoefWrite r) 0x0502 r (leBytes 2 gen.toNat) s (acceptCoef n (u8 r.payload 1) (i32 r.payload 4) (u8 r.payload 2) s)) ∧
  (∀ (r : Req) (s : State), let n := u8 r.payload 0
    let u := driveOutputs (enableCtx n 0 s)
    Takes 0x0503 r (leBytes 1 (ctxOf u n).state) s → r.payload.length = 8 → n ≤ 127 → u8 r.payload 1 = 1 → s.loop.ctx.length = 128 →
    (ctxOf s n).state = 1 → (s.cfg.loopOf n).cmdPath = false →
    Answers (.loopControl r) 0x0503 r (leBytes 1 (ctxOf u n).state) s u ∧ (ctxOf u n).state = 2) ∧
  (∀ (r : Req) (s : State), let n := u8 r.payload 0
    let u := driveOutputs (updCtx n (fun c => { c with target := i32 r.payload 4, restart := true }) s)
    Takes 0x0503 r (leBytes 1 (ctxOf u n).state) s → r.payload.length = 8 → n ≤ 127 → u8 r.payload 1 = 2 → (ctxOf s n).state ≠ 0 →
    (s.cfg.loopOf n).f 128 8 = 0xFF → Answers (.loopControl r) 0x0503 r (leBytes 1 (ctxOf u n).state) s u) ∧
  (∀ (r : Req) (s : State), let n := u8 r.payload 0
    let pay := leBytes 8 (ctxWord s n) ++ words (ctxOf s n).counts
    Takes 0x0506 r pay s → r.payload.length = 3 → n ≤ 127 → u8 r.payload 1 = 1 → Answers (.loopStatus r) 0x0506 r pay s
      (if bit (u8 r.payload 2) 0 then updCtx n (fun c => { c with counts := List.replicate 7 0 }) s else s)) ∧
  (∀ (r : Req) (s : State), let w : BitVec 128 := BitVec.ofNat 128 (ule r.payload 0 16)
    let u := fld w 0 8
    Takes 0x0504 r [1] s → r.payload.length = 16 → u ≤ 7 → s.loop.trace.length = 8 → fld w 24 8 = 0 → fld w 32 8 ≤ 127 → fld w 40 8 ≤ 10 →
    fld w 48 8 ≤ 4 → fld w 56 8 ≠ 0 → fld w 16 8 = 0 → (s.loop.trace.getD u {}).state = 0 → (ctxOf s (fld w 32 8)).state ≠ 0 →
    Answers (.traceArm r) 0x0504 r [1] s { s with loop := { s.loop with trace := s.loop.trace.set u { state := 1, word := w } } }) ∧
  (∀ (r : Req) (s : State), let t := s.loop.trace.getD (u8 r.payload 0) {}
    let first := u16 r.payload 2
    let n := u8 r.payload 4
    let pay := traceHeader t first n ++ ((t.buf.reverse.drop first).take n).flatMap fun w => leBytes 4 w.toNat
    Takes 0x0505 r pay s → r.dma = none → r.payload.length = 5 → u8 r.payload 0 ≤ 7 → t.state = 3 → 1 ≤ n → n ≤ 56 → first + n ≤ t.buf.length →
    Answers (.traceRead r) 0x0505 r pay s s)

/-- Safety outputs and the glove test (R310 to R313): a pulse starts on an energised output; seen off, it goes on; a pulse not
seen off on an output of group 0 latches GLOVE, on another group trips the group; the pin returns; a static disagreement on group
0 latches READBACK. Safety inputs (R316, R318): both channels of a NORMAL pair high make it ASSERTED; channels that differ for the
discrepancy time make it DISCREPANT with the alarm; where the pair's function is SAFE_STOP either latches SAFE_STOP. Readings of
the model's own: log 48. -/
def Obligations.SafetyPins : Prop :=
  (∀ (out : Fin 16) (t : Nat) (s : State), s.safe.outs.getLsbD out = true → fld (soWord s out) 6 1 = 1 → pulseInstant s out = some t →
    (gloveOf s out).onSince + 10000000 ≤ t → s.safe.gloveWait = false → s.safe.gloveFrom ≤ t → (gloveOf s out).phase = 0 → (gloveOf s out).pulseAt ≠ some t →
    exec (.glovePulseStart out) s = .next (updGlove out (fun g => { g with phase := 1, pulseAt := some t, pulseUs := fld s.cfg.safeGlobal 32 16 }) s)) ∧
  (∀ (out : Fin 16) (low high : Bool) (s : State), (gloveOf s out).phase = 1 → 150 ≤ (gloveOf s out).pulseUs →
    ((low && !readsOn s out false) || (high && !readsOn s out true)) = true →
    exec (.gloveOffWindowEnd out ⟨low, high⟩) s = .next (updGlove out (fun g => { g with phase := g.phase + 1 }) s)) ∧
  (∀ (out : Fin 16) (low high : Bool) (s : State), (gloveOf s out).phase = 1 → 150 ≤ (gloveOf s out).pulseUs → soGroup s out = 0 →
    ((low && !readsOn s out false) || (high && !readsOn s out true)) = false → ∃ t, exec (.gloveOffWindowEnd out ⟨low, high⟩) s = .next t ∧ t.safe.causes.getLsbD 2 = true ∧ (gloveOf t out).phase = 0) ∧
  (∀ (out : Fin 16) (low high : Bool) (s : State), (gloveOf s out).phase = 1 → 150 ≤ (gloveOf s out).pulseUs → soGroup s out ≠ 0 →
    ((low && !readsOn s out false) || (high && !readsOn s out true)) = false → ∃ t, exec (.gloveOffWindowEnd out ⟨low, high⟩) s = .next t ∧ t.safe.groupTrip.getLsbD (soGroup s out - 1) = true ∧
      t.safe.causes = s.safe.causes ∧ ∀ o < 16, soGroup s o = soGroup s out → t.safe.outs.getLsbD o = false) ∧
  (∀ (out : Fin 16) (s : State), (gloveOf s out).phase = 2 → 150 ≤ (gloveOf s out).pulseUs →
    exec (.glovePulseEnd out) s = .next (updGlove out (fun g => { g with phase := g.phase + 2 }) s)) ∧
  (∀ (out : Fin 16) (high : Bool) (s : State), (gloveOf s out).phase = 4 → s.safe.gloveWait = false → readsOn s out high = true →
    exec (.gloveReturnWindowEnd out high) s = .next (updGlove out (fun g => { g with phase := 0 }) s)) ∧
  (∀ (out : Fin 16) (high : Bool) (s : State), (gloveOf s out).phase = 0 → s.safe.outs.getLsbD out = true → soGroup s out = 0 →
    readsOn s out high = false → ∃ t, exec (.staticReadbackMismatch out high) s = .next t ∧ t.safe.causes.getLsbD 3 = true) ∧
  (∀ (n : Fin 8) (s : State), s.safe.pairs.length = 8 → pairState s n = 1 → s.safe.siLevels.getLsbD (2 * n) = false →
    s.safe.siLevels.getLsbD (2 * n + 1) = true →
    ∃ t, exec (.siChannelChange ⟨2 * n.val, by omega⟩ true) s = .next t ∧ t.safe.siLevels.getLsbD (2 * n) = true ∧ pairState t n = 2 ∧
      (fld (siWord s n) 4 2 = 1 → t.safe.causes.getLsbD 4 = true) ∧ t.cfg = s.cfg) ∧
  (∀ (n : Fin 8) (s : State), s.safe.pairs.length = 8 → pairState s n = 1 →
    s.safe.siLevels.getLsbD (2 * n) ≠ s.safe.siLevels.getLsbD (2 * n + 1) →
    ∃ t, exec (.siDiscrepancy n) s = .next t ∧ pairState t n = 3 ∧ alarmOn t 0x0914 s.dev = true ∧
      (fld (siWord s n) 4 2 = 1 → t.safe.causes.getLsbD 4 = true) ∧ t.cfg = s.cfg)

/-- The monitors and the reaction counters (R55, R62, R301, R304, R306, Table 9.1): a reading out of range latches the cause of
its monitor and is noted; one in range is noted and latches nothing; the domains without a clock on a worker are not monitored; an
expired counter that runs drives its outputs low or latches the cause of its row, and one that does not run changes nothing.
Readings of the model's own: log 10, 51. -/
def Obligations.Monitors : Prop :=
  (∀ (d : Fin 17) (s : State), (s.variant = .WK → d.val ∉ [2, 3, 9, 11, 15]) → ∃ t, exec (.clockFault d false) s = .next t ∧
    t.safe.causes.getLsbD 7 = true ∧ t.safe.clockBad = s.safe.clockBad ||| BitVec.ofNat 17 (2 ^ d.val) ∧ t.cfg = s.cfg) ∧
  (∀ (d : Fin 17) (s : State), (s.variant = .WK → d.val ∉ [2, 3, 9, 11, 15]) → exec (.clockFault d true) s =
    .next { s with safe := { s.safe with clockBad := s.safe.clockBad &&& ~~~(BitVec.ofNat 17 (2 ^ d.val)) } }) ∧
  (∀ (d : Fin 17) (ok : Bool) (s : State), s.variant = .WK → d.val ∈ [2, 3, 9, 11, 15] → exec (.clockFault d ok) s = .next s) ∧
  (∀ (d : Fin 9) (s : State), d ≠ 8 ∨ s.ao.any (·.powered) = true → ∃ t, exec (.supplyFault d .outside5) s = .next t ∧
    t.safe.causes.getLsbD 8 = true ∧ t.safe.railBad = s.safe.railBad ||| BitVec.ofNat 9 (2 ^ d.val) ∧
    t.safe.railNot4 = s.safe.railNot4 ||| BitVec.ofNat 9 (2 ^ d.val) ∧ t.cfg = s.cfg) ∧
  (∀ s : State, s.ao.any (·.powered) = false → exec (.supplyFault 8 .outside5) s =
    .next { s with safe := { s.safe with railBad := s.safe.railBad ||| 0x100, railNot4 := s.safe.railNot4 ||| 0x100 } }) ∧
  (∀ (d : Fin 9) (s : State), let m := BitVec.ofNat 9 (2 ^ d.val)
    exec (.supplyFault d .within5) s =
      .next { s with safe := { s.safe with railBad := s.safe.railBad &&& ~~~m, railNot4 := s.safe.railNot4 ||| m } } ∧
    exec (.supplyFault d .within4) s =
      .next { s with safe := { s.safe with railBad := s.safe.railBad &&& ~~~m, railNot4 := s.safe.railNot4 &&& ~~~m } }) ∧
  (∀ (c : Int) (s : State), 150 < c → ∃ t, exec (.overtemp c) s = .next t ∧ t.safe.causes.getLsbD 9 = true ∧ t.safe.celsius = c ∧ t.cfg = s.cfg) ∧
  (∀ (c : Int) (s : State), c ≤ 150 → exec (.overtemp c) s = .next { s with safe := { s.safe with celsius := c } }) ∧
  (∀ s : State, ∃ t, exec (.scDisagree false) s = .next t ∧ t.safe.causes.getLsbD 14 = true ∧ t.safe.halvesAgree = false ∧ t.cfg = s.cfg) ∧
  (∀ s : State, exec (.scDisagree true) s = .next { s with safe := { s.safe with halvesAgree := true } }) ∧
  (∀ s : State, s.safe.counters.getLsbD 0 = true → ∃ t, exec (.faultReactionCounter 0) s = .next t ∧ t.safe.counters.getLsbD 0 = false ∧
    (∀ o < 16, t.safe.outs.getLsbD o = (s.safe.outs.getLsbD o && !s.dpeOuts.contains o)) ∧ t.safe.causes = s.safe.causes ∧ t.cfg = s.cfg) ∧
  (∀ s : State, s.safe.counters.getLsbD 1 = true → ∃ t, exec (.faultReactionCounter 1) s = .next t ∧
    t.safe.outs = s.safe.outs &&& ~~~gloveForced s ∧ t.safe.gloveBad = 0 ∧ t.safe.counters.getLsbD 1 = false ∧ t.safe.causes = s.safe.causes ∧ t.cfg = s.cfg ∧ t.loop = s.loop) ∧
  (∀ s : State, s.safe.counters.getLsbD 2 = true → 1 ≤ s.safe.compareEpochs → s.safe.compareLatched = false → ∃ t, exec (.faultReactionCounter 2) s = .next t ∧ t.safe.causes.getLsbD 11 = true ∧
    t.safe.counters.getLsbD 2 = false ∧ t.cfg = s.cfg) ∧
  (∀ s : State, s.safe.counters.getLsbD 3 = true → 2 ≤ s.safe.takeoverEpochs → ∃ t, exec (.faultReactionCounter 3) s = .next t ∧
    t.safe.causes.getLsbD 15 = true ∧ t.safe.silentCause = 2 ∧ t.safe.counters.getLsbD 3 = false ∧ t.cfg = s.cfg) ∧
  (∀ (path : Fin 4) (s : State), s.safe.counters.getLsbD path = false → exec (.faultReactionCounter path) s = .next s)

/-- SAFE_RESET_N and the strap monitor (R319, R320, R322): the falling edge notes the causes latched so far; a rise after 50 ms to
5 s clears exactly those noted causes whose clearing condition holds; a shorter or longer low clears none; five seconds low raise
RESET_STUCK; a strap pin that differs from the latch is reported once. Readings of the model's own: log 48, 49. -/
def Obligations.SafeResetPin : Prop :=
  (∀ s : State, s.safe.pinLow = false → exec .safeResetNFall s =
    .next { s with safe := { s.safe with pinLow := true, atFall := s.safe.causes } }) ∧
  (∀ (ms : Nat) (s : State), s.safe.pinLow = true → 50 ≤ ms → ms ≤ 5000 → ∃ t, exec (.safeResetNRise ms) s = .next t ∧ t.safe.pinLow = false ∧
    (∀ n < 16, t.safe.causes.getLsbD n = (s.safe.causes.getLsbD n && !(s.safe.atFall.getLsbD n && mayClear s n))) ∧
    (t.safe.causes = 0 → t.safe.firstCause = 0) ∧ t.cfg = s.cfg ∧ t.dp = s.dp) ∧
  (∀ (ms : Nat) (s : State), s.safe.pinLow = true → ms < 50 ∨ 5000 < ms → ∃ t, exec (.safeResetNRise ms) s = .next t ∧
    t.safe.causes = s.safe.causes ∧ t.safe.outs = s.safe.outs ∧ t.safe.pinLow = false ∧ t.cfg = s.cfg) ∧
  (∀ s : State, s.safe.pinLow = true → s.safe.resetStuck = false → ∃ t, exec .resetStuck s = .next t ∧ t.safe.resetStuck = true ∧
    alarmOn t 0x091C s.dev = true ∧ t.safe.causes = s.safe.causes ∧ t.cfg = s.cfg) ∧
  (∀ (pins : BitVec 12) (s : State), (pins ^^^ s.rst.straps) &&& ~~~s.rst.strapDiff ≠ 0 → ∃ t, exec (.strapSample pins) s = .next t ∧
    t.rst.strapChanged = true ∧ t.rst.straps = s.rst.straps ∧ alarmOn t 0x0915 s.dev = true ∧ t.safe = s.safe ∧ t.cfg = s.cfg)

/-- Protection (R307, R323, R324, R326, R327): a sealed device refuses SAFE_CONFIG as SEALED, a device without an open window as
LOCKED; with the window open a valid configuration comes into force; the first UNLOCK sets the password and opens a window of ten
minutes; the window and the lockout end; the change log is read from a SEQ on; SAFE_STATUS changes nothing. Readings of the
model's own: log 3, 50. -/
def Obligations.Protection : Prop :=
  (∀ (r : Req) (s : State), Takes 0x0901 r [] s → r.payload.length = 56 → s.strap 7 = true → Refuses (.safeConfig r) 0x0901 r .sealed_ s) ∧
  (∀ (r : Req) (s : State), Takes 0x0901 r [] s → r.payload.length = 56 → s.strap 7 = false → s.strap 8 = true → s.safe.unlockOpen = true →
    safeRange r.payload = false → s.safe.outs = 0 → ∃ u, Answers (.safeConfig r) 0x0901 r [] s u ∧
      u.cfg.so = safeSo r.payload ∧ u.cfg.si = safeSi r.payload ∧ u.cfg.safeGlobal = safeGlob r.payload) ∧
  (∀ (r : Req) (s : State), ∃ pay, pay.take 4 = leBytes 4 s.safeStat.toNat ∧
    (Takes 0x0902 r pay s → r.payload = [] → Answers (.safeStatus r) 0x0902 r pay s s)) ∧
  (∀ (r : Req) (s : State), let pw := (r.payload.drop 2).take (u8 r.payload 1)
    let pay := leBytes 2 (s.safe.session + 1).toNat ++ leBytes 2 600
    Takes 0x0903 r pay s → r.payload.length = 18 → s.strap 7 = false → s.strap 8 = true → u8 r.payload 0 = 0 → s.mram.lockoutMs = 0 →
    passOk (u8 r.payload 1) pw = true → s.mram.passDigest = none → s.safe.unlockOpen = false →
    ∃ u, Answers (.unlock r) 0x0903 r pay s u ∧ u.safe.unlockOpen = true ∧ u.safe.unlockMs = 600000 ∧
      u.mram.passDigest = some (Config.passDigest pw) ∧ u.cfg = s.cfg ∧ u.safe.causes = s.safe.causes) ∧
  (∀ s : State, s.safe.unlockOpen = true → ∃ t, exec .unlockExpiry s = .next t ∧ t.safe.unlockOpen = false ∧ t.cfg = s.cfg ∧
    t.safe.causes = s.safe.causes ∧ t.mram.bank0 = s.mram.bank0 ∧ t.mram.bank1 = s.mram.bank1) ∧
  (∀ s : State, exec .lockoutEnd s = .next { s with mram := { s.mram with lockoutMs := 0 } }) ∧
  (∀ (r : Req) (e : LogEntry) (s : State), let pay := leBytes 2 (s.mram.logSeq - 1).toNat ++ leBytes 6 1 ++ logBytes e
    Takes 0x0904 r pay s → r.payload.length = 3 → 1 ≤ u8 r.payload 2 → u8 r.payload 2 ≤ 7 → s.mram.log = [e] → s.mram.logBad = [] →
    u16 r.payload 0 = e.seq.toNat → Answers (.changelogRead r) 0x0904 r pay s s)

/-- The recorder (R399, R524 to R527, R529, R530): a cursor inside the ring is set; a window reads from the cursor and advances it
on request; a histogram is read, and configuring one clears its data; a quota is kept and its bucket cut to the burst; a bucket
below its burst gains a token; a manager stores a received record whose CRC passes; a received TRACE frame changes nothing.
Readings of the model's own: log 70, 72. -/
def Obligations.Recorder : Prop :=
  (∀ (r : Req) (s : State), let c := w32 r.payload 4
    let pay := leBytes 12 (pack [(32, c.toNat), (32, (s.mram.head - 1).toNat), (32, (oldestRec s).toNat)])
    Takes 0x0A01 r pay s → r.payload.length = 8 → u8 r.payload 0 = 0 → 0 ≤ epochDiff c (oldestRec s) →
    Answers (.recordCursorSet r) 0x0A01 r pay s { s with rcd := { s.rcd with cursors := put s.rcd.cursors (cursorKey r.path) c } }) ∧
  (∀ (r : Req) (num : Word) (e : EvRec) (s : State), let pay := leBytes 4 num.toNat ++ leBytes 4 1 ++ ringBytes s num e
    Takes 0x0A02 r pay s → r.payload.length = 3 → 1 ≤ u8 r.payload 0 → u8 r.payload 0 ≤ 7 → bit (u8 r.payload 1) 0 = true → u8 r.payload 2 ≤ e.sev →
    s.mram.ring = [(num, e)] → s.mram.head = num + 1 → s.rcd.cursors = [] →
    Answers (.recordWindowRead r) 0x0A02 r pay s { s with rcd := { s.rcd with cursors := [(cursorKey r.path, num + 1)] } }) ∧
  (∀ (r : Req) (s : State), let q := u8 r.payload 0
    Takes 0x0A03 r (histoBytes s q) s → r.payload.length = 2 → q ≤ 63 → bit (u8 r.payload 1) 0 = false →
    Answers (.histoRead r) 0x0A03 r (histoBytes s q) s s) ∧
  (∀ (r : Req) (s : State), let p := r.payload
    Takes 0x0A05 r [] s → p.length = 20 → u8 p 0 ≤ 63 → u8 p 2 ≤ 9 → 1 ≤ u8 p 6 → u8 p 6 ≤ 32 → u32 p 12 ≠ 0 → bits (u8 p 3) 0 2 ≠ 3 →
    ∃ u, Answers (.histoConfig r) 0x0A05 r [] s u ∧ u.cfg = { s.cfg with histos := s.cfg.histos.set (u8 p 0) p } ∧
      u.mram.histo = s.mram.histo.set (u8 p 0) [] ∧ u.safe = s.safe ∧ u.dp = s.dp) ∧
  (∀ (r : Req) (s : State), let code := BitVec.ofNat 16 (u16 r.payload 0)
    let n := u8 r.payload 2
    Takes 0x0A04 r [] s → r.payload.length = 8 → codeDefined (u16 r.payload 0) = true → n ≠ 0 → 10 ≤ u32 r.payload 4 → u32 r.payload 4 ≤ 3600000 →
    ∃ u, Answers (.quotaSet r) 0x0A04 r [] s u ∧ quotaOf u code = (n, u32 r.payload 4) ∧
      (bucketOf u code).tokens = min (bucketOf s code).tokens n ∧ u.safe = s.safe ∧ u.dp = s.dp) ∧
  (∀ (code : BitVec 16) (s : State), s.supRuns = true → (bucketOf s code).tokens + 1 < (quotaOf s code).1 →
    exec (.tokenRefill code) s = .next (setBucket { bucketOf s code with tokens := (bucketOf s code).tokens + 1 } s)) ∧
  (∀ (src : Fin 64) (num : Word) (e : EvRec) (s : State), s.supRuns = true → s.isManager = true → s.brd.images = [] → e.code ≠ 0x0A11 →
    exec (.recordFrame src [(num, e, BitVec.ofNat 16 (recCrc num e))]) s = .next (offer { e with supp := 0 } e.supp false s)) ∧
  (∀ (src : Fin 64) (ws : List Word) (s : State), exec (.traceFrame src ws) s = .next s)

/-- The archive (R531, R533 to R541): a mount that succeeds adopts the part's geometry and ends in state 2 or 3, one that fails in
state 4; a page program that ends maps its chunks into the block, one that fails retires the block and stages the chunks again; an
erased block is free with its erase count one higher, or is retired; the patrol counts re-reads and schedules a refresh where one
is due; a whole-hour snapshot and the end of a capture stage their chunks; a power failure keeps one padded page, programs it,
then protects the medium, and archiving resumes from ARCH_NEXT; ARCHIVE_STATUS answers the state and with CLEAR clears its
counters; ARCHIVE_READ answers a held chunk with its number and status by DMA alone. Readings of the model's own: log 20, 71. -/
def Obligations.Archive : Prop :=
  (∀ (m : Mount) (s : State), s.arch.state = 1 → m.qualified = true → m.tableOk = true → m.timedOut = false →
    ∃ t, exec (.archiveMountDone m) s = .next t ∧ (t.arch.state = 2 ∨ t.arch.state = 3) ∧ t.arch.pageChunks = m.pageChunks ∧
      t.arch.blockPages = m.blockPages ∧ t.arch.endurance = m.endurance ∧ t.arch.replays = satAdd s.arch.replays s.arch.journal ∧
      t.arch.writeProtect = false ∧ t.arch.pfail = none ∧ t.arch.blks.map (fun b => (b.num, b.retired)) =
        (if s.arch.blks = [] then (List.range m.blocks).map fun n => (n, m.badBlocks.contains n) else s.arch.blks.map fun b => (b.num, b.retired)) ∧
      t.safe = s.safe ∧ t.cfg = s.cfg ∧ t.dp = s.dp) ∧
  (∀ (m : Mount) (s : State), s.arch.state = 1 → m.qualified = false ∨ m.tableOk = false ∨ m.timedOut = true →
    ∃ t, exec (.archiveMountDone m) s = .next t ∧ t.arch.state = 4 ∧ t.arch.blks = s.arch.blks ∧ t.safe = s.safe ∧ t.cfg = s.cfg) ∧
  (∀ (b : Nat) (s : State), s.arch.openBlk = some b → s.arch.page ≠ [] →
    ∃ u, exec (.nandProgramDone true) s = .next (pfailPump (archivePump u)) ∧ u.arch.page = [] ∧ u.arch.staging = s.arch.staging ∧
      (∀ c ∈ s.arch.page, (look u.arch.chunks (w32 c.2 0)).isSome = true) ∧
      u.arch.blks.map (·.pages) = s.arch.blks.map (fun x => if x.num = b then x.pages + 1 else x.pages) ∧
      u = { s with arch := u.arch, mram := u.mram }) ∧
  (∀ (b : Nat) (s : State), s.arch.openBlk = some b → s.arch.page ≠ [] →
    ∃ u, exec (.nandProgramDone false) s = .next (pfailPump (archivePump u)) ∧ u.arch.page = [] ∧ u.arch.openBlk = none ∧
      u.arch.staging = s.arch.page.map (fun x => (0, x.2)) ++ s.arch.staging ∧ u.arch.chunks = s.arch.chunks ∧
      u.arch.blks = s.arch.blks.map (fun x => if x.num = b then { x with retired := true } else x) ∧ u.safe = s.safe ∧ u.cfg = s.cfg) ∧
  (∀ (b : Nat) (s : State), b ∈ s.arch.erasing → ∃ u, exec (.nandEraseDone b true) s = .next (archivePump u) ∧
    b ∉ u.arch.erasing ∧ u.arch.blks.map (fun x => (x.num, x.erases, x.pages, x.chunks)) =
      s.arch.blks.map (fun x => if x.num = b then (x.num, x.erases + 1, 0, []) else (x.num, x.erases, x.pages, x.chunks)) ∧
    u.safe = s.safe ∧ u.cfg = s.cfg ∧ u.dp = s.dp) ∧
  (∀ (b : Nat) (s : State), b ∈ s.arch.erasing → ∃ u, exec (.nandEraseDone b false) s = .next (archivePump u) ∧
    b ∉ u.arch.erasing ∧ u.arch.blks = s.arch.blks.map (fun x => if x.num = b then { x with retired := true } else x) ∧
    u.safe = s.safe ∧ u.cfg = s.cfg ∧ u.dp = s.dp) ∧
  (∀ (b bits retries age : Nat) (x : Blk) (s : State), s.arch.state = 2 ∨ s.arch.state = 3 → s.arch.blks.find? (·.num = b) = some x →
    x.chunks ≠ [] → ∃ u, exec (.archivePatrol b bits retries age) s = .next (archivePump u) ∧
      u.arch.blks = s.arch.blks.map (fun y => if y.num = b then { y with retries := retries } else y) ∧
      u.arch.rereads = s.arch.rereads + min retries 3 ∧ u.arch.crcFails = s.arch.crcFails + (if 3 < retries then 1 else 0) ∧
      (if 48 ≤ bits ∨ 1 ≤ retries ∨ 180 ≤ age then b ∈ u.arch.refresh else u.arch.refresh = s.arch.refresh) ∧ u.safe = s.safe ∧ u.cfg = s.cfg) ∧
  (∀ s : State, s.isManager = true → exec .histoHourlySnapshot s = .next (archivePump (snapshotHistos [] s))) ∧
  (∀ s : State, s.isManager = false → exec .histoHourlySnapshot s = .next s) ∧
  (∀ (c : Capture) (i : Image) (s : State), openCapture s = some c → s.newest = some i → 0 ≤ epochDiff i.epoch c.end_ →
    let k := if c.tail.length + 16 > 4060 then 2 else 1
    ∃ u, exec .incidentCaptureClose s = .next (archivePump u) ∧
      (∃ x ∈ u.arch.captures, x.number = c.number ∧ x.closed = true ∧ x.parts = c.parts + k ∧ x.tail = []) ∧
      u.arch.captures.length = s.arch.captures.length ∧ u.arch.staging.length = s.arch.staging.length + k ∧ u.safe = s.safe ∧ u.cfg = s.cfg) ∧
  (∀ (s : State), let l := (takeStaged s.arch.pageChunks s.arch.staging).1
    let pad := if l = [] then 0 else s.arch.pageChunks - l.length
    s.variant ≠ .WK → s.arch.pfail = none → s.arch.page ≠ [] → exec .powerFailNFall s = .next { s with arch := { s.arch with
      staging := l ++ List.replicate pad (8, chunkBody s 0 0 0 0 0 []), pfail := some (0, pad), resuming := false } }) ∧
  (∀ (b : Nat) (s : State), s.variant ≠ .WK → s.arch.pfail = none → s.arch.page = [] → s.arch.staging ≠ [] → s.arch.writeProtect = false →
    s.arch.state = 2 → s.arch.openBlk = some b → 1 ≤ s.arch.pageChunks → (∀ x ∈ s.arch.staging, x.1 ≤ 8) →
    ∃ t, exec .powerFailNFall s = .next t ∧ t.arch.page.length = s.arch.pageChunks ∧ t.arch.staging = [] ∧ t.arch.writeProtect = false ∧
      t.arch.openBlk = some b ∧ t.safe = s.safe ∧ t.cfg = s.cfg) ∧
  (∀ s : State, s.variant ≠ .WK → s.arch.pfail = none → s.arch.staging = [] → s.arch.page = [] → s.arch.writeProtect = false →
    ∃ t, exec .powerFailNFall s = .next t ∧ t.arch.writeProtect = true ∧ t.arch.pfail = some (0, 0) ∧ t.arch.staging = [] ∧
      t.safe = s.safe ∧ t.cfg = s.cfg) ∧
  (∀ s : State, exec .powerFailNRise s = .next { s with arch := { s.arch with resuming := s.arch.pfail.isSome } }) ∧
  (∀ s : State, s.arch.resuming = true → exec .archiveResume s = .next (archivePump { s with arch := { s.arch with
    resuming := false, pfail := none, writeProtect := false, recNext := s.mram.archNext } })) ∧
  (∀ s : State, s.arch.resuming = false → exec .archiveResume s = .next s) ∧
  (∀ (r : Req) (s : State), let a := s.arch
    let held := a.chunks.filter fun c => u8 c.2 12 ≠ 0
    let good := goodBlks s
    let pay := leBytes 1 a.state ++ leBytes 3 0 ++ words [good.length, badBlks s, ((leastWorn good).map (·.erases)).getD 0, ((mostWorn good).map (·.erases)).getD 0,
      a.refresh.length, (held.head?.map fun c => u32 c.2 24).getD 0, (held.getLast?.map fun c => u32 c.2 28).getD 0, a.rereads, a.crcFails,
      a.replays, a.nCaptures]
    Takes 0x0A06 r pay s → r.payload.length = 1 →
    Answers (.archiveStatus r) 0x0A06 r pay s (if bit (u8 r.payload 0) 0 then { s with arch := { s.arch with
      rereads := 0, crcFails := 0, replays := 0, nCaptures := 0 } } else s)) ∧
  (∀ (r : Req) (d : Dma) (c : List Byte) (s : State), let n := w32 r.payload 0
    let pay := leBytes 8 n.toNat ++ c
    Takes 0x0A07 r pay s → r.payload.length = 4 → r.dma = some d → n ≠ 0xFFFFFFFF → look s.arch.chunks n = some c →
    (∀ b ∈ s.arch.blks, n ∈ b.chunks → b.retries = 0) → Answers (.archiveRead r) 0x0A07 r pay s s) ∧
  (∀ (r : Req) (d : Dma) (c : List Byte) (b : Blk) (s : State), let n := w32 r.payload 0
    let pay := leBytes 4 n.toNat ++ leBytes 4 1 ++ c
    Takes 0x0A07 r pay s → r.payload.length = 4 → r.dma = some d → n ≠ 0xFFFFFFFF → look s.arch.chunks n = some c →
    s.arch.blks.find? (·.chunks.contains n) = some b → 1 ≤ b.retries → b.retries ≤ 3 →
    ∃ u, Answers (.archiveRead r) 0x0A07 r pay s u ∧ u.arch.rereads = s.arch.rereads + b.retries ∧ u = { s with arch := u.arch }) ∧
  (∀ (r : Req) (s : State), Takes 0x0A07 r [] s → r.payload.length = 4 → r.dma = none → Refuses (.archiveRead r) 0x0A07 r .badArg s) ∧
  (∀ (r : Req) (d : Dma) (s : State), Takes 0x0A07 r [] s → r.payload.length = 4 → r.dma = some d → w32 r.payload 0 ≠ 0xFFFFFFFF →
    look s.arch.chunks (w32 r.payload 0) = none → Refuses (.archiveRead r) 0x0A07 r .stale s)

/-- The solver's events (R240, R251, R256, R271): a scenario's structure is the main one cut to its number of stages; a solve that
ends frees its pair and has a solution to use where it converged; at the outcome instant of a problem every pair and the queue are
empty, and a manager contributes its outcome word; the throttle level follows the temperature upward at once with 0x0410. Readings
of the model's own: log 4. -/
def Obligations.SolverEvents : Prop :=
  (∀ (n : Fin 16) (s : State), n.val < s.variant.scens → (stallOf s (firstScen s + n)).state = 7 → (stallOf s (firstScen s + n)).desc = [] → (stallOf s 0).mainDesc ≠ [] →
    s.sol.stalls.length = 32 → firstScen s + n < 32 → ∃ t, exec (.scenarioBuildComplete n) s = .next t ∧
      (stallOf t (firstScen s + n)).state = 7 ∧ (stallOf t (firstScen s + n)).sig = signature (stallOf t (firstScen s + n)).desc ∧
      (stallOf t (firstScen s + n)).desc = truncatedDesc (stallOf s 0).mainDesc
        (min (u8 (s.cfg.scens.getD n []) 1) (nStages (stallOf s 0).mainDesc)) ∧ (stallOf t (firstScen s + n)).cert = (stallOf s 0).cert ∧
      (∀ j, j ≠ firstScen s + n → stallOf t j = stallOf s j) ∧ t = { s with sol := t.sol }) ∧
  (∀ (n : Fin 32) (p : Nat) (s : State), ((List.range 4).find? fun p => s.sol.pairs.getD p none = some n.val) = some p → s.sol.queue = [] →
    s.sol.stalls.length = 32 → ∃ t, exec (.solveDone n) s = .next t ∧ t.sol.pairs = s.sol.pairs.set p none ∧ (stallOf t n).candOk =
      decide (((solveIn s n).solve (stallOf s n).start (budgetOf s n)).verdict = 0) ∧ t.dp = s.dp ∧ t.safe = s.safe ∧ t.cfg = s.cfg) ∧
  (∀ s : State, s.sol.running = true → s.isMgrRole = true → ∃ u, exec .outcomeInstant s =
      .next (sendContribs (epochP u (solFirst u)) [mkContrib u 5 0xFF 2 (outcomeWord u) (epochP u (solFirst u))] u) ∧
      u.sol.pairs = [none, none, none, none] ∧ u.sol.queue = [] ∧ u.sol.running = false ∧ u.dp = s.dp ∧ u.safe = s.safe ∧ u.cfg = s.cfg) ∧
  (∀ (c : Int) (s : State), s.variant ≠ .WK → s.sol.throttle = 0 → 146 ≤ c →
    exec (.throttleSample c) s = .next (event 0x0410 2 [0, 3, intBits 32 c] { s with sol := { s.sol with throttle := 3, coolMs := 0 } }))

/-- Class 0x04 (R236, R246, R249, R268, R269): a structure that passes every check becomes PENDING and is answered with its
signature where no STANDBY manager waits for it; a delta batch writes the next copy; a configuration is kept for its DP cycle; a
single solve runs at once; status is answered, a solution read. Readings of the model's own: log 4, 67, 68. -/
def Obligations.StallCommands : Prop :=
  (∀ (r : Req) (s : State), let p := r.payload
    let pay := leBytes 8 (signature p).toNat
    Takes 0x0401 r pay s → 32 ≤ p.length → loadCheck s p = none → s.hif.copyJob = none → standbysInRun s = [] →
    Answers (.stallLoadStructure r) 0x0401 r pay s (makePending (u8 p 0) p (signature p) s)) ∧
  (∀ (r : Req) (s : State), let n := u8 r.payload 0
    let x := stallOf s n
    let a := applyRecords x.desc n s.cyc.dpCycle.toNat (r.payload.drop 16) 1 0 { data := x.next }
    let pay := leBytes 8 (pack [(16, a.applied), (16, a.range), (16, a.pattern)])
    Takes 0x0402 r pay s → r.payload.length = 24 → n < s.variant.stalls → s.dp.mode = 0 → x.pending = false → x.desc ≠ [] → w32 r.payload 8 = x.sig →
    u16 r.payload 12 = x.batchSeq → u16 r.payload 2 = 1 → ∃ u, Answers (.stallDelta r) 0x0402 r pay s u ∧
      (s.sol.stalls.length = 32 → (stallOf u n).next = a.data ∧ (stallOf u n).data = x.data) ∧ u.dp = s.dp ∧ u.safe = s.safe ∧ u.cfg = s.cfg) ∧
  (∀ (r : Req) (s : State), let n := u8 r.payload 0
    let w : BitVec 64 := BitVec.ofNat 64 (ule r.payload 8 8)
    Takes 0x0403 r [] s → r.payload.length = 16 → n < s.variant.stalls → fld w 0 1 = 1 →
    (∀ lo ∈ [56, 48], -24 ≤ sfld w lo 8 ∧ sfld w lo 8 ≤ -4) → -8 ≤ sfld w 40 8 → sfld w 40 8 ≤ 8 → -28 ≤ sfld w 32 8 → sfld w 32 8 ≤ -8 →
    fld w 24 8 ≠ 0 → fld w 16 8 ≠ 0 → s.sol.queue = [] → standbysInRun s = [] →
    Answers (.stallConfig r) 0x0403 r [] s (pendCfg (fun c => { c with stalls := c.stalls.set n w }) s)) ∧
  (∀ (r : Req) (s : State), let n := u8 r.payload 0
    let u := endSolve n (startSolve n { s with sol := { s.sol with cycle := s.cyc.dpCycle } })
    Takes 0x0404 r (leBytes 8 (stallWord u n)) s → r.payload.length = 1 → n < s.variant.stalls → s.dp.mode = 0 → (stallOf s n).desc ≠ [] →
    (stallOf s n).state = 3 → Answers (.stallSolve r) 0x0404 r (leBytes 8 (stallWord u n)) s u) ∧
  (∀ (r : Req) (s : State), let f := u8 r.payload 0
    Takes 0x0405 r (stallBytes s f) s → r.payload.length = 3 → u8 r.payload 1 = 1 → f < s.variant.stalls → bit (u8 r.payload 2) 0 = false →
    Answers (.stallStatus r) 0x0405 r (stallBytes s f) s s) ∧
  (∀ (r : Req) (s : State), let n := u8 r.payload 0
    let pay := readBlock s n (u8 r.payload 1) 0x10 (u16 r.payload 4) 56
    Takes 0x0406 r pay s → r.dma = none → r.payload.length = 6 → n < s.variant.stalls → u8 r.payload 2 = 0x10 → (stallOf s n).hasSol = true ∨ (stallOf s n).cand ≠ [] →
    1 ≤ u8 r.payload 1 → u8 r.payload 1 ≤ (stageTable (stallOf s n).desc).length →
    u16 r.payload 4 < (solBlock (readSol (stallOf s n)) (u8 r.payload 1) 0x10).length → Answers (.stallRead r) 0x0406 r pay s s)

/-- Class 0x03 (R139, R141, R142, R147, R163, R166, R177, R483 to R485): a stream that this device parses is defined at once, one
that another device parses waits for it and is defined at its confirmation, unreachable without; a stream is read; a rotation is
loaded; a held stream is preferred; an observer configuration waits for the next close; status is answered, with REJECTED of the
parsing device. Dead reckoning and preference as events (R163, R168): at DR_POS_MAX or DR_HDG_MAX the estimate loses its validity
with 0x0317 or 0x031B and the alarm; held streams that have agreed with the preferred one for 30 s are released at confidence 64,
the others stay as they are. Readings of the model's own: log 5, 62, 64. -/
def Obligations.FusionStreams : Prop :=
  (∀ (r : Req) (s : State), Takes 0x0301 r [] s → lenStreamDefine r.payload = none → checkStreamDefine r s = none → s.hif.srcJob = none →
    descFld r.payload 16 8 = s.dev → ∃ u, Answers (.streamDefine r) 0x0301 r [] s u ∧
      u.cfg = { s.cfg with streams := s.cfg.streams.set (u8 r.payload 0) r.payload } ∧ u.fus.cfgPending = true ∧ u.fus.est = s.fus.est ∧
      (∀ n, n ≠ u8 r.payload 0 → rtOf u n = rtOf s n) ∧
      u.safe = s.safe ∧ u.dp = s.dp) ∧
  (∀ (r : Req) (s : State), let d := descFld r.payload 16 8
    let t := sendLong 6 d s.epochHeld (relayBytes 0x0301 r) false s
    Takes 0x0301 r [] s → lenStreamDefine r.payload = none → checkStreamDefine r s = none → s.hif.srcJob = none → isCopy 0x0301 r s = false → d ≠ s.dev →
    exec (.streamDefine r) s = .next { t with hif := { t.hif with srcJob := some { code := 0x0301, req := r, wait := [d] } } }) ∧
  (∀ (d : Fin 64) (x : Nat) (j : Job) (s : State), s.hif.srcJob = some j → j.wait = [d.val] → j.code = 0x0301 → standbysInRun s = [] →
    exec (.sourceDevConfirm d 0 x) s =
      .next (finish 0x0301 j.req .ok [] (defineStream j.req.payload { s with hif := { s.hif with srcJob := none } }))) ∧
  (∀ (d : Fin 64) (x : Nat) (j : Job) (s : State), s.hif.srcJob = some j → j.wait = [d.val] → j.code = 0x0306 → bit (u8 j.req.payload 1) 0 = false →
    exec (.sourceDevConfirm d 0 x) s = .next (finish 0x0306 j.req .ok (streamStatusBytes s (u8 j.req.payload 0) x)
      { s with hif := { s.hif with srcJob := none } })) ∧
  (∀ (j : Job) (s : State), s.hif.srcJob = some j → j.code = 0x0301 →
    exec .sourceDevConfirmTimeout s = .next (finish 0x0301 j.req .unreachable [] { s with hif := { s.hif with srcJob := none } })) ∧
  (∀ (r : Req) (s : State), let pay := s.cfg.streams.getD (u8 r.payload 0) []
    Takes 0x0302 r pay s → r.payload.length = 1 → u8 r.payload 0 ≤ 47 → pay ≠ [] → Answers (.streamRead r) 0x0302 r pay s s) ∧
  (∀ (r : Req) (s : State), let f := u8 r.payload 0
    Takes 0x0303 r [] s → r.payload.length = 56 → u8 r.payload 1 = 1 → f ≤ 63 → rotationOk (transformAt r.payload 0) = true →
    ∃ u, Answers (.transformLoad r) 0x0303 r [] s u ∧ u.cfg = { s.cfg with transforms := s.cfg.transforms.set f (transformAt r.payload 0) } ∧
      u.fus = { s.fus with cfgPending := true, before := u.fus.before } ∧ u.safe = s.safe ∧ u.dp = s.dp) ∧
  (∀ (r : Req) (s : State), let n := u8 r.payload 0
    Takes 0x0304 r [] s → r.payload.length = 1 → n < s.fus.streams.length → (rtOf s n).held = true → standbysInRun s = [] →
    Answers (.refPrefer r) 0x0304 r [] s (updFus (fun x => { x with prefer := some n }) (noteFusion s))) ∧
  (∀ (r : Req) (s : State), let w : BitVec 384 := BitVec.ofNat 384 (ule r.payload 0 48)
    Takes 0x0305 r [] s → r.payload.length = 48 → observerRangeOk w = true → ∃ u, Answers (.observerConfig r) 0x0305 r [] s u ∧
      u.cfg = { s.cfg with observer := w } ∧ u.fus = { s.fus with cfgPending := true, before := u.fus.before } ∧ u.safe = s.safe ∧ u.dp = s.dp) ∧
  (∀ (r : Req) (s : State), let n := u8 r.payload 0
    let pay := streamStatusBytes s n (rtOf s n).rejected
    Takes 0x0306 r pay s → r.payload.length = 2 → n ≤ 47 → strFld s n 16 8 = s.dev → bit (u8 r.payload 1) 0 = false →
    Answers (.streamStatus r) 0x0306 r pay s s) ∧
  (∀ s : State, let sec := s.fus.drPosEpochs * s.cyc.e / 1000
    s.isMgrRole = true → s.fus.drPos = true → s.fus.posLost = false → fld s.fus.cfg.observer 80 16 ≤ sec →
    exec (.posLost false) s = .next (event 0x0317 3 [sec] (raiseAlarm 0x0317 0xFF 3 sec
      { s with fus := { s.fus with posLost := true, posValid := false } }))) ∧
  (∀ s : State, let sec := s.fus.drHdgEpochs * s.cyc.e / 1000
    s.isMgrRole = true → s.fus.drHdg = true → s.fus.hdgLost = false → fld s.fus.cfg.observer 96 8 ≤ sec →
    exec (.posLost true) s = .next (event 0x031B 3 [sec] (raiseAlarm 0x031B 0xFF 3 sec
      { s with fus := { s.fus with hdgLost := true, hdgValid := false } }))) ∧
  (∀ s : State, s.fus.preferred.isSome = true → s.fus.streams.length = 48 → ∃ t, exec .preferenceRelease s = .next t ∧
    (∀ n, n < 48 → (rtOf s n).held = true → 30000 ≤ (rtOf s n).agreeRun → (rtOf t n).held = false ∧ (rtOf t n).confidence = 64) ∧
    (∀ n, n < 48 → (rtOf s n).held = false ∨ (rtOf s n).agreeRun < 30000 → rtOf t n = rtOf s n) ∧
    t.cfg = s.cfg ∧ t.safe = s.safe ∧ t.dp = s.dp)

/-- Class 0x10 where no STANDBY manager waits for a copy (R180, R182, R183, R186, R191, R192, R206, R210, R217, R226, R501, R503):
STANDBY is reached from OFF with a main structure and from every other mode, OFF from STANDBY, an engaged mode not from OFF;
set-points, demand and track are kept for the next DP cycle; a definition that passes its checks is kept in the configuration for
its DP cycle, the one in force unchanged. Readings of the model's own: log 36, 65, 75. -/
def Obligations.DpCommands : Prop :=
  (∀ (r : Req) (s : State), let pay := leBytes 4 (effectCycle s).toNat
    Takes 0x1001 r pay s → isCopy 0x1001 r s = false → s.hif.copyJob = none → standbys s = [] → r.payload.length = 2 →
    (u8 r.payload 0 = 1 ∧ s.dp.mode ≠ 1 ∧ (s.dp.mode = 0 → (stallOf s 0).desc ≠ []) ∨ u8 r.payload 0 = 0 ∧ s.dp.mode = 1) →
    Answers (.dpModeSet r) 0x1001 r pay s
      { s with dp := { s.dp with pendingMode := some (u8 r.payload 0), pend := { s.dp.pend with auto := some (bit (u8 r.payload 1) 0) } } }) ∧
  (∀ (r : Req) (s : State), Takes 0x1001 r [] s → r.payload.length = 2 → s.dp.mode = 0 → 2 ≤ u8 r.payload 0 → u8 r.payload 0 ≤ 6 →
    Refuses (.dpModeSet r) 0x1001 r .state s) ∧
  (∀ (r : Req) (s : State), let p := r.payload
    let pay := leBytes 4 (effectCycle s).toNat
    Takes 0x1002 r pay s → isCopy 0x1002 r s = false → s.hif.copyJob = none → standbys s = [] → p.length = 32 → 4 ≤ s.dp.mode → s.dp.mode ≤ 6 →
    u8 p 0 = 2 → (i32 p 4).natAbs ≤ 30000 * 65536 → (i32 p 8).natAbs ≤ 30000 * 65536 → u16 p 16 = 0 → u16 p 18 = 0 → u16 p 20 = 0 → u16 p 22 = 0 →
    Answers (.setpointSet r) 0x1002 r pay s { s with dp := { s.dp with pend := { s.dp.pend with pos := some (i32 p 4, i32 p 8) } } }) ∧
  (∀ (r : Req) (s : State), Takes 0x1002 r [] s → r.payload.length = 32 → s.dp.mode < 3 ∨ 6 < s.dp.mode →
    Refuses (.setpointSet r) 0x1002 r .state s) ∧
  (∀ (r : Req) (s : State), let p := r.payload
    let pay := leBytes 4 (effectCycle s).toNat
    Takes 0x1003 r pay s → isCopy 0x1003 r s = false → s.hif.copyJob = none → standbys s = [] → lenThrusterDefine p = none →
    thrProtectedWrite r s = false ∨ protection s = none → checkThrusterDefine r s = none → ∃ u, Answers (.thrusterDefine r) 0x1003 r pay s u ∧ u.cfg = s.cfg ∧
      u.cfgNext = some { cfgAhead s with thrusters := (cfgAhead s).thrusters.set (u8 p 0 - 1) p } ∧ u.dp = s.dp ∧ u.safe = s.safe) ∧
  (∀ (r : Req) (s : State), let pay := leBytes 4 (effectCycle s).toNat
    Takes 0x1004 r pay s → isCopy 0x1004 r s = false → s.hif.copyJob = none → standbys s = [] → lenPowerDefine r.payload = none →
    powProtectedWrite r s = false ∨ protection s = none → checkPowerDefine r s = none → ∃ u, Answers (.powerDefine r) 0x1004 r pay s u ∧ u.cfg = s.cfg ∧
      u.cfgNext = some { cfgAhead s with power := r.payload } ∧ u.dp = s.dp ∧ u.safe = s.safe) ∧
  (∀ (r : Req) (s : State), let p := r.payload
    let pay := leBytes 4 (effectCycle s).toNat
    Takes 0x1005 r pay s → isCopy 0x1005 r s = false → s.hif.copyJob = none → standbys s = [] → p.length = 20 → u8 p 2 = 1 →
    u8 p 0 ≤ s.variant.scens → u8 p 1 + 1 = u8 p 0 → conseqRecOk (conseqRec p 0) = true → u8 (conseqRec p 0) 0 = u8 p 1 →
    (cfgAhead s).scens.length = 16 → s.sol.pairs = [none, none, none, none] → s.sol.queue = [] →
    ∃ u c, Answers (.conseqConfig r) 0x1005 r pay s u ∧ u.cfg = s.cfg ∧ u.cfgNext = some c ∧ c.nScen = u8 p 0 ∧
      c.scens.getD (u8 p 1) [] = conseqRec p 0 ∧ (∀ n, n < u8 p 1 → c.scens.getD n [] = (cfgAhead s).scens.getD n []) ∧
      (∀ n, u8 p 0 ≤ n → c.scens.getD n [] = []) ∧ u.dp = s.dp ∧ u.safe = s.safe) ∧
  (∀ (r : Req) (s : State), let p := r.payload
    let pay := leBytes 4 (effectCycle s).toNat
    Takes 0x1006 r pay s → isCopy 0x1006 r s = false → s.hif.copyJob = none → standbys s = [] → p.length = 48 → u16 p 44 = 0 → u8 p 1 = 2 →
    2 ≤ u8 p 0 → u8 p 0 ≤ 7 → (∀ w ∈ weightRanges, w.2.1 ≤ u32 p w.1 ∧ u32 p w.1 ≤ w.2.2) → ∃ u, Answers (.dpWeights r) 0x1006 r pay s u ∧ u.cfg = s.cfg ∧
      u.cfgNext = some { cfgAhead s with weights := (cfgAhead s).weights.set (u8 p 0 - 2) (weightsOf p) } ∧ u.dp = s.dp ∧ u.safe = s.safe) ∧
  (∀ (r : Req) (s : State), let p := r.payload
    Takes 0x1007 r [] s → isCopy 0x1007 r s = false → s.hif.copyJob = none → standbys s = [] → p.length = 44 → s.dp.mode ≤ 1 → u8 p 0 = 1 →
    ∃ u, Answers (.fallbackLoad r) 0x1007 r [] s u ∧ u.cfg = s.cfg ∧
      u.cfgNext = some { cfgAhead s with fbGains := (List.range 9).map fun i => i32 p (8 + 4 * i) } ∧ u.dp = s.dp ∧ u.safe = s.safe) ∧
  (∀ (r : Req) (s : State), ∃ pay, pay.length = 24 ∧ u8 pay 0 = s.dp.mode % 256 ∧
    (Takes 0x1008 r pay s → r.payload = [] → Answers (.dpStatus r) 0x1008 r pay s s)) ∧
  (∀ (r : Req) (s : State), let p := r.payload
    Takes 0x1009 r [] s → isCopy 0x1009 r s = false → s.hif.copyJob = none → standbys s = [] → p.length = 16 → ∃ u, Answers (.joystickDemand r) 0x1009 r [] s u ∧
      u.dp = { s.dp with
        joyTimer := 0, joyLost := false
        pend := { s.dp.pend with joy := some [i32 p 4, i32 p 8, i32 p 12], auto := some (bit (u8 p 0) 0) } } ∧
      alarmOn u 0x1016 0xFF = false ∧ u.cfg = s.cfg ∧ u.cfgNext = s.cfgNext ∧ u.safe = s.safe) ∧
  (∀ (r : Req) (s : State), let p := r.payload
    Takes 0x100A r [] s → isCopy 0x100A r s = false → s.hif.copyJob = none → standbys s = [] → p.length = 16 → u8 p 0 = 1 → s.dp.mode ≠ 5 →
    50 ≤ u16 p 12 → u16 p 12 ≤ 3000 → Answers (.trackLoad r) 0x100A r [] s
      { s with dp := { s.dp with pend := { s.dp.pend with track := some [waypoint p 0] } } })

/-- Copies to STANDBY managers and the joystick's silence (R192, R239, R329): a command waits while they have not confirmed; the
last confirmation applies and answers it; a refusal ends it with that status and without effect, a structure whose signature
another manager computes otherwise ends STRUCTURE, no confirmation in time ends it TIMEOUT; without a demand in time the demand is
zero, flagged, with its alarm. Readings of the model's own: log 36. -/
def Obligations.DpCopies : Prop :=
  (∀ (r : Req) (s : State), let t := sendCopies 0x1009 r (standbys s) s
    Takes 0x1009 r [] s → isCopy 0x1009 r s = false → s.hif.copyJob = none → standbys s ≠ [] → r.payload.length = 16 →
    exec (.joystickDemand r) s = .next { t with hif := { t.hif with copyJob := some { code := 0x1009, req := r, wait := standbys s } } }) ∧
  (∀ (m : Fin 3) (x : Word) (j : Job) (s : State), s.hif.copyJob = some j → j.wait = [m.val] → j.code = 0x1009 → j.differs = none →
    exec (.copyConfirm m 0 x) s = .next (finish 0x1009 j.req .ok [] (applyJoystick j.req { s with hif := { s.hif with copyJob := none } }))) ∧
  (∀ (m : Fin 3) (x : Word) (j : Job) (s : State), s.hif.copyJob = some j → m.val ∈ j.wait → j.code = 0x1009 →
    exec (.copyConfirm m 12 x) s = .next (finish 0x1009 j.req .range [] { s with hif := { s.hif with copyJob := none } })) ∧
  (∀ (m : Fin 3) (j : Job) (s : State), s.hif.copyJob = some j → j.wait = [m.val] → j.code = 0x0401 → j.differs = none →
    exec (.copyConfirm m 0 j.sig) s = .next (finish 0x0401 j.req .ok (leBytes 8 j.sig.toNat)
      (makePending (u8 j.req.payload 0) j.req.payload j.sig { s with hif := { s.hif with copyJob := none } }))) ∧
  (∀ (m : Fin 3) (x : Word) (j : Job) (s : State), s.hif.copyJob = some j → j.wait = [m.val] → j.code = 0x0401 → j.differs = none → x ≠ j.sig →
    (isLoadedSig x s && s.mem.uncounted.any (·.1 = m.val)) = false →
    ∃ u, exec (.copyConfirm m 0 x) s = .next (finish 0x0401 j.req .structure_ (refusedLoad 0 m) u) ∧ u.hif.copyJob = none ∧ u.cfg = s.cfg ∧
      u.safe.causes = s.safe.causes ∧ u.dp = s.dp) ∧
  (∀ (j : Job) (s : State), s.hif.copyJob = some j → j.code ≠ 0x0401 → j.differs = none →
    exec .copyConfirmTimeout s = .next (finish j.code j.req .timeout [] { s with hif := { s.hif with copyJob := none } })) ∧
  (∀ s : State, s.dp.mode = 2 → s.dp.joyLost = false → s.isMgrRole = true → ∃ t, exec .joyTimeout s = .next t ∧
    t.dp = { s.dp with joy := [0, 0, 0], joyLost := true, flags := s.dp.flags ||| 8, pend := { s.dp.pend with joy := none } } ∧
    alarmOn t 0x1016 0xFF = true ∧ t.cfg = s.cfg ∧ t.safe = s.safe)

/-- The Board's commands and stream (R372 to R375, R377, R379, R385, R482): a section of the newest image is read, an image that
is not held is STALE; the stream starts, writes image and trailer to its next free slot, skips an image when every slot is unread,
and stops; the counters are answered; a device is permitted or let go, configuration and installation table are kept. Readings of
the model's own: log 31. -/
def Obligations.BoardCommands : Prop :=
  (∀ (r : Req) (i : Image) (x : Sec) (rest : List Image) (s : State), let p := r.payload
    let pay := leBytes 16 (pack [(32, i.epoch.toNat), (16, i.presence.toNat), (16, u16 p 6), (8, u8 p 8)]) ++ ((secBytes x).drop (u16 p 6)).take (u8 p 8)
    Takes 0x0201 r pay s → r.dma = none → p.length = 12 → bit (u8 p 5) 0 = true → s.brd.images = i :: rest → s.brd.damaged.contains i.epoch = false →
    u8 p 4 ≠ 0xFF → imgSec i (u8 p 4) = some x → 1 ≤ u8 p 8 → u8 p 8 ≤ 224 → u16 p 6 + u8 p 8 ≤ x.bytes →
    Answers (.boardRead r) 0x0201 r pay s s) ∧
  (∀ (r : Req) (s : State), Takes 0x0201 r [] s → r.payload.length = 12 → s.brd.images = [] →
    exec (.boardRead r) s = .next (finish 0x0201 r .stale (leBytes 8 0) s)) ∧
  (∀ (n : Fin 31) (r : Req) (s : State), let p := r.payload
    Takes 0x0202 r [] s → r.path = .slot n → p.length = 24 → ule p 0 8 % 4096 = 0 → u32 p 8 = 16 → s.brd.stream.on = false →
    Answers (.boardStreamStart r) 0x0202 r [] s { s with brd := { s.brd with stream := {
      on := true, base := BitVec.ofNat 64 (ule p 0 8), slots := 16, consumedAddr := BitVec.ofNat 64 (ule p 12 8) } } }) ∧
  (∀ (r : Req) (s : State), let pay := leBytes 4 s.brd.stream.written
    Takes 0x0203 r pay s → r.payload = [] → s.brd.stream.on = true →
    Answers (.boardStreamStop r) 0x0203 r pay s { s with brd := { s.brd with stream := { s.brd.stream with on := false, queue := [] } } }) ∧
  (∀ (c : Word) (i : Image) (q : List Image) (s : State), let st := s.brd.stream
    let a := st.base + BitVec.ofNat 64 (16384 * (st.written % st.slots))
    let seq := (st.written + 1) % 2 ^ 32
    st.queue = i :: q → st.on = true → (wd st.written - c).toNat ≠ st.slots → ∃ t, exec (.boardStreamSlot c) s = .next t ∧
      t.outs = s.outs ++ [.hostRead st.consumedAddr 4, .hostWrite a (imageBytes i), .hostWrite (a + 16352)
        (leBytes 32 (pack [(32, seq), (32, i.epoch.toNat), (32, (imageBytes i).length), (32, st.skipped)]))] ∧
      t.brd.stream = { st with queue := q, written := seq, skipped := 0 } ∧ t.brd.counts = addAt s.brd.counts 8 1 ∧ t.safe = s.safe ∧ t.dp = s.dp) ∧
  (∀ (c : Word) (i : Image) (q : List Image) (s : State), let st := s.brd.stream
    st.queue = i :: q → st.on = true → (wd st.written - c).toNat = st.slots → ∃ t, exec (.boardStreamSlot c) s = .next t ∧
      t.brd.stream.queue = q ∧ t.brd.stream.written = st.written ∧ t.brd.stream.skipped = st.skipped + 1 ∧
      t.brd.counts = addAt s.brd.counts 9 1 ∧ t.safe = s.safe ∧ t.dp = s.dp) ∧
  (∀ (r : Req) (s : State), let pay := words s.brd.counts
    Takes 0x0204 r pay s → r.payload.length = 1 → s.mem.role ≠ .worker → Answers (.boardStatus r) 0x0204 r pay s
      (if bit (u8 r.payload 0) 0 then { s with brd := { s.brd with counts := List.replicate 10 0 } } else s)) ∧
  (∀ (r : Req) (s : State), let d := u8 r.payload 0
    Takes 0x0205 r [] s → r.payload.length = 2 → d ≤ 63 → d ∈ s.mem.pendingJoin.map (·.1) → bit (u8 r.payload 1) 0 = false →
    ∃ u, Answers (.joinPermit r) 0x0205 r [] s u ∧ d ∈ u.mem.admitted ∧ d ∉ u.mem.pendingJoin.map (·.1) ∧ u.cfg = s.cfg ∧ u.safe = s.safe ∧ u.dp = s.dp) ∧
  (∀ (r : Req) (s : State), let d := u8 r.payload 0
    let pay := leBytes 4 (nextClose s).toNat
    Takes 0x0206 r pay s → r.payload.length = 1 → d ≠ s.dev → (s.brd.devices.getD d {}).member = true → s.quorum ≤ membersAfter d s →
    s.mem.leaving = [] → Answers (.leave r) 0x0206 r pay s { s with mem := { s.mem with leaving := [d] } }) ∧
  (∀ (r : Req) (s : State), let p := r.payload
    Takes 0x0207 r [] s → p.length = 8 → 100 ≤ u16 p 2 → u16 p 2 ≤ 5000 → bit (u8 p 0) 1 = false → Answers (.memberConfig r) 0x0207 r [] s
      (setCfg (fun g => { g with autoJoin := bit (u8 p 0) 0, window := u16 p 2 }) s)) ∧
  (∀ (r : Req) (s : State), let p := r.payload
    Takes 0x0207 r [] s → p.length = 8 → 100 ≤ u16 p 2 → u16 p 2 ≤ 5000 → bit (u8 p 0) 1 = true → 5 ≤ u8 p 4 → u8 p 4 ≤ 100 → 2 ≤ u8 p 5 →
    u8 p 5 ≤ 25 → 20 ≤ u16 p 6 → u16 p 6 ≤ 5 * u8 p 4 → anyRun s = false → ∃ u, Answers (.memberConfig r) 0x0207 r [] s u ∧
      u.cfg = { s.cfg with autoJoin := bit (u8 p 0) 0, window := u16 p 2, epochLen := u8 p 4, cycleLen := u8 p 5, closeOff := u16 p 6 } ∧
      u.cyc = { s.cyc with e := u8 p 4, k := u8 p 5, c := u16 p 6 } ∧ u.safe = s.safe ∧ u.dp = s.dp) ∧
  (∀ (r : Req) (s : State), let p := r.payload
    let pay := leBytes 4 (s.cfg.tableGen + 1).toNat
    Takes 0x0208 r pay s → p.length = 6 → u8 p 0 = 1 → u8 p 4 ≤ 63 → u8 p 5 = 0x11 ∨ u8 p 5 = 0x43 → s.inRun = false → s.mem.tableNext = none →
    ∃ u, Answers (.installTable r) 0x0208 r pay s u ∧
      u.cfg = { s.cfg with table := [(u8 p 4, u8 p 5 / 16, u8 p 5 % 16)], tableGen := s.cfg.tableGen + 1 } ∧ u.safe = s.safe ∧ u.dp = s.dp)

/-- Members come and go, images arrive (R337, R363, R368, R369, R379, R380): a manager holds the records of a contribution; a
member missed three times running has left, and its thrusters are absent; an image that never completed makes a STANDBY manager
leave and counts on a worker; a worker installs a newer image that lists it. Readings of the model's own: log 52, 59. -/
def Obligations.BoardEvents : Prop :=
  (∀ (d : Fin 64) (q : BitVec 16) (cs : List Contrib) (s : State), s.isManager = true → s.inRun = true → d.val ≠ s.dev →
    exec (.boardContribFrame d q cs) s = .next (holdRecs q.toNat cs s)) ∧
  (∀ (d : Fin 64) (i : Image) (s : State), s.brd.open_ = some i → s.isActive = true → (s.brd.devices.getD d {}).member = true →
    3 ≤ (s.brd.devices.getD d {}).missed → d.val ≠ s.dev → s.brd.devices.length = 64 → s.brd.thr.length = 24 →
    ∃ t, exec (.missedEpochs d) s = .next t ∧ (t.brd.devices.getD d {}).role = 0 ∧ (t.brd.devices.getD d {}).left = some i.epoch ∧
      (∀ n, n < 24 → (s.brd.thr.getD n {}).number ≠ 0 → (s.brd.thr.getD n {}).dev = d.val →
        (t.brd.thr.getD n {}).avail = 2 ∧ (t.brd.thr.getD n {}).reason = 1) ∧
      (∀ h ∈ t.brd.held, h.rec_.src = d.val → epochDiff h.rec_.epoch i.epoch < 0) ∧ t.cfg = s.cfg ∧ t.safe = s.safe ∧ t.dp = s.dp) ∧
  (∀ (e : Word) (n : Nat) (s : State), s.inRun = true → s.mem.role = .standby → s.brd.images = [] → 2 ≤ epochDiff s.cyc.epoch e →
    exec (.pubIncomplete e n) s = .next (event 0x0216 2 [e.toNat, n] { s with mem := { s.mem with leaveSelf := true } })) ∧
  (∀ (e : Word) (n : Nat) (s : State), s.inRun = true → s.mem.role = .worker → s.brd.images = [] → 2 ≤ epochDiff s.cyc.epoch e →
    exec (.pubIncomplete e n) s = .next { s with brd := { s.brd with counts := addAt s.brd.counts 5 1 } }) ∧
  (∀ (i : Image) (s : State), s.inRun = true → s.mem.role = .worker → s.isManager = false → i.publisher ≠ s.dev → s.brd.images = [] →
    (imgDev i s.dev).role = 4 → ∃ t, exec (.boardImageInstall i) s = .next t ∧ t.brd.images = [i] ∧ t.cyc.closed = some i.epoch ∧
      t.dp.mode = imgFld i 3 256 8 ∧ t.brd.active = imgFld i 7 80 8 ∧ t.mem.role = .worker ∧ t.safe.causes = s.safe.causes)

/-- The selection of Table 10.1 (R340, R341): all counted managers present and alike AGREE; else a class of more than half of the
counted managers is applied, the others are the minority; else the ACTIVE manager's class is applied where another differs from
it, or its record where it alone is present; else nothing is. What is applied is always a record of a manager that is present. -/
def Obligations.Selection : Prop :=
  ∀ (act : Nat) (ms : List Nat) (rec_ : Nat → Option CmdRec),
    let x := select act ms rec_
    (∀ m, m ∈ x.present ↔ m ∈ ms ∧ (rec_ m).isSome = true) ∧ (∀ m ∈ x.cls, m ∈ x.present) ∧
    (∀ m ∈ x.cls, ∀ n ∈ x.cls, rec_ m = rec_ n) ∧
    (x.outcome = 0 ↔ ms ≠ [] ∧ ∀ m ∈ ms, (rec_ m).isSome = true ∧ rec_ m = rec_ (ms.headD 0)) ∧
    (∀ m ∈ ms, (rec_ m).isSome = true → ms.length < 2 * (ms.countP fun n => rec_ n = rec_ m) → x.outcome ≤ 1) ∧
    (x.outcome = 1 → ms.length < 2 * x.cls.length ∧ ∀ m, m ∈ x.minority ↔ m ∈ x.present ∧ m ∉ x.cls) ∧
    (x.outcome = 2 → x.present = [act] ∧ x.cls = [act]) ∧ (x.outcome = 3 → act ∈ x.cls) ∧ (x.outcome = 4 → x.cls = [])

/-- Command records at a device that applies them (R340 to R342): a frame for a later command epoch is kept for its comparison,
one of a past epoch only counted; at the end of the wait every own thruster's record is selected and applied. Class 0x0C (R345,
R353, R357, R495): the role is answered; a swap to a STANDBY manager whose outcome is known is set for two closes ahead; a manager
is silenced from the next epoch; limits within their ranges are kept. Readings of the model's own: log 58, 61. -/
def Obligations.CommandsAndRoles : Prop :=
  (∀ (m : Fin 3) (e : BitVec 16) (rs : List CmdRec) (s : State), appliesCommands s = true → m.val ≠ s.dev →
    0 < (e - s.cyc.epoch.setWidth 16).toInt →
    exec (.cmdFrame m e rs) s = .next { s with loop := { s.loop with cmds := s.loop.cmds.set m.val (some (e, rs)) } }) ∧
  (∀ (m : Fin 3) (e : BitVec 16) (rs : List CmdRec) (s : State), appliesCommands s = true → m.val ≠ s.dev →
    (e - s.cyc.epoch.setWidth 16).toInt < 0 →
    exec (.cmdFrame m e rs) s = .next { s with loop := { s.loop with lateCmd := satAdd s.loop.lateCmd rs.length } }) ∧
  (∀ s : State, appliesCommands s = true → s.loop.cmdDone = false → s.cyc.holds = true → cmdsHeld s = true →
    exec .cmdWaitExpiry s = .next (applyAll true s.cyc.epoch
      { s with loop := { s.loop with cmdDone := true, cmdLatest := s.cyc.epoch.setWidth 16 } })) ∧
  (∀ (told : Bool) (e : Word) (n : Nat) (q : CmdRec) (s : State), n < 24 → s.loop.applied.length = 24 →
    let x := select (shownActive s) (shownMgrs s) (cmdRec s (e.setWidth 16) (n + 1))
    (x.cls.head?).bind (cmdRec s (e.setWidth 16) (n + 1)) = some q →
    let t := applyThr told e s n
    (t.loop.applied.getD n {}).rec_ = some q ∧ (t.loop.applied.getD n {}).cmp = x.outcome ∧ (t.loop.applied.getD n {}).cmdEpoch = e ∧
      (t.loop.applied.getD n {}).age = 0) ∧
  (∀ (r : Req) (s : State), ∃ pay, pay.length = 12 ∧ u8 pay 0 = s.mem.role.code ∧
    (Takes 0x0C01 r pay s → r.payload = [] → Answers (.roleStatus r) 0x0C01 r pay s s)) ∧
  (∀ (r : Req) (s : State), let m := u8 r.payload 0
    let pay := leBytes 4 (nextClose s + 2).toNat
    Takes 0x0C02 r pay s → r.payload.length = 1 → m ∈ standbys s → (s.sol.outcomes.getD m none).isSome = true → s.brd.swapOn = false →
    Answers (.roleSwap r) 0x0C02 r pay s { s with brd := { s.brd with swapOn := true, swapAt := nextClose s + 2, swapTarget := m } }) ∧
  (∀ (r : Req) (s : State), let m := u8 r.payload 0
    let pay := leBytes 4 (s.cyc.epoch + 1).toNat
    Takes 0x0C03 r pay s → r.payload.length = 1 → m ∈ s.countedMgrs → 2 ≤ s.countedMgrs.length →
    Answers (.mgrSilence r) 0x0C03 r pay s (updMem (fun x => { x with silencing := x.silencing ++ [(m, s.cyc.epoch + 1)] })
      (if m = s.dev then s else sendCopies 0x0C03 r [m] s))) ∧
  (∀ (r : Req) (s : State), let w : BitVec 64 := BitVec.ofNat 64 (ule r.payload 0 8)
    let v : BitVec 64 := w &&& 0x0000FFFF00FFFFFF
    let t : State := { s with mem := { s.mem with redNext := some (v, s.time.ns) }, cfgNext := s.cfgNext.map fun c => { c with redundancy := v } }
    Takes 0x0C04 r [] s → r.payload.length = 8 → 100 ≤ fld w 0 16 → fld w 0 16 ≤ 5000 → fld w 0 16 < 100 * s.cyc.c → 1 ≤ fld w 16 8 → fld w 16 8 ≤ 10 →
    1 ≤ fld w 32 16 → fld w 32 16 ≤ 1000 → standbysInRun s = [] → Answers (.redundancyConfig r) 0x0C04 r [] s
      (storeCfg (fun c => { c with redundancy := v }) t))

/-- Membership frames (R23, R25, R30, R31, R346, R347, R377 to R379, R400, R402): what another device says of itself is kept; the
own number latches DUP_DEVICE outside RUN; a known device joins at once under AUTO_JOIN; the handshake sets numbers, time and
definitions, but not of a device without a role or with a duplicated number; leaves, recoveries and silence are noted by the
ACTIVE manager; a manager alone with a quorum forms the installation; a STANDBY manager takes over. Readings of the model's own:
log 56, 57, 58. -/
def Obligations.MembershipFrames : Prop :=
  (∀ (net port : Bool) (m : Member) (s : State), linkRuns s = true → portTalks s (portIx net port) = true → m.device ≠ s.dev → ∃ t, exec (.memberPresent net port m) s = .next t ∧
    t.mem.heard = s.mem.heard.set m.device (some m) ∧ t.safe = s.safe ∧ t.cfg = s.cfg ∧ t.dp = s.dp) ∧
  (∀ (net port : Bool) (m : Member) (s : State), s.rst.life = .ready → portTalks s (portIx net port) = true → m.device = s.dev → ∃ t, exec (.memberPresent net port m) s = .next t ∧
    t.safe.causes.getLsbD 12 = true ∧ t.safe.dupQuiet = 0 ∧ t.cfg = s.cfg) ∧
  (∀ (net port : Bool) (m : Member) (s : State), linkRuns s = true → portTalks s (portIx net port) = true → m.device ≠ s.dev → s.isActive = true → 2 < m.device → m.device < 64 →
    (s.brd.devices.getD m.device {}).role = 0 → (s.cfg.table.any fun e => e.1 = m.device) = true → s.cfg.autoJoin = true → s.noRole = false →
    ∃ t, exec (.joinFrame net port m) s = .next t ∧ m.device ∈ t.mem.admitted ∧ t.safe = s.safe ∧ t.cfg = s.cfg ∧ t.dp = s.dp) ∧
  (∀ (m : Member) (h : Handshake) (s : State), s.rst.life = .ready → m.device ≠ s.dev → m.addressee = s.dev → m.status = 0 →
    s.noRole = false → s.safe.causes.getLsbD 12 = false → refusesHandshake h s = false → ∃ t, exec (.joinAnswerFrame m (some h)) s = .next t ∧ t.cyc.e = h.epochLen ∧ t.cyc.k = h.cycleLen ∧
      t.cyc.epoch = h.epoch ∧ t.cyc.holds = true ∧ t.cyc.dpCycle = h.dpCycle ∧ t.time.ns = h.timeNs ∧ t.brd.active = h.active ∧
      t.mem.joining = true ∧ t.cfg.thrusters = hsThrusters h ∧ t.cfg.power = h.power ∧ t.cfg.flows = hsFlows h ∧ t.safe.causes = s.safe.causes) ∧
  (∀ (m : Member) (h : Handshake) (s : State), s.rst.life = .ready → m.device ≠ s.dev → s.noRole = true ∨ s.safe.causes.getLsbD 12 = true →
    ∃ t, exec (.joinAnswerFrame m (some h)) s = .next t ∧ t.cyc = s.cyc ∧ t.time = s.time ∧ t.mem.joining = s.mem.joining ∧ t.cfg = s.cfg) ∧
  (∀ (m : Member) (s : State), s.rst.life = .cloakroom → m.device ≠ s.dev → m.addressee = s.dev →
    ∃ t, exec (.joinAnswerFrame m none) s = .next t ∧ t.mem.answerSrc = some m.device ∧ t.cfg = s.cfg ∧ t.safe = s.safe) ∧
  (∀ (m : Member) (s : State), linkRuns s = true → m.device ≠ s.dev → s.isActive = true → (s.brd.devices.getD m.device {}).member = true →
    s.mem.leaving = [] → ∃ t, exec (.leaveFrame m) s = .next t ∧ t.mem.leaving = [m.device] ∧ t.safe = s.safe ∧ t.cfg = s.cfg ∧ t.dp = s.dp) ∧
  (∀ (m : Member) (s : State), linkRuns s = true → m.device ≠ s.dev → s.isActive = true → m.subtype = 6 → ∃ t, exec (.recoveryFrame m) s = .next t ∧
    m.device ∈ t.mem.recovering ∧ t.safe = s.safe ∧ t.cfg = s.cfg ∧ t.dp = s.dp) ∧
  (∀ (m : Member) (s : State), s.inRun = true → m.device ≠ s.dev → m.device < 3 → s.mem.role = .worker → s.brd.active ≠ m.device →
    ∃ t, exec (.silentFrame m) s = .next t ∧ t.mem.silentSeen = s.mem.silentSeen ||| BitVec.ofNat 3 (2 ^ m.device) ∧
      alarmOn t 0x0C24 m.device = true ∧ t.safe = s.safe ∧ t.cfg = s.cfg ∧ t.dp = s.dp) ∧
  (∀ s : State, s.rst.life = .ready → s.noRole = false → s.safe.causes.getLsbD 12 = false → exec .joinRequestTimer s = .next (sendMember 2 s)) ∧
  (∀ s : State, s.rst.life = .cloakroom → exec .joinRequestTimer s = .next (sendMember 6 s)) ∧
  (∀ s : State, s.isManager = true → s.rst.life = .ready → s.mem.role = .none → s.safe.testsBad = [] → s.safe.causes.getLsbD 12 = false →
    activeHeard s = false → hasQuorum s = true → lowerHeard s = false → s.brd.devices.length = 64 → s.safe.causes &&& 0xFFFE = 0 → ∃ t, exec .formationWindowEnd s = .next t ∧
      t.mem.role = .active ∧ t.rst.life = .run ∧ t.brd.active = s.dev ∧ t.cyc.holds = false ∧ (t.brd.devices.getD s.dev {}).role = 1 ∧
      (∀ d, d ≠ s.dev → (t.brd.devices.getD d {}).role = 0) ∧ t.safe.causes = s.safe.causes ∧ t.cfg = s.cfg ∧ t.dp = s.dp) ∧
  (∀ s : State, s.isManager = true → s.rst.life = .ready → s.mem.role = .none → s.safe.testsBad = [] → s.safe.causes.getLsbD 12 = false →
    activeHeard s = false → hasQuorum s = false → s.mem.noQuorum = false → ∃ t, exec .formationWindowEnd s = .next t ∧
      t.mem.noQuorum = true ∧ t.mem.role = .none ∧ t.rst.life = .ready ∧ t.safe = s.safe ∧ t.cfg = s.cfg) ∧
  (∀ (i : Image) (rest : List Image) (s : State), s.inRun = true → s.mem.role = .standby → s.brd.active = 0 → s.mem.silentSeen = 0 →
    s.brd.images = i :: rest → 1 + (lowerStandbys s : Int) < epochDiff s.cyc.epoch i.epoch → s.mem.takeover = none → hasQuorum s = true → s.safe.causes = 0 →
    ∃ t, exec .takeoverDecision s = .next t ∧ t.mem.role = .active ∧ t.mem.takeover = some 1 ∧ t.safe.counters = s.safe.counters ||| 8 ∧
      t.safe.takeoverEpochs = 0 ∧ t.brd.active = 0 ∧ t.cfg = s.cfg ∧ t.dp = s.dp)

/-- The clock of the cycle (R47, R48, R50, R363 to R365, R367): a tick moves device time to the first TIME clock at or after the
next whole millisecond; an epoch instant steps the epoch number, and after k epochs the DP cycle's, epoch 0 at the forming ACTIVE
manager; a close commits records of the epoch and earlier ones marked late, within the COMMIT section; the closed epoch is
published with its fusion result, or at the deadline without STREAMS and STATE and LATE. Readings of the model's own: log 5, 27,
52, 60. -/
def Obligations.EpochClock : Prop :=
  (∀ s : State, s.rst.life ≠ .reset → ∃ t, exec .tick s = .next t ∧ t.time.ns = (runTo (tickBoundary s.time) s.time).ns ∧
    t.time.tickNs = tickBoundary s.time ∧ t.cyc.ticks = s.cyc.ticks + 1 ∧
    t.cyc.epoch = s.cyc.epoch ∧ t.mram.lockoutMs = countDown s.mram.lockoutMs ∧ t.safe.unlockMs = countDown s.safe.unlockMs ∧
    t.safe.causes = s.safe.causes ∧ t.safe.outs = s.safe.outs ∧ t.cfg = s.cfg ∧ t.dp.mode = s.dp.mode) ∧
  (∀ s : State, s.cyc.holds = true → s.brd.swapOn = false → exec .epochInstant s = .next (epochWork (nextEpoch s)) ∧
    (nextEpoch s).cyc.epoch = s.cyc.epoch + 1 ∧ (nextEpoch s).cyc.instant = s.time.ns / 1000000 * 1000000 ∧ (nextEpoch s).cyc.ticks = 0 ∧
    (epochDiff (s.cyc.epoch + 1) s.cyc.dpFirst < s.cyc.k → (nextEpoch s).cyc.dpCycle = s.cyc.dpCycle ∧ (nextEpoch s).cyc.dpFirst = s.cyc.dpFirst) ∧
    (s.cyc.k ≤ epochDiff (s.cyc.epoch + 1) s.cyc.dpFirst →
      (nextEpoch s).cyc.dpCycle = s.cyc.dpCycle + 1 ∧ (nextEpoch s).cyc.dpFirst = s.cyc.epoch + 1)) ∧
  (∀ s : State, s.cyc.holds = false → s.isActive = true → s.brd.swapOn = false → exec .epochInstant s = .next (epochWork (nextEpoch s)) ∧
    (nextEpoch s).cyc.holds = true ∧ (nextEpoch s).cyc.epoch = 0 ∧ (nextEpoch s).cyc.dpCycle = 0 ∧ (nextEpoch s).cyc.dpFirst = 0) ∧
  (∀ s : State, s.isActive = true → s.cyc.holds = true → s.cyc.closed ≠ some s.cyc.epoch → closeTooSoon s = false → ∃ t o, exec .epochClose s = .next t ∧ t = closeEpoch s ∧
    t.cyc.closed = some s.cyc.epoch ∧ t.brd.open_ = some o ∧ o.epoch = s.cyc.epoch ∧ t.fus.todo = some o.commit ∧ (o.commit.map contribLen).sum ≤ 11264 ∧
    ∀ c ∈ o.commit, epochDiff c.epoch s.cyc.epoch ≤ 0 ∧ c.late = decide (c.epoch ≠ s.cyc.epoch)) ∧
  (∀ (o : Image) (s : State), s.isActive = true → s.brd.open_ = some o → ∃ t i, exec .fusionResultReady s = .next t ∧ t.brd.open_ = none ∧
    t.brd.images.head? = some i ∧ i.epoch = o.epoch ∧ i.commit = o.commit ∧ (imgSec i 1).isSome = true ∧ (imgSec i 2).isSome = true ∧
    t.safe.causes = s.safe.causes ∧ t.cfg = s.cfg) ∧
  (∀ (o : Image) (s : State), s.isActive = true → s.brd.open_ = some o → (∀ x ∈ o.secs, x.code = 0 ∨ x.code = 10) → ∃ t i,
    exec .publicationDeadline s = .next t ∧ t.brd.open_ = none ∧ t.brd.images.head? = some i ∧ i.epoch = o.epoch ∧ i.commit = o.commit ∧
    imgSec i 1 = none ∧ imgSec i 2 = none ∧ i.flags.getLsbD 3 = true ∧ t.safe.causes = s.safe.causes ∧ t.cfg = s.cfg)

/-- What the managers conclude from committed records (R33, R182, R208, R212, R221, R222, R224, R258, R263, R342, R344, R355,
R383): feedback lost for three epochs; a group over its reserve for three; a minority limit reached; a split over; an alarm entry
cleared; a scenario that fails or is stale; a plan shifted five or twenty cycles; a quorum lost; a derived signature. Readings of
the model's own: log 53, 54, 55, 69, 76. -/
def Obligations.BatchedRules : Prop :=
  (∀ (n : Fin 24) (s : State), let r := s.brd.thr.getD n {}
    s.isMgrRole = true → r.number ≠ 0 → 3 ≤ r.quiet → r.reason ≠ 6 → r.reason ≠ 1 → r.reason ≠ 4 → ∃ t, exec (.feedbackLost n) s = .next t ∧
      t.brd.thr = s.brd.thr.set n { r with avail := 2, reason := 6, offered := false } ∧ t.cfg = s.cfg ∧ t.safe = s.safe ∧ t.dp = s.dp) ∧
  (∀ (n : Fin 6) (s : State), let r := s.brd.pow.getD n {}
    s.isMgrRole = true → r.number ≠ 0 → r.alarm = false → 3 ≤ r.overRun → ∃ t, exec (.powerReserve n) s = .next t ∧
      t.brd.pow = s.brd.pow.set n { r with alarm := true } ∧ alarmOn t 0x1018 0xFF = true ∧ t.cfg = s.cfg ∧ t.safe = s.safe ∧ t.dp = s.dp) ∧
  (∀ (n : Fin 6) (s : State), let r := s.brd.pow.getD n {}
    s.isMgrRole = true → r.number ≠ 0 → r.alarm = true → 3 ≤ r.okRun → (s.brd.pow.set n { r with alarm := false }).all (fun x => !x.alarm) = true →
    ∃ t, exec (.powerReserve n) s = .next t ∧ t.brd.pow = s.brd.pow.set n { r with alarm := false } ∧ alarmOn t 0x1018 0xFF = false ∧
      t.cfg = s.cfg ∧ t.safe = s.safe ∧ t.dp = s.dp) ∧
  (∀ (m : Fin 3) (s : State), m.val = s.dev → s.isMgrRole = true → fld s.cfg.redundancy 16 8 ≤ s.mem.minority.getD m 0 →
    s.safe.causes.getLsbD 15 = false → ∃ t, exec (.minorityLimit m) s = .next t ∧ t.safe.causes.getLsbD 15 = true ∧ t.mem.role = .silent ∧ t.cfg = s.cfg) ∧
  (∀ s : State, s.mem.splitOn = true → s.mem.splitLeft = 0 → ∃ t, exec .splitClear s = .next t ∧ t.mem.splitOn = false ∧
    alarmOn t 0x0C23 0xFF = false ∧ t.cfg = s.cfg ∧ t.safe = s.safe ∧ t.dp = s.dp) ∧
  (∀ (c : BitVec 16) (j : BitVec 8) (a : Alarm) (s : State), s.isActive = true → s.brd.alarms = [a] → a.code = c → a.subject = j.toNat →
    alarmOver s a = true → ∃ t, exec (.alarmEntryClear c j) s = .next t ∧ t.brd.alarms = [] ∧ t.brd.alarmGen = s.brd.alarmGen + 1 ∧
      t.cfg = s.cfg ∧ t.safe = s.safe ∧ t.dp = s.dp) ∧
  (∀ (n : Fin 16) (s : State), s.isMgrRole = true → s.dp.conseqFailed.getLsbD n = false → 3 ≤ (scenOf s n).getD 1 0 → ∃ t, exec (.conseqFail n) s = .next t ∧
    t.dp = { s.dp with conseqFail := true, conseqFailed := s.dp.conseqFailed ||| BitVec.ofNat 16 (2 ^ n.val) } ∧
    (s.dp.conseqFail = false → alarmOn t 0x1013 0xFF = true) ∧ t.cfg = s.cfg ∧ t.safe = s.safe) ∧
  (∀ (n : Fin 16) (s : State), s.isMgrRole = true → s.dp.conseqStale.getLsbD n = false → 50 ≤ (scenOf s n).getD 2 0 → ∃ t,
    exec (.conseqStale n) s = .next t ∧ t.dp = { s.dp with conseqStale := s.dp.conseqStale ||| BitVec.ofNat 16 (2 ^ n.val) } ∧
    t.mem.reports = s.mem.reports ++ [(0x1019, 2, 0xFF, n.val)] ∧ t.cfg = s.cfg ∧ t.safe = s.safe) ∧
  (∀ s : State, s.isMgrRole = true → s.dp.degradedPlan = false → 5 ≤ s.dp.shiftRun → ∃ t, exec .degradedPlan s = .next t ∧
    t.dp = { s.dp with degradedPlan := true } ∧ alarmOn t 0x040A 0xFF = true ∧ t.cfg = s.cfg ∧ t.safe = s.safe) ∧
  (∀ s : State, s.isMgrRole = true → 20 ≤ s.dp.shiftRun → 2 ≤ s.dp.mode → s.dp.mode ≤ 6 → ∃ t, exec .solverStale s = .next t ∧
    t.dp = { s.dp with mode := 7, integ := [], prevErr := [], goodCycles := 0 } ∧ t.cfg = s.cfg ∧ t.safe = s.safe) ∧
  (∀ s : State, s.isActive = true → 3 ≤ s.mem.quorumRuns → ∃ t, exec .quorumLost s = .next t ∧ t.mem.role = .standby ∧ t.mem.noQuorum = true ∧
    t.mem.quorumRuns = 0 ∧ t.brd.open_ = none ∧ t.brd.swapOn = false ∧ t.cfg = s.cfg ∧ t.safe = s.safe ∧ t.dp = s.dp) ∧
  (∀ (m : BitVec 24) (s : State), s.dp.building = some m → s.dp.derived = none → s.isMgrRole = true → exec .derivedBuildComplete s =
    .next { s with dp := { s.dp with derived := some (signature (derivedDesc s (stallOf s 0).mainDesc m.toNat)) } })

/-- The parity code corrects every single error (R506, Table 16.2): where the decoder finds a word of 80 bits clean, it finds each
word that differs from it in one bit correctable at that bit. Readings of the model's own: log 74. -/
def Obligations.SingleErrorsCorrected : Prop :=
  ∀ w p : Nat, w < 2 ^ 80 → p < 80 → parityDecode w = .clean → parityDecode (w ^^^ 2 ^ p) = .fixed p

/-- Memory protection (R496, R507, R511, R513 to R516, R518): the scrubber reads the words of a region in order and moves on; a
correctable word is counted and its write-back queued; an uncorrectable word of SUP SRAM latches MEMORY, one of Fusion SRAM makes
a manager FAIL_SILENT, one of the sample history makes its image unreadable; the read that begins a pass ends the pass before; a
write-back leaves the queue and marks its sites unless it was overtaken; an evicted buffer is counted; status is answered, with
CLEAR cleared; the DDR4 period is kept. Readings of the model's own: log 73, 74. -/
def Obligations.MemoryProtection : Prop :=
  (∀ (n : Fin 9) (a w : Nat) (use : MemUse) (s : State), scrubRuns s n = true → (regionOf s n).scrubAt = a → 0 < a →
    (regionWords n).all (a < ·) = true → eccOf n w = .clean → exec (.scrubRead n a w use) s =
      .next { s with memp := { s.memp with regions := upd s.memp.regions n fun x => { x with scrubAt := a + 1 } } }) ∧
  (∀ (n : Fin 9) (a w p : Nat) (use : MemUse) (s : State), scrubRuns s n = true → (regionOf s n).scrubAt = a → 0 < a →
    (regionWords n).all (a < ·) = true → eccOf n w = .fixed p → s.memp.regions.length = 9 →
    ∃ t, exec (.scrubRead n a w use) s = .next t ∧ (regionOf t n).corrected = satInc (regionOf s n).corrected ∧
      a ∈ (regionOf t n).writeBacks ∧ (regionOf t n).lastAddr = a * wordBytes n ∧ (regionOf t n).scrubAt = a + 1 ∧
      (∀ m, m ≠ n.val → regionOf t m = regionOf s m) ∧ t.cfg = s.cfg ∧ t.safe = s.safe ∧ t.dp = s.dp) ∧
  (∀ (a w y : Nat) (use : MemUse) (s : State), scrubRuns s 2 = true → (regionOf s 2).scrubAt = a → 0 < a → a < 2 ^ 19 → eccOf 2 w = .bad y →
    ∃ t, exec (.scrubRead 2 a w use) s = .next t ∧ t.safe.causes.getLsbD 10 = true ∧ t.safe.memOpen = true ∧ t.cfg = s.cfg) ∧
  (∀ (a w y : Nat) (use : MemUse) (s : State), scrubRuns s 3 = true → (regionOf s 3).scrubAt = a → 0 < a → a < 2 ^ 18 → eccOf 3 w = .bad y →
    ∃ t, exec (.scrubRead 3 a w use) s = .next t ∧ (s.isManager = true → t.safe.causes.getLsbD 15 = true) ∧
      (s.isManager = false → t.safe.causes = s.safe.causes) ∧ t.cfg = s.cfg) ∧
  (∀ (n : Fin 9) (a w y : Nat) (e : Word) (s : State), n.val ≠ 2 → n.val ≠ 3 → scrubRuns s n = true → (regionOf s n).scrubAt = a → 0 < a →
    (regionWords n).all (a < ·) = true → eccOf n w = .bad y → ∃ t, exec (.scrubRead n a w (.history e)) s = .next t ∧
      e ∈ t.brd.damaged ∧ t.brd.images = s.brd.images ∧ t.cfg = s.cfg ∧ t.safe = s.safe ∧ t.dp = s.dp) ∧
  (∀ (n : Fin 9) (k w : Nat) (use : MemUse) (s : State), scrubRuns s n = true → s.memp.regions.length = 9 → (regionOf s n).scrubAt = k → 0 < k →
    (n.val = 8 ∨ regionWords n = some k) → eccOf n w = .clean → ∃ t, exec (.scrubRead n 0 w use) s = .next t ∧
      (regionOf t n).passes = satInc (regionOf s n).passes ∧ (regionOf t n).passStart = s.time.ns ∧ (regionOf t n).scrubAt = 1 ∧
      (regionOf t n).prev = (regionOf s n).sites ∧ (regionOf t n).sites = [] ∧ t.cfg = s.cfg ∧ t.safe = s.safe ∧ t.dp = s.dp) ∧
  (∀ (n : Fin 9) (a w : Nat) (use : MemUse) (s : State), scrubRuns s n = false → exec (.scrubRead n a w use) s = .next s) ∧
  (∀ (n : Fin 9) (a : Nat) (late : Bool) (s : State), s.memp.regions.length = 9 → a ∈ (regionOf s n).writeBacks →
    let mark := fun (l : List (Nat × Nat × Bool)) => l.map fun y => if y.1 = a && !late then (y.1, y.2.1, true) else y
    ∃ t, exec (.writeBack n a late) s = .next t ∧ a ∉ (regionOf t n).writeBacks ∧ (regionOf t n).sites = mark (regionOf s n).sites ∧
      (regionOf t n).prev = mark (regionOf s n).prev ∧ t = { s with memp := t.memp }) ∧
  (∀ (n : Fin 9) (a k : Nat) (use : MemUse) (s : State), regionHere s n = true → s.rst.life = .run ∨ s.rst.life = .ready →
    exec (.mergeBufferEvict n a k true use) s = .next { s with memp := { s.memp with regions := upd s.memp.regions n fun x =>
      { x with rmw := satInc x.rmw, merge := satAdd x.merge k } } }) ∧
  (∀ (a k : Nat) (use : MemUse) (s : State), s.rst.life = .run ∨ s.rst.life = .ready → s.memp.regions.length = 9 →
    ∃ t, exec (.mergeBufferEvict 2 a k false use) s = .next t ∧ (regionOf t 2).rmw = satInc (regionOf s 2).rmw ∧
      (regionOf t 2).merge = satAdd (regionOf s 2).merge k ∧ t.safe.causes.getLsbD 10 = true ∧ t.cfg = s.cfg) ∧
  (∀ (r : Req) (s : State), let n := u8 r.payload 0
    let g := regionOf s n
    let pay := leBytes 4 (pack [(8, n), (8, (symbolCoded n).toNat)]) ++
      words [g.corrected, g.uncorrectable, (s.mram.hardSites.getD n []).length, g.passes, g.lastPassMs, g.rmw, g.merge] ++ leBytes 8 g.lastAddr
    let t : State := { s with
      memp := { s.memp with regions := upd s.memp.regions n fun x => { x with
        corrected := 0, uncorrectable := 0, passes := 0, lastPassMs := 0, rmw := 0, merge := 0, lastAddr := 0 } }
      mram := { s.mram with hardSites := s.mram.hardSites.set n [] } }
    Takes 0x0D01 r pay s → r.payload.length = 2 → n ≤ 8 → regionHere s n = true →
    Answers (.memStatus r) 0x0D01 r pay s (if bit (u8 r.payload 1) 0 then t else s)) ∧
  (∀ (r : Req) (s : State), let m := u16 r.payload 0
    Takes 0x0D02 r [] s → r.payload.length = 2 → s.variant ≠ .WK → 30 ≤ m → m ≤ 4320 →
    Answers (.scrubConfig r) 0x0D02 r [] s (setCfg (fun c => { c with scrubMin := m }) s)) ∧
  (∀ (r : Req) (s : State), Takes 0x0D02 r [] s → r.payload.length = 2 → s.variant ≠ .WK → u16 r.payload 0 < 30 ∨ 4320 < u16 r.payload 0 →
    Refuses (.scrubConfig r) 0x0D02 r .range s)

/-- Reset sources (R544, R546, R549, R557, R498): each source resets the device with RESTART latched and every output
de-energised; power-on and brown-out clear every other cause, the others keep those latched; the configuration and what is
volatile stand at reset, MRAM is kept. Readings of the model's own: log 9, 18, 19, 20. -/
def Obligations.ResetSources : Prop :=
  (∀ (s : State), (s.rst.life = .selftest ∨ s.rst.life = .ready ∨ s.rst.life = .run) → s.rst.delayed = some 4 →
    ∀ x ∈ [(Instr.powerOnReset, 0), (.brownOut, 1), (.sysrstN, 2), (.supWatchdog, 3), (.deviceResetDelay, 4)],
      ∃ t, exec x.1 s = .next t ∧ t.rst.life = .reset ∧ t.rst.asserted = s.rst.asserted ||| BitVec.ofNat 8 (2 ^ x.2) ∧
        t.safe.causes = (if x.2 ≤ 1 then 1 else s.safe.causes ||| 1) ∧ t.safe.outs = 0 ∧ t.mram = s.mram ∧ t.cfg = {} ∧ t.dp = {} ∧ t.hif = {} ∧
        t.variant = s.variant ∧ t.pending = s.pending) ∧
  (∀ (s : State), s.rst.asserted = 0 → s.rst.life = .loading → ∃ t, exec .startTimeout s = .next t ∧ t.rst.life = .reset ∧
    t.rst.asserted = BitVec.ofNat 8 (2 ^ 7) ∧ t.safe.causes = s.safe.causes ||| 1 ∧ t.safe.outs = 0 ∧ t.mram = s.mram ∧ t.cfg = {}) ∧
  (∀ (s : State), ∃ t, exec .refCrystalFault s = .next t ∧ t.rst.life = .reset ∧ t.safe.refOk = false ∧ t.safe.outs = 0 ∧
    t.safe.causes = s.safe.causes ||| 1 ∧ t.mram = s.mram ∧ t.cfg = {}) ∧
  (∀ (s : State), s.safe.causes = 0 → s.rst.life = .run → ∃ t, exec (.mittenMismatch 0) s = .next t ∧ t.rst.life = .reset ∧ t.safe.causes = 3 ∧
    t.safe.mittenMask.getLsbD 0 = true ∧ t.rst.asserted = s.rst.asserted ||| BitVec.ofNat 8 (2 ^ 5) ∧ t.safe.outs = 0 ∧ t.cfg = {}) ∧
  (∀ (s : State), s.safe.causes = 0 → s.rst.life = .run → s.safe.mittenMask = 0 → ∃ t, exec (.mittenMismatch 2) s = .next t ∧ t.safe.causes = 2 ∧
    t.safe.mittenMask = 4 ∧ t.safe.injected = false ∧ t.safe.outs = 0 ∧ t.rst.life = .run ∧ t.cfg = s.cfg)

/-- The release order (R545, R547, R550, R553 to R555, R558): at the release the boot and failed-start counters step and a FULL
reset latches the straps; with PLL lock SUP runs and the boot ROM works; a verified image starts, none leads to Cloakroom mode;
the shadows are applied and SELFTEST begins; a failed-start count is cleared after its time in RUN. Readings of the model's own:
log 22, 24. -/
def Obligations.ReleaseOrder : Prop :=
  (∀ (x : BitVec 12) (s : State), s.rst.life = .reset → s.rst.asserted.getLsbD 0 = true → s.safe.refOk = true → ∃ t, exec (.resetRelease x true) s = .next t ∧
    t.rst.asserted = 0 ∧ t.rst.cause = 0 ∧ t.rst.straps = x ∧ t.mram = { s.mram with boot := s.mram.boot + 1, failCount := nextFail s.mram, failOk := true } ∧
    t.safe = s.safe ∧ t.cfg = s.cfg) ∧
  (∀ (x : BitVec 12) (s : State), s.rst.life = .reset → s.rst.asserted = 4 → s.safe.refOk = true → ∃ t, exec (.resetRelease x true) s = .next t ∧
    t.rst.asserted = 0 ∧ t.rst.cause = 2 ∧ t.rst.straps = s.rst.straps ∧ t.mram.boot = s.mram.boot + 1 ∧ t.safe = s.safe ∧ t.cfg = s.cfg) ∧
  (∀ s : State, s.rst.life = .reset → s.rst.step = 2 → exec .pllLock s = .next { s with rst := { s.rst with pllLocked := true } }) ∧
  (∀ s : State, s.rst.life = .reset → s.rst.asserted = 0 → s.safe.refOk = true → s.rst.step = 1 →
    exec .releaseGapExpiry s = .next { s with rst := { s.rst with step := 2 } }) ∧
  (∀ s : State, s.rst.life = .reset → s.rst.asserted = 0 → s.safe.refOk = true → s.rst.step = 2 → s.rst.pllLocked = true → s.rst.trimOk = true →
    s.mram.failCount < 3 → ∃ t, exec .releaseGapExpiry s = .next t ∧ t.rst.life = .loading ∧ t.rst.step = 3 ∧ t.rst.held = [] ∧
      t.rst.shadow.isSome = true ∧ t.safe.causes = s.safe.causes ∧ t.cfg = s.cfg) ∧
  (∀ s : State, s.rst.life = .reset → s.rst.asserted = 0 → s.safe.refOk = true → s.rst.step = 2 → s.rst.pllLocked = true → s.rst.trimOk = true →
    3 ≤ s.mram.failCount → ∃ t, exec .releaseGapExpiry s = .next t ∧ t.rst.life = .cloakroom ∧ t.rst.reason = 0 ∧ t.fw.source = 3 ∧
      t.safe.causes = s.safe.causes ∧ t.cfg = s.cfg) ∧
  (∀ s : State, s.rst.life = .loading → s.rst.step = 5 → s.safe.railBad.getLsbD 0 = false → ∃ t, exec .releaseGapExpiry s = .next t ∧
    t.rst.life = .selftest ∧ t.rst.step = 6 ∧ t.cfg = { (s.rst.shadow.getD {}).body with loops := t.cfg.loops } ∧ t.tests.startup = startupTests s ∧
    (∀ n, s.safe.causes.getLsbD n = true → t.safe.causes.getLsbD n = true)) ∧
  (∀ s : State, s.rst.life = .loading → s.rst.step = 4 → exec .ddr4TrainingDone s = .next { s with rst := { s.rst with step := 5 } }) ∧
  (∀ s : State, s.rst.life = .loading → s.rst.step = 3 → s.strap 10 = false → s.fw.prefB = false → exec .bootRomDone s =
    .next (if s.fw.validA = true ∧ Config.sigValid s.fw.imgA = true then startImage 0 s.fw.imgA s
      else if s.fw.validB = true ∧ Config.sigValid s.fw.imgB = true then startImage 1 s.fw.imgB (rejectImage 0 s)
      else enterCloakroom 2 (rejectImage 1 (rejectImage 0 s)))) ∧
  (∀ (f : List Byte) (s : State), let d := Memory.readAll s.hif.ram (slotAddr 0) 16
    let u := emit (.hostRead (BitVec.ofNat 64 (ule d 0 8)) (u32 d 8)) s
    s.rst.life = .loading → s.rst.step = 3 → s.variant ≠ .WK → s.strap 10 = true → u16 d 12 = 0xB007 → crc16 (d.take 14) = u16 d 14 → d ≠ s.rst.badDesc →
    u32 d 8 ≠ 0 → u32 d 8 ≤ 3145728 → ule d 0 8 % 8 = 0 → f.length = u32 d 8 → exec (.pcieBootPoll (some f)) s =
      .next (if Config.sigValid f = true then startImage 2 f u
        else event 0x0F12 3 [2, 0, (Config.imageVersion f).toNat] { u with rst := { u.rst with badDesc := d } })) ∧
  (∀ s : State, s.inRun = true → s.mram.failCount ≠ 0 → exec .failedStartClearTimer s =
    .next (event 0x0F16 1 [s.mram.failCount, 0] { s with mram := { s.mram with failCount := 0, failOk := true } }))

/-- Self-tests and classes 0x0E, 0x0F (R325, R330 to R334, R496, R498 to R500, R558): the last start-up test leads to READY, a
failed test latches SELFTEST; a requested test runs; results are answered; a reset follows its answer; an image is loaded and
verified; the failed-start count is cleared; a safety image is kept as the newest bank. Readings of the model's own: log 3, 25,
28, 29. -/
def Obligations.SelftestAndFirmware : Prop :=
  (∀ (x : TestResult) (s : State), s.rst.life = .selftest → s.tests.startup = [x.code] → s.tests.running = none → x.code ≠ 0x11 → x.passed = true →
    ∃ t, exec (.selftestComplete x) s = .next t ∧ t.rst.life = .ready ∧ t.tests.startup = [] ∧ t.safe.causes = s.safe.causes ∧
      x.code ∉ t.safe.testsBad ∧ t.cfg = s.cfg) ∧
  (∀ (x : TestResult) (s : State), s.tests.running = some x.code → x.code ≠ 0x11 → x.passed = false → ∃ t, exec (.selftestComplete x) s = .next t ∧
    t.tests.running = none ∧ t.safe.causes.getLsbD 13 = true ∧ x.code ∈ t.safe.testsBad ∧ t.cfg = s.cfg) ∧
  (∀ (x : TestResult) (s : State), s.rst.life = .run → x.code = 1 ∨ x.code = 3 → x.passed = false → ∃ t, exec (.periodicSelftest x) s = .next t ∧
    t.safe.causes.getLsbD 13 = true ∧ x.code ∈ t.safe.testsBad ∧ t.cfg = s.cfg) ∧
  (∀ (r : Req) (s : State), Takes 0x0E01 r [] s → r.payload.length = 4 → u8 r.payload 0 = 1 ∨ u8 r.payload 0 = 3 → s.tests.running = none →
    s.tests.waiting = none → Answers (.selftestRun r) 0x0E01 r [] s
      { s with tests := { s.tests with regions := u16 r.payload 2, running := some (u8 r.payload 0) } }) ∧
  (∀ (r : Req) (s : State), Takes 0x0E01 r [] s → r.payload.length = 4 → u8 r.payload 0 = 0x13 → s.rst.life = .ready → s.tests.running = none →
    s.tests.waiting = none → ∃ u, Answers (.selftestRun r) 0x0E01 r [] s u ∧ u.rst.life = .selftest ∧ u.tests.running = some 0x13 ∧
      u.cfg = s.cfg ∧ u.safe.causes = s.safe.causes) ∧
  (∀ (r : Req) (s : State), ∃ pay, pay.length = 96 ∧ (Takes 0x0E02 r pay s → r.payload = [] → Answers (.selftestStatus r) 0x0E02 r pay s s)) ∧
  (∀ (n : Fin 31) (r : Req) (s : State), Takes 0x0F01 r [] s → r.path = .slot n → r.payload = [0, 0xA5] → s.mem.role = .none → s.rst.delayed = none →
    Answers (.deviceReset r) 0x0F01 r [] s { s with rst := { s.rst with delayed := some 4 } }) ∧
  (∀ (r : Req) (s : State), let p := r.payload
    let pay := leBytes 8 0
    Takes 0x0F02 r pay s → p.length = 12 → u8 p 0 = 0 → u8 p 1 = 0 → s.fw.source ≠ 0 → 1 ≤ u32 p 8 → u32 p 8 ≤ 8388608 →
    Answers (.fwLoad r) 0x0F02 r pay s
      { s with fw := { s.fw with imgA := [], validA := false, load := some (0, u32 p 8), chunks := [] } }) ∧
  (∀ (r : Req) (n : Nat) (s : State), let p := r.payload
    let u := { s with fw := { s.fw with chunks := [(0, p.drop 12)] } }
    Takes 0x0F02 r (loadAnswer u) s → u8 p 0 = 1 → u8 p 1 = 0 → s.fw.source ≠ 0 → s.fw.load = some (0, n) → s.fw.chunks = [] → u32 p 4 = 0 →
    12 < p.length → p.length ≤ 236 → p.length - 12 ≤ n → Answers (.fwLoad r) 0x0F02 r (loadAnswer u) s u) ∧
  (∀ (r : Req) (s : State), let pay := leBytes 1 s.mram.failCount
    Takes 0x0F03 r pay s → r.payload = [] → Answers (.failcountClear r) 0x0F03 r pay s
      (event 0x0F16 1 [s.mram.failCount, 1] { s with mram := { s.mram with failCount := 0, failOk := true } })) ∧
  (∀ (r : Req) (l : List (Nat × List Byte)) (c : Cfg) (s : State), let p := r.payload
    let base := match newerBank s.mram with | some x => x.2.body | none => s.cfg
    Takes 0x0F04 r (leBytes 4 (u32 p 0)) s → s.strap 7 = false → s.inRun = false → 16 ≤ p.length → u32 p 4 = (p.drop 16).length →
    u32 p 8 = crc32 (p.drop 16) → subRecords ((p.drop 16).length / 4) (p.drop 16) = some l → composed s.isManager l = true →
    checkRecords l (if s.isManager then { base with thrusters := List.replicate 24 [], power := [] } else base) = .ok c →
    ∃ u k b, Answers (.safeImageLoad r) 0x0F04 r (leBytes 4 (u32 p 0)) s u ∧ newerBank u.mram = some (k, b) ∧ b.image = some { thrusters := c.thrusters, power := c.power } ∧ b.body = c ∧
      u.cfg = s.cfg ∧ u.safe = s.safe)
end

