-- ==== Sys2Proof/Laws/Keeps.lean ====
section
/-! SUPPORT. What every command keeps: the queue, the variant, the strap latch, BOOT and the reset-cause register, the canonical form of BAR0
memory, the latched causes, and de-energised outputs in the safe state; with the rules that carry it through compositions. -/

namespace Sys2Proof.Machine

/-- A safety controller's step: no latched cause is lost, and outputs stay de-energised where a latched cause had them so. -/
structure SafeKeeps (a b : Safe) : Prop where
  causes : ∀ n, a.causes.getLsbD n = true → b.causes.getLsbD n = true
  off : (a.causes ≠ 0 → a.outs = 0) → b.causes ≠ 0 → b.outs = 0

/-- BAR0 memory stays canonical. -/
def RamKeeps (a b : List Host.Cell) : Prop := Memory.wf a = true → Memory.wf b = true

/-- What every command but a release, a release sequence and a reset of scope FULL keeps. -/
structure Keeps (s t : State) : Prop where
  pending : t.pending = s.pending
  variant : t.variant = s.variant
  straps : t.rst.straps = s.rst.straps
  cause : t.rst.cause = s.rst.cause
  boot : t.mram.boot = s.mram.boot
  ram : RamKeeps s.hif.ram t.hif.ram
  safe : SafeKeeps s.safe t.safe

/-- An answer keeps what `Keeps` names. -/
def AnsKeeps (z : State) : Ans → Prop
  | .done _ _ t => Keeps z t
  | .later t => Keeps z t

/-- A result keeps what `Keeps` names. -/
def ResKeeps (z : State) : Res → Prop
  | .next t => Keeps z t
  | .fault _ => True
  | .refused _ => True

theorem safeKeeps_refl (a : Safe) : SafeKeeps a a := ⟨fun _ h => h, fun h => h⟩

theorem safeKeeps_of_eq {a b : Safe} (hc : b.causes = a.causes) (ho : b.outs = a.outs) : SafeKeeps a b :=
  ⟨fun n h => by rw [hc]; exact h, fun h k => by rw [ho]; exact h (by rw [← hc]; exact k)⟩

theorem safeKeeps_trans {a b c : Safe} (h : SafeKeeps a b) (k : SafeKeeps b c) : SafeKeeps a c :=
  ⟨fun n x => k.causes n (h.causes n x), fun x => k.off (h.off x)⟩

theorem ramKeeps_refl (a : List Host.Cell) : RamKeeps a a := fun h => h

theorem ramKeeps_of_eq {a b : List Host.Cell} (h : b = a) : RamKeeps a b := by rw [h]; exact ramKeeps_refl a

theorem keeps_refl (s : State) : Keeps s s := ⟨rfl, rfl, rfl, rfl, rfl, ramKeeps_refl _, safeKeeps_refl _⟩

theorem keeps_trans {s t u : State} (h : Keeps s t) (k : Keeps t u) : Keeps s u :=
  ⟨k.pending.trans h.pending, k.variant.trans h.variant, k.straps.trans h.straps, k.cause.trans h.cause, k.boot.trans h.boot,
    fun x => k.ram (h.ram x), safeKeeps_trans h.safe k.safe⟩

theorem keeps_ite {z a b : State} {c : Prop} [Decidable c] (ha : Keeps z a) (hb : Keeps z b) : Keeps z (if c then a else b) := by
  split <;> assumption

theorem ansKeeps_ite {z : State} {a b : Ans} {c : Prop} [Decidable c] (ha : AnsKeeps z a) (hb : AnsKeeps z b) :
    AnsKeeps z (if c then a else b) := by split <;> assumption

theorem resKeeps_ite {z : State} {a b : Res} {c : Prop} [Decidable c] (ha : ResKeeps z a) (hb : ResKeeps z b) :
    ResKeeps z (if c then a else b) := by split <;> assumption

theorem keeps_foldl {z : State} {α : Type} {f : State → α → State} {l : List α} (hf : ∀ t x, Keeps t (f t x)) {s : State} (h : Keeps z s) :
    Keeps z (l.foldl f s) := by
  induction l generalizing s with
  | nil => exact h
  | cons x l ih => exact ih (keeps_trans h (hf s x))

theorem ansKeeps_done {z t : State} {st : Status} {p : List Byte} (h : Keeps z t) : AnsKeeps z (.done st p t) := h
theorem ansKeeps_later {z t : State} (h : Keeps z t) : AnsKeeps z (.later t) := h
theorem resKeeps_next {z t : State} (h : Keeps z t) : ResKeeps z (.next t) := h

/-- A record update that leaves the kept parts as they are. -/
theorem keeps_mk {z X : State} {free undo outs cfg cfgNext mram fw rst safe time cyc brd mem dp sol fus loop filt ao bus link hif rcd arch memp tests}
    (h : Keeps z X) (hs : rst.straps = X.rst.straps) (hc : rst.cause = X.rst.cause) (hb : mram.boot = X.mram.boot)
    (hr : RamKeeps X.hif.ram hif.ram) (hk : SafeKeeps X.safe safe) :
    Keeps z { pending := X.pending, free := free, undo := undo, outs := outs, variant := X.variant, cfg := cfg, cfgNext := cfgNext, mram := mram, fw := fw,
              rst := rst, safe := safe, time := time, cyc := cyc, brd := brd, mem := mem, dp := dp, sol := sol, fus := fus, loop := loop,
              filt := filt, ao := ao, bus := bus, link := link, hif := hif, rcd := rcd, arch := arch, memp := memp, tests := tests } :=
  keeps_trans h ⟨rfl, rfl, hs, hc, hb, hr, hk⟩

end Sys2Proof.Machine
end

