-- ==== Sys2Proof/Laws/Memory.lean ====
section
/-! SUPPORT. BAR0 memory: reading after writing, and the canonical form that every operation keeps. -/

namespace Sys2Proof.Machine

@[simp] theorem memory_wf_nil : Memory.wf [] = true := rfl

/-- The canonical form of a list of cells: its first cell holds a byte that is listed, lies below the rest, and the rest is canonical. -/
theorem memory_wf_cons (k : Nat) (b : Byte) (m : List Host.Cell) :
    Memory.wf ((k, b) :: m) = true ↔ b ≠ ramDefault ∧ (∀ c ∈ m.head?, k < c.1) ∧ Memory.wf m = true := by
  cases m with
  | nil => simp [Memory.wf]
  | cons c m => obtain ⟨a', b'⟩ := c; simp [Memory.wf, and_assoc]

/-- A written list begins at the lower of the written address and the old beginning. -/
theorem memory_write_head (m : List Host.Cell) (a k : Nat) (v : Byte) (hk : k < a) (h : ∀ c ∈ m.head?, k < c.1) :
    Memory.wf m = true → ∀ c ∈ (Memory.write m a v).head?, k < c.1 := by
  intro hw
  cases m with
  | nil => unfold Memory.write; split <;> simp [hk]
  | cons c m =>
    obtain ⟨k', b⟩ := c
    have h' : k < k' := h (k', b) (by simp)
    unfold Memory.write
    split
    · split <;> simp [hk, h']
    · split
      · split
        · rw [memory_wf_cons] at hw
          intro c hc
          exact Nat.lt_trans h' (hw.2.1 c hc)
        · simp [hk]
      · simp [h']

/-- A write keeps the canonical form. -/
theorem memory_wf_write (m : List Host.Cell) (a : Nat) (v : Byte) (h : Memory.wf m = true) : Memory.wf (Memory.write m a v) = true := by
  induction m with
  | nil => unfold Memory.write; split <;> simp_all [Memory.wf]
  | cons c m ih =>
    obtain ⟨k, b⟩ := c
    have hc := (memory_wf_cons k b m).1 h
    unfold Memory.write
    split
    · split
      · exact h
      · rename_i h1 h2
        exact (memory_wf_cons a v _).2 ⟨h2, by simpa using h1, h⟩
    · split
      · split
        · exact hc.2.2
        · rename_i h0 h1 h2
          exact (memory_wf_cons a v _).2 ⟨h2, h1 ▸ hc.2.1, hc.2.2⟩
      · rename_i h0 h1
        exact (memory_wf_cons k b _).2 ⟨hc.1, memory_write_head m a k v (by omega) hc.2.1 hc.2.2, ih hc.2.2⟩

/-- A byte reads as it was written; every other address reads as before. -/
theorem memory_read_write (m : List Host.Cell) (a c : Nat) (v : Byte) (h : Memory.wf m = true) :
    Memory.read (Memory.write m a v) c = if c = a then v else Memory.read m c := by
  have below : ∀ (l : List Host.Cell), Memory.wf l = true → (∀ x ∈ l.head?, c < x.1) → Memory.read l c = ramDefault := by
    intro l
    induction l with
    | nil => intro _ _; rfl
    | cons x l ih =>
      obtain ⟨k, b⟩ := x
      intro hw hx
      have hk : c < k := hx (k, b) (by simp)
      have hl := (memory_wf_cons k b l).1 hw
      unfold Memory.read
      rw [if_neg (by omega)]
      exact ih hl.2.2 fun y hy => Nat.lt_trans hk (hl.2.1 y hy)
  induction m with
  | nil =>
    unfold Memory.write
    split
    · rename_i hv; simp [Memory.read, hv]
    · simp [Memory.read, eq_comm]
  | cons x m ih =>
    obtain ⟨k, b⟩ := x
    have hc := (memory_wf_cons k b m).1 h
    unfold Memory.write
    split
    · rename_i hlt
      split
      · rename_i hv
        split
        · rename_i e; subst e; rw [below _ h (by simpa using hlt), hv]
        · rfl
      · simp only [Memory.read, eq_comm]
    · split
      · rename_i _ e
        subst e
        split
        · rename_i hv
          split
          · rename_i e; subst e; rw [below _ hc.2.2 hc.2.1, hv]
          · rename_i hne; simp [Memory.read, Ne.symm hne]
        · by_cases e : c = a
          · simp [Memory.read, e]
          · simp [Memory.read, e, Ne.symm e]
      · rename_i hlt hne
        simp only [Memory.read, ih hc.2.2]
        by_cases e : c = a
        · subst e; simp [Ne.symm hne]
        · simp [e]

/-- A byte of a run written at rising addresses (R449). -/
theorem memory_wf_writeAll (bs : List Byte) : ∀ (m : List Host.Cell) (a : Nat), Memory.wf m = true → Memory.wf (Memory.writeAll m a bs) = true := by
  induction bs with
  | nil => intro m a h; exact h
  | cons b bs ih => intro m a h; exact ih _ _ (memory_wf_write m a b h)

/-- Bytes outside a run read as before; a byte inside it reads as written. -/
theorem memory_read_writeAll (bs : List Byte) : ∀ (m : List Host.Cell) (a c : Nat), Memory.wf m = true →
    Memory.read (Memory.writeAll m a bs) c = if h : a ≤ c ∧ c - a < bs.length then bs[c - a]'h.2 else Memory.read m c := by
  induction bs with
  | nil => intro m a c _; simp [Memory.writeAll]
  | cons b bs ih =>
    intro m a c h
    rw [Memory.writeAll, ih _ _ _ (memory_wf_write m a b h), memory_read_write _ _ _ _ h]
    by_cases e : c = a
    · subst e; simp
    · by_cases hin : a + 1 ≤ c ∧ c - (a + 1) < bs.length
      · have h2 : a ≤ c ∧ c - a < (b :: bs).length := by simp; omega
        rw [dif_pos hin, dif_pos h2]
        have : c - a = (c - (a + 1)) + 1 := by omega
        simp [this]
      · have h2 : ¬ (a ≤ c ∧ c - a < (b :: bs).length) := by simp; omega
        rw [dif_neg hin, dif_neg h2, if_neg e]

theorem ramKeeps_write (m : List Host.Cell) (a : Nat) (v : Byte) : RamKeeps m (Memory.write m a v) := memory_wf_write m a v

end Sys2Proof.Machine
end

