-- ==== Sys2Proof/Laws/KeepOps.lean ====
section
/-! SUPPORT. Every operation and meaning of Machine/Ops.lean keeps what `Keeps` names. -/

set_option linter.unusedSimpArgs false

namespace Sys2Proof.Machine

theorem ramKeeps_writeAll (bs : List Byte) : ∀ (m : List Host.Cell) (a : Nat), RamKeeps m (Memory.writeAll m a bs) := by
  induction bs with
  | nil => intro m a; exact ramKeeps_refl m
  | cons b bs ih => intro m a h; exact ih _ _ (ramKeeps_write m a b h)

theorem keeps_writeSlot (n off : Nat) (bs : List Byte) (s : State) {z : State} (h : Keeps z s) : Keeps z (writeSlot n off bs s) :=
  keeps_trans h ⟨rfl, rfl, rfl, rfl, rfl, ramKeeps_writeAll bs _ _, safeKeeps_refl _⟩


theorem keeps_emit (o : Out) (s : State) {z : State} (h : Keeps z s) : Keeps z (emit o s) := by
  unfold emit
  simp (maxDischargeDepth := 40) only [implies_true, ↓keeps_refl, ↓keeps_ite, ↓keeps_foldl, ↓keeps_mk, ↓ramKeeps_refl, ↓safeKeeps_refl, ↓safeKeeps_of_eq, ↓ramKeeps_of_eq, h]

theorem keeps_stepFree (s : State) {z : State} (h : Keeps z s) : Keeps z (stepFree s) := by
  unfold stepFree
  simp (maxDischargeDepth := 40) only [implies_true, ↓keeps_refl, ↓keeps_ite, ↓keeps_foldl, ↓keeps_mk, ↓ramKeeps_refl, ↓safeKeeps_refl, ↓safeKeeps_of_eq, ↓ramKeeps_of_eq, h]

theorem keeps_raiseIrq (b : Nat) (s : State) {z : State} (h : Keeps z s) : Keeps z (raiseIrq b s) := by
  unfold raiseIrq
  simp (maxDischargeDepth := 40) only [implies_true, ↓keeps_refl, ↓keeps_ite, ↓keeps_foldl, ↓keeps_mk, ↓ramKeeps_refl, ↓safeKeeps_refl, ↓safeKeeps_of_eq, ↓ramKeeps_of_eq, ↓keeps_emit, h]

theorem keeps_irqChange (s0 s : State) {z : State} (h : Keeps z s) : Keeps z (irqChange s0 s) := by
  unfold irqChange
  simp (maxDischargeDepth := 40) only [implies_true, ↓keeps_refl, ↓keeps_ite, ↓keeps_foldl, ↓keeps_mk, ↓ramKeeps_refl, ↓safeKeeps_refl, ↓safeKeeps_of_eq, ↓ramKeeps_of_eq, ↓keeps_raiseIrq, h]

theorem keeps_setBucket (b : Bucket) (s : State) {z : State} (h : Keeps z s) : Keeps z (setBucket b s) := by
  unfold setBucket
  simp (maxDischargeDepth := 40) only [implies_true, ↓keeps_refl, ↓keeps_ite, ↓keeps_foldl, ↓keeps_mk, ↓ramKeeps_refl, ↓safeKeeps_refl, ↓safeKeeps_of_eq, ↓ramKeeps_of_eq, h]

theorem keeps_notify (num : Word) (r : EvRec) (s : State) {z : State} (h : Keeps z s) : Keeps z (notify num r s) := by
  unfold notify
  simp (maxDischargeDepth := 40) only [implies_true, ↓keeps_refl, ↓keeps_ite, ↓keeps_foldl, ↓keeps_mk, ↓ramKeeps_refl, ↓safeKeeps_refl, ↓safeKeeps_of_eq, ↓ramKeeps_of_eq, h]

theorem keeps_ringAppend (r : EvRec) (s : State) {z : State} (h : Keeps z s) : Keeps z (ringAppend r s) := by
  unfold ringAppend
  simp (maxDischargeDepth := 40) only [implies_true, ↓keeps_refl, ↓keeps_ite, ↓keeps_foldl, ↓keeps_mk, ↓ramKeeps_refl, ↓safeKeeps_refl, ↓safeKeeps_of_eq, ↓ramKeeps_of_eq, h]

theorem keeps_enqueue (ix : Nat) (f : Frame) (s : State) {z : State} (h : Keeps z s) : Keeps z (enqueue ix f s) := by
  unfold enqueue
  simp (maxDischargeDepth := 40) only [implies_true, ↓keeps_refl, ↓keeps_ite, ↓keeps_foldl, ↓keeps_mk, ↓ramKeeps_refl, ↓safeKeeps_refl, ↓safeKeeps_of_eq, ↓ramKeeps_of_eq, h]

theorem keeps_pump (s : State) {z : State} (h : Keeps z s) : Keeps z (pump s) := by
  unfold pump
  simp (maxDischargeDepth := 40) only [implies_true, ↓keeps_refl, ↓keeps_ite, ↓keeps_foldl, ↓keeps_mk, ↓ramKeeps_refl, ↓safeKeeps_refl, ↓safeKeeps_of_eq, ↓ramKeeps_of_eq, h]

theorem keeps_sendNet (f : Frame) (net : Bool) (s : State) {z : State} (h : Keeps z s) : Keeps z (sendNet f net s) := by
  unfold sendNet
  dsimp only
  (repeat' split) <;> simp (maxDischargeDepth := 40) only [implies_true, ↓keeps_refl, ↓keeps_ite, ↓keeps_foldl, ↓keeps_mk, ↓ramKeeps_refl, ↓safeKeeps_refl, ↓safeKeeps_of_eq, ↓ramKeeps_of_eq, ↓keeps_enqueue, h]

theorem keeps_sendFrame (type flow prio : Nat) (both : Bool) (dst : Nat) (epoch16 : BitVec 16) (payload : List Byte) (flags : Hdr → Hdr) (s : State) {z : State} (h : Keeps z s) : Keeps z (sendFrame type flow prio both dst epoch16 payload flags s) := by
  unfold sendFrame
  simp (maxDischargeDepth := 40) only [implies_true, ↓keeps_refl, ↓keeps_ite, ↓keeps_foldl, ↓keeps_mk, ↓ramKeeps_refl, ↓safeKeeps_refl, ↓safeKeeps_of_eq, ↓ramKeeps_of_eq, ↓keeps_pump, ↓keeps_sendNet, h]

theorem keeps_sendSys (type dst : Nat) (epoch : Word) (payload : List Byte) (s : State) {z : State} (h : Keeps z s) : Keeps z (sendSys type dst epoch payload s) := by
  unfold sendSys
  simp (maxDischargeDepth := 40) only [implies_true, ↓keeps_refl, ↓keeps_ite, ↓keeps_foldl, ↓keeps_mk, ↓ramKeeps_refl, ↓safeKeeps_refl, ↓safeKeeps_of_eq, ↓ramKeeps_of_eq, ↓keeps_sendFrame, h]

theorem keeps_sendMember (subtype : Nat) (s : State) {z : State} (h : Keeps z s) : Keeps z (sendMember subtype s) := by
  unfold sendMember
  simp (maxDischargeDepth := 40) only [implies_true, ↓keeps_refl, ↓keeps_ite, ↓keeps_foldl, ↓keeps_mk, ↓ramKeeps_refl, ↓safeKeeps_refl, ↓safeKeeps_of_eq, ↓ramKeeps_of_eq, ↓keeps_sendSys, h]

theorem keeps_storeRec (r : EvRec) (own : Bool) (s : State) {z : State} (h : Keeps z s) : Keeps z (storeRec r own s) := by
  unfold storeRec
  simp (maxDischargeDepth := 40) only [implies_true, ↓keeps_refl, ↓keeps_ite, ↓keeps_foldl, ↓keeps_mk, ↓ramKeeps_refl, ↓safeKeeps_refl, ↓safeKeeps_of_eq, ↓ramKeeps_of_eq, ↓keeps_notify, ↓keeps_ringAppend, ↓keeps_sendSys, h]

theorem keeps_offer (r : EvRec) (k : Nat) (own : Bool) (s : State) {z : State} (h : Keeps z s) : Keeps z (offer r k own s) := by
  unfold offer
  simp (maxDischargeDepth := 40) only [implies_true, ↓keeps_refl, ↓keeps_ite, ↓keeps_foldl, ↓keeps_mk, ↓ramKeeps_refl, ↓safeKeeps_refl, ↓safeKeeps_of_eq, ↓ramKeeps_of_eq, ↓keeps_setBucket, ↓keeps_storeRec, h]

theorem keeps_fireTraces (n code : Nat) (s : State) {z : State} (h : Keeps z s) : Keeps z (fireTraces n code s) := by
  induction n generalizing code s with
  | zero => exact h
  | succ n ih =>
    unfold fireTraces
    dsimp only
    split
    · exact h
    · exact ih _ _ (keeps_foldl (fun t x => keeps_offer _ _ _ t (keeps_refl t)) (keeps_mk h rfl rfl rfl (ramKeeps_refl _) (safeKeeps_refl _)))


theorem keeps_event (code sev : Nat) (ps : List Nat) (s : State) {z : State} (h : Keeps z s) : Keeps z (event code sev ps s) := by
  unfold event
  simp (maxDischargeDepth := 40) only [implies_true, ↓keeps_refl, ↓keeps_ite, ↓keeps_foldl, ↓keeps_mk, ↓ramKeeps_refl, ↓safeKeeps_refl, ↓safeKeeps_of_eq, ↓ramKeeps_of_eq, ↓keeps_fireTraces, ↓keeps_offer, h]

theorem keeps_flushHeld (s : State) {z : State} (h : Keeps z s) : Keeps z (flushHeld s) := by
  unfold flushHeld
  simp (maxDischargeDepth := 40) only [implies_true, ↓keeps_refl, ↓keeps_ite, ↓keeps_foldl, ↓keeps_mk, ↓ramKeeps_refl, ↓safeKeeps_refl, ↓safeKeeps_of_eq, ↓ramKeeps_of_eq, ↓keeps_event, h]

theorem keeps_noRoute (type dst : Nat) (nets : List Bool) (s : State) {z : State} (h : Keeps z s) : Keeps z (noRoute type dst nets s) := by
  unfold noRoute
  simp (maxDischargeDepth := 40) only [implies_true, ↓keeps_refl, ↓keeps_ite, ↓keeps_foldl, ↓keeps_mk, ↓ramKeeps_refl, ↓safeKeeps_refl, ↓safeKeeps_of_eq, ↓ramKeeps_of_eq, ↓keeps_event, h]

theorem keeps_sendTo (type flow prio : Nat) (both : Bool) (dst : Nat) (epoch16 : BitVec 16) (payload : List Byte) (flags : Hdr → Hdr) (s : State) {z : State} (h : Keeps z s) : Keeps z (sendTo type flow prio both dst epoch16 payload flags s) := by
  unfold sendTo
  simp (maxDischargeDepth := 40) only [implies_true, ↓keeps_refl, ↓keeps_ite, ↓keeps_foldl, ↓keeps_mk, ↓ramKeeps_refl, ↓safeKeeps_refl, ↓safeKeeps_of_eq, ↓ramKeeps_of_eq, ↓keeps_noRoute, ↓keeps_sendFrame, h]

theorem keeps_sendLong (type dst : Nat) (epoch : Word) (bs : List Byte) (replay : Bool) (s : State) {z : State} (h : Keeps z s) : Keeps z (sendLong type dst epoch bs replay s) := by
  unfold sendLong
  simp (maxDischargeDepth := 40) only [implies_true, ↓keeps_refl, ↓keeps_ite, ↓keeps_foldl, ↓keeps_mk, ↓ramKeeps_refl, ↓safeKeeps_refl, ↓safeKeeps_of_eq, ↓ramKeeps_of_eq, ↓keeps_sendTo, h]

theorem keeps_resendLong (type dst : Nat) (epoch : Word) (q : BitVec 16) (bs : List Byte) (s : State) {z : State} (h : Keeps z s) : Keeps z (resendLong type dst epoch q bs s) := by
  unfold resendLong
  simp (maxDischargeDepth := 40) only [implies_true, ↓keeps_refl, ↓keeps_ite, ↓keeps_foldl, ↓keeps_mk, ↓ramKeeps_refl, ↓safeKeeps_refl, ↓safeKeeps_of_eq, ↓ramKeeps_of_eq, ↓keeps_sendLong, h]

theorem keeps_answerOnly (dev status : Nat) (s : State) {z : State} (h : Keeps z s) : Keeps z (answerOnly dev status s) := by
  unfold answerOnly
  simp (maxDischargeDepth := 40) only [implies_true, ↓keeps_refl, ↓keeps_ite, ↓keeps_foldl, ↓keeps_mk, ↓ramKeeps_refl, ↓safeKeeps_refl, ↓safeKeeps_of_eq, ↓ramKeeps_of_eq, ↓keeps_sendSys, h]

theorem keeps_sendAnswer (dev status : Nat) (s : State) {z : State} (h : Keeps z s) : Keeps z (sendAnswer dev status s) := by
  unfold sendAnswer
  simp (maxDischargeDepth := 40) only [implies_true, ↓keeps_refl, ↓keeps_ite, ↓keeps_foldl, ↓keeps_mk, ↓ramKeeps_refl, ↓safeKeeps_refl, ↓safeKeeps_of_eq, ↓ramKeeps_of_eq, ↓keeps_answerOnly, ↓keeps_emit, h]

theorem keeps_raiseAlarm (code subj sev detail : Nat) (s : State) {z : State} (h : Keeps z s) : Keeps z (raiseAlarm code subj sev detail s) := by
  unfold raiseAlarm
  simp (maxDischargeDepth := 40) only [implies_true, ↓keeps_refl, ↓keeps_ite, ↓keeps_foldl, ↓keeps_mk, ↓ramKeeps_refl, ↓safeKeeps_refl, ↓safeKeeps_of_eq, ↓ramKeeps_of_eq, h]

theorem keeps_clearAlarm (code subj : Nat) (s : State) {z : State} (h : Keeps z s) : Keeps z (clearAlarm code subj s) := by
  unfold clearAlarm
  simp (maxDischargeDepth := 40) only [implies_true, ↓keeps_refl, ↓keeps_ite, ↓keeps_foldl, ↓keeps_mk, ↓ramKeeps_refl, ↓safeKeeps_refl, ↓safeKeeps_of_eq, ↓ramKeeps_of_eq, h]

theorem keeps_report (code sev subj detail : Nat) (s : State) {z : State} (h : Keeps z s) : Keeps z (report code sev subj detail s) := by
  unfold report
  simp (maxDischargeDepth := 40) only [implies_true, ↓keeps_refl, ↓keeps_ite, ↓keeps_foldl, ↓keeps_mk, ↓ramKeeps_refl, ↓safeKeeps_refl, ↓safeKeeps_of_eq, ↓ramKeeps_of_eq, h]

theorem keeps_stage (place type item : Nat) (first last : Word) (bs : List Byte) (s : State) {z : State} (h : Keeps z s) : Keeps z (stage place type item first last bs s) := by
  unfold stage
  simp (maxDischargeDepth := 40) only [implies_true, ↓keeps_refl, ↓keeps_ite, ↓keeps_foldl, ↓keeps_mk, ↓ramKeeps_refl, ↓safeKeeps_refl, ↓safeKeeps_of_eq, ↓ramKeeps_of_eq, h]

theorem keeps_setRole (r : Role) (s : State) {z : State} (h : Keeps z s) : Keeps z (setRole r s) := by
  unfold setRole
  simp (maxDischargeDepth := 40) only [implies_true, ↓keeps_refl, ↓keeps_ite, ↓keeps_foldl, ↓keeps_mk, ↓ramKeeps_refl, ↓safeKeeps_refl, ↓safeKeeps_of_eq, ↓ramKeeps_of_eq, ↓keeps_irqChange, h]

theorem keeps_abandonSwap (reason : Nat) (s : State) {z : State} (h : Keeps z s) : Keeps z (abandonSwap reason s) := by
  unfold abandonSwap
  simp (maxDischargeDepth := 40) only [implies_true, ↓keeps_refl, ↓keeps_ite, ↓keeps_foldl, ↓keeps_mk, ↓ramKeeps_refl, ↓safeKeeps_refl, ↓safeKeeps_of_eq, ↓ramKeeps_of_eq, ↓keeps_event, h]

theorem keeps_undoCommit (s : State) {z : State} (h : Keeps z s) : Keeps z (undoCommit s) := by
  unfold undoCommit
  dsimp only
  (repeat' split) <;> simp (maxDischargeDepth := 40) only [implies_true, ↓keeps_refl, ↓keeps_ite, ↓keeps_foldl, ↓keeps_mk, ↓ramKeeps_refl, ↓safeKeeps_refl, ↓safeKeeps_of_eq, ↓ramKeeps_of_eq, h]

theorem keeps_dropOpen (s : State) {z : State} (h : Keeps z s) : Keeps z (dropOpen s) := by
  unfold dropOpen
  simp (maxDischargeDepth := 40) only [implies_true, ↓keeps_refl, ↓keeps_ite, ↓keeps_foldl, ↓keeps_mk, ↓ramKeeps_refl, ↓safeKeeps_refl, ↓safeKeeps_of_eq, ↓ramKeeps_of_eq, ↓keeps_undoCommit, h]

theorem keeps_goSilent (cause : Nat) (s : State) {z : State} (h : Keeps z s) : Keeps z (goSilent cause s) := by
  unfold goSilent
  simp (maxDischargeDepth := 40) only [implies_true, ↓keeps_refl, ↓keeps_ite, ↓keeps_foldl, ↓keeps_mk, ↓ramKeeps_refl, ↓safeKeeps_refl, ↓safeKeeps_of_eq, ↓ramKeeps_of_eq, ↓keeps_abandonSwap, ↓keeps_dropOpen, ↓keeps_event, ↓keeps_sendMember, ↓keeps_setRole, h]

theorem keeps_silentIfSafe (s : State) {z : State} (h : Keeps z s) : Keeps z (silentIfSafe s) := by
  unfold silentIfSafe
  simp (maxDischargeDepth := 40) only [implies_true, ↓keeps_refl, ↓keeps_ite, ↓keeps_foldl, ↓keeps_mk, ↓ramKeeps_refl, ↓safeKeeps_refl, ↓safeKeeps_of_eq, ↓ramKeeps_of_eq, ↓keeps_goSilent, h]

theorem keeps_updCtx (n : Nat) (f : Ctx → Ctx) (s : State) {z : State} (h : Keeps z s) : Keeps z (updCtx n f s) := by
  unfold updCtx
  simp (maxDischargeDepth := 40) only [implies_true, ↓keeps_refl, ↓keeps_ite, ↓keeps_foldl, ↓keeps_mk, ↓ramKeeps_refl, ↓safeKeeps_refl, ↓safeKeeps_of_eq, ↓ramKeeps_of_eq, h]

theorem keeps_putCoef (n idx : Nat) (v : Int) (sh : Nat) (s : State) {z : State} (h : Keeps z s) : Keeps z (putCoef n idx v sh s) := by
  unfold putCoef
  simp (maxDischargeDepth := 40) only [implies_true, ↓keeps_refl, ↓keeps_ite, ↓keeps_foldl, ↓keeps_mk, ↓ramKeeps_refl, ↓safeKeeps_refl, ↓safeKeeps_of_eq, ↓ramKeeps_of_eq, ↓keeps_event, ↓keeps_updCtx, h]

theorem keeps_applyWrites (n : Nat) (s : State) {z : State} (h : Keeps z s) : Keeps z (applyWrites n s) := by
  unfold applyWrites
  simp (maxDischargeDepth := 40) only [implies_true, ↓keeps_refl, ↓keeps_ite, ↓keeps_foldl, ↓keeps_mk, ↓ramKeeps_refl, ↓safeKeeps_refl, ↓safeKeeps_of_eq, ↓ramKeeps_of_eq, ↓keeps_putCoef, ↓keeps_updCtx, h]

theorem keeps_ctxState (n st cause : Nat) (s : State) {z : State} (h : Keeps z s) : Keeps z (ctxState n st cause s) := by
  unfold ctxState
  simp (maxDischargeDepth := 40) only [implies_true, ↓keeps_refl, ↓keeps_ite, ↓keeps_foldl, ↓keeps_mk, ↓ramKeeps_refl, ↓safeKeeps_refl, ↓safeKeeps_of_eq, ↓ramKeeps_of_eq, ↓keeps_applyWrites, ↓keeps_event, ↓keeps_updCtx, h]

theorem keeps_inputBack (p : LoopCfg → Bool) (s : State) {z : State} (h : Keeps z s) : Keeps z (inputBack p s) := by
  unfold inputBack
  simp (maxDischargeDepth := 40) only [implies_true, ↓keeps_refl, ↓keeps_ite, ↓keeps_foldl, ↓keeps_mk, ↓ramKeeps_refl, ↓safeKeeps_refl, ↓safeKeeps_of_eq, ↓ramKeeps_of_eq, h]

theorem keeps_disableCtx (n cause : Nat) (s : State) {z : State} (h : Keeps z s) : Keeps z (disableCtx n cause s) := by
  unfold disableCtx
  simp (maxDischargeDepth := 40) only [implies_true, ↓keeps_refl, ↓keeps_ite, ↓keeps_foldl, ↓keeps_mk, ↓ramKeeps_refl, ↓safeKeeps_refl, ↓safeKeeps_of_eq, ↓ramKeeps_of_eq, ↓keeps_ctxState, ↓keeps_updCtx, h]

theorem keeps_cancelBuf (ch b : Nat) (s : State) {z : State} (h : Keeps z s) : Keeps z (cancelBuf ch b s) := by
  unfold cancelBuf
  simp (maxDischargeDepth := 40) only [implies_true, ↓keeps_refl, ↓keeps_ite, ↓keeps_foldl, ↓keeps_mk, ↓ramKeeps_refl, ↓safeKeeps_refl, ↓safeKeeps_of_eq, ↓ramKeeps_of_eq, h]

theorem keeps_suppressCtx (n : Nat) (s : State) {z : State} (h : Keeps z s) : Keeps z (suppressCtx n s) := by
  unfold suppressCtx
  simp (maxDischargeDepth := 40) only [implies_true, ↓keeps_refl, ↓keeps_ite, ↓keeps_foldl, ↓keeps_mk, ↓ramKeeps_refl, ↓safeKeeps_refl, ↓safeKeeps_of_eq, ↓ramKeeps_of_eq, ↓keeps_cancelBuf, ↓keeps_disableCtx, ↓keeps_updCtx, h]

theorem keeps_gloveSettle (s : State) {z : State} (h : Keeps z s) : Keeps z (gloveSettle s) := by
  unfold gloveSettle
  simp (maxDischargeDepth := 40) only [implies_true, ↓keeps_refl, ↓keeps_ite, ↓keeps_foldl, ↓keeps_mk, ↓ramKeeps_refl, ↓safeKeeps_refl, ↓safeKeeps_of_eq, ↓ramKeeps_of_eq, h]

theorem keeps_endPulses (s : State) {z : State} (h : Keeps z s) : Keeps z (endPulses s) := by
  unfold endPulses
  simp (maxDischargeDepth := 40) only [implies_true, ↓keeps_refl, ↓keeps_ite, ↓keeps_foldl, ↓keeps_mk, ↓ramKeeps_refl, ↓safeKeeps_refl, ↓safeKeeps_of_eq, ↓ramKeeps_of_eq, ↓keeps_gloveSettle, h]

/-- Outputs newly commanded: in the safe state none that were not commanded. -/
theorem keeps_setOuts (want : BitVec 16) (s : State) {z : State} (h : Keeps z s) (hw : s.safe.causes ≠ 0 → s.safe.outs = 0 → want = 0) :
    Keeps z (setOuts want s) :=
  keeps_trans h ⟨rfl, rfl, rfl, rfl, rfl, ramKeeps_refl _, fun _ k => k, fun x k => by show want &&& want = 0; rw [hw k (x k)]; rfl⟩


/-- The entry into the safe state from a state whose causes may be new: outputs off, causes as they are. -/
theorem keeps_enterSafe_from (s u : State) (hp : u.pending = s.pending) (hv : u.variant = s.variant) (hr : u.rst = s.rst) (hm : u.mram = s.mram)
    (hf : u.hif = s.hif) (hc : ∀ n, s.safe.causes.getLsbD n = true → u.safe.causes.getLsbD n = true) : Keeps s (enterSafe u) := by
  unfold enterSafe
  refine keeps_foldl (fun t n => keeps_suppressCtx n t (keeps_refl t)) (keeps_endPulses _ ?_)
  exact ⟨hp, hv, by rw [← hr]; rfl, by rw [← hr]; rfl, by rw [← hm]; rfl, ramKeeps_of_eq (by rw [← hf]; rfl), hc, fun _ _ => rfl⟩

theorem keeps_enterSafe (s : State) {z : State} (h : Keeps z s) : Keeps z (enterSafe s) :=
  keeps_trans h (keeps_enterSafe_from s s rfl rfl rfl rfl rfl fun _ x => x)


theorem getLsbD_or_left (a b : BitVec 16) (n : Nat) (h : a.getLsbD n = true) : (a ||| b).getLsbD n = true := by
  rw [BitVec.getLsbD_or, h, Bool.true_or]

/-- A cause newly latched keeps the others and leaves the outputs de-energised. -/
theorem keeps_latchCause (n : Nat) (s : State) {z : State} (h : Keeps z s) : Keeps z (latchCause n s) := by
  refine keeps_trans h ?_
  unfold latchCause
  split
  · exact keeps_refl s
  · rename_i hn
    dsimp only
    have hs2 : Keeps s (if s.safe.causes = 0 then enterSafe { s with safe := { s.safe with
        causes := s.safe.causes ||| BitVec.ofNat 16 (2 ^ n), firstCause := if s.safe.causes = 0 then n + 1 else s.safe.firstCause } }
        else { s with safe := { s.safe with
        causes := s.safe.causes ||| BitVec.ofNat 16 (2 ^ n), firstCause := if s.safe.causes = 0 then n + 1 else s.safe.firstCause } }) := by
      split
      · exact keeps_enterSafe_from s _ rfl rfl rfl rfl rfl fun k x => getLsbD_or_left _ _ k x
      · rename_i hc
        exact ⟨rfl, rfl, rfl, rfl, rfl, ramKeeps_refl _, fun k x => getLsbD_or_left _ _ k x, fun x _ => x hc⟩
    refine keeps_ite (keeps_goSilent _ _ ?_) ?_ <;>
      exact keeps_ite (keeps_event _ _ _ _ (keeps_irqChange _ _ hs2)) (keeps_irqChange _ _ hs2)


theorem keeps_aoSupply (s : State) {z : State} (h : Keeps z s) : Keeps z (aoSupply s) := by
  unfold aoSupply
  simp (maxDischargeDepth := 40) only [implies_true, ↓keeps_refl, ↓keeps_ite, ↓keeps_foldl, ↓keeps_mk, ↓ramKeeps_refl, ↓safeKeeps_refl, ↓safeKeeps_of_eq, ↓ramKeeps_of_eq, ↓keeps_latchCause, h]

theorem keeps_joinGroup (n : Nat) (w : BitVec 128) (s : State) {z : State} (h : Keeps z s) : Keeps z (joinGroup n w s) := by
  unfold joinGroup
  simp (maxDischargeDepth := 40) only [implies_true, ↓keeps_refl, ↓keeps_ite, ↓keeps_foldl, ↓keeps_mk, ↓ramKeeps_refl, ↓safeKeeps_refl, ↓safeKeeps_of_eq, ↓ramKeeps_of_eq, h]

theorem keeps_failSilent (cause : Nat) (s : State) {z : State} (h : Keeps z s) : Keeps z (failSilent cause s) := by
  unfold failSilent
  simp (maxDischargeDepth := 40) only [implies_true, ↓keeps_refl, ↓keeps_ite, ↓keeps_foldl, ↓keeps_mk, ↓ramKeeps_refl, ↓safeKeeps_refl, ↓safeKeeps_of_eq, ↓ramKeeps_of_eq, ↓keeps_latchCause, h]

theorem keeps_driveOutputs (s : State) {z : State} (h : Keeps z s) : Keeps z (driveOutputs s) := by
  unfold driveOutputs
  dsimp only
  refine keeps_gloveSettle _ (keeps_mk (keeps_setOuts _ s h ?_) rfl rfl rfl (ramKeeps_refl _) (safeKeeps_of_eq rfl rfl))
  by_cases hc : s.safe.causes = 0
  · exact fun x => absurd hc x
  · refine fun _ _ => ?_
    have hw : ∀ n, outWanted s n = false := by
      intro n
      have hs : s.isSafe = true := decide_eq_true hc
      simp [outWanted, hs]
    have : ∀ (l : List Nat) (b : Nat), l.foldl (fun (b : Nat) n => if outWanted s n then b + 2 ^ n else b) b = b := by
      intro l
      induction l with
      | nil => intro b; rfl
      | cons x l ih => intro b; simp [List.foldl_cons, hw x, ih]
    rw [this]
    rfl


theorem keeps_setLife (l : Life) (s : State) {z : State} (h : Keeps z s) : Keeps z (setLife l s) := by
  unfold setLife
  simp (maxDischargeDepth := 40) only [implies_true, ↓keeps_refl, ↓keeps_ite, ↓keeps_foldl, ↓keeps_mk, ↓ramKeeps_refl, ↓safeKeeps_refl, ↓safeKeeps_of_eq, ↓ramKeeps_of_eq, ↓keeps_driveOutputs, ↓keeps_irqChange, h]

theorem keeps_storeCfg (f : Cfg → Cfg) (s : State) {z : State} (h : Keeps z s) : Keeps z (storeCfg f s) := by
  unfold storeCfg
  dsimp only
  (repeat' split) <;> simp (maxDischargeDepth := 40) only [implies_true, ↓keeps_refl, ↓keeps_ite, ↓keeps_foldl, ↓keeps_mk, ↓ramKeeps_refl, ↓safeKeeps_refl, ↓safeKeeps_of_eq, ↓ramKeeps_of_eq, h]

theorem keeps_setCfg (f : Cfg → Cfg) (s : State) {z : State} (h : Keeps z s) : Keeps z (setCfg f s) := by
  unfold setCfg
  simp (maxDischargeDepth := 40) only [implies_true, ↓keeps_refl, ↓keeps_ite, ↓keeps_foldl, ↓keeps_mk, ↓ramKeeps_refl, ↓safeKeeps_refl, ↓safeKeeps_of_eq, ↓ramKeeps_of_eq, ↓keeps_storeCfg, h]

theorem keeps_pendCfg (f : Cfg → Cfg) (s : State) {z : State} (h : Keeps z s) : Keeps z (pendCfg f s) := by
  unfold pendCfg
  simp (maxDischargeDepth := 40) only [implies_true, ↓keeps_refl, ↓keeps_ite, ↓keeps_foldl, ↓keeps_mk, ↓ramKeeps_refl, ↓safeKeeps_refl, ↓safeKeeps_of_eq, ↓ramKeeps_of_eq, ↓keeps_storeCfg, h]

end Sys2Proof.Machine
end

