-- ==== Sys2Proof/Laws/KeepContrib.lean ====
section
/-! SUPPORT. Every operation and meaning of Machine/Contrib.lean keeps what `Keeps` names. -/

set_option linter.unusedSimpArgs false

namespace Sys2Proof.Machine

theorem keeps_holdRecs (seq : Nat) (cs : List Contrib) (s : State) {z : State} (h : Keeps z s) : Keeps z (holdRecs seq cs s) := by
  unfold holdRecs
  simp (maxDischargeDepth := 40) only [implies_true, ↓keeps_refl, ↓keeps_ite, ↓keeps_foldl, ↓keeps_mk, ↓ramKeeps_refl, ↓safeKeeps_refl, ↓safeKeeps_of_eq, ↓ramKeeps_of_eq, h]

theorem keeps_sendContribFrame (epoch : Word) (cs : List Contrib) (s : State) {z : State} (h : Keeps z s) : Keeps z (sendContribFrame epoch cs s) := by
  unfold sendContribFrame
  simp (maxDischargeDepth := 40) only [implies_true, ↓keeps_refl, ↓keeps_ite, ↓keeps_foldl, ↓keeps_mk, ↓ramKeeps_refl, ↓safeKeeps_refl, ↓safeKeeps_of_eq, ↓ramKeeps_of_eq, ↓keeps_holdRecs, ↓keeps_sendSys, h]

theorem keeps_sendContribs (epoch : Word) (cs : List Contrib) (s : State) {z : State} (h : Keeps z s) : Keeps z (sendContribs epoch cs s) := by
  unfold sendContribs
  simp (maxDischargeDepth := 40) only [implies_true, ↓keeps_refl, ↓keeps_ite, ↓keeps_foldl, ↓keeps_mk, ↓ramKeeps_refl, ↓safeKeeps_refl, ↓safeKeeps_of_eq, ↓ramKeeps_of_eq, ↓keeps_sendContribFrame, h]

end Sys2Proof.Machine
end

