-- ==== Sys2Proof/Laws/KeepMailbox.lean ====
section
/-! SUPPORT. Every operation and meaning of Machine/Mailbox.lean keeps what `Keeps` names. -/

set_option linter.unusedSimpArgs false

namespace Sys2Proof.Machine

theorem keeps_no (st : Status) (s : State) {z : State} (h : Keeps z s) : AnsKeeps z (no st s) := h


theorem keeps_okay (s : State) {z : State} (h : Keeps z s) : AnsKeeps z (okay s) := h


theorem keeps_give (pay : List Byte) (s : State) {z : State} (h : Keeps z s) : AnsKeeps z (give pay s) := h


theorem keeps_respondWith (flags code : Nat) (r : Req) (st : Nat) (pay : List Byte) (s : State) {z : State} (h : Keeps z s) : Keeps z (respondWith flags code r st pay s) := by
  unfold respondWith
  dsimp only
  (repeat' split) <;> simp (maxDischargeDepth := 40) only [implies_true, ↓keeps_refl, ↓keeps_ite, ↓keeps_foldl, ↓keeps_mk, ↓ramKeeps_refl, ↓safeKeeps_refl, ↓safeKeeps_of_eq, ↓ramKeeps_of_eq, ↓keeps_emit, ↓keeps_raiseIrq, ↓keeps_sendLong, ↓keeps_writeSlot, h]

theorem keeps_respond (code : Nat) (r : Req) (st : Nat) (pay : List Byte) (s : State) {z : State} (h : Keeps z s) : Keeps z (respond code r st pay s) := by
  unfold respond
  simp (maxDischargeDepth := 40) only [implies_true, ↓keeps_refl, ↓keeps_ite, ↓keeps_foldl, ↓keeps_mk, ↓ramKeeps_refl, ↓safeKeeps_refl, ↓safeKeeps_of_eq, ↓ramKeeps_of_eq, ↓keeps_respondWith, h]

theorem keeps_trace (code : Nat) (r : Req) (st : Nat) (s : State) {z : State} (h : Keeps z s) : Keeps z (trace code r st s) := by
  unfold trace
  simp (maxDischargeDepth := 40) only [implies_true, ↓keeps_refl, ↓keeps_ite, ↓keeps_foldl, ↓keeps_mk, ↓ramKeeps_refl, ↓safeKeeps_refl, ↓safeKeeps_of_eq, ↓ramKeeps_of_eq, ↓keeps_event, h]

theorem keeps_sendRelay (code : Nat) (r : Req) (s : State) {z : State} (h : Keeps z s) : Keeps z (sendRelay code r s) := by
  unfold sendRelay
  simp (maxDischargeDepth := 40) only [implies_true, ↓keeps_refl, ↓keeps_ite, ↓keeps_foldl, ↓keeps_mk, ↓ramKeeps_refl, ↓safeKeeps_refl, ↓safeKeeps_of_eq, ↓ramKeeps_of_eq, ↓keeps_sendLong, h]

theorem keeps_answerHcrc (p : Path) (b : List Byte) (s : State) {z : State} (h : Keeps z s) : Keeps z (answerHcrc p b s) := by
  unfold answerHcrc
  simp (maxDischargeDepth := 40) only [implies_true, ↓keeps_refl, ↓keeps_ite, ↓keeps_foldl, ↓keeps_mk, ↓ramKeeps_refl, ↓safeKeeps_refl, ↓safeKeeps_of_eq, ↓ramKeeps_of_eq, ↓keeps_event, ↓keeps_respondWith, h]

theorem keeps_takeNext (n : Nat) (s : State) {z : State} (h : Keeps z s) : Keeps z (takeNext n s) := by
  induction n generalizing s with
  | zero => exact h
  | succ n ih =>
    unfold takeNext
    dsimp only
    (repeat' split) <;> first
      | exact h
      | (apply ih
         simp (maxDischargeDepth := 40) only [implies_true, ↓keeps_refl, ↓keeps_ite, ↓keeps_mk, ↓ramKeeps_refl, ↓safeKeeps_refl,
           ↓keeps_answerHcrc, ↓keeps_respond, ↓keeps_trace, ↓keeps_sendRelay, h])
      | simp (maxDischargeDepth := 40) only [implies_true, ↓keeps_refl, ↓keeps_ite, ↓keeps_mk, ↓ramKeeps_refl, ↓safeKeeps_refl, ↓keeps_emit, h]


theorem keeps_serve (s : State) {z : State} (h : Keeps z s) : Keeps z (serve s) := by
  unfold serve
  simp (maxDischargeDepth := 40) only [implies_true, ↓keeps_refl, ↓keeps_ite, ↓keeps_foldl, ↓keeps_mk, ↓ramKeeps_refl, ↓safeKeeps_refl, ↓safeKeeps_of_eq, ↓ramKeeps_of_eq, ↓keeps_takeNext, h]

theorem keeps_finish (code : Nat) (r : Req) (st : Status) (pay : List Byte) (s : State) {z : State} (h : Keeps z s) : Keeps z (finish code r st pay s) := by
  unfold finish
  simp (maxDischargeDepth := 40) only [implies_true, ↓keeps_refl, ↓keeps_ite, ↓keeps_foldl, ↓keeps_mk, ↓ramKeeps_refl, ↓safeKeeps_refl, ↓safeKeeps_of_eq, ↓ramKeeps_of_eq, ↓keeps_respond, ↓keeps_serve, ↓keeps_trace, h]

/-- A mailbox command keeps what its body keeps. -/
theorem keeps_mbx (code : Nat) (len : List Byte → Option Status) (body : Req → State → Ans) (r : Req) (s : State) {z : State}
    (h : Keeps z s) (hb : AnsKeeps z (body r s)) : ResKeeps z (mbx code len body r s) := by
  unfold mbx
  revert hb
  cases hbody : body r s <;> intro hb <;> (repeat' split) <;>
    first
      | simp (maxDischargeDepth := 40) only [↓resKeeps_next, ↓keeps_finish, ↓keeps_mk, ↓ramKeeps_refl, ↓safeKeeps_refl, h]
      | (rename_i e; cases e; simp only [ResKeeps, AnsKeeps] at hb ⊢
         simp (maxDischargeDepth := 40) only [↓keeps_finish, ↓keeps_refl, hb, h])
      | (simp_all [ResKeeps, AnsKeeps, keeps_finish])


theorem keeps_finishJob (j : Job) (st : Status) (pay : List Byte) (s : State) {z : State} (h : Keeps z s) : Keeps z (finishJob j st pay s) := by
  unfold finishJob
  simp (maxDischargeDepth := 40) only [implies_true, ↓keeps_refl, ↓keeps_ite, ↓keeps_foldl, ↓keeps_mk, ↓ramKeeps_refl, ↓safeKeeps_refl, ↓safeKeeps_of_eq, ↓ramKeeps_of_eq, ↓keeps_finish, h]

theorem keeps_sendCopies (code : Nat) (r : Req) (ms : List Nat) (s : State) {z : State} (h : Keeps z s) : Keeps z (sendCopies code r ms s) := by
  unfold sendCopies
  simp (maxDischargeDepth := 40) only [implies_true, ↓keeps_refl, ↓keeps_ite, ↓keeps_foldl, ↓keeps_mk, ↓ramKeeps_refl, ↓safeKeeps_refl, ↓safeKeeps_of_eq, ↓ramKeeps_of_eq, ↓keeps_sendLong, h]

theorem keeps_shareCfg (code : Nat) (r : Req) (ms : List Nat) (s : State) {z : State} (h : Keeps z s) : Keeps z (shareCfg code r ms s) := by
  unfold shareCfg
  simp (maxDischargeDepth := 40) only [implies_true, ↓keeps_refl, ↓keeps_ite, ↓keeps_foldl, ↓keeps_mk, ↓ramKeeps_refl, ↓safeKeeps_refl, ↓safeKeeps_of_eq, ↓ramKeeps_of_eq, ↓keeps_sendCopies, h]

end Sys2Proof.Machine
end

