-- ==== Sys2Proof/Laws/KeepSamples.lean ====
section
/-! SUPPORT. Every operation and meaning of Machine/Samples.lean keeps what `Keeps` names. -/

set_option linter.unusedSimpArgs false

namespace Sys2Proof.Machine

theorem keeps_rejectSample (n : Nat) (s : State) {z : State} (h : Keeps z s) : Keeps z (rejectSample n s) := by
  unfold rejectSample
  simp (maxDischargeDepth := 40) only [implies_true, ↓keeps_refl, ↓keeps_ite, ↓keeps_foldl, ↓keeps_mk, ↓ramKeeps_refl, ↓safeKeeps_refl, ↓safeKeeps_of_eq, ↓ramKeeps_of_eq, h]

theorem keeps_contribute (n : Nat) (stamp : Option Nat) (v : Option (List Int)) (s : State) {z : State} (h : Keeps z s) : Keeps z (contribute n stamp v s) := by
  unfold contribute
  dsimp only
  (repeat' split) <;> simp (maxDischargeDepth := 40) only [implies_true, ↓keeps_refl, ↓keeps_ite, ↓keeps_foldl, ↓keeps_mk, ↓ramKeeps_refl, ↓safeKeeps_refl, ↓safeKeeps_of_eq, ↓ramKeeps_of_eq, ↓keeps_rejectSample, h]

theorem keeps_parseFields (n arrival : Nat) (data : List Byte) (s : State) {z : State} (h : Keeps z s) : Keeps z (parseFields n arrival data s) := by
  unfold parseFields
  simp (maxDischargeDepth := 40) only [implies_true, ↓keeps_refl, ↓keeps_ite, ↓keeps_foldl, ↓keeps_mk, ↓ramKeeps_refl, ↓safeKeeps_refl, ↓safeKeeps_of_eq, ↓ramKeeps_of_eq, ↓keeps_contribute, h]

theorem keeps_offerSentence (types : List Nat) (index : Option Nat) (arrival : Nat) (cs : List Byte) (s : State) {z : State} (h : Keeps z s) : Keeps z (offerSentence types index arrival cs s) := by
  unfold offerSentence
  simp (maxDischargeDepth := 40) only [implies_true, ↓keeps_refl, ↓keeps_ite, ↓keeps_foldl, ↓keeps_mk, ↓ramKeeps_refl, ↓safeKeeps_refl, ↓safeKeeps_of_eq, ↓ramKeeps_of_eq, ↓keeps_contribute, h]

theorem keeps_offerFilter (ch : Nat) (s : State) {z : State} (h : Keeps z s) : Keeps z (offerFilter ch s) := by
  unfold offerFilter
  simp (maxDischargeDepth := 40) only [implies_true, ↓keeps_refl, ↓keeps_ite, ↓keeps_foldl, ↓keeps_mk, ↓ramKeeps_refl, ↓safeKeeps_refl, ↓safeKeeps_of_eq, ↓ramKeeps_of_eq, ↓keeps_contribute, h]

theorem keeps_offerCan (ch : Nat) (f : CanFrame) (stamp : Nat) (s : State) {z : State} (h : Keeps z s) : Keeps z (offerCan ch f stamp s) := by
  unfold offerCan
  simp (maxDischargeDepth := 40) only [implies_true, ↓keeps_refl, ↓keeps_ite, ↓keeps_foldl, ↓keeps_mk, ↓ramKeeps_refl, ↓safeKeeps_refl, ↓safeKeeps_of_eq, ↓ramKeeps_of_eq, ↓keeps_parseFields, h]

theorem keeps_offerDatagram (mac : Nat) (src : Word) (port : BitVec 16) (data : List Byte) (stamp : Nat) (s : State) {z : State} (h : Keeps z s) : Keeps z (offerDatagram mac src port data stamp s) := by
  unfold offerDatagram
  simp (maxDischargeDepth := 40) only [implies_true, ↓keeps_refl, ↓keeps_ite, ↓keeps_foldl, ↓keeps_mk, ↓ramKeeps_refl, ↓safeKeeps_refl, ↓safeKeeps_of_eq, ↓ramKeeps_of_eq, ↓keeps_parseFields, h]

end Sys2Proof.Machine
end

