-- ==== Sys2Proof/Laws/KeepReduction.lean ====
section
/-! SUPPORT. Every operation and meaning of Machine/Reduction.lean keeps what `Keeps` names. -/

set_option linter.unusedSimpArgs false

namespace Sys2Proof.Machine

theorem keeps_updateGates (s : State) {z : State} (h : Keeps z s) : Keeps z (updateGates s) := by
  unfold updateGates
  simp (maxDischargeDepth := 40) only [implies_true, ↓keeps_refl, ↓keeps_ite, ↓keeps_foldl, ↓keeps_mk, ↓ramKeeps_refl, ↓safeKeeps_refl, ↓safeKeeps_of_eq, ↓ramKeeps_of_eq, h]

theorem keeps_flrTrigger (k n : Nat) (on : Bool) (s : State) {z : State} (h : Keeps z s) : Keeps z (flrTrigger k n on s) := by
  unfold flrTrigger
  simp (maxDischargeDepth := 40) only [implies_true, ↓keeps_refl, ↓keeps_ite, ↓keeps_foldl, ↓keeps_mk, ↓ramKeeps_refl, ↓safeKeeps_refl, ↓safeKeeps_of_eq, ↓ramKeeps_of_eq, ↓keeps_event, ↓keeps_updateGates, h]

theorem keeps_flrCan (ch : Nat) (f : CanFrame) (s : State) {z : State} (h : Keeps z s) : Keeps z (flrCan ch f s) := by
  unfold flrCan
  dsimp only
  (repeat' split) <;> simp (maxDischargeDepth := 40) only [implies_true, ↓keeps_refl, ↓keeps_ite, ↓keeps_foldl, ↓keeps_mk, ↓ramKeeps_refl, ↓safeKeeps_refl, ↓safeKeeps_of_eq, ↓ramKeeps_of_eq, ↓keeps_flrTrigger, h]

theorem keeps_flrPairs (s : State) {z : State} (h : Keeps z s) : Keeps z (flrPairs s) := by
  unfold flrPairs
  try dsimp only
  repeat' with_reducible first
    | exact h | exact keeps_refl _ | exact rfl | exact ramKeeps_refl _ | exact ramKeeps_writeAll _ _ _ | exact safeKeeps_refl _ | refine keeps_foldl (fun _ _ => ?_) ?_
    | apply keeps_ite
    | apply keeps_flrTrigger | exact safeKeeps_of_eq rfl rfl | dsimp only | split | refine keeps_mk ?_ ?_ ?_ ?_ ?_ ?_

theorem keeps_flrBoard (s : State) {z : State} (h : Keeps z s) : Keeps z (flrBoard s) := by
  unfold flrBoard
  try dsimp only
  repeat' with_reducible first
    | exact h | exact keeps_refl _ | exact rfl | exact ramKeeps_refl _ | exact ramKeeps_writeAll _ _ _ | exact safeKeeps_refl _ | refine keeps_foldl (fun _ _ => ?_) ?_
    | apply keeps_ite
    | apply keeps_flrTrigger | exact safeKeeps_of_eq rfl rfl | dsimp only | split | refine keeps_mk ?_ ?_ ?_ ?_ ?_ ?_

theorem keeps_flrRelease (degraded : Bool) (s : State) {z : State} (h : Keeps z s) : Keeps z (flrRelease degraded s) := by
  unfold flrRelease
  simp (maxDischargeDepth := 40) only [implies_true, ↓keeps_refl, ↓keeps_ite, ↓keeps_foldl, ↓keeps_mk, ↓ramKeeps_refl, ↓safeKeeps_refl, ↓safeKeeps_of_eq, ↓ramKeeps_of_eq, ↓keeps_event, ↓keeps_updateGates, h]

end Sys2Proof.Machine
end

