-- ==== Sys2Proof/Laws/KeepHostLink.lean ====
section
/-! SUPPORT. Every operation and meaning of Machine/HostLink.lean keeps what `Keeps` names. -/

set_option linter.unusedSimpArgs false

namespace Sys2Proof.Machine

theorem keeps_hifCount (n : Nat) (s : State) {z : State} (h : Keeps z s) : Keeps z (hifCount n s) := by
  unfold hifCount
  simp (maxDischargeDepth := 40) only [implies_true, ↓keeps_refl, ↓keeps_ite, ↓keeps_foldl, ↓keeps_mk, ↓ramKeeps_refl, ↓safeKeeps_refl, ↓safeKeeps_of_eq, ↓ramKeeps_of_eq, h]

theorem keeps_ringSlot (s : State) (n : Fin 31) {z : State} (h : Keeps z s) : Keeps z (ringSlot s n) := by
  unfold ringSlot
  simp (maxDischargeDepth := 40) only [implies_true, ↓keeps_refl, ↓keeps_ite, ↓keeps_foldl, ↓keeps_mk, ↓ramKeeps_refl, ↓safeKeeps_refl, ↓safeKeeps_of_eq, ↓ramKeeps_of_eq, ↓keeps_event, ↓keeps_hifCount, ↓keeps_raiseIrq, h]

theorem keeps_execHifDoorbell (v : Word) (s : State) {z : State} (h : Keeps z s) : ResKeeps z (execHifDoorbell v s) := by
  unfold execHifDoorbell
  simp (maxDischargeDepth := 40) only [implies_true, ↓keeps_refl, ↓keeps_ite, ↓keeps_foldl, ↓keeps_mk, ↓ramKeeps_refl, ↓safeKeeps_refl, ↓safeKeeps_of_eq, ↓ramKeeps_of_eq, ↓resKeeps_ite, ↓resKeeps_next, ↓keeps_ringSlot, ↓keeps_serve, h]

theorem keeps_execHifMbxDone (v : Word) (s : State) {z : State} (h : Keeps z s) : ResKeeps z (execHifMbxDone v s) := by
  unfold execHifMbxDone
  simp (maxDischargeDepth := 40) only [implies_true, ↓keeps_refl, ↓keeps_ite, ↓keeps_foldl, ↓keeps_mk, ↓ramKeeps_refl, ↓safeKeeps_refl, ↓safeKeeps_of_eq, ↓ramKeeps_of_eq, ↓resKeeps_ite, ↓resKeeps_next, h]

theorem keeps_execHifIrqStat (v : Word) (s : State) {z : State} (h : Keeps z s) : ResKeeps z (execHifIrqStat v s) := by
  unfold execHifIrqStat
  simp (maxDischargeDepth := 40) only [implies_true, ↓keeps_refl, ↓keeps_ite, ↓keeps_foldl, ↓keeps_mk, ↓ramKeeps_refl, ↓safeKeeps_refl, ↓safeKeeps_of_eq, ↓ramKeeps_of_eq, ↓resKeeps_ite, ↓resKeeps_next, h]

theorem keeps_execHifIrqEn (v : Word) (s : State) {z : State} (h : Keeps z s) : ResKeeps z (execHifIrqEn v s) := by
  unfold execHifIrqEn
  simp (maxDischargeDepth := 40) only [implies_true, ↓keeps_refl, ↓keeps_ite, ↓keeps_foldl, ↓keeps_mk, ↓ramKeeps_refl, ↓safeKeeps_refl, ↓safeKeeps_of_eq, ↓ramKeeps_of_eq, ↓resKeeps_ite, ↓resKeeps_next, ↓keeps_emit, h]

theorem keeps_hostAlarm (s : State) {z : State} (h : Keeps z s) : Keeps z (hostAlarm s) := by
  unfold hostAlarm
  simp (maxDischargeDepth := 40) only [implies_true, ↓keeps_refl, ↓keeps_ite, ↓keeps_foldl, ↓keeps_mk, ↓ramKeeps_refl, ↓safeKeeps_refl, ↓safeKeeps_of_eq, ↓ramKeeps_of_eq, ↓keeps_clearAlarm, ↓keeps_raiseAlarm, h]

theorem keeps_beat (p : Watch) (timeout : Nat) (count : BitVec 16) (s : State) {z : State} (h : Keeps z s) : Keeps z (beat p timeout count s) := by
  unfold beat
  simp (maxDischargeDepth := 40) only [implies_true, ↓keeps_refl, ↓keeps_ite, ↓keeps_foldl, ↓keeps_mk, ↓ramKeeps_refl, ↓safeKeeps_refl, ↓safeKeeps_of_eq, ↓ramKeeps_of_eq, ↓keeps_event, ↓keeps_hostAlarm, h]

theorem keeps_execHifHeartbeat (v : Word) (s : State) {z : State} (h : Keeps z s) : ResKeeps z (execHifHeartbeat v s) := by
  unfold execHifHeartbeat
  simp (maxDischargeDepth := 40) only [implies_true, ↓keeps_refl, ↓keeps_ite, ↓keeps_foldl, ↓keeps_mk, ↓ramKeeps_refl, ↓safeKeeps_refl, ↓safeKeeps_of_eq, ↓ramKeeps_of_eq, ↓resKeeps_ite, ↓resKeeps_next, ↓keeps_beat, h]

theorem keeps_execBar0OtherWrite (off : Nat) (bytes : List Byte) (s : State) {z : State} (h : Keeps z s) : ResKeeps z (execBar0OtherWrite off bytes s) := by
  unfold execBar0OtherWrite
  try dsimp only
  repeat' with_reducible first
    | exact h | exact keeps_refl _ | exact rfl | exact ramKeeps_refl _ | exact ramKeeps_writeAll _ _ _ | exact safeKeeps_refl _ | refine keeps_foldl (fun _ _ => ?_) ?_
    | apply keeps_ite | apply resKeeps_ite | apply resKeeps_next
    | exact safeKeeps_of_eq rfl rfl | dsimp only | split | refine keeps_mk ?_ ?_ ?_ ?_ ?_ ?_

theorem keeps_execEndpointReset (kind : Fin 4) (s : State) {z : State} (h : Keeps z s) : ResKeeps z (execEndpointReset kind s) := by
  unfold execEndpointReset
  simp (maxDischargeDepth := 40) only [implies_true, ↓keeps_refl, ↓keeps_ite, ↓keeps_foldl, ↓keeps_mk, ↓ramKeeps_refl, ↓safeKeeps_refl, ↓safeKeeps_of_eq, ↓ramKeeps_of_eq, ↓resKeeps_ite, ↓resKeeps_next, ↓keeps_event, h]

theorem keeps_execUdpMailboxDatagram (mac : Fin 2) (dst src : Word) (port : BitVec 16) (checksumOk : Bool) (bytes : List Byte) (s : State) {z : State} (h : Keeps z s) : ResKeeps z (execUdpMailboxDatagram mac dst src port checksumOk bytes s) := by
  unfold execUdpMailboxDatagram
  dsimp only
  (repeat' split) <;> simp (maxDischargeDepth := 40) only [implies_true, ↓keeps_refl, ↓keeps_ite, ↓keeps_foldl, ↓keeps_mk, ↓ramKeeps_refl, ↓safeKeeps_refl, ↓safeKeeps_of_eq, ↓ramKeeps_of_eq, ↓resKeeps_ite, ↓resKeeps_next, ↓keeps_emit, ↓keeps_event, ↓keeps_hifCount, ↓keeps_respond, ↓keeps_serve, ↓keeps_stepFree, ↓keeps_trace, h]

theorem keeps_execUdpResponseExpiry (src : Word) (port tag : BitVec 16) (s : State) {z : State} (h : Keeps z s) : ResKeeps z (execUdpResponseExpiry src port tag s) := by
  unfold execUdpResponseExpiry
  simp (maxDischargeDepth := 40) only [implies_true, ↓keeps_refl, ↓keeps_ite, ↓keeps_foldl, ↓keeps_mk, ↓ramKeeps_refl, ↓safeKeeps_refl, ↓safeKeeps_of_eq, ↓ramKeeps_of_eq, ↓resKeeps_ite, ↓resKeeps_next, h]

theorem keeps_sendNote (b : List Byte) (s : State) {z : State} (h : Keeps z s) : Keeps z (sendNote b s) := by
  unfold sendNote
  try dsimp only
  repeat' with_reducible first
    | exact h | exact keeps_refl _ | exact rfl | exact ramKeeps_refl _ | exact ramKeeps_writeAll _ _ _ | exact safeKeeps_refl _ | refine keeps_foldl (fun _ _ => ?_) ?_
    | apply keeps_ite
    | apply keeps_emit | exact safeKeeps_of_eq rfl rfl | dsimp only | split | refine keeps_mk ?_ ?_ ?_ ?_ ?_ ?_

theorem keeps_execNotification (s : State) {z : State} (h : Keeps z s) : ResKeeps z (execNotification s) := by
  unfold execNotification
  dsimp only
  (repeat' split) <;> simp (maxDischargeDepth := 40) only [implies_true, ↓keeps_refl, ↓keeps_ite, ↓keeps_foldl, ↓keeps_mk, ↓ramKeeps_refl, ↓safeKeeps_refl, ↓safeKeeps_of_eq, ↓ramKeeps_of_eq, ↓resKeeps_ite, ↓resKeeps_next, ↓keeps_hifCount, ↓keeps_no, ↓keeps_raiseIrq, ↓keeps_sendNote, ↓keeps_writeSlot, h]

theorem keeps_fetched (code : Nat) (r : Req) (s : State) {z : State} (h : Keeps z s) : Keeps z (fetched code r s) := by
  unfold fetched
  simp (maxDischargeDepth := 40) only [implies_true, ↓keeps_refl, ↓keeps_ite, ↓keeps_foldl, ↓keeps_mk, ↓ramKeeps_refl, ↓safeKeeps_refl, ↓safeKeeps_of_eq, ↓ramKeeps_of_eq, ↓keeps_sendRelay, ↓keeps_serve, h]

theorem keeps_execDmaReadDone (ok : Bool) (bytes : List Byte) (s : State) {z : State} (h : Keeps z s) : ResKeeps z (execDmaReadDone ok bytes s) := by
  unfold execDmaReadDone
  dsimp only
  (repeat' split) <;> simp (maxDischargeDepth := 40) only [implies_true, ↓keeps_refl, ↓keeps_ite, ↓keeps_foldl, ↓keeps_mk, ↓ramKeeps_refl, ↓safeKeeps_refl, ↓safeKeeps_of_eq, ↓ramKeeps_of_eq, ↓resKeeps_ite, ↓resKeeps_next, ↓keeps_fetched, ↓keeps_finish, h]

theorem keeps_execDmaReadTimeout (s : State) {z : State} (h : Keeps z s) : ResKeeps z (execDmaReadTimeout s) := by
  unfold execDmaReadTimeout
  dsimp only
  (repeat' split) <;> simp (maxDischargeDepth := 40) only [implies_true, ↓keeps_refl, ↓keeps_ite, ↓keeps_foldl, ↓keeps_mk, ↓ramKeeps_refl, ↓safeKeeps_refl, ↓safeKeeps_of_eq, ↓ramKeeps_of_eq, ↓resKeeps_ite, ↓resKeeps_next, ↓keeps_finish, h]

theorem keeps_execMbxRelayFrame (src : Fin 64) (seq : BitVec 16) (replay : Bool) (bytes : List Byte) (s : State) {z : State} (h : Keeps z s) : ResKeeps z (execMbxRelayFrame src seq replay bytes s) := by
  unfold execMbxRelayFrame
  dsimp only
  (repeat' split) <;> simp (maxDischargeDepth := 40) only [implies_true, ↓keeps_refl, ↓keeps_ite, ↓keeps_foldl, ↓keeps_mk, ↓ramKeeps_refl, ↓safeKeeps_refl, ↓safeKeeps_of_eq, ↓ramKeeps_of_eq, ↓resKeeps_ite, ↓resKeeps_next, ↓keeps_hifCount, ↓keeps_sendLong, ↓keeps_serve, h]

theorem keeps_endRelay (x : Relay) (st : Status) (pay : List Byte) (s : State) {z : State} (h : Keeps z s) : Keeps z (endRelay x st pay s) := by
  unfold endRelay
  simp (maxDischargeDepth := 40) only [implies_true, ↓keeps_refl, ↓keeps_ite, ↓keeps_foldl, ↓keeps_mk, ↓ramKeeps_refl, ↓safeKeeps_refl, ↓safeKeeps_of_eq, ↓ramKeeps_of_eq, ↓keeps_respond, ↓keeps_trace, h]

theorem keeps_execRelayAnswer (src : Fin 64) (seq : BitVec 16) (bytes : List Byte) (s : State) {z : State} (h : Keeps z s) : ResKeeps z (execRelayAnswer src seq bytes s) := by
  unfold execRelayAnswer
  (repeat' split) <;> simp (maxDischargeDepth := 40) [implies_true, ↓keeps_refl, ↓keeps_ite, ↓keeps_foldl, ↓keeps_mk, ↓ramKeeps_refl, ↓safeKeeps_refl, ↓safeKeeps_of_eq, ↓ramKeeps_of_eq, ↓resKeeps_ite, ↓resKeeps_next, ↓keeps_endRelay, h]

theorem keeps_execRelayResend (seq : BitVec 16) (s : State) {z : State} (h : Keeps z s) : ResKeeps z (execRelayResend seq s) := by
  unfold execRelayResend
  dsimp only
  (repeat' split) <;> simp (maxDischargeDepth := 40) only [implies_true, ↓keeps_refl, ↓keeps_ite, ↓keeps_foldl, ↓keeps_mk, ↓ramKeeps_refl, ↓safeKeeps_refl, ↓safeKeeps_of_eq, ↓ramKeeps_of_eq, ↓resKeeps_ite, ↓resKeeps_next, ↓keeps_endRelay, ↓keeps_event, ↓keeps_hifCount, ↓keeps_resendLong, h]

theorem keeps_execHostLost (path : Watch) (s : State) {z : State} (h : Keeps z s) : ResKeeps z (execHostLost path s) := by
  unfold execHostLost
  dsimp only
  (repeat' split) <;> simp (maxDischargeDepth := 40) only [implies_true, ↓keeps_refl, ↓keeps_ite, ↓keeps_foldl, ↓keeps_mk, ↓ramKeeps_refl, ↓safeKeeps_refl, ↓safeKeeps_of_eq, ↓ramKeeps_of_eq, ↓resKeeps_ite, ↓resKeeps_next, ↓keeps_event, ↓keeps_hostAlarm, ↓keeps_raiseIrq, h]

theorem keeps_bodyIdentify (u1 : Req) (s : State) {z : State} (h : Keeps z s) : AnsKeeps z (bodyIdentify u1 s) := by
  unfold bodyIdentify
  simp (maxDischargeDepth := 40) only [implies_true, ↓keeps_refl, ↓keeps_ite, ↓keeps_foldl, ↓keeps_mk, ↓ramKeeps_refl, ↓safeKeeps_refl, ↓safeKeeps_of_eq, ↓ramKeeps_of_eq, ↓ansKeeps_ite, ↓ansKeeps_done, ↓ansKeeps_later, ↓keeps_no, ↓keeps_okay, ↓keeps_give, h]

theorem keeps_execIdentify (r : Req) (s : State) {z : State} (h : Keeps z s) : ResKeeps z (execIdentify r s) :=
  keeps_mbx _ _ _ _ _ h (keeps_bodyIdentify r s h)

theorem keeps_bodyHeartbeat (r : Req) (s : State) {z : State} (h : Keeps z s) : AnsKeeps z (bodyHeartbeat r s) := by
  unfold bodyHeartbeat
  dsimp only
  (repeat' split) <;> simp (maxDischargeDepth := 40) only [implies_true, ↓keeps_refl, ↓keeps_ite, ↓keeps_foldl, ↓keeps_mk, ↓ramKeeps_refl, ↓safeKeeps_refl, ↓safeKeeps_of_eq, ↓ramKeeps_of_eq, ↓ansKeeps_ite, ↓ansKeeps_done, ↓ansKeeps_later, ↓keeps_no, ↓keeps_okay, ↓keeps_give, ↓keeps_beat, h]

theorem keeps_execHeartbeat (r : Req) (s : State) {z : State} (h : Keeps z s) : ResKeeps z (execHeartbeat r s) :=
  keeps_mbx _ _ _ _ _ h (keeps_bodyHeartbeat r s h)

theorem keeps_bodyHostConfig (r : Req) (s : State) {z : State} (h : Keeps z s) : AnsKeeps z (bodyHostConfig r s) := by
  unfold bodyHostConfig
  simp (maxDischargeDepth := 40) only [implies_true, ↓keeps_refl, ↓keeps_ite, ↓keeps_foldl, ↓keeps_mk, ↓ramKeeps_refl, ↓safeKeeps_refl, ↓safeKeeps_of_eq, ↓ramKeeps_of_eq, ↓ansKeeps_ite, ↓ansKeeps_done, ↓ansKeeps_later, ↓keeps_no, ↓keeps_okay, ↓keeps_give, ↓keeps_setCfg, h]

theorem keeps_execHostConfig (r : Req) (s : State) {z : State} (h : Keeps z s) : ResKeeps z (execHostConfig r s) :=
  keeps_mbx _ _ _ _ _ h (keeps_bodyHostConfig r s h)

theorem keeps_bodyHostStatus (r : Req) (s : State) {z : State} (h : Keeps z s) : AnsKeeps z (bodyHostStatus r s) := by
  unfold bodyHostStatus
  simp (maxDischargeDepth := 40) only [implies_true, ↓keeps_refl, ↓keeps_ite, ↓keeps_foldl, ↓keeps_mk, ↓ramKeeps_refl, ↓safeKeeps_refl, ↓safeKeeps_of_eq, ↓ramKeeps_of_eq, ↓ansKeeps_ite, ↓ansKeeps_done, ↓ansKeeps_later, ↓keeps_no, ↓keeps_okay, ↓keeps_give, h]

theorem keeps_execHostStatus (r : Req) (s : State) {z : State} (h : Keeps z s) : ResKeeps z (execHostStatus r s) :=
  keeps_mbx _ _ _ _ _ h (keeps_bodyHostStatus r s h)

end Sys2Proof.Machine
end

