-- ==== Sys2Proof/Laws/KeepLinkPorts.lean ====
section
/-! SUPPORT. Every operation and meaning of Machine/LinkPorts.lean keeps what `Keeps` names. -/

set_option linter.unusedSimpArgs false

namespace Sys2Proof.Machine

theorem keeps_updPort (ix : Nat) (f : Port → Port) (s : State) {z : State} (h : Keeps z s) : Keeps z (updPort ix f s) := by
  unfold updPort
  simp (maxDischargeDepth := 40) only [implies_true, ↓keeps_refl, ↓keeps_ite, ↓keeps_foldl, ↓keeps_mk, ↓ramKeeps_refl, ↓safeKeeps_refl, ↓safeKeeps_of_eq, ↓ramKeeps_of_eq, h]

theorem keeps_portCount (ix n k : Nat) (s : State) {z : State} (h : Keeps z s) : Keeps z (portCount ix n k s) := by
  unfold portCount
  simp (maxDischargeDepth := 40) only [implies_true, ↓keeps_refl, ↓keeps_ite, ↓keeps_foldl, ↓keeps_mk, ↓ramKeeps_refl, ↓safeKeeps_refl, ↓safeKeeps_of_eq, ↓ramKeeps_of_eq, ↓keeps_updPort, h]

theorem keeps_linkCount (n k : Nat) (s : State) {z : State} (h : Keeps z s) : Keeps z (linkCount n k s) := by
  unfold linkCount
  simp (maxDischargeDepth := 40) only [implies_true, ↓keeps_refl, ↓keeps_ite, ↓keeps_foldl, ↓keeps_mk, ↓ramKeeps_refl, ↓safeKeeps_refl, ↓safeKeeps_of_eq, ↓ramKeeps_of_eq, h]

theorem keeps_updateRings (s : State) {z : State} (h : Keeps z s) : Keeps z (updateRings s) := by
  unfold updateRings
  simp (maxDischargeDepth := 40) only [implies_true, ↓keeps_refl, ↓keeps_ite, ↓keeps_foldl, ↓keeps_mk, ↓ramKeeps_refl, ↓safeKeeps_refl, ↓safeKeeps_of_eq, ↓ramKeeps_of_eq, ↓keeps_event, h]

theorem keeps_setPort (ix st : Nat) (s : State) {z : State} (h : Keeps z s) : Keeps z (setPort ix st s) := by
  unfold setPort
  simp (maxDischargeDepth := 40) only [implies_true, ↓keeps_refl, ↓keeps_ite, ↓keeps_foldl, ↓keeps_mk, ↓ramKeeps_refl, ↓safeKeeps_refl, ↓safeKeeps_of_eq, ↓ramKeeps_of_eq, ↓keeps_event, ↓keeps_sendMember, ↓keeps_updPort, ↓keeps_updateRings, h]

theorem keeps_releaseHeld (ix : Nat) (s : State) {z : State} (h : Keeps z s) : Keeps z (releaseHeld ix s) := by
  unfold releaseHeld
  simp (maxDischargeDepth := 40) only [implies_true, ↓keeps_refl, ↓keeps_ite, ↓keeps_foldl, ↓keeps_mk, ↓ramKeeps_refl, ↓safeKeeps_refl, ↓safeKeeps_of_eq, ↓ramKeeps_of_eq, ↓keeps_enqueue, ↓keeps_pump, ↓keeps_updPort, h]

theorem keeps_startCopy (ix : Nat) (h1 : Hdr) (s : State) {z : State} (h : Keeps z s) : Keeps z (startCopy ix h1 s) := by
  unfold startCopy
  simp (maxDischargeDepth := 40) only [implies_true, ↓keeps_refl, ↓keeps_ite, ↓keeps_foldl, ↓keeps_mk, ↓ramKeeps_refl, ↓safeKeeps_refl, ↓safeKeeps_of_eq, ↓ramKeeps_of_eq, ↓keeps_portCount, ↓keeps_updPort, h]

theorem keeps_endCopies (ix : Fin 4) (s : State) {z : State} (h : Keeps z s) : Keeps z (endCopies ix s) := by
  unfold endCopies
  dsimp only
  (repeat' split) <;> simp (maxDischargeDepth := 40) only [implies_true, ↓keeps_refl, ↓keeps_ite, ↓keeps_foldl, ↓keeps_mk, ↓ramKeeps_refl, ↓safeKeeps_refl, ↓safeKeeps_of_eq, ↓ramKeeps_of_eq, ↓keeps_emit, ↓keeps_updPort, h]

theorem keeps_execHelloSend (s : State) {z : State} (h : Keeps z s) : ResKeeps z (execHelloSend s) := by
  unfold execHelloSend
  simp (maxDischargeDepth := 40) only [implies_true, ↓keeps_refl, ↓keeps_ite, ↓keeps_foldl, ↓keeps_mk, ↓ramKeeps_refl, ↓safeKeeps_refl, ↓safeKeeps_of_eq, ↓ramKeeps_of_eq, ↓resKeeps_ite, ↓resKeeps_next, ↓keeps_emit, h]

theorem keeps_execHelloReceive (port : Fin 4) (dev : Fin 64) (net pnum : Bool) (nbState : Fin 8) (errorFree : Bool) (s : State) {z : State} (h : Keeps z s) : ResKeeps z (execHelloReceive port dev net pnum nbState errorFree s) := by
  unfold execHelloReceive
  simp (maxDischargeDepth := 40) only [implies_true, ↓keeps_refl, ↓keeps_ite, ↓keeps_foldl, ↓keeps_mk, ↓ramKeeps_refl, ↓safeKeeps_refl, ↓safeKeeps_of_eq, ↓ramKeeps_of_eq, ↓resKeeps_ite, ↓resKeeps_next, ↓keeps_event, ↓keeps_report, ↓keeps_setPort, ↓keeps_updPort, h]

theorem keeps_execPortDown (port : Fin 4) (s : State) {z : State} (h : Keeps z s) : ResKeeps z (execPortDown port s) := by
  unfold execPortDown
  simp (maxDischargeDepth := 40) only [implies_true, ↓keeps_refl, ↓keeps_ite, ↓keeps_foldl, ↓keeps_mk, ↓ramKeeps_refl, ↓safeKeeps_refl, ↓safeKeeps_of_eq, ↓ramKeeps_of_eq, ↓resKeeps_ite, ↓resKeeps_next, ↓keeps_emit, ↓keeps_endCopies, ↓keeps_releaseHeld, ↓keeps_setPort, ↓keeps_updPort, h]

theorem keeps_sendAck (ix : Fin 4) (s : State) {z : State} (h : Keeps z s) : Keeps z (sendAck ix s) := by
  unfold sendAck
  simp (maxDischargeDepth := 40) only [implies_true, ↓keeps_refl, ↓keeps_ite, ↓keeps_foldl, ↓keeps_mk, ↓ramKeeps_refl, ↓safeKeeps_refl, ↓safeKeeps_of_eq, ↓ramKeeps_of_eq, ↓keeps_emit, ↓keeps_updPort, h]

theorem keeps_execAckReceive (port : Fin 4) (hseq : BitVec 8) (s : State) {z : State} (h : Keeps z s) : ResKeeps z (execAckReceive port hseq s) := by
  unfold execAckReceive
  simp (maxDischargeDepth := 40) only [implies_true, ↓keeps_refl, ↓keeps_ite, ↓keeps_foldl, ↓keeps_mk, ↓ramKeeps_refl, ↓safeKeeps_refl, ↓safeKeeps_of_eq, ↓ramKeeps_of_eq, ↓resKeeps_ite, ↓resKeeps_next, ↓keeps_pump, ↓keeps_updPort, h]

theorem keeps_execAckTimer (port : Fin 4) (s : State) {z : State} (h : Keeps z s) : ResKeeps z (execAckTimer port s) := by
  unfold execAckTimer
  simp (maxDischargeDepth := 40) only [implies_true, ↓keeps_refl, ↓keeps_ite, ↓keeps_foldl, ↓keeps_mk, ↓ramKeeps_refl, ↓safeKeeps_refl, ↓safeKeeps_of_eq, ↓ramKeeps_of_eq, ↓resKeeps_ite, ↓resKeeps_next, ↓keeps_sendAck, h]

theorem keeps_degrade (ix : Nat) (hseq : BitVec 8) (s : State) {z : State} (h : Keeps z s) : Keeps z (degrade ix hseq s) := by
  unfold degrade
  simp (maxDischargeDepth := 40) only [implies_true, ↓keeps_refl, ↓keeps_ite, ↓keeps_foldl, ↓keeps_mk, ↓ramKeeps_refl, ↓safeKeeps_refl, ↓safeKeeps_of_eq, ↓ramKeeps_of_eq, ↓keeps_event, ↓keeps_releaseHeld, ↓keeps_report, ↓keeps_setPort, ↓keeps_updPort, h]

theorem keeps_resend (ix : Nat) (hseq : BitVec 8) (s : State) {z : State} (h : Keeps z s) : Keeps z (resend ix hseq s) := by
  unfold resend
  dsimp only
  (repeat' split) <;> simp (maxDischargeDepth := 40) only [implies_true, ↓keeps_refl, ↓keeps_ite, ↓keeps_foldl, ↓keeps_mk, ↓ramKeeps_refl, ↓safeKeeps_refl, ↓safeKeeps_of_eq, ↓ramKeeps_of_eq, ↓keeps_degrade, ↓keeps_portCount, ↓keeps_updPort, h]

theorem keeps_execResendReceive (port : Fin 4) (hseq : BitVec 8) (s : State) {z : State} (h : Keeps z s) : ResKeeps z (execResendReceive port hseq s) := by
  unfold execResendReceive
  simp (maxDischargeDepth := 40) only [implies_true, ↓keeps_refl, ↓keeps_ite, ↓keeps_foldl, ↓keeps_mk, ↓ramKeeps_refl, ↓safeKeeps_refl, ↓safeKeeps_of_eq, ↓ramKeeps_of_eq, ↓resKeeps_ite, ↓resKeeps_next, ↓keeps_resend, h]

theorem keeps_execResendTimeout (port : Fin 4) (hseq : BitVec 8) (s : State) {z : State} (h : Keeps z s) : ResKeeps z (execResendTimeout port hseq s) := by
  unfold execResendTimeout
  simp (maxDischargeDepth := 40) only [implies_true, ↓keeps_refl, ↓keeps_ite, ↓keeps_foldl, ↓keeps_mk, ↓ramKeeps_refl, ↓safeKeeps_refl, ↓safeKeeps_of_eq, ↓ramKeeps_of_eq, ↓resKeeps_ite, ↓resKeeps_next, ↓keeps_resend, h]

theorem keeps_execDegradedRestore (port : Fin 4) (s : State) {z : State} (h : Keeps z s) : ResKeeps z (execDegradedRestore port s) := by
  unfold execDegradedRestore
  simp (maxDischargeDepth := 40) only [implies_true, ↓keeps_refl, ↓keeps_ite, ↓keeps_foldl, ↓keeps_mk, ↓ramKeeps_refl, ↓safeKeeps_refl, ↓safeKeeps_of_eq, ↓ramKeeps_of_eq, ↓resKeeps_ite, ↓resKeeps_next, ↓keeps_setPort, ↓keeps_updPort, h]

theorem keeps_sendNak (ix code : Nat) (h1 : Hdr) (s : State) {z : State} (h : Keeps z s) : Keeps z (sendNak ix code h1 s) := by
  unfold sendNak
  simp (maxDischargeDepth := 40) only [implies_true, ↓keeps_refl, ↓keeps_ite, ↓keeps_foldl, ↓keeps_mk, ↓ramKeeps_refl, ↓safeKeeps_refl, ↓safeKeeps_of_eq, ↓ramKeeps_of_eq, ↓keeps_event, ↓keeps_linkCount, ↓keeps_pump, ↓keeps_sendNet, ↓keeps_updPort, h]

theorem keeps_quarantine (ix : Fin 4) (s : State) {z : State} (h : Keeps z s) : Keeps z (quarantine ix s) := by
  unfold quarantine
  simp (maxDischargeDepth := 40) only [implies_true, ↓keeps_refl, ↓keeps_ite, ↓keeps_foldl, ↓keeps_mk, ↓ramKeeps_refl, ↓safeKeeps_refl, ↓safeKeeps_of_eq, ↓ramKeeps_of_eq, ↓keeps_endCopies, ↓keeps_event, ↓keeps_report, ↓keeps_setPort, ↓keeps_updPort, h]

theorem keeps_violate (ix : Fin 4) (code : Nat) (h1 : Hdr) (s : State) {z : State} (h : Keeps z s) : Keeps z (violate ix code h1 s) := by
  unfold violate
  simp (maxDischargeDepth := 40) only [implies_true, ↓keeps_refl, ↓keeps_ite, ↓keeps_foldl, ↓keeps_mk, ↓ramKeeps_refl, ↓safeKeeps_refl, ↓safeKeeps_of_eq, ↓ramKeeps_of_eq, ↓keeps_event, ↓keeps_portCount, ↓keeps_quarantine, ↓keeps_sendNak, ↓keeps_updPort, h]

theorem keeps_flowCount (flow which : Nat) (s : State) {z : State} (h : Keeps z s) : Keeps z (flowCount flow which s) := by
  unfold flowCount
  simp (maxDischargeDepth := 40) only [implies_true, ↓keeps_refl, ↓keeps_ite, ↓keeps_foldl, ↓keeps_mk, ↓ramKeeps_refl, ↓safeKeeps_refl, ↓safeKeeps_of_eq, ↓ramKeeps_of_eq, h]

theorem keeps_execLinkFrameHeader (port : Fin 4) (h1 : Hdr) (s : State) {z : State} (h : Keeps z s) : ResKeeps z (execLinkFrameHeader port h1 s) := by
  unfold execLinkFrameHeader
  dsimp only
  (repeat' split) <;> simp (maxDischargeDepth := 40) only [implies_true, ↓keeps_refl, ↓keeps_ite, ↓keeps_foldl, ↓keeps_mk, ↓ramKeeps_refl, ↓safeKeeps_refl, ↓safeKeeps_of_eq, ↓ramKeeps_of_eq, ↓resKeeps_ite, ↓resKeeps_next, ↓keeps_flowCount, ↓keeps_startCopy, ↓keeps_updPort, ↓keeps_violate, h]

theorem keeps_execQuarantineEnd (port : Fin 4) (s : State) {z : State} (h : Keeps z s) : ResKeeps z (execQuarantineEnd port s) := by
  unfold execQuarantineEnd
  simp (maxDischargeDepth := 40) only [implies_true, ↓keeps_refl, ↓keeps_ite, ↓keeps_foldl, ↓keeps_mk, ↓ramKeeps_refl, ↓safeKeeps_refl, ↓safeKeeps_of_eq, ↓ramKeeps_of_eq, ↓resKeeps_ite, ↓resKeeps_next, ↓keeps_event, ↓keeps_setPort, ↓keeps_updPort, h]

theorem keeps_execNakFrame (port : Fin 4) (src : Fin 64) (n : Nak) (s : State) {z : State} (h : Keeps z s) : ResKeeps z (execNakFrame port src n s) := by
  unfold execNakFrame
  simp (maxDischargeDepth := 40) only [implies_true, ↓keeps_refl, ↓keeps_ite, ↓keeps_foldl, ↓keeps_mk, ↓ramKeeps_refl, ↓safeKeeps_refl, ↓safeKeeps_of_eq, ↓ramKeeps_of_eq, ↓resKeeps_ite, ↓resKeeps_next, ↓keeps_event, ↓keeps_portCount, h]

theorem keeps_dedup (src flow : Nat) (q : BitVec 16) (s : State) {z : State} (h : Keeps z s) : Keeps z (dedup src flow q s).2 := by
  unfold dedup
  try dsimp only
  (repeat' split) <;> repeat' with_reducible first
    | exact h | exact keeps_refl _ | exact rfl | exact ramKeeps_refl _ | exact ramKeeps_writeAll _ _ _ | exact safeKeeps_refl _ | refine keeps_foldl (fun _ _ => ?_) ?_
    | apply keeps_ite
    | apply keeps_linkCount | exact safeKeeps_of_eq rfl rfl | dsimp only | split | refine keeps_mk ?_ ?_ ?_ ?_ ?_ ?_

theorem keeps_finishCopy (ix : Nat) (f : Frame) (s : State) {z : State} (h : Keeps z s) : Keeps z (finishCopy ix f s) := by
  unfold finishCopy
  simp (maxDischargeDepth := 40) only [implies_true, ↓keeps_refl, ↓keeps_ite, ↓keeps_foldl, ↓keeps_mk, ↓ramKeeps_refl, ↓safeKeeps_refl, ↓safeKeeps_of_eq, ↓ramKeeps_of_eq, ↓keeps_updPort, h]

theorem keeps_forward (ix : Nat) (f : Frame) (s : State) {z : State} (h : Keeps z s) : Keeps z (forward ix f s) := by
  unfold forward
  simp (maxDischargeDepth := 40) only [implies_true, ↓keeps_refl, ↓keeps_ite, ↓keeps_foldl, ↓keeps_mk, ↓ramKeeps_refl, ↓safeKeeps_refl, ↓safeKeeps_of_eq, ↓ramKeeps_of_eq, ↓keeps_enqueue, ↓keeps_finishCopy, ↓keeps_linkCount, ↓keeps_pump, h]

theorem keeps_takeHseq (ix : Fin 4) (hseq : BitVec 8) (s : State) {z : State} (h : Keeps z s) : Keeps z (takeHseq ix hseq s) := by
  unfold takeHseq
  simp (maxDischargeDepth := 40) only [implies_true, ↓keeps_refl, ↓keeps_ite, ↓keeps_foldl, ↓keeps_mk, ↓ramKeeps_refl, ↓safeKeeps_refl, ↓safeKeeps_of_eq, ↓ramKeeps_of_eq, ↓keeps_emit, ↓keeps_portCount, ↓keeps_updPort, h]

theorem keeps_damaged (ix : Fin 4) (hseq : BitVec 8) (counter : Nat) (s : State) {z : State} (h : Keeps z s) : Keeps z (damaged ix hseq counter s) := by
  unfold damaged
  dsimp only
  (repeat' split) <;> simp (maxDischargeDepth := 40) only [implies_true, ↓keeps_refl, ↓keeps_ite, ↓keeps_foldl, ↓keeps_mk, ↓ramKeeps_refl, ↓safeKeeps_refl, ↓safeKeeps_of_eq, ↓ramKeeps_of_eq, ↓keeps_emit, ↓keeps_portCount, ↓keeps_takeHseq, ↓keeps_updPort, h]

theorem keeps_execLinkFrameEnd (port : Fin 4) (hseq : BitVec 8) (f : Frame) (outcome : FrameEnd) (s : State) {z : State} (h : Keeps z s) : ResKeeps z (execLinkFrameEnd port hseq f outcome s) := by
  unfold execLinkFrameEnd
  dsimp only
  (repeat' split) <;> simp (maxDischargeDepth := 40) only [implies_true, ↓keeps_refl, ↓keeps_ite, ↓keeps_foldl, ↓keeps_mk, ↓ramKeeps_refl, ↓safeKeeps_refl, ↓safeKeeps_of_eq, ↓ramKeeps_of_eq, ↓resKeeps_ite, ↓resKeeps_next, ↓keeps_damaged, ↓keeps_dedup, ↓keeps_finishCopy, ↓keeps_forward, ↓keeps_portCount, ↓keeps_sendAck, ↓keeps_takeHseq, ↓keeps_updPort, h]

theorem keeps_execDataFrame (src : Fin 64) (flow : BitVec 8) (seq : BitVec 16) (bytes : List Byte) (s : State) {z : State} (h : Keeps z s) : ResKeeps z (execDataFrame src flow seq bytes s) := by
  unfold execDataFrame
  simp (maxDischargeDepth := 40) only [implies_true, ↓keeps_refl, ↓keeps_ite, ↓keeps_foldl, ↓keeps_mk, ↓ramKeeps_refl, ↓safeKeeps_refl, ↓safeKeeps_of_eq, ↓ramKeeps_of_eq, ↓resKeeps_ite, ↓resKeeps_next, ↓keeps_dedup, ↓keeps_flowCount, ↓keeps_linkCount, h]

theorem keeps_execMapExpiry (dev : Fin 64) (s : State) {z : State} (h : Keeps z s) : ResKeeps z (execMapExpiry dev s) := by
  unfold execMapExpiry
  simp (maxDischargeDepth := 40) only [implies_true, ↓keeps_refl, ↓keeps_ite, ↓keeps_foldl, ↓keeps_mk, ↓ramKeeps_refl, ↓safeKeeps_refl, ↓safeKeeps_of_eq, ↓ramKeeps_of_eq, ↓resKeeps_ite, ↓resKeeps_next, ↓keeps_updateRings, h]

theorem keeps_bodyFlowDefine (r : Req) (s : State) {z : State} (h : Keeps z s) : AnsKeeps z (bodyFlowDefine r s) := by
  unfold bodyFlowDefine
  simp (maxDischargeDepth := 40) only [implies_true, ↓keeps_refl, ↓keeps_ite, ↓keeps_foldl, ↓keeps_mk, ↓ramKeeps_refl, ↓safeKeeps_refl, ↓safeKeeps_of_eq, ↓ramKeeps_of_eq, ↓ansKeeps_ite, ↓ansKeeps_done, ↓ansKeeps_later, ↓keeps_no, ↓keeps_okay, ↓keeps_give, h]

theorem keeps_execFlowDefine (r : Req) (s : State) {z : State} (h : Keeps z s) : ResKeeps z (execFlowDefine r s) :=
  keeps_mbx _ _ _ _ _ h (keeps_bodyFlowDefine r s h)

theorem keeps_linkClear (part : Nat) (all : Bool) (shown : List Nat) (s : State) {z : State} (h : Keeps z s) : Keeps z (linkClear part all shown s) := by
  unfold linkClear
  simp (maxDischargeDepth := 40) only [implies_true, ↓keeps_refl, ↓keeps_ite, ↓keeps_foldl, ↓keeps_mk, ↓ramKeeps_refl, ↓safeKeeps_refl, ↓safeKeeps_of_eq, ↓ramKeeps_of_eq, h]

theorem keeps_bodyLinkStatus (r : Req) (s : State) {z : State} (h : Keeps z s) : AnsKeeps z (bodyLinkStatus r s) := by
  unfold bodyLinkStatus
  simp (maxDischargeDepth := 40) only [implies_true, ↓keeps_refl, ↓keeps_ite, ↓keeps_foldl, ↓keeps_mk, ↓ramKeeps_refl, ↓safeKeeps_refl, ↓safeKeeps_of_eq, ↓ramKeeps_of_eq, ↓ansKeeps_ite, ↓ansKeeps_done, ↓ansKeeps_later, ↓keeps_no, ↓keeps_okay, ↓keeps_give, ↓keeps_linkClear, h]

theorem keeps_execLinkStatus (r : Req) (s : State) {z : State} (h : Keeps z s) : ResKeeps z (execLinkStatus r s) :=
  keeps_mbx _ _ _ _ _ h (keeps_bodyLinkStatus r s h)

theorem keeps_bodyLinkPortControl (r : Req) (s : State) {z : State} (h : Keeps z s) : AnsKeeps z (bodyLinkPortControl r s) := by
  unfold bodyLinkPortControl
  simp (maxDischargeDepth := 40) only [implies_true, ↓keeps_refl, ↓keeps_ite, ↓keeps_foldl, ↓keeps_mk, ↓ramKeeps_refl, ↓safeKeeps_refl, ↓safeKeeps_of_eq, ↓ramKeeps_of_eq, ↓ansKeeps_ite, ↓ansKeeps_done, ↓ansKeeps_later, ↓keeps_no, ↓keeps_okay, ↓keeps_give, ↓keeps_endCopies, ↓keeps_event, ↓keeps_releaseHeld, ↓keeps_setPort, ↓keeps_updPort, h]

theorem keeps_execLinkPortControl (r : Req) (s : State) {z : State} (h : Keeps z s) : ResKeeps z (execLinkPortControl r s) :=
  keeps_mbx _ _ _ _ _ h (keeps_bodyLinkPortControl r s h)

end Sys2Proof.Machine
end

