-- ==== Sys2Proof/Laws/KeepTimeUnit.lean ====
section
/-! SUPPORT. Every operation and meaning of Machine/TimeUnit.lean keeps what `Keeps` names. -/

set_option linter.unusedSimpArgs false

namespace Sys2Proof.Machine

theorem keeps_updTime (f : Time → Time) (s : State) {z : State} (h : Keeps z s) : Keeps z (updTime f s) := by
  unfold updTime
  simp (maxDischargeDepth := 40) only [implies_true, ↓keeps_refl, ↓keeps_ite, ↓keeps_foldl, ↓keeps_mk, ↓ramKeeps_refl, ↓safeKeeps_refl, ↓safeKeeps_of_eq, ↓ramKeeps_of_eq, h]

theorem keeps_enterHoldover (s : State) {z : State} (h : Keeps z s) : Keeps z (enterHoldover s) := by
  unfold enterHoldover
  simp (maxDischargeDepth := 40) only [implies_true, ↓keeps_refl, ↓keeps_ite, ↓keeps_foldl, ↓keeps_mk, ↓ramKeeps_refl, ↓safeKeeps_refl, ↓safeKeeps_of_eq, ↓ramKeeps_of_eq, ↓keeps_updTime, h]

theorem keeps_loseTime (s : State) {z : State} (h : Keeps z s) : Keeps z (loseTime s) := by
  unfold loseTime
  simp (maxDischargeDepth := 40) only [implies_true, ↓keeps_refl, ↓keeps_ite, ↓keeps_foldl, ↓keeps_mk, ↓ramKeeps_refl, ↓safeKeeps_refl, ↓safeKeeps_of_eq, ↓ramKeeps_of_eq, ↓keeps_enterHoldover, ↓keeps_event, h]

theorem keeps_servo (ppm : Int) (s : State) {z : State} (h : Keeps z s) : Keeps z (servo ppm s) := by
  unfold servo
  simp (maxDischargeDepth := 40) only [implies_true, ↓keeps_refl, ↓keeps_ite, ↓keeps_foldl, ↓keeps_mk, ↓ramKeeps_refl, ↓safeKeeps_refl, ↓safeKeeps_of_eq, ↓ramKeeps_of_eq, ↓keeps_stepFree, ↓keeps_updTime, h]

theorem keeps_moveTime (ns : Int) (s : State) {z : State} (h : Keeps z s) : Keeps z (moveTime ns s) := by
  unfold moveTime
  simp (maxDischargeDepth := 40) only [implies_true, ↓keeps_refl, ↓keeps_ite, ↓keeps_foldl, ↓keeps_mk, ↓ramKeeps_refl, ↓safeKeeps_refl, ↓safeKeeps_of_eq, ↓ramKeeps_of_eq, h]

theorem keeps_stepTime (ns : Int) (s : State) {z : State} (h : Keeps z s) : Keeps z (stepTime ns s) := by
  unfold stepTime
  simp (maxDischargeDepth := 40) only [implies_true, ↓keeps_refl, ↓keeps_ite, ↓keeps_foldl, ↓keeps_mk, ↓ramKeeps_refl, ↓safeKeeps_refl, ↓safeKeeps_of_eq, ↓ramKeeps_of_eq, ↓keeps_moveTime, ↓keeps_updTime, h]

theorem keeps_sourceOffset (o : Int) (s : State) {z : State} (h : Keeps z s) : Keeps z (sourceOffset o s) := by
  unfold sourceOffset
  simp (maxDischargeDepth := 40) only [implies_true, ↓keeps_refl, ↓keeps_ite, ↓keeps_foldl, ↓keeps_mk, ↓ramKeeps_refl, ↓safeKeeps_refl, ↓safeKeeps_of_eq, ↓ramKeeps_of_eq, ↓keeps_enterHoldover, ↓keeps_event, ↓keeps_servo, ↓keeps_stepTime, ↓keeps_updTime, h]

theorem keeps_takeSource (code : Nat) (s : State) {z : State} (h : Keeps z s) : Keeps z (takeSource code s) := by
  unfold takeSource
  simp (maxDischargeDepth := 40) only [implies_true, ↓keeps_refl, ↓keeps_ite, ↓keeps_foldl, ↓keeps_mk, ↓ramKeeps_refl, ↓safeKeeps_refl, ↓safeKeeps_of_eq, ↓ramKeeps_of_eq, ↓keeps_updTime, h]

theorem keeps_measured (code : Nat) (o : Int) (s : State) {z : State} (h : Keeps z s) : Keeps z (measured code o s) := by
  unfold measured
  simp (maxDischargeDepth := 40) only [implies_true, ↓keeps_refl, ↓keeps_ite, ↓keeps_foldl, ↓keeps_mk, ↓ramKeeps_refl, ↓safeKeeps_refl, ↓safeKeeps_of_eq, ↓ramKeeps_of_eq, ↓keeps_sourceOffset, ↓keeps_takeSource, h]

theorem keeps_selectSource (s : State) {z : State} (h : Keeps z s) : Keeps z (selectSource s) := by
  unfold selectSource
  dsimp only
  (repeat' split) <;> simp (maxDischargeDepth := 40) only [implies_true, ↓keeps_refl, ↓keeps_ite, ↓keeps_foldl, ↓keeps_mk, ↓ramKeeps_refl, ↓safeKeeps_refl, ↓safeKeeps_of_eq, ↓ramKeeps_of_eq, ↓keeps_enterHoldover, ↓keeps_event, ↓keeps_updTime, h]

theorem keeps_nextSource (s : State) {z : State} (h : Keeps z s) : Keeps z (nextSource s) := by
  unfold nextSource
  dsimp only
  (repeat' split) <;> simp (maxDischargeDepth := 40) only [implies_true, ↓keeps_refl, ↓keeps_ite, ↓keeps_foldl, ↓keeps_mk, ↓ramKeeps_refl, ↓safeKeeps_refl, ↓safeKeeps_of_eq, ↓ramKeeps_of_eq, ↓keeps_enterHoldover, ↓keeps_event, ↓keeps_updTime, h]

theorem keeps_execTimeSourceLost (s : State) {z : State} (h : Keeps z s) : ResKeeps z (execTimeSourceLost s) := by
  unfold execTimeSourceLost
  simp (maxDischargeDepth := 40) only [implies_true, ↓keeps_refl, ↓keeps_ite, ↓keeps_foldl, ↓keeps_mk, ↓ramKeeps_refl, ↓safeKeeps_refl, ↓safeKeeps_of_eq, ↓ramKeeps_of_eq, ↓resKeeps_ite, ↓resKeeps_next, ↓keeps_nextSource, h]

theorem keeps_updMac (mac : Nat) (f : MacTime → MacTime) (s : State) {z : State} (h : Keeps z s) : Keeps z (updMac mac f s) := by
  unfold updMac
  simp (maxDischargeDepth := 40) only [implies_true, ↓keeps_refl, ↓keeps_ite, ↓keeps_foldl, ↓keeps_mk, ↓ramKeeps_refl, ↓safeKeeps_refl, ↓safeKeeps_of_eq, ↓ramKeeps_of_eq, ↓keeps_updTime, h]

theorem keeps_runBmca (mac : Nat) (fields : List Nat) (s : State) {z : State} (h : Keeps z s) : Keeps z (runBmca mac fields s) := by
  unfold runBmca
  simp (maxDischargeDepth := 40) only [implies_true, ↓keeps_refl, ↓keeps_ite, ↓keeps_foldl, ↓keeps_mk, ↓ramKeeps_refl, ↓safeKeeps_refl, ↓safeKeeps_of_eq, ↓ramKeeps_of_eq, ↓keeps_updMac, h]

theorem keeps_sendPtp (mac : Fin 2) (kind : Nat) (s : State) {z : State} (h : Keeps z s) : Keeps z (sendPtp mac kind s) := by
  unfold sendPtp
  simp (maxDischargeDepth := 40) only [implies_true, ↓keeps_refl, ↓keeps_ite, ↓keeps_foldl, ↓keeps_mk, ↓ramKeeps_refl, ↓safeKeeps_refl, ↓safeKeeps_of_eq, ↓ramKeeps_of_eq, ↓keeps_emit, h]

theorem keeps_ptpTickMac (s : State) (mac : Fin 2) {z : State} (h : Keeps z s) : Keeps z (ptpTickMac s mac) := by
  unfold ptpTickMac
  simp (maxDischargeDepth := 40) only [implies_true, ↓keeps_refl, ↓keeps_ite, ↓keeps_foldl, ↓keeps_mk, ↓ramKeeps_refl, ↓safeKeeps_refl, ↓safeKeeps_of_eq, ↓ramKeeps_of_eq, ↓keeps_runBmca, ↓keeps_sendPtp, ↓keeps_updMac, h]

theorem keeps_ptpTick (s : State) {z : State} (h : Keeps z s) : Keeps z (ptpTick s) := by
  unfold ptpTick
  simp (maxDischargeDepth := 40) only [implies_true, ↓keeps_refl, ↓keeps_ite, ↓keeps_foldl, ↓keeps_mk, ↓ramKeeps_refl, ↓safeKeeps_refl, ↓safeKeeps_of_eq, ↓ramKeeps_of_eq, ↓keeps_ptpTickMac, h]

theorem keeps_execPtpMessage (mac : Fin 2) (m : PtpMsg) (s : State) {z : State} (h : Keeps z s) : ResKeeps z (execPtpMessage mac m s) := by
  unfold execPtpMessage
  dsimp only
  (repeat' split) <;> simp (maxDischargeDepth := 40) only [implies_true, ↓keeps_refl, ↓keeps_ite, ↓keeps_foldl, ↓keeps_mk, ↓ramKeeps_refl, ↓safeKeeps_refl, ↓safeKeeps_of_eq, ↓ramKeeps_of_eq, ↓resKeeps_ite, ↓resKeeps_next, ↓keeps_measured, ↓keeps_runBmca, ↓keeps_sendPtp, ↓keeps_updMac, ↓keeps_updTime, h]

theorem keeps_execMacTxDone (mac : Fin 2) (fast : Bool) (kind : Fin 16) (oneStep : Bool) (status : Fin 3) (raw : Nat) (s : State) {z : State} (h : Keeps z s) : ResKeeps z (execMacTxDone mac fast kind oneStep status raw s) := by
  unfold execMacTxDone
  dsimp only
  (repeat' split) <;> simp (maxDischargeDepth := 40) only [implies_true, ↓keeps_refl, ↓keeps_ite, ↓keeps_foldl, ↓keeps_mk, ↓ramKeeps_refl, ↓safeKeeps_refl, ↓safeKeeps_of_eq, ↓ramKeeps_of_eq, ↓resKeeps_ite, ↓resKeeps_next, ↓keeps_emit, ↓keeps_sendPtp, ↓keeps_updMac, h]

theorem keeps_execPpsInEdge (stamp : Nat) (s : State) {z : State} (h : Keeps z s) : ResKeeps z (execPpsInEdge stamp s) := by
  unfold execPpsInEdge
  simp (maxDischargeDepth := 40) only [implies_true, ↓keeps_refl, ↓keeps_ite, ↓keeps_foldl, ↓keeps_mk, ↓ramKeeps_refl, ↓safeKeeps_refl, ↓safeKeeps_of_eq, ↓ramKeeps_of_eq, ↓resKeeps_ite, ↓resKeeps_next, ↓keeps_measured, ↓keeps_updTime, h]

theorem keeps_execPpsInMissing (s : State) {z : State} (h : Keeps z s) : ResKeeps z (execPpsInMissing s) := by
  unfold execPpsInMissing
  simp (maxDischargeDepth := 40) only [implies_true, ↓keeps_refl, ↓keeps_ite, ↓keeps_foldl, ↓keeps_mk, ↓ramKeeps_refl, ↓safeKeeps_refl, ↓safeKeeps_of_eq, ↓ramKeeps_of_eq, ↓resKeeps_ite, ↓resKeeps_next, ↓keeps_updTime, h]

theorem keeps_execPpsOutRise (s : State) {z : State} (h : Keeps z s) : ResKeeps z (execPpsOutRise s) := by
  unfold execPpsOutRise
  simp (maxDischargeDepth := 40) only [implies_true, ↓keeps_refl, ↓keeps_ite, ↓keeps_foldl, ↓keeps_mk, ↓ramKeeps_refl, ↓safeKeeps_refl, ↓safeKeeps_of_eq, ↓ramKeeps_of_eq, ↓resKeeps_ite, ↓resKeeps_next, ↓keeps_updTime, h]

theorem keeps_execPpsOutFall (s : State) {z : State} (h : Keeps z s) : ResKeeps z (execPpsOutFall s) := by
  unfold execPpsOutFall
  simp (maxDischargeDepth := 40) only [implies_true, ↓keeps_refl, ↓keeps_ite, ↓keeps_foldl, ↓keeps_mk, ↓ramKeeps_refl, ↓safeKeeps_refl, ↓safeKeeps_of_eq, ↓ramKeeps_of_eq, ↓resKeeps_ite, ↓resKeeps_next, ↓keeps_updTime, h]

theorem keeps_execRef10Lost (hz : Nat) (s : State) {z : State} (h : Keeps z s) : ResKeeps z (execRef10Lost hz s) := by
  unfold execRef10Lost
  simp (maxDischargeDepth := 40) only [implies_true, ↓keeps_refl, ↓keeps_ite, ↓keeps_foldl, ↓keeps_mk, ↓ramKeeps_refl, ↓safeKeeps_refl, ↓safeKeeps_of_eq, ↓ramKeeps_of_eq, ↓resKeeps_ite, ↓resKeeps_next, ↓keeps_event, ↓keeps_updTime, h]

theorem keeps_execSyncSend (s : State) {z : State} (h : Keeps z s) : ResKeeps z (execSyncSend s) := by
  unfold execSyncSend
  simp (maxDischargeDepth := 40) only [implies_true, ↓keeps_refl, ↓keeps_ite, ↓keeps_foldl, ↓keeps_mk, ↓ramKeeps_refl, ↓safeKeeps_refl, ↓safeKeeps_of_eq, ↓ramKeeps_of_eq, ↓resKeeps_ite, ↓resKeeps_next, ↓keeps_sendSys, h]

theorem keeps_forwardSync (ix : Nat) (h1 : Hdr) (rest : List Byte) (corr : Nat) (s : State) {z : State} (h : Keeps z s) : Keeps z (forwardSync ix h1 rest corr s) := by
  unfold forwardSync
  simp (maxDischargeDepth := 40) only [implies_true, ↓keeps_refl, ↓keeps_ite, ↓keeps_foldl, ↓keeps_mk, ↓ramKeeps_refl, ↓safeKeeps_refl, ↓safeKeeps_of_eq, ↓ramKeeps_of_eq, ↓keeps_enqueue, ↓keeps_linkCount, ↓keeps_pump, ↓keeps_stepFree, h]

theorem keeps_followOffset (ix hops : Nat) (o : Int) (s : State) {z : State} (h : Keeps z s) : Keeps z (followOffset ix hops o s) := by
  unfold followOffset
  simp (maxDischargeDepth := 40) only [implies_true, ↓keeps_refl, ↓keeps_ite, ↓keeps_foldl, ↓keeps_mk, ↓ramKeeps_refl, ↓safeKeeps_refl, ↓safeKeeps_of_eq, ↓ramKeeps_of_eq, ↓keeps_event, ↓keeps_report, ↓keeps_servo, ↓keeps_updTime, h]

theorem keeps_execSyncFrame (net port : Bool) (h1 : Hdr) (rest : List Byte) (corr : Nat) (offset : Int) (s : State) {z : State} (h : Keeps z s) : ResKeeps z (execSyncFrame net port h1 rest corr offset s) := by
  unfold execSyncFrame
  simp (maxDischargeDepth := 40) only [implies_true, ↓keeps_refl, ↓keeps_ite, ↓keeps_foldl, ↓keeps_mk, ↓ramKeeps_refl, ↓safeKeeps_refl, ↓safeKeeps_of_eq, ↓ramKeeps_of_eq, ↓resKeeps_ite, ↓resKeeps_next, ↓keeps_followOffset, ↓keeps_forwardSync, ↓keeps_updTime, h]

theorem keeps_sendExchange (ix : Nat) (s : State) {z : State} (h : Keeps z s) : Keeps z (sendExchange ix s) := by
  unfold sendExchange
  simp (maxDischargeDepth := 40) only [implies_true, ↓keeps_refl, ↓keeps_ite, ↓keeps_foldl, ↓keeps_mk, ↓ramKeeps_refl, ↓safeKeeps_refl, ↓safeKeeps_of_eq, ↓ramKeeps_of_eq, ↓keeps_enqueue, ↓keeps_pump, h]

theorem keeps_execLinkDelayExchange (port : Fin 4) (ns : Nat) (s : State) {z : State} (h : Keeps z s) : ResKeeps z (execLinkDelayExchange port ns s) := by
  unfold execLinkDelayExchange
  simp (maxDischargeDepth := 40) only [implies_true, ↓keeps_refl, ↓keeps_ite, ↓keeps_foldl, ↓keeps_mk, ↓ramKeeps_refl, ↓safeKeeps_refl, ↓safeKeeps_of_eq, ↓ramKeeps_of_eq, ↓resKeeps_ite, ↓resKeeps_next, ↓keeps_sendExchange, ↓keeps_updTime, h]

theorem keeps_execSyncLoss (s : State) {z : State} (h : Keeps z s) : ResKeeps z (execSyncLoss s) := by
  unfold execSyncLoss
  simp (maxDischargeDepth := 40) only [implies_true, ↓keeps_refl, ↓keeps_ite, ↓keeps_foldl, ↓keeps_mk, ↓ramKeeps_refl, ↓safeKeeps_refl, ↓safeKeeps_of_eq, ↓ramKeeps_of_eq, ↓resKeeps_ite, ↓resKeeps_next, ↓keeps_loseTime, ↓keeps_updTime, h]

theorem keeps_takeShared (p : List Byte) (s : State) {z : State} (h : Keeps z s) : Keeps z (takeShared p s) := by
  unfold takeShared
  simp (maxDischargeDepth := 40) only [implies_true, ↓keeps_refl, ↓keeps_ite, ↓keeps_foldl, ↓keeps_mk, ↓ramKeeps_refl, ↓safeKeeps_refl, ↓safeKeeps_of_eq, ↓ramKeeps_of_eq, ↓keeps_setCfg, h]

theorem keeps_portRoles (s : State) {z : State} (h : Keeps z s) : Keeps z (portRoles s) := by
  unfold portRoles
  simp (maxDischargeDepth := 40) only [implies_true, ↓keeps_refl, ↓keeps_ite, ↓keeps_foldl, ↓keeps_mk, ↓ramKeeps_refl, ↓safeKeeps_refl, ↓safeKeeps_of_eq, ↓ramKeeps_of_eq, ↓keeps_updTime, h]

theorem keeps_bodyTimeConfig (r : Req) (s : State) {z : State} (h : Keeps z s) : AnsKeeps z (bodyTimeConfig r s) := by
  unfold bodyTimeConfig
  simp (maxDischargeDepth := 40) only [implies_true, ↓keeps_refl, ↓keeps_ite, ↓keeps_foldl, ↓keeps_mk, ↓ramKeeps_refl, ↓safeKeeps_refl, ↓safeKeeps_of_eq, ↓ramKeeps_of_eq, ↓ansKeeps_ite, ↓ansKeeps_done, ↓ansKeeps_later, ↓keeps_no, ↓keeps_okay, ↓keeps_give, ↓keeps_portRoles, ↓keeps_selectSource, ↓keeps_sendCopies, ↓keeps_setCfg, ↓keeps_takeShared, ↓keeps_updTime, h]

theorem keeps_execTimeConfig (r : Req) (s : State) {z : State} (h : Keeps z s) : ResKeeps z (execTimeConfig r s) :=
  keeps_mbx _ _ _ _ _ h (keeps_bodyTimeConfig r s h)

theorem keeps_bodyTimeAcceptStep (r : Req) (s : State) {z : State} (h : Keeps z s) : AnsKeeps z (bodyTimeAcceptStep r s) := by
  unfold bodyTimeAcceptStep
  simp (maxDischargeDepth := 40) only [implies_true, ↓keeps_refl, ↓keeps_ite, ↓keeps_foldl, ↓keeps_mk, ↓ramKeeps_refl, ↓safeKeeps_refl, ↓safeKeeps_of_eq, ↓ramKeeps_of_eq, ↓ansKeeps_ite, ↓ansKeeps_done, ↓ansKeeps_later, ↓keeps_no, ↓keeps_okay, ↓keeps_give, ↓keeps_event, ↓keeps_updTime, h]

theorem keeps_execTimeAcceptStep (r : Req) (s : State) {z : State} (h : Keeps z s) : ResKeeps z (execTimeAcceptStep r s) :=
  keeps_mbx _ _ _ _ _ h (keeps_bodyTimeAcceptStep r s h)

theorem keeps_bodyTimeStatus (u1 : Req) (s : State) {z : State} (h : Keeps z s) : AnsKeeps z (bodyTimeStatus u1 s) := by
  unfold bodyTimeStatus
  simp (maxDischargeDepth := 40) only [implies_true, ↓keeps_refl, ↓keeps_ite, ↓keeps_foldl, ↓keeps_mk, ↓ramKeeps_refl, ↓safeKeeps_refl, ↓safeKeeps_of_eq, ↓ramKeeps_of_eq, ↓ansKeeps_ite, ↓ansKeeps_done, ↓ansKeeps_later, ↓keeps_no, ↓keeps_okay, ↓keeps_give, h]

theorem keeps_execTimeStatus (r : Req) (s : State) {z : State} (h : Keeps z s) : ResKeeps z (execTimeStatus r s) :=
  keeps_mbx _ _ _ _ _ h (keeps_bodyTimeStatus r s h)

end Sys2Proof.Machine
end

