-- ==== Sys2Proof/Laws/KeepFilters.lean ====
section
/-! SUPPORT. Every operation and meaning of Machine/Filters.lean keeps what `Keeps` names. -/

set_option linter.unusedSimpArgs false

namespace Sys2Proof.Machine

theorem keeps_updFilt (ch : Nat) (f : Filt → Filt) (s : State) {z : State} (h : Keeps z s) : Keeps z (updFilt ch f s) := by
  unfold updFilt
  simp (maxDischargeDepth := 40) only [implies_true, ↓keeps_refl, ↓keeps_ite, ↓keeps_foldl, ↓keeps_mk, ↓ramKeeps_refl, ↓safeKeeps_refl, ↓safeKeeps_of_eq, ↓ramKeeps_of_eq, h]

theorem keeps_swapBank (ch : Nat) (w : BitVec 64) (s : State) {z : State} (h : Keeps z s) : Keeps z (swapBank ch w s) := by
  unfold swapBank
  simp (maxDischargeDepth := 40) only [implies_true, ↓keeps_refl, ↓keeps_ite, ↓keeps_foldl, ↓keeps_mk, ↓ramKeeps_refl, ↓safeKeeps_refl, ↓safeKeeps_of_eq, ↓ramKeeps_of_eq, ↓keeps_event, ↓keeps_updFilt, h]

theorem keeps_boundary (ch : Nat) (s : State) {z : State} (h : Keeps z s) : Keeps z (boundary ch s) := by
  unfold boundary
  simp (maxDischargeDepth := 40) only [implies_true, ↓keeps_refl, ↓keeps_ite, ↓keeps_foldl, ↓keeps_mk, ↓ramKeeps_refl, ↓safeKeeps_refl, ↓safeKeeps_of_eq, ↓ramKeeps_of_eq, ↓keeps_swapBank, ↓keeps_updFilt, h]

theorem keeps_execFilterOutputSample (ch : Fin 16) (stream : Nat) (done spacing : Nat) (s : State) {z : State} (h : Keeps z s) : ResKeeps z (execFilterOutputSample ch stream done spacing s) := by
  unfold execFilterOutputSample
  simp (maxDischargeDepth := 40) only [implies_true, ↓keeps_refl, ↓keeps_ite, ↓keeps_foldl, ↓keeps_mk, ↓ramKeeps_refl, ↓safeKeeps_refl, ↓safeKeeps_of_eq, ↓ramKeeps_of_eq, ↓resKeeps_ite, ↓resKeeps_next, ↓keeps_boundary, ↓keeps_event, ↓keeps_inputBack, ↓keeps_offerFilter, ↓keeps_updFilt, h]

theorem keeps_execModulatorReset (ch : Fin 16) (s : State) {z : State} (h : Keeps z s) : ResKeeps z (execModulatorReset ch s) := by
  unfold execModulatorReset
  simp (maxDischargeDepth := 40) only [implies_true, ↓keeps_refl, ↓keeps_ite, ↓keeps_foldl, ↓keeps_mk, ↓ramKeeps_refl, ↓safeKeeps_refl, ↓safeKeeps_of_eq, ↓ramKeeps_of_eq, ↓resKeeps_ite, ↓resKeeps_next, ↓keeps_event, ↓keeps_updFilt, h]

theorem keeps_execAfeFifoOverrun (ch : Fin 16) (lost : Nat) (s : State) {z : State} (h : Keeps z s) : ResKeeps z (execAfeFifoOverrun ch lost s) := by
  unfold execAfeFifoOverrun
  simp (maxDischargeDepth := 40) only [implies_true, ↓keeps_refl, ↓keeps_ite, ↓keeps_foldl, ↓keeps_mk, ↓ramKeeps_refl, ↓safeKeeps_refl, ↓safeKeeps_of_eq, ↓ramKeeps_of_eq, ↓resKeeps_ite, ↓resKeeps_next, ↓keeps_event, ↓keeps_updFilt, h]

theorem keeps_execLoopRangePersist (ch : Fin 16) (s : State) {z : State} (h : Keeps z s) : ResKeeps z (execLoopRangePersist ch s) := by
  unfold execLoopRangePersist
  simp (maxDischargeDepth := 40) only [implies_true, ↓keeps_refl, ↓keeps_ite, ↓keeps_foldl, ↓keeps_mk, ↓ramKeeps_refl, ↓safeKeeps_refl, ↓safeKeeps_of_eq, ↓ramKeeps_of_eq, ↓resKeeps_ite, ↓resKeeps_next, ↓keeps_event, ↓keeps_updFilt, h]

theorem keeps_bodyFilterConfig (r : Req) (s : State) {z : State} (h : Keeps z s) : AnsKeeps z (bodyFilterConfig r s) := by
  unfold bodyFilterConfig
  simp (maxDischargeDepth := 40) only [implies_true, ↓keeps_refl, ↓keeps_ite, ↓keeps_foldl, ↓keeps_mk, ↓ramKeeps_refl, ↓safeKeeps_refl, ↓safeKeeps_of_eq, ↓ramKeeps_of_eq, ↓ansKeeps_ite, ↓ansKeeps_done, ↓ansKeeps_later, ↓keeps_no, ↓keeps_okay, ↓keeps_give, ↓keeps_setCfg, ↓keeps_swapBank, ↓keeps_updFilt, h]

theorem keeps_execFilterConfig (r : Req) (s : State) {z : State} (h : Keeps z s) : ResKeeps z (execFilterConfig r s) :=
  keeps_mbx _ _ _ _ _ h (keeps_bodyFilterConfig r s h)

theorem keeps_bodyFilterBankLoad (r : Req) (s : State) {z : State} (h : Keeps z s) : AnsKeeps z (bodyFilterBankLoad r s) := by
  unfold bodyFilterBankLoad
  simp (maxDischargeDepth := 40) only [implies_true, ↓keeps_refl, ↓keeps_ite, ↓keeps_foldl, ↓keeps_mk, ↓ramKeeps_refl, ↓safeKeeps_refl, ↓safeKeeps_of_eq, ↓ramKeeps_of_eq, ↓ansKeeps_ite, ↓ansKeeps_done, ↓ansKeeps_later, ↓keeps_no, ↓keeps_okay, ↓keeps_give, ↓keeps_updFilt, h]

theorem keeps_execFilterBankLoad (r : Req) (s : State) {z : State} (h : Keeps z s) : ResKeeps z (execFilterBankLoad r s) :=
  keeps_mbx _ _ _ _ _ h (keeps_bodyFilterBankLoad r s h)

theorem keeps_bodyFilterBankSwap (r : Req) (s : State) {z : State} (h : Keeps z s) : AnsKeeps z (bodyFilterBankSwap r s) := by
  unfold bodyFilterBankSwap
  simp (maxDischargeDepth := 40) only [implies_true, ↓keeps_refl, ↓keeps_ite, ↓keeps_foldl, ↓keeps_mk, ↓ramKeeps_refl, ↓safeKeeps_refl, ↓safeKeeps_of_eq, ↓ramKeeps_of_eq, ↓ansKeeps_ite, ↓ansKeeps_done, ↓ansKeeps_later, ↓keeps_no, ↓keeps_okay, ↓keeps_give, ↓keeps_swapBank, ↓keeps_updFilt, h]

theorem keeps_execFilterBankSwap (r : Req) (s : State) {z : State} (h : Keeps z s) : ResKeeps z (execFilterBankSwap r s) :=
  keeps_mbx _ _ _ _ _ h (keeps_bodyFilterBankSwap r s h)

theorem keeps_bodyDcbFreeze (r : Req) (s : State) {z : State} (h : Keeps z s) : AnsKeeps z (bodyDcbFreeze r s) := by
  unfold bodyDcbFreeze
  simp (maxDischargeDepth := 40) only [implies_true, ↓keeps_refl, ↓keeps_ite, ↓keeps_foldl, ↓keeps_mk, ↓ramKeeps_refl, ↓safeKeeps_refl, ↓safeKeeps_of_eq, ↓ramKeeps_of_eq, ↓ansKeeps_ite, ↓ansKeeps_done, ↓ansKeeps_later, ↓keeps_no, ↓keeps_okay, ↓keeps_give, ↓keeps_event, ↓keeps_updFilt, h]

theorem keeps_execDcbFreeze (r : Req) (s : State) {z : State} (h : Keeps z s) : ResKeeps z (execDcbFreeze r s) :=
  keeps_mbx _ _ _ _ _ h (keeps_bodyDcbFreeze r s h)

theorem keeps_bodyFilterStatus (r : Req) (s : State) {z : State} (h : Keeps z s) : AnsKeeps z (bodyFilterStatus r s) := by
  unfold bodyFilterStatus
  simp (maxDischargeDepth := 40) only [implies_true, ↓keeps_refl, ↓keeps_ite, ↓keeps_foldl, ↓keeps_mk, ↓ramKeeps_refl, ↓safeKeeps_refl, ↓safeKeeps_of_eq, ↓ramKeeps_of_eq, ↓ansKeeps_ite, ↓ansKeeps_done, ↓ansKeeps_later, ↓keeps_no, ↓keeps_okay, ↓keeps_give, ↓keeps_updFilt, h]

theorem keeps_execFilterStatus (r : Req) (s : State) {z : State} (h : Keeps z s) : ResKeeps z (execFilterStatus r s) :=
  keeps_mbx _ _ _ _ _ h (keeps_bodyFilterStatus r s h)

theorem keeps_updAo (o : Nat) (f : Ao → Ao) (s : State) {z : State} (h : Keeps z s) : Keeps z (updAo o f s) := by
  unfold updAo
  simp (maxDischargeDepth := 40) only [implies_true, ↓keeps_refl, ↓keeps_ite, ↓keeps_foldl, ↓keeps_mk, ↓ramKeeps_refl, ↓safeKeeps_refl, ↓safeKeeps_of_eq, ↓ramKeeps_of_eq, h]

theorem keeps_aoAlarm (o : Nat) (s : State) {z : State} (h : Keeps z s) : Keeps z (aoAlarm o s) := by
  unfold aoAlarm
  simp (maxDischargeDepth := 40) only [implies_true, ↓keeps_refl, ↓keeps_ite, ↓keeps_foldl, ↓keeps_mk, ↓ramKeeps_refl, ↓safeKeeps_refl, ↓safeKeeps_of_eq, ↓ramKeeps_of_eq, ↓keeps_clearAlarm, ↓keeps_raiseAlarm, h]

theorem keeps_execAoReadbackSample (out : Fin 8) (mv : Int) (s : State) {z : State} (h : Keeps z s) : ResKeeps z (execAoReadbackSample out mv s) := by
  unfold execAoReadbackSample
  simp (maxDischargeDepth := 40) only [implies_true, ↓keeps_refl, ↓keeps_ite, ↓keeps_foldl, ↓keeps_mk, ↓ramKeeps_refl, ↓safeKeeps_refl, ↓safeKeeps_of_eq, ↓ramKeeps_of_eq, ↓resKeeps_ite, ↓resKeeps_next, ↓keeps_aoAlarm, ↓keeps_updAo, h]

theorem keeps_execAoMismatch (out : Fin 8) (s : State) {z : State} (h : Keeps z s) : ResKeeps z (execAoMismatch out s) := by
  unfold execAoMismatch
  simp (maxDischargeDepth := 40) only [implies_true, ↓keeps_refl, ↓keeps_ite, ↓keeps_foldl, ↓keeps_mk, ↓ramKeeps_refl, ↓safeKeeps_refl, ↓safeKeeps_of_eq, ↓ramKeeps_of_eq, ↓resKeeps_ite, ↓resKeeps_next, ↓keeps_aoAlarm, ↓keeps_event, ↓keeps_latchCause, ↓keeps_updAo, h]

theorem keeps_bodyAoConfig (r : Req) (s : State) {z : State} (h : Keeps z s) : AnsKeeps z (bodyAoConfig r s) := by
  unfold bodyAoConfig
  simp (maxDischargeDepth := 40) only [implies_true, ↓keeps_refl, ↓keeps_ite, ↓keeps_foldl, ↓keeps_mk, ↓ramKeeps_refl, ↓safeKeeps_refl, ↓safeKeeps_of_eq, ↓ramKeeps_of_eq, ↓ansKeeps_ite, ↓ansKeeps_done, ↓ansKeeps_later, ↓keeps_no, ↓keeps_okay, ↓keeps_give, ↓keeps_aoAlarm, ↓keeps_aoSupply, ↓keeps_setCfg, ↓keeps_updAo, h]

theorem keeps_execAoConfig (r : Req) (s : State) {z : State} (h : Keeps z s) : ResKeeps z (execAoConfig r s) :=
  keeps_mbx _ _ _ _ _ h (keeps_bodyAoConfig r s h)

theorem keeps_latchAo (s : State) {z : State} (h : Keeps z s) : Keeps z (latchAo s) := by
  unfold latchAo
  simp (maxDischargeDepth := 40) only [implies_true, ↓keeps_refl, ↓keeps_ite, ↓keeps_foldl, ↓keeps_mk, ↓ramKeeps_refl, ↓safeKeeps_refl, ↓safeKeeps_of_eq, ↓ramKeeps_of_eq, h]

end Sys2Proof.Machine
end

