-- ==== Sys2Proof/Laws/KeepSerial.lean ====
section
/-! SUPPORT. Every operation and meaning of Machine/Serial.lean keeps what `Keeps` names. -/

set_option linter.unusedSimpArgs false

namespace Sys2Proof.Machine

theorem keeps_updCan (ch : Nat) (f : Can → Can) (s : State) {z : State} (h : Keeps z s) : Keeps z (updCan ch f s) := by
  unfold updCan
  simp (maxDischargeDepth := 40) only [implies_true, ↓keeps_refl, ↓keeps_ite, ↓keeps_foldl, ↓keeps_mk, ↓ramKeeps_refl, ↓safeKeeps_refl, ↓safeKeeps_of_eq, ↓ramKeeps_of_eq, h]

theorem keeps_canCount (ch n k : Nat) (s : State) {z : State} (h : Keeps z s) : Keeps z (canCount ch n k s) := by
  unfold canCount
  simp (maxDischargeDepth := 40) only [implies_true, ↓keeps_refl, ↓keeps_ite, ↓keeps_foldl, ↓keeps_mk, ↓ramKeeps_refl, ↓safeKeeps_refl, ↓safeKeeps_of_eq, ↓ramKeeps_of_eq, ↓keeps_updCan, h]

theorem keeps_takeRoute (ch : Nat) (f : CanFrame) (n : Nat) (s : State) {z : State} (h : Keeps z s) : Keeps z (takeRoute ch f n s) := by
  unfold takeRoute
  dsimp only
  (repeat' split) <;> simp (maxDischargeDepth := 40) only [implies_true, ↓keeps_refl, ↓keeps_ite, ↓keeps_foldl, ↓keeps_mk, ↓ramKeeps_refl, ↓safeKeeps_refl, ↓safeKeeps_of_eq, ↓ramKeeps_of_eq, ↓keeps_canCount, ↓keeps_inputBack, h]

theorem keeps_ringEnter (ch : Nat) (f : CanFrame) (w epoch : Word) (stamp : Nat) (s : State) {z : State} (h : Keeps z s) : Keeps z (ringEnter ch f w epoch stamp s) := by
  unfold ringEnter
  simp (maxDischargeDepth := 40) only [implies_true, ↓keeps_refl, ↓keeps_ite, ↓keeps_foldl, ↓keeps_mk, ↓ramKeeps_refl, ↓safeKeeps_refl, ↓safeKeeps_of_eq, ↓ramKeeps_of_eq, ↓keeps_flrCan, ↓keeps_offerCan, ↓keeps_takeRoute, ↓keeps_updCan, h]

theorem keeps_autoLock (ch nom : Nat) (data : Option Nat) (s : State) {z : State} (h : Keeps z s) : Keeps z (autoLock ch nom data s) := by
  unfold autoLock
  simp (maxDischargeDepth := 40) only [implies_true, ↓keeps_refl, ↓keeps_ite, ↓keeps_foldl, ↓keeps_mk, ↓ramKeeps_refl, ↓safeKeeps_refl, ↓safeKeeps_of_eq, ↓ramKeeps_of_eq, ↓keeps_event, ↓keeps_setCfg, ↓keeps_updCan, h]

theorem keeps_autoFrame (ch : Nat) (f : CanFrame) (s : State) {z : State} (h : Keeps z s) : Keeps z (autoFrame ch f s) := by
  unfold autoFrame
  dsimp only
  (repeat' split) <;> simp (maxDischargeDepth := 40) only [implies_true, ↓keeps_refl, ↓keeps_ite, ↓keeps_foldl, ↓keeps_mk, ↓ramKeeps_refl, ↓safeKeeps_refl, ↓safeKeeps_of_eq, ↓ramKeeps_of_eq, ↓keeps_autoLock, ↓keeps_updCan, h]

theorem keeps_execAutobaudDwellEnd (ch : Fin 8) (onError : Bool) (s : State) {z : State} (h : Keeps z s) : ResKeeps z (execAutobaudDwellEnd ch onError s) := by
  unfold execAutobaudDwellEnd
  dsimp only
  (repeat' split) <;> simp (maxDischargeDepth := 40) only [implies_true, ↓keeps_refl, ↓keeps_ite, ↓keeps_foldl, ↓keeps_mk, ↓ramKeeps_refl, ↓safeKeeps_refl, ↓safeKeeps_of_eq, ↓ramKeeps_of_eq, ↓resKeeps_ite, ↓resKeeps_next, ↓keeps_autoLock, ↓keeps_event, ↓keeps_updCan, h]

theorem keeps_busOff (ch : Nat) (s : State) {z : State} (h : Keeps z s) : Keeps z (busOff ch s) := by
  unfold busOff
  simp (maxDischargeDepth := 40) only [implies_true, ↓keeps_refl, ↓keeps_ite, ↓keeps_foldl, ↓keeps_mk, ↓ramKeeps_refl, ↓safeKeeps_refl, ↓safeKeeps_of_eq, ↓ramKeeps_of_eq, ↓keeps_event, ↓keeps_updCan, h]

theorem keeps_setErr (ch tec rec_ : Nat) (s : State) {z : State} (h : Keeps z s) : Keeps z (setErr ch tec rec_ s) := by
  unfold setErr
  simp (maxDischargeDepth := 40) only [implies_true, ↓keeps_refl, ↓keeps_ite, ↓keeps_foldl, ↓keeps_mk, ↓ramKeeps_refl, ↓safeKeeps_refl, ↓safeKeeps_of_eq, ↓ramKeeps_of_eq, ↓keeps_busOff, ↓keeps_event, ↓keeps_updCan, h]

theorem keeps_rxGood (ch : Nat) (s : State) {z : State} (h : Keeps z s) : Keeps z (rxGood ch s) := by
  unfold rxGood
  simp (maxDischargeDepth := 40) only [implies_true, ↓keeps_refl, ↓keeps_ite, ↓keeps_foldl, ↓keeps_mk, ↓ramKeeps_refl, ↓safeKeeps_refl, ↓safeKeeps_of_eq, ↓ramKeeps_of_eq, ↓keeps_setErr, ↓keeps_stepFree, h]

theorem keeps_rxError (ch kind : Nat) (primary : Bool) (s : State) {z : State} (h : Keeps z s) : Keeps z (rxError ch kind primary s) := by
  unfold rxError
  simp (maxDischargeDepth := 40) only [implies_true, ↓keeps_refl, ↓keeps_ite, ↓keeps_foldl, ↓keeps_mk, ↓ramKeeps_refl, ↓safeKeeps_refl, ↓safeKeeps_of_eq, ↓ramKeeps_of_eq, ↓keeps_canCount, ↓keeps_setErr, h]

theorem keeps_rxFrame (ch : Nat) (f : CanFrame) (stamp : Nat) (s : State) {z : State} (h : Keeps z s) : Keeps z (rxFrame ch f stamp s) := by
  unfold rxFrame
  simp (maxDischargeDepth := 40) only [implies_true, ↓keeps_refl, ↓keeps_ite, ↓keeps_foldl, ↓keeps_mk, ↓ramKeeps_refl, ↓safeKeeps_refl, ↓safeKeeps_of_eq, ↓ramKeeps_of_eq, ↓keeps_ringEnter, ↓keeps_rxGood, ↓keeps_stepFree, ↓keeps_updCan, h]

theorem keeps_execCanFrameRx (ch : Fin 8) (f : CanFrame) (rx : CanRx) (s : State) {z : State} (h : Keeps z s) : ResKeeps z (execCanFrameRx ch f rx s) := by
  unfold execCanFrameRx
  dsimp only
  (repeat' split) <;> simp (maxDischargeDepth := 40) only [implies_true, ↓keeps_refl, ↓keeps_ite, ↓keeps_foldl, ↓keeps_mk, ↓ramKeeps_refl, ↓safeKeeps_refl, ↓safeKeeps_of_eq, ↓ramKeeps_of_eq, ↓resKeeps_ite, ↓resKeeps_next, ↓keeps_autoFrame, ↓keeps_rxError, ↓keeps_rxFrame, h]

theorem keeps_execCanRxOverrun (ch : Fin 8) (lost : Nat) (s : State) {z : State} (h : Keeps z s) : ResKeeps z (execCanRxOverrun ch lost s) := by
  unfold execCanRxOverrun
  simp (maxDischargeDepth := 40) only [implies_true, ↓keeps_refl, ↓keeps_ite, ↓keeps_foldl, ↓keeps_mk, ↓ramKeeps_refl, ↓safeKeeps_refl, ↓safeKeeps_of_eq, ↓ramKeeps_of_eq, ↓resKeeps_ite, ↓resKeeps_next, ↓keeps_event, ↓keeps_updCan, h]

theorem keeps_updBuf (ch b : Nat) (f : CanBuf → CanBuf) (s : State) {z : State} (h : Keeps z s) : Keeps z (updBuf ch b f s) := by
  unfold updBuf
  simp (maxDischargeDepth := 40) only [implies_true, ↓keeps_refl, ↓keeps_ite, ↓keeps_foldl, ↓keeps_mk, ↓ramKeeps_refl, ↓safeKeeps_refl, ↓safeKeeps_of_eq, ↓ramKeeps_of_eq, ↓keeps_updCan, h]

theorem keeps_execCanAttemptStart (ch : Fin 8) (stamp : Nat) (s : State) {z : State} (h : Keeps z s) : ResKeeps z (execCanAttemptStart ch stamp s) := by
  unfold execCanAttemptStart
  dsimp only
  (repeat' split) <;> simp (maxDischargeDepth := 40) only [implies_true, ↓keeps_refl, ↓keeps_ite, ↓keeps_foldl, ↓keeps_mk, ↓ramKeeps_refl, ↓safeKeeps_refl, ↓safeKeeps_of_eq, ↓ramKeeps_of_eq, ↓resKeeps_ite, ↓resKeeps_next, ↓keeps_updBuf, ↓keeps_updCan, h]

theorem keeps_failAttempt (ch b : Nat) (s : State) {z : State} (h : Keeps z s) : Keeps z (failAttempt ch b s) := by
  unfold failAttempt
  simp (maxDischargeDepth := 40) only [implies_true, ↓keeps_refl, ↓keeps_ite, ↓keeps_foldl, ↓keeps_mk, ↓ramKeeps_refl, ↓safeKeeps_refl, ↓safeKeeps_of_eq, ↓ramKeeps_of_eq, ↓keeps_event, ↓keeps_updBuf, h]

theorem keeps_takeHeld (ch b : Nat) (s : State) {z : State} (h : Keeps z s) : Keeps z (takeHeld ch b s) := by
  unfold takeHeld
  (repeat' split) <;> simp (maxDischargeDepth := 40) [implies_true, ↓keeps_refl, ↓keeps_ite, ↓keeps_foldl, ↓keeps_mk, ↓ramKeeps_refl, ↓safeKeeps_refl, ↓safeKeeps_of_eq, ↓ramKeeps_of_eq, ↓keeps_updBuf, h]

theorem keeps_collide (ch b : Nat) (s : State) {z : State} (h : Keeps z s) : Keeps z (collide ch b s) := by
  unfold collide
  simp (maxDischargeDepth := 40) only [implies_true, ↓keeps_refl, ↓keeps_ite, ↓keeps_foldl, ↓keeps_mk, ↓ramKeeps_refl, ↓safeKeeps_refl, ↓safeKeeps_of_eq, ↓ramKeeps_of_eq, ↓keeps_canCount, ↓keeps_event, ↓keeps_updBuf, h]

theorem keeps_execCanAttemptEnd (ch : Fin 8) (e : CanEnd) (s : State) {z : State} (h : Keeps z s) : ResKeeps z (execCanAttemptEnd ch e s) := by
  unfold execCanAttemptEnd
  dsimp only
  (repeat' split) <;> simp (maxDischargeDepth := 40) only [implies_true, ↓keeps_refl, ↓keeps_ite, ↓keeps_foldl, ↓keeps_mk, ↓ramKeeps_refl, ↓safeKeeps_refl, ↓safeKeeps_of_eq, ↓ramKeeps_of_eq, ↓resKeeps_ite, ↓resKeeps_next, ↓keeps_canCount, ↓keeps_collide, ↓keeps_failAttempt, ↓keeps_ringEnter, ↓keeps_setErr, ↓keeps_takeHeld, ↓keeps_updBuf, ↓keeps_updCan, h]

theorem keeps_execBusOffRecovery (ch : Fin 8) (s : State) {z : State} (h : Keeps z s) : ResKeeps z (execBusOffRecovery ch s) := by
  unfold execBusOffRecovery
  simp (maxDischargeDepth := 40) only [implies_true, ↓keeps_refl, ↓keeps_ite, ↓keeps_foldl, ↓keeps_mk, ↓ramKeeps_refl, ↓safeKeeps_refl, ↓safeKeeps_of_eq, ↓ramKeeps_of_eq, ↓resKeeps_ite, ↓resKeeps_next, ↓keeps_event, ↓keeps_updCan, h]

theorem keeps_bodyCanConfig (r : Req) (s : State) {z : State} (h : Keeps z s) : AnsKeeps z (bodyCanConfig r s) := by
  unfold bodyCanConfig
  simp (maxDischargeDepth := 40) only [implies_true, ↓keeps_refl, ↓keeps_ite, ↓keeps_foldl, ↓keeps_mk, ↓ramKeeps_refl, ↓safeKeeps_refl, ↓safeKeeps_of_eq, ↓ramKeeps_of_eq, ↓ansKeeps_ite, ↓ansKeeps_done, ↓ansKeeps_later, ↓keeps_no, ↓keeps_okay, ↓keeps_give, ↓keeps_setCfg, ↓keeps_updCan, h]

theorem keeps_execCanConfig (r : Req) (s : State) {z : State} (h : Keeps z s) : ResKeeps z (execCanConfig r s) :=
  keeps_mbx _ _ _ _ _ h (keeps_bodyCanConfig r s h)

theorem keeps_bodyCanAutobaud (r : Req) (s : State) {z : State} (h : Keeps z s) : AnsKeeps z (bodyCanAutobaud r s) := by
  unfold bodyCanAutobaud
  simp (maxDischargeDepth := 40) only [implies_true, ↓keeps_refl, ↓keeps_ite, ↓keeps_foldl, ↓keeps_mk, ↓ramKeeps_refl, ↓safeKeeps_refl, ↓safeKeeps_of_eq, ↓ramKeeps_of_eq, ↓ansKeeps_ite, ↓ansKeeps_done, ↓ansKeeps_later, ↓keeps_no, ↓keeps_okay, ↓keeps_give, ↓keeps_updCan, h]

theorem keeps_execCanAutobaud (r : Req) (s : State) {z : State} (h : Keeps z s) : ResKeeps z (execCanAutobaud r s) :=
  keeps_mbx _ _ _ _ _ h (keeps_bodyCanAutobaud r s h)

theorem keeps_bodyCanTx (r : Req) (s : State) {z : State} (h : Keeps z s) : AnsKeeps z (bodyCanTx r s) := by
  unfold bodyCanTx
  simp (maxDischargeDepth := 40) only [implies_true, ↓keeps_refl, ↓keeps_ite, ↓keeps_foldl, ↓keeps_mk, ↓ramKeeps_refl, ↓safeKeeps_refl, ↓safeKeeps_of_eq, ↓ramKeeps_of_eq, ↓ansKeeps_ite, ↓ansKeeps_done, ↓ansKeeps_later, ↓keeps_no, ↓keeps_okay, ↓keeps_give, ↓keeps_updBuf, h]

theorem keeps_execCanTx (r : Req) (s : State) {z : State} (h : Keeps z s) : ResKeeps z (execCanTx r s) :=
  keeps_mbx _ _ _ _ _ h (keeps_bodyCanTx r s h)

theorem keeps_bodyCanCancel (r : Req) (s : State) {z : State} (h : Keeps z s) : AnsKeeps z (bodyCanCancel r s) := by
  unfold bodyCanCancel
  simp (maxDischargeDepth := 40) only [implies_true, ↓keeps_refl, ↓keeps_ite, ↓keeps_foldl, ↓keeps_mk, ↓ramKeeps_refl, ↓safeKeeps_refl, ↓safeKeeps_of_eq, ↓ramKeeps_of_eq, ↓ansKeeps_ite, ↓ansKeeps_done, ↓ansKeeps_later, ↓keeps_no, ↓keeps_okay, ↓keeps_give, ↓keeps_cancelBuf, h]

theorem keeps_execCanCancel (r : Req) (s : State) {z : State} (h : Keeps z s) : ResKeeps z (execCanCancel r s) :=
  keeps_mbx _ _ _ _ _ h (keeps_bodyCanCancel r s h)

theorem keeps_bodyCanStatus (r : Req) (s : State) {z : State} (h : Keeps z s) : AnsKeeps z (bodyCanStatus r s) := by
  unfold bodyCanStatus
  simp (maxDischargeDepth := 40) only [implies_true, ↓keeps_refl, ↓keeps_ite, ↓keeps_foldl, ↓keeps_mk, ↓ramKeeps_refl, ↓safeKeeps_refl, ↓safeKeeps_of_eq, ↓ramKeeps_of_eq, ↓ansKeeps_ite, ↓ansKeeps_done, ↓ansKeeps_later, ↓keeps_no, ↓keeps_okay, ↓keeps_give, ↓keeps_updCan, h]

theorem keeps_execCanStatus (r : Req) (s : State) {z : State} (h : Keeps z s) : ResKeeps z (execCanStatus r s) :=
  keeps_mbx _ _ _ _ _ h (keeps_bodyCanStatus r s h)

theorem keeps_ringAnswer {α : Type} (size : Nat) (seqOf : α → BitVec 16) (bytes : α → List Byte) (ring : List α) (next start : BitVec 16) (dma : Bool) (s : State) {z : State} (h : Keeps z s) : AnsKeeps z (ringAnswer size seqOf bytes ring next start dma s) := by
  unfold ringAnswer
  dsimp only
  (repeat' split) <;> simp (maxDischargeDepth := 40) only [implies_true, ↓keeps_refl, ↓keeps_ite, ↓keeps_foldl, ↓keeps_mk, ↓ramKeeps_refl, ↓safeKeeps_refl, ↓safeKeeps_of_eq, ↓ramKeeps_of_eq, ↓ansKeeps_ite, ↓ansKeeps_done, ↓ansKeeps_later, ↓keeps_no, ↓keeps_okay, ↓keeps_give, h]

theorem keeps_bodyCanRxRead (r : Req) (s : State) {z : State} (h : Keeps z s) : AnsKeeps z (bodyCanRxRead r s) := by
  unfold bodyCanRxRead
  simp (maxDischargeDepth := 40) only [implies_true, ↓keeps_refl, ↓keeps_ite, ↓keeps_foldl, ↓keeps_mk, ↓ramKeeps_refl, ↓safeKeeps_refl, ↓safeKeeps_of_eq, ↓ramKeeps_of_eq, ↓ansKeeps_ite, ↓ansKeeps_done, ↓ansKeeps_later, ↓keeps_no, ↓keeps_okay, ↓keeps_give, ↓keeps_ringAnswer, h]

theorem keeps_execCanRxRead (r : Req) (s : State) {z : State} (h : Keeps z s) : ResKeeps z (execCanRxRead r s) :=
  keeps_mbx _ _ _ _ _ h (keeps_bodyCanRxRead r s h)

theorem keeps_bodyCanRouteDefine (r : Req) (s : State) {z : State} (h : Keeps z s) : AnsKeeps z (bodyCanRouteDefine r s) := by
  unfold bodyCanRouteDefine
  simp (maxDischargeDepth := 40) only [implies_true, ↓keeps_refl, ↓keeps_ite, ↓keeps_foldl, ↓keeps_mk, ↓ramKeeps_refl, ↓safeKeeps_refl, ↓safeKeeps_of_eq, ↓ramKeeps_of_eq, ↓ansKeeps_ite, ↓ansKeeps_done, ↓ansKeeps_later, ↓keeps_no, ↓keeps_okay, ↓keeps_give, ↓keeps_setCfg, h]

theorem keeps_execCanRouteDefine (r : Req) (s : State) {z : State} (h : Keeps z s) : ResKeeps z (execCanRouteDefine r s) :=
  keeps_mbx _ _ _ _ _ h (keeps_bodyCanRouteDefine r s h)

theorem keeps_updUart (u : Nat) (f : Uart → Uart) (s : State) {z : State} (h : Keeps z s) : Keeps z (updUart u f s) := by
  unfold updUart
  simp (maxDischargeDepth := 40) only [implies_true, ↓keeps_refl, ↓keeps_ite, ↓keeps_foldl, ↓keeps_mk, ↓ramKeeps_refl, ↓safeKeeps_refl, ↓safeKeeps_of_eq, ↓ramKeeps_of_eq, h]

theorem keeps_execUartSentence (u : Fin 8) (noise : Nat) (restarts : Nat) (chars : List Byte) (framing : Bool) (stamp : Nat) (s : State) {z : State} (h : Keeps z s) : ResKeeps z (execUartSentence u noise restarts chars framing stamp s) := by
  unfold execUartSentence
  simp (maxDischargeDepth := 40) only [implies_true, ↓keeps_refl, ↓keeps_ite, ↓keeps_foldl, ↓keeps_mk, ↓ramKeeps_refl, ↓safeKeeps_refl, ↓safeKeeps_of_eq, ↓ramKeeps_of_eq, ↓resKeeps_ite, ↓resKeeps_next, ↓keeps_event, ↓keeps_offerSentence, ↓keeps_updUart, h]

theorem keeps_execUartTxSentenceDone (u : Fin 8) (s : State) {z : State} (h : Keeps z s) : ResKeeps z (execUartTxSentenceDone u s) := by
  unfold execUartTxSentenceDone
  dsimp only
  (repeat' split) <;> simp (maxDischargeDepth := 40) only [implies_true, ↓keeps_refl, ↓keeps_ite, ↓keeps_foldl, ↓keeps_mk, ↓ramKeeps_refl, ↓safeKeeps_refl, ↓safeKeeps_of_eq, ↓ramKeeps_of_eq, ↓resKeeps_ite, ↓resKeeps_next, ↓keeps_emit, ↓keeps_updUart, h]

theorem keeps_bodyUartConfig (r : Req) (s : State) {z : State} (h : Keeps z s) : AnsKeeps z (bodyUartConfig r s) := by
  unfold bodyUartConfig
  simp (maxDischargeDepth := 40) only [implies_true, ↓keeps_refl, ↓keeps_ite, ↓keeps_foldl, ↓keeps_mk, ↓ramKeeps_refl, ↓safeKeeps_refl, ↓safeKeeps_of_eq, ↓ramKeeps_of_eq, ↓ansKeeps_ite, ↓ansKeeps_done, ↓ansKeeps_later, ↓keeps_no, ↓keeps_okay, ↓keeps_give, ↓keeps_setCfg, ↓keeps_updUart, h]

theorem keeps_execUartConfig (r : Req) (s : State) {z : State} (h : Keeps z s) : ResKeeps z (execUartConfig r s) :=
  keeps_mbx _ _ _ _ _ h (keeps_bodyUartConfig r s h)

theorem keeps_bodyUartStatus (r : Req) (s : State) {z : State} (h : Keeps z s) : AnsKeeps z (bodyUartStatus r s) := by
  unfold bodyUartStatus
  simp (maxDischargeDepth := 40) only [implies_true, ↓keeps_refl, ↓keeps_ite, ↓keeps_foldl, ↓keeps_mk, ↓ramKeeps_refl, ↓safeKeeps_refl, ↓safeKeeps_of_eq, ↓ramKeeps_of_eq, ↓ansKeeps_ite, ↓ansKeeps_done, ↓ansKeeps_later, ↓keeps_no, ↓keeps_okay, ↓keeps_give, ↓keeps_updUart, h]

theorem keeps_execUartStatus (r : Req) (s : State) {z : State} (h : Keeps z s) : ResKeeps z (execUartStatus r s) :=
  keeps_mbx _ _ _ _ _ h (keeps_bodyUartStatus r s h)

theorem keeps_bodyUartRxRead (r : Req) (s : State) {z : State} (h : Keeps z s) : AnsKeeps z (bodyUartRxRead r s) := by
  unfold bodyUartRxRead
  simp (maxDischargeDepth := 40) only [implies_true, ↓keeps_refl, ↓keeps_ite, ↓keeps_foldl, ↓keeps_mk, ↓ramKeeps_refl, ↓safeKeeps_refl, ↓safeKeeps_of_eq, ↓ramKeeps_of_eq, ↓ansKeeps_ite, ↓ansKeeps_done, ↓ansKeeps_later, ↓keeps_no, ↓keeps_okay, ↓keeps_give, ↓keeps_ringAnswer, h]

theorem keeps_execUartRxRead (r : Req) (s : State) {z : State} (h : Keeps z s) : ResKeeps z (execUartRxRead r s) :=
  keeps_mbx _ _ _ _ _ h (keeps_bodyUartRxRead r s h)

theorem keeps_bodyUartTx (r : Req) (s : State) {z : State} (h : Keeps z s) : AnsKeeps z (bodyUartTx r s) := by
  unfold bodyUartTx
  simp (maxDischargeDepth := 40) only [implies_true, ↓keeps_refl, ↓keeps_ite, ↓keeps_foldl, ↓keeps_mk, ↓ramKeeps_refl, ↓safeKeeps_refl, ↓safeKeeps_of_eq, ↓ramKeeps_of_eq, ↓ansKeeps_ite, ↓ansKeeps_done, ↓ansKeeps_later, ↓keeps_no, ↓keeps_okay, ↓keeps_give, ↓keeps_emit, ↓keeps_updUart, h]

theorem keeps_execUartTx (r : Req) (s : State) {z : State} (h : Keeps z s) : ResKeeps z (execUartTx r s) :=
  keeps_mbx _ _ _ _ _ h (keeps_bodyUartTx r s h)

theorem keeps_bodyLan61162Config (r : Req) (s : State) {z : State} (h : Keeps z s) : AnsKeeps z (bodyLan61162Config r s) := by
  unfold bodyLan61162Config
  simp (maxDischargeDepth := 40) only [implies_true, ↓keeps_refl, ↓keeps_ite, ↓keeps_foldl, ↓keeps_mk, ↓ramKeeps_refl, ↓safeKeeps_refl, ↓safeKeeps_of_eq, ↓ramKeeps_of_eq, ↓ansKeeps_ite, ↓ansKeeps_done, ↓ansKeeps_later, ↓keeps_no, ↓keeps_okay, ↓keeps_give, ↓keeps_joinGroup, ↓keeps_setCfg, h]

theorem keeps_execLan61162Config (r : Req) (s : State) {z : State} (h : Keeps z s) : ResKeeps z (execLan61162Config r s) :=
  keeps_mbx _ _ _ _ _ h (keeps_bodyLan61162Config r s h)

theorem keeps_lanSentence (mac : Nat) (es : List (BitVec 128)) (stamp : Nat) (x : LanSentence) (s : State) {z : State} (h : Keeps z s) : Keeps z (lanSentence mac es stamp x s) := by
  unfold lanSentence
  simp (maxDischargeDepth := 40) only [implies_true, ↓keeps_refl, ↓keeps_ite, ↓keeps_foldl, ↓keeps_mk, ↓ramKeeps_refl, ↓safeKeeps_refl, ↓safeKeeps_of_eq, ↓ramKeeps_of_eq, ↓keeps_offerSentence, h]

theorem keeps_execLan61162Datagram (mac : Fin 2) (fast : Bool) (group : Word) (port : BitVec 16) (headerOk : Bool) (sentences : List LanSentence) (raw : Nat) (s : State) {z : State} (h : Keeps z s) : ResKeeps z (execLan61162Datagram mac fast group port headerOk sentences raw s) := by
  unfold execLan61162Datagram
  simp (maxDischargeDepth := 40) only [implies_true, ↓keeps_refl, ↓keeps_ite, ↓keeps_foldl, ↓keeps_mk, ↓ramKeeps_refl, ↓safeKeeps_refl, ↓safeKeeps_of_eq, ↓ramKeeps_of_eq, ↓resKeeps_ite, ↓resKeeps_next, ↓keeps_lanSentence, h]

theorem keeps_execSensorDatagram (mac : Fin 2) (fast : Bool) (src : Word) (port : BitVec 16) (bytes : List Byte) (raw : Nat) (s : State) {z : State} (h : Keeps z s) : ResKeeps z (execSensorDatagram mac fast src port bytes raw s) := by
  unfold execSensorDatagram
  simp (maxDischargeDepth := 40) only [implies_true, ↓keeps_refl, ↓keeps_ite, ↓keeps_foldl, ↓keeps_mk, ↓ramKeeps_refl, ↓safeKeeps_refl, ↓safeKeeps_of_eq, ↓ramKeeps_of_eq, ↓resKeeps_ite, ↓resKeeps_next, ↓keeps_offerDatagram, h]

end Sys2Proof.Machine
end

