-- ==== Sys2Proof/Laws/KeepLoop.lean ====
section
/-! SUPPORT. Every operation and meaning of Machine/Loop.lean keeps what `Keeps` names. -/

set_option linter.unusedSimpArgs false

namespace Sys2Proof.Machine

theorem keeps_enableCtx (n cause : Nat) (s : State) {z : State} (h : Keeps z s) : Keeps z (enableCtx n cause s) := by
  unfold enableCtx
  simp (maxDischargeDepth := 40) only [implies_true, ↓keeps_refl, ↓keeps_ite, ↓keeps_foldl, ↓keeps_mk, ↓ramKeeps_refl, ↓safeKeeps_refl, ↓safeKeeps_of_eq, ↓ramKeeps_of_eq, ↓keeps_ctxState, ↓keeps_updCtx, h]

theorem keeps_enterLost (n : Nat) (s : State) {z : State} (h : Keeps z s) : Keeps z (enterLost n s) := by
  unfold enterLost
  simp (maxDischargeDepth := 40) only [implies_true, ↓keeps_refl, ↓keeps_ite, ↓keeps_foldl, ↓keeps_mk, ↓ramKeeps_refl, ↓safeKeeps_refl, ↓safeKeeps_of_eq, ↓ramKeeps_of_eq, ↓keeps_ctxState, ↓keeps_event, ↓keeps_latchCause, ↓keeps_updCtx, h]

theorem keeps_writeOut (n : Nat) (u : Int) (s : State) {z : State} (h : Keeps z s) : Keeps z (writeOut n u s) := by
  unfold writeOut
  simp (maxDischargeDepth := 40) only [implies_true, ↓keeps_refl, ↓keeps_ite, ↓keeps_foldl, ↓keeps_mk, ↓ramKeeps_refl, ↓safeKeeps_refl, ↓safeKeeps_of_eq, ↓ramKeeps_of_eq, ↓keeps_updAo, ↓keeps_updBuf, h]

theorem keeps_queueCan (d : Nat) (s : State) {z : State} (h : Keeps z s) : Keeps z (queueCan d s) := by
  unfold queueCan
  simp (maxDischargeDepth := 40) only [implies_true, ↓keeps_refl, ↓keeps_ite, ↓keeps_foldl, ↓keeps_mk, ↓ramKeeps_refl, ↓safeKeeps_refl, ↓safeKeeps_of_eq, ↓ramKeeps_of_eq, ↓keeps_updBuf, h]

theorem keeps_queueFlow (flow : Nat) (s : State) {z : State} (h : Keeps z s) : Keeps z (queueFlow flow s) := by
  unfold queueFlow
  dsimp only
  (repeat' split) <;> simp (maxDischargeDepth := 40) only [implies_true, ↓keeps_refl, ↓keeps_ite, ↓keeps_foldl, ↓keeps_mk, ↓ramKeeps_refl, ↓safeKeeps_refl, ↓safeKeeps_of_eq, ↓ramKeeps_of_eq, ↓keeps_flowCount, ↓keeps_noRoute, ↓keeps_pump, ↓keeps_sendNet, h]

theorem keeps_sampleRun (n : Nat) (s : State) {z : State} (h : Keeps z s) : Keeps z (sampleRun n s) := by
  unfold sampleRun
  dsimp only
  (repeat' split) <;> simp (maxDischargeDepth := 40) only [implies_true, ↓keeps_refl, ↓keeps_ite, ↓keeps_foldl, ↓keeps_mk, ↓ramKeeps_refl, ↓safeKeeps_refl, ↓safeKeeps_of_eq, ↓ramKeeps_of_eq, ↓keeps_event, ↓keeps_updCtx, ↓keeps_writeOut, h]

theorem keeps_samplePark (n : Nat) (s : State) {z : State} (h : Keeps z s) : Keeps z (samplePark n s) := by
  unfold samplePark
  simp (maxDischargeDepth := 40) only [implies_true, ↓keeps_refl, ↓keeps_ite, ↓keeps_foldl, ↓keeps_mk, ↓ramKeeps_refl, ↓safeKeeps_refl, ↓safeKeeps_of_eq, ↓ramKeeps_of_eq, ↓keeps_ctxState, ↓keeps_enterLost, ↓keeps_updCtx, ↓keeps_writeOut, h]

theorem keeps_beginSample (n : Nat) (s : State) {z : State} (h : Keeps z s) : Keeps z (beginSample n s) := by
  unfold beginSample
  simp (maxDischargeDepth := 40) only [implies_true, ↓keeps_refl, ↓keeps_ite, ↓keeps_foldl, ↓keeps_mk, ↓ramKeeps_refl, ↓safeKeeps_refl, ↓safeKeeps_of_eq, ↓ramKeeps_of_eq, ↓keeps_stepFree, ↓keeps_updCtx, h]

theorem keeps_skipSample (n : Nat) (s : State) {z : State} (h : Keeps z s) : Keeps z (skipSample n s) := by
  unfold skipSample
  simp (maxDischargeDepth := 40) only [implies_true, ↓keeps_refl, ↓keeps_ite, ↓keeps_foldl, ↓keeps_mk, ↓ramKeeps_refl, ↓safeKeeps_refl, ↓safeKeeps_of_eq, ↓ramKeeps_of_eq, ↓keeps_event, ↓keeps_updCtx, h]

theorem keeps_takeSampleOf (n : Nat) (s0 : State) {z : State} (h : Keeps z s0) : Keeps z (takeSampleOf n s0) := by
  unfold takeSampleOf
  simp (maxDischargeDepth := 40) only [implies_true, ↓keeps_refl, ↓keeps_ite, ↓keeps_foldl, ↓keeps_mk, ↓ramKeeps_refl, ↓safeKeeps_refl, ↓safeKeeps_of_eq, ↓ramKeeps_of_eq, ↓keeps_applyWrites, ↓keeps_ctxState, ↓keeps_samplePark, ↓keeps_sampleRun, ↓keeps_updCtx, ↓keeps_writeOut, h]

theorem keeps_sampleCtx (n : Nat) (s : State) {z : State} (h : Keeps z s) : Keeps z (sampleCtx n s) := by
  unfold sampleCtx
  simp (maxDischargeDepth := 40) only [implies_true, ↓keeps_refl, ↓keeps_ite, ↓keeps_foldl, ↓keeps_mk, ↓ramKeeps_refl, ↓safeKeeps_refl, ↓safeKeeps_of_eq, ↓ramKeeps_of_eq, ↓keeps_beginSample, ↓keeps_takeSampleOf, h]

theorem keeps_traceDone (u : Nat) (s : State) {z : State} (h : Keeps z s) : Keeps z (traceDone u s) := by
  unfold traceDone
  simp (maxDischargeDepth := 40) only [implies_true, ↓keeps_refl, ↓keeps_ite, ↓keeps_foldl, ↓keeps_mk, ↓ramKeeps_refl, ↓safeKeeps_refl, ↓safeKeeps_of_eq, ↓ramKeeps_of_eq, ↓keeps_stage, ↓keeps_trace, h]

theorem keeps_capture (u : Nat) (s : State) {z : State} (h : Keeps z s) : Keeps z (capture u s) := by
  unfold capture
  simp (maxDischargeDepth := 40) only [implies_true, ↓keeps_refl, ↓keeps_ite, ↓keeps_foldl, ↓keeps_mk, ↓ramKeeps_refl, ↓safeKeeps_refl, ↓safeKeeps_of_eq, ↓ramKeeps_of_eq, ↓keeps_event, ↓keeps_trace, ↓keeps_traceDone, h]

theorem keeps_turnOf (x : State × List Nat) (n : Nat) : Keeps x.1 (turnOf x n).1 := by
  unfold turnOf
  split
  · exact keeps_refl _
  · split
    · exact keeps_sampleCtx _ _ (keeps_refl _)
    · exact keeps_skipSample _ _ (keeps_refl _)

/-- The turns of a list of contexts. -/
theorem keeps_turns (l : List Nat) (x : State × List Nat) : Keeps x.1 (l.foldl turnOf x).1 := by
  induction l generalizing x with
  | nil => exact keeps_refl _
  | cons n l ih => exact keeps_trans (keeps_turnOf x n) (ih _)


theorem keeps_runDue (s : State) {z : State} (h : Keeps z s) : Keeps z (runDue s) := by
  unfold runDue
  generalize List.range 128 = l
  dsimp only
  refine keeps_foldl (fun t u => keeps_capture _ t (keeps_refl t)) (keeps_foldl (fun t d => keeps_queueFlow _ t (keeps_refl t))
    (keeps_foldl (fun t d => keeps_queueCan _ t (keeps_refl t)) (keeps_trans ?_ (keeps_turns _ _))))
  exact keeps_foldl (fun t n => keeps_ite (keeps_enableCtx _ _ t (keeps_refl t)) (keeps_refl t)) h

theorem keeps_toGrid (s : State) {z : State} (h : Keeps z s) : Keeps z (toGrid s) := by
  unfold toGrid
  simp (maxDischargeDepth := 40) only [implies_true, ↓keeps_refl, ↓keeps_ite, ↓keeps_foldl, ↓keeps_mk, ↓ramKeeps_refl, ↓safeKeeps_refl, ↓safeKeeps_of_eq, ↓ramKeeps_of_eq, h]

theorem keeps_execLoopGridInstant (s : State) {z : State} (h : Keeps z s) : ResKeeps z (execLoopGridInstant s) := by
  unfold execLoopGridInstant
  simp (maxDischargeDepth := 40) only [implies_true, ↓keeps_refl, ↓keeps_ite, ↓keeps_foldl, ↓keeps_mk, ↓ramKeeps_refl, ↓safeKeeps_refl, ↓safeKeeps_of_eq, ↓ramKeeps_of_eq, ↓resKeeps_ite, ↓resKeeps_next, ↓keeps_driveOutputs, ↓keeps_latchAo, ↓keeps_runDue, ↓keeps_toGrid, h]

theorem keeps_execInputCeased (ctx : Fin 128) (s : State) {z : State} (h : Keeps z s) : ResKeeps z (execInputCeased ctx s) := by
  unfold execInputCeased
  simp (maxDischargeDepth := 40) only [implies_true, ↓keeps_refl, ↓keeps_ite, ↓keeps_foldl, ↓keeps_mk, ↓ramKeeps_refl, ↓safeKeeps_refl, ↓safeKeeps_of_eq, ↓ramKeeps_of_eq, ↓resKeeps_ite, ↓resKeeps_next, ↓keeps_ctxState, ↓keeps_updCtx, h]

theorem keeps_execHoldExpiry (ctx : Fin 128) (s : State) {z : State} (h : Keeps z s) : ResKeeps z (execHoldExpiry ctx s) := by
  unfold execHoldExpiry
  simp (maxDischargeDepth := 40) only [implies_true, ↓keeps_refl, ↓keeps_ite, ↓keeps_foldl, ↓keeps_mk, ↓ramKeeps_refl, ↓safeKeeps_refl, ↓safeKeeps_of_eq, ↓ramKeeps_of_eq, ↓resKeeps_ite, ↓resKeeps_next, ↓keeps_ctxState, ↓keeps_driveOutputs, ↓keeps_enterLost, ↓keeps_updCtx, h]

theorem keeps_markBound (s : State) {z : State} (h : Keeps z s) : Keeps z (markBound s) := by
  unfold markBound
  simp (maxDischargeDepth := 40) only [implies_true, ↓keeps_refl, ↓keeps_ite, ↓keeps_foldl, ↓keeps_mk, ↓ramKeeps_refl, ↓safeKeeps_refl, ↓safeKeeps_of_eq, ↓ramKeeps_of_eq, h]

theorem keeps_acceptCoef (n idx : Nat) (v : Int) (sh : Nat) (s : State) {z : State} (h : Keeps z s) : Keeps z (acceptCoef n idx v sh s) := by
  unfold acceptCoef
  simp (maxDischargeDepth := 40) only [implies_true, ↓keeps_refl, ↓keeps_ite, ↓keeps_foldl, ↓keeps_mk, ↓ramKeeps_refl, ↓safeKeeps_refl, ↓safeKeeps_of_eq, ↓ramKeeps_of_eq, ↓keeps_putCoef, ↓keeps_setCfg, ↓keeps_updCtx, h]

theorem keeps_writeGated (n : Nat) (s : State) {z : State} (h : Keeps z s) : Keeps z (writeGated n s) := by
  unfold writeGated
  simp (maxDischargeDepth := 40) only [implies_true, ↓keeps_refl, ↓keeps_ite, ↓keeps_foldl, ↓keeps_mk, ↓ramKeeps_refl, ↓safeKeeps_refl, ↓safeKeeps_of_eq, ↓ramKeeps_of_eq, ↓keeps_acceptCoef, h]

theorem keeps_bodyLoopDefine (r : Req) (s : State) {z : State} (h : Keeps z s) : AnsKeeps z (bodyLoopDefine r s) := by
  unfold bodyLoopDefine
  simp (maxDischargeDepth := 40) only [implies_true, ↓keeps_refl, ↓keeps_ite, ↓keeps_foldl, ↓keeps_mk, ↓ramKeeps_refl, ↓safeKeeps_refl, ↓safeKeeps_of_eq, ↓ramKeeps_of_eq, ↓ansKeeps_ite, ↓ansKeeps_done, ↓ansKeeps_later, ↓keeps_no, ↓keeps_okay, ↓keeps_give, ↓keeps_ctxState, ↓keeps_markBound, ↓keeps_setCfg, ↓keeps_updCtx, ↓keeps_updateGates, ↓keeps_writeGated, h]

theorem keeps_execLoopDefine (r : Req) (s : State) {z : State} (h : Keeps z s) : ResKeeps z (execLoopDefine r s) :=
  keeps_mbx _ _ _ _ _ h (keeps_bodyLoopDefine r s h)

theorem keeps_bodyLoopCoefWrite (r : Req) (s : State) {z : State} (h : Keeps z s) : AnsKeeps z (bodyLoopCoefWrite r s) := by
  unfold bodyLoopCoefWrite
  simp (maxDischargeDepth := 40) only [implies_true, ↓keeps_refl, ↓keeps_ite, ↓keeps_foldl, ↓keeps_mk, ↓ramKeeps_refl, ↓safeKeeps_refl, ↓safeKeeps_of_eq, ↓ramKeeps_of_eq, ↓ansKeeps_ite, ↓ansKeeps_done, ↓ansKeeps_later, ↓keeps_no, ↓keeps_okay, ↓keeps_give, ↓keeps_acceptCoef, h]

theorem keeps_execLoopCoefWrite (r : Req) (s : State) {z : State} (h : Keeps z s) : ResKeeps z (execLoopCoefWrite r s) :=
  keeps_mbx _ _ _ _ _ h (keeps_bodyLoopCoefWrite r s h)

theorem keeps_bodyLoopControl (r : Req) (s : State) {z : State} (h : Keeps z s) : AnsKeeps z (bodyLoopControl r s) := by
  unfold bodyLoopControl
  simp (maxDischargeDepth := 40) only [implies_true, ↓keeps_refl, ↓keeps_ite, ↓keeps_foldl, ↓keeps_mk, ↓ramKeeps_refl, ↓safeKeeps_refl, ↓safeKeeps_of_eq, ↓ramKeeps_of_eq, ↓ansKeeps_ite, ↓ansKeeps_done, ↓ansKeeps_later, ↓keeps_no, ↓keeps_okay, ↓keeps_give, ↓keeps_disableCtx, ↓keeps_driveOutputs, ↓keeps_enableCtx, ↓keeps_updCtx, h]

theorem keeps_execLoopControl (r : Req) (s : State) {z : State} (h : Keeps z s) : ResKeeps z (execLoopControl r s) :=
  keeps_mbx _ _ _ _ _ h (keeps_bodyLoopControl r s h)

theorem keeps_bodyLoopStatus (r : Req) (s : State) {z : State} (h : Keeps z s) : AnsKeeps z (bodyLoopStatus r s) := by
  unfold bodyLoopStatus
  simp (maxDischargeDepth := 40) only [implies_true, ↓keeps_refl, ↓keeps_ite, ↓keeps_foldl, ↓keeps_mk, ↓ramKeeps_refl, ↓safeKeeps_refl, ↓safeKeeps_of_eq, ↓ramKeeps_of_eq, ↓ansKeeps_ite, ↓ansKeeps_done, ↓ansKeeps_later, ↓keeps_no, ↓keeps_okay, ↓keeps_give, ↓keeps_updCtx, h]

theorem keeps_execLoopStatus (r : Req) (s : State) {z : State} (h : Keeps z s) : ResKeeps z (execLoopStatus r s) :=
  keeps_mbx _ _ _ _ _ h (keeps_bodyLoopStatus r s h)

theorem keeps_bodyTraceArm (r : Req) (s : State) {z : State} (h : Keeps z s) : AnsKeeps z (bodyTraceArm r s) := by
  unfold bodyTraceArm
  simp (maxDischargeDepth := 40) only [implies_true, ↓keeps_refl, ↓keeps_ite, ↓keeps_foldl, ↓keeps_mk, ↓ramKeeps_refl, ↓safeKeeps_refl, ↓safeKeeps_of_eq, ↓ramKeeps_of_eq, ↓ansKeeps_ite, ↓ansKeeps_done, ↓ansKeeps_later, ↓keeps_no, ↓keeps_okay, ↓keeps_give, ↓keeps_event, ↓keeps_trace, ↓keeps_traceDone, h]

theorem keeps_execTraceArm (r : Req) (s : State) {z : State} (h : Keeps z s) : ResKeeps z (execTraceArm r s) :=
  keeps_mbx _ _ _ _ _ h (keeps_bodyTraceArm r s h)

theorem keeps_bodyTraceRead (r : Req) (s : State) {z : State} (h : Keeps z s) : AnsKeeps z (bodyTraceRead r s) := by
  unfold bodyTraceRead
  simp (maxDischargeDepth := 40) only [implies_true, ↓keeps_refl, ↓keeps_ite, ↓keeps_foldl, ↓keeps_mk, ↓ramKeeps_refl, ↓safeKeeps_refl, ↓safeKeeps_of_eq, ↓ramKeeps_of_eq, ↓ansKeeps_ite, ↓ansKeeps_done, ↓ansKeeps_later, ↓keeps_no, ↓keeps_okay, ↓keeps_give, h]

theorem keeps_execTraceRead (r : Req) (s : State) {z : State} (h : Keeps z s) : ResKeeps z (execTraceRead r s) :=
  keeps_mbx _ _ _ _ _ h (keeps_bodyTraceRead r s h)

end Sys2Proof.Machine
end

