-- ==== Sys2Proof/Laws/KeepSafety.lean ====
section
/-! SUPPORT. Every operation and meaning of Machine/Safety.lean keeps what `Keeps` names. -/

set_option linter.unusedSimpArgs false

namespace Sys2Proof.Machine

theorem keeps_updGlove (n : Nat) (f : Glove → Glove) (s : State) {z : State} (h : Keeps z s) : Keeps z (updGlove n f s) := by
  unfold updGlove
  simp (maxDischargeDepth := 40) only [implies_true, ↓keeps_refl, ↓keeps_ite, ↓keeps_foldl, ↓keeps_mk, ↓ramKeeps_refl, ↓safeKeeps_refl, ↓safeKeeps_of_eq, ↓ramKeeps_of_eq, h]

theorem keeps_updSafe (f : Safe → Safe) (s : State) {z : State} (h : Keeps z s) (hf : SafeKeeps s.safe (f s.safe)) : Keeps z (updSafe f s) :=
  keeps_trans h ⟨rfl, rfl, rfl, rfl, rfl, ramKeeps_refl _, hf⟩


theorem keeps_tripGroup (n cause : Nat) (s : State) {z : State} (h : Keeps z s) : Keeps z (tripGroup n cause s) := by
  unfold tripGroup
  simp (maxDischargeDepth := 40) only [implies_true, ↓keeps_refl, ↓keeps_ite, ↓keeps_foldl, ↓keeps_mk, ↓ramKeeps_refl, ↓safeKeeps_refl, ↓safeKeeps_of_eq, ↓ramKeeps_of_eq, ↓keeps_driveOutputs, ↓keeps_event, ↓keeps_updSafe, h]

theorem keeps_outputFault (n bitNo cause : Nat) (s : State) {z : State} (h : Keeps z s) : Keeps z (outputFault n bitNo cause s) := by
  unfold outputFault
  simp (maxDischargeDepth := 40) only [implies_true, ↓keeps_refl, ↓keeps_ite, ↓keeps_foldl, ↓keeps_mk, ↓ramKeeps_refl, ↓safeKeeps_refl, ↓safeKeeps_of_eq, ↓ramKeeps_of_eq, ↓keeps_latchCause, ↓keeps_tripGroup, h]

theorem keeps_gloveFail (n window : Nat) (s : State) {z : State} (h : Keeps z s) : Keeps z (gloveFail n window s) := by
  unfold gloveFail
  simp (maxDischargeDepth := 40) only [implies_true, ↓keeps_refl, ↓keeps_ite, ↓keeps_foldl, ↓keeps_mk, ↓ramKeeps_refl, ↓safeKeeps_refl, ↓safeKeeps_of_eq, ↓ramKeeps_of_eq, ↓keeps_event, ↓keeps_outputFault, ↓keeps_updGlove, ↓keeps_updSafe, h]

theorem keeps_beginPulse (n : Nat) (at_ : Option Nat) (s : State) {z : State} (h : Keeps z s) : Keeps z (beginPulse n at_ s) := by
  cases at_ with
  | none => exact h
  | some t => exact keeps_ite (keeps_updGlove _ _ s h) h

theorem keeps_execGlovePulseStart (out : Fin 16) (s : State) {z : State} (h : Keeps z s) : ResKeeps z (execGlovePulseStart out s) := by
  exact keeps_beginPulse _ _ s h

theorem keeps_execGloveOffWindowEnd (out : Fin 16) (seen : SeenLevels) (s : State) {z : State} (h : Keeps z s) : ResKeeps z (execGloveOffWindowEnd out seen s) := by
  unfold execGloveOffWindowEnd
  simp (maxDischargeDepth := 40) only [implies_true, ↓keeps_refl, ↓keeps_ite, ↓keeps_foldl, ↓keeps_mk, ↓ramKeeps_refl, ↓safeKeeps_refl, ↓safeKeeps_of_eq, ↓ramKeeps_of_eq, ↓resKeeps_ite, ↓resKeeps_next, ↓keeps_gloveFail, ↓keeps_gloveSettle, ↓keeps_updGlove, h]

theorem keeps_execGlovePulseEnd (out : Fin 16) (s : State) {z : State} (h : Keeps z s) : ResKeeps z (execGlovePulseEnd out s) := by
  unfold execGlovePulseEnd
  simp (maxDischargeDepth := 40) only [implies_true, ↓keeps_refl, ↓keeps_ite, ↓keeps_foldl, ↓keeps_mk, ↓ramKeeps_refl, ↓safeKeeps_refl, ↓safeKeeps_of_eq, ↓ramKeeps_of_eq, ↓resKeeps_ite, ↓resKeeps_next, ↓keeps_updGlove, h]

theorem keeps_execGloveReturnWindowEnd (out : Fin 16) (high : Bool) (s : State) {z : State} (h : Keeps z s) : ResKeeps z (execGloveReturnWindowEnd out high s) := by
  unfold execGloveReturnWindowEnd
  simp (maxDischargeDepth := 40) only [implies_true, ↓keeps_refl, ↓keeps_ite, ↓keeps_foldl, ↓keeps_mk, ↓ramKeeps_refl, ↓safeKeeps_refl, ↓safeKeeps_of_eq, ↓ramKeeps_of_eq, ↓resKeeps_ite, ↓resKeeps_next, ↓keeps_gloveFail, ↓keeps_gloveSettle, ↓keeps_updGlove, h]

theorem keeps_execStaticReadbackMismatch (out : Fin 16) (high : Bool) (s : State) {z : State} (h : Keeps z s) : ResKeeps z (execStaticReadbackMismatch out high s) := by
  unfold execStaticReadbackMismatch
  simp (maxDischargeDepth := 40) only [implies_true, ↓keeps_refl, ↓keeps_ite, ↓keeps_foldl, ↓keeps_mk, ↓ramKeeps_refl, ↓safeKeeps_refl, ↓safeKeeps_of_eq, ↓ramKeeps_of_eq, ↓resKeeps_ite, ↓resKeeps_next, ↓keeps_event, ↓keeps_outputFault, ↓keeps_updSafe, h]

theorem keeps_siAlarm (n : Nat) (s : State) {z : State} (h : Keeps z s) : Keeps z (siAlarm n s) := by
  unfold siAlarm
  simp (maxDischargeDepth := 40) only [implies_true, ↓keeps_refl, ↓keeps_ite, ↓keeps_foldl, ↓keeps_mk, ↓ramKeeps_refl, ↓safeKeeps_refl, ↓safeKeeps_of_eq, ↓ramKeeps_of_eq, ↓keeps_clearAlarm, ↓keeps_raiseAlarm, h]

theorem keeps_setPair (n st : Nat) (s : State) {z : State} (h : Keeps z s) : Keeps z (setPair n st s) := by
  unfold setPair
  simp (maxDischargeDepth := 40) only [implies_true, ↓keeps_refl, ↓keeps_ite, ↓keeps_foldl, ↓keeps_mk, ↓ramKeeps_refl, ↓safeKeeps_refl, ↓safeKeeps_of_eq, ↓ramKeeps_of_eq, ↓keeps_event, ↓keeps_flrPairs, ↓keeps_latchCause, ↓keeps_siAlarm, ↓keeps_updSafe, h]

theorem keeps_takePair (n : Nat) (s : State) {z : State} (h : Keeps z s) : Keeps z (takePair n s) := by
  unfold takePair
  simp (maxDischargeDepth := 40) only [implies_true, ↓keeps_refl, ↓keeps_ite, ↓keeps_foldl, ↓keeps_mk, ↓ramKeeps_refl, ↓safeKeeps_refl, ↓safeKeeps_of_eq, ↓ramKeeps_of_eq, ↓keeps_flrPairs, ↓keeps_setPair, h]

theorem keeps_takePairs (s : State) {z : State} (h : Keeps z s) : Keeps z (takePairs s) := by
  unfold takePairs
  simp (maxDischargeDepth := 40) only [implies_true, ↓keeps_refl, ↓keeps_ite, ↓keeps_foldl, ↓keeps_mk, ↓ramKeeps_refl, ↓safeKeeps_refl, ↓safeKeeps_of_eq, ↓ramKeeps_of_eq, ↓keeps_takePair, h]

theorem keeps_execSiChannelChange (ch : Fin 16) (high : Bool) (s : State) {z : State} (h : Keeps z s) : ResKeeps z (execSiChannelChange ch high s) := by
  unfold execSiChannelChange
  simp (maxDischargeDepth := 40) only [implies_true, ↓keeps_refl, ↓keeps_ite, ↓keeps_foldl, ↓keeps_mk, ↓ramKeeps_refl, ↓safeKeeps_refl, ↓safeKeeps_of_eq, ↓ramKeeps_of_eq, ↓resKeeps_ite, ↓resKeeps_next, ↓keeps_setPair, ↓keeps_updSafe, h]

theorem keeps_execSiDiscrepancy (pair : Fin 8) (s : State) {z : State} (h : Keeps z s) : ResKeeps z (execSiDiscrepancy pair s) := by
  unfold execSiDiscrepancy
  simp (maxDischargeDepth := 40) only [implies_true, ↓keeps_refl, ↓keeps_ite, ↓keeps_foldl, ↓keeps_mk, ↓ramKeeps_refl, ↓safeKeeps_refl, ↓safeKeeps_of_eq, ↓ramKeeps_of_eq, ↓resKeeps_ite, ↓resKeeps_next, ↓keeps_setPair, h]

theorem keeps_execClockFault (domain : Fin 17) (inRange : Bool) (s : State) {z : State} (h : Keeps z s) : ResKeeps z (execClockFault domain inRange s) := by
  unfold execClockFault
  simp (maxDischargeDepth := 40) only [implies_true, ↓keeps_refl, ↓keeps_ite, ↓keeps_foldl, ↓keeps_mk, ↓ramKeeps_refl, ↓safeKeeps_refl, ↓safeKeeps_of_eq, ↓ramKeeps_of_eq, ↓resKeeps_ite, ↓resKeeps_next, ↓keeps_latchCause, ↓keeps_updSafe, h]

theorem keeps_execSupplyFault (rail : Fin 9) (level : RailLevel) (s : State) {z : State} (h : Keeps z s) : ResKeeps z (execSupplyFault rail level s) := by
  unfold execSupplyFault
  dsimp only
  (repeat' split) <;> simp (maxDischargeDepth := 40) only [implies_true, ↓keeps_refl, ↓keeps_ite, ↓keeps_foldl, ↓keeps_mk, ↓ramKeeps_refl, ↓safeKeeps_refl, ↓safeKeeps_of_eq, ↓ramKeeps_of_eq, ↓resKeeps_ite, ↓resKeeps_next, ↓keeps_aoSupply, ↓keeps_latchCause, ↓keeps_updSafe, h]

theorem keeps_execOvertemp (celsius : Int) (s : State) {z : State} (h : Keeps z s) : ResKeeps z (execOvertemp celsius s) := by
  unfold execOvertemp
  simp (maxDischargeDepth := 40) only [implies_true, ↓keeps_refl, ↓keeps_ite, ↓keeps_foldl, ↓keeps_mk, ↓ramKeeps_refl, ↓safeKeeps_refl, ↓safeKeeps_of_eq, ↓ramKeeps_of_eq, ↓resKeeps_ite, ↓resKeeps_next, ↓keeps_latchCause, ↓keeps_updSafe, h]

theorem keeps_execScDisagree (agree : Bool) (s : State) {z : State} (h : Keeps z s) : ResKeeps z (execScDisagree agree s) := by
  unfold execScDisagree
  simp (maxDischargeDepth := 40) only [implies_true, ↓keeps_refl, ↓keeps_ite, ↓keeps_foldl, ↓keeps_mk, ↓ramKeeps_refl, ↓safeKeeps_refl, ↓safeKeeps_of_eq, ↓ramKeeps_of_eq, ↓resKeeps_ite, ↓resKeeps_next, ↓keeps_latchCause, ↓keeps_updSafe, h]

theorem keeps_execFaultReactionCounter (path : Fin 4) (s : State) {z : State} (h : Keeps z s) :
    ResKeeps z (execFaultReactionCounter path s) := by
  unfold execFaultReactionCounter
  generalize hs : updSafe _ s = s1
  have h1 : Keeps z s1 := by rw [← hs]; exact keeps_updSafe _ s h (safeKeeps_of_eq rfl rfl)
  have hz : ∀ m, s1.safe.causes ≠ 0 → s1.safe.outs = 0 → s.safe.outs &&& m = 0 := by
    intro m _ ho
    have ho' : s.safe.outs = 0 := by rw [← hs] at ho; exact ho
    rw [ho']
    exact BitVec.zero_and
  exact resKeeps_ite h (resKeeps_next (keeps_ite (keeps_setOuts _ _ h1 (hz _)) (keeps_ite
    (keeps_updSafe _ _ (keeps_setOuts _ _ h1 (hz _)) (safeKeeps_of_eq rfl rfl))
    (keeps_ite (keeps_ite h (keeps_ite h1 (keeps_latchCause _ _ h1))) (keeps_ite h (keeps_failSilent _ _ h1))))))


theorem keeps_execSafeResetNFall (s : State) {z : State} (h : Keeps z s) : ResKeeps z (execSafeResetNFall s) := by
  unfold execSafeResetNFall
  simp (maxDischargeDepth := 40) only [implies_true, ↓keeps_refl, ↓keeps_ite, ↓keeps_foldl, ↓keeps_mk, ↓ramKeeps_refl, ↓safeKeeps_refl, ↓safeKeeps_of_eq, ↓ramKeeps_of_eq, ↓resKeeps_ite, ↓resKeeps_next, ↓keeps_updSafe, h]

theorem keeps_execResetStuck (s : State) {z : State} (h : Keeps z s) : ResKeeps z (execResetStuck s) := by
  unfold execResetStuck
  simp (maxDischargeDepth := 40) only [implies_true, ↓keeps_refl, ↓keeps_ite, ↓keeps_foldl, ↓keeps_mk, ↓ramKeeps_refl, ↓safeKeeps_refl, ↓safeKeeps_of_eq, ↓ramKeeps_of_eq, ↓resKeeps_ite, ↓resKeeps_next, ↓keeps_event, ↓keeps_raiseAlarm, ↓keeps_updSafe, h]

theorem keeps_execStrapSample (pins : BitVec 12) (s : State) {z : State} (h : Keeps z s) : ResKeeps z (execStrapSample pins s) := by
  unfold execStrapSample
  simp (maxDischargeDepth := 40) only [implies_true, ↓keeps_refl, ↓keeps_ite, ↓keeps_foldl, ↓keeps_mk, ↓ramKeeps_refl, ↓safeKeeps_refl, ↓safeKeeps_of_eq, ↓ramKeeps_of_eq, ↓resKeeps_ite, ↓resKeeps_next, ↓keeps_event, ↓keeps_raiseAlarm, h]

theorem keeps_logEntry (command field : Nat) (old new : Nat) (path : Nat) (ip : Word) (s : State) {z : State} (h : Keeps z s) : Keeps z (logEntry command field old new path ip s) := by
  unfold logEntry
  simp (maxDischargeDepth := 40) only [implies_true, ↓keeps_refl, ↓keeps_ite, ↓keeps_foldl, ↓keeps_mk, ↓ramKeeps_refl, ↓safeKeeps_refl, ↓safeKeeps_of_eq, ↓ramKeeps_of_eq, h]

theorem keeps_refuseWrite (command : Nat) (r : Req) (st : Status) (s : State) {z : State} (h : Keeps z s) : AnsKeeps z (refuseWrite command r st s) := by
  unfold refuseWrite
  simp (maxDischargeDepth := 40) only [implies_true, ↓keeps_refl, ↓keeps_ite, ↓keeps_foldl, ↓keeps_mk, ↓ramKeeps_refl, ↓safeKeeps_refl, ↓safeKeeps_of_eq, ↓ramKeeps_of_eq, ↓ansKeeps_ite, ↓ansKeeps_done, ↓ansKeeps_later, ↓keeps_no, ↓keeps_okay, ↓keeps_give, ↓keeps_logEntry, h]

theorem keeps_logChanges (command path : Nat) (ip : Word) (ch : List (Nat × Nat × Nat)) (s : State) {z : State} (h : Keeps z s) : Keeps z (logChanges command path ip ch s) := by
  unfold logChanges
  simp (maxDischargeDepth := 40) only [implies_true, ↓keeps_refl, ↓keeps_ite, ↓keeps_foldl, ↓keeps_mk, ↓ramKeeps_refl, ↓safeKeeps_refl, ↓safeKeeps_of_eq, ↓ramKeeps_of_eq, ↓keeps_event, ↓keeps_logEntry, h]

theorem keeps_applySafe (p : List Byte) (s : State) {z : State} (h : Keeps z s) : Keeps z (applySafe p s) := by
  unfold applySafe
  simp (maxDischargeDepth := 40) only [implies_true, ↓keeps_refl, ↓keeps_ite, ↓keeps_foldl, ↓keeps_mk, ↓ramKeeps_refl, ↓safeKeeps_refl, ↓safeKeeps_of_eq, ↓ramKeeps_of_eq, ↓keeps_driveOutputs, ↓keeps_gloveSettle, ↓keeps_setCfg, ↓keeps_takePairs, ↓keeps_updSafe, h]

theorem keeps_bodySafeConfig (r : Req) (s : State) {z : State} (h : Keeps z s) : AnsKeeps z (bodySafeConfig r s) := by
  unfold bodySafeConfig
  dsimp only
  (repeat' split) <;> simp (maxDischargeDepth := 40) only [implies_true, ↓keeps_refl, ↓keeps_ite, ↓keeps_foldl, ↓keeps_mk, ↓ramKeeps_refl, ↓safeKeeps_refl, ↓safeKeeps_of_eq, ↓ramKeeps_of_eq, ↓ansKeeps_ite, ↓ansKeeps_done, ↓ansKeeps_later, ↓keeps_no, ↓keeps_okay, ↓keeps_give, ↓keeps_applySafe, ↓keeps_logChanges, ↓keeps_refuseWrite, h]

theorem keeps_execSafeConfig (r : Req) (s : State) {z : State} (h : Keeps z s) : ResKeeps z (execSafeConfig r s) :=
  keeps_mbx _ _ _ _ _ h (keeps_bodySafeConfig r s h)

theorem keeps_bodySafeStatus (u1 : Req) (s : State) {z : State} (h : Keeps z s) : AnsKeeps z (bodySafeStatus u1 s) := by
  unfold bodySafeStatus
  simp (maxDischargeDepth := 40) only [implies_true, ↓keeps_refl, ↓keeps_ite, ↓keeps_foldl, ↓keeps_mk, ↓ramKeeps_refl, ↓safeKeeps_refl, ↓safeKeeps_of_eq, ↓ramKeeps_of_eq, ↓ansKeeps_ite, ↓ansKeeps_done, ↓ansKeeps_later, ↓keeps_no, ↓keeps_okay, ↓keeps_give, h]

theorem keeps_execSafeStatus (r : Req) (s : State) {z : State} (h : Keeps z s) : ResKeeps z (execSafeStatus r s) :=
  keeps_mbx _ _ _ _ _ h (keeps_bodySafeStatus r s h)

theorem keeps_unlockAnswer (s : State) {z : State} (h : Keeps z s) : AnsKeeps z (unlockAnswer s) := by
  unfold unlockAnswer
  simp (maxDischargeDepth := 40) only [implies_true, ↓keeps_refl, ↓keeps_ite, ↓keeps_foldl, ↓keeps_mk, ↓ramKeeps_refl, ↓safeKeeps_refl, ↓safeKeeps_of_eq, ↓ramKeeps_of_eq, ↓ansKeeps_ite, ↓ansKeeps_done, ↓ansKeeps_later, ↓keeps_no, ↓keeps_okay, ↓keeps_give, h]

theorem keeps_openWindow (r : Req) (s : State) {z : State} (h : Keeps z s) : Keeps z (openWindow r s) := by
  unfold openWindow
  simp (maxDischargeDepth := 40) only [implies_true, ↓keeps_refl, ↓keeps_ite, ↓keeps_foldl, ↓keeps_mk, ↓ramKeeps_refl, ↓safeKeeps_refl, ↓safeKeeps_of_eq, ↓ramKeeps_of_eq, ↓keeps_event, ↓keeps_logEntry, ↓keeps_updSafe, h]

theorem keeps_wrongPass (r : Req) (s : State) {z : State} (h : Keeps z s) : Keeps z (wrongPass r s) := by
  unfold wrongPass
  simp (maxDischargeDepth := 40) only [implies_true, ↓keeps_refl, ↓keeps_ite, ↓keeps_foldl, ↓keeps_mk, ↓ramKeeps_refl, ↓safeKeeps_refl, ↓safeKeeps_of_eq, ↓ramKeeps_of_eq, ↓keeps_event, h]

theorem keeps_bodyUnlock (r : Req) (s : State) {z : State} (h : Keeps z s) : AnsKeeps z (bodyUnlock r s) := by
  unfold bodyUnlock
  dsimp only
  (repeat' split) <;> simp (maxDischargeDepth := 40) only [implies_true, ↓keeps_refl, ↓keeps_ite, ↓keeps_foldl, ↓keeps_mk, ↓ramKeeps_refl, ↓safeKeeps_refl, ↓safeKeeps_of_eq, ↓ramKeeps_of_eq, ↓ansKeeps_ite, ↓ansKeeps_done, ↓ansKeeps_later, ↓keeps_no, ↓keeps_okay, ↓keeps_give, ↓keeps_logEntry, ↓keeps_openWindow, ↓keeps_refuseWrite, ↓keeps_unlockAnswer, ↓keeps_updSafe, ↓keeps_wrongPass, h]

theorem keeps_execUnlock (r : Req) (s : State) {z : State} (h : Keeps z s) : ResKeeps z (execUnlock r s) :=
  keeps_mbx _ _ _ _ _ h (keeps_bodyUnlock r s h)

theorem keeps_execUnlockExpiry (s : State) {z : State} (h : Keeps z s) : ResKeeps z (execUnlockExpiry s) := by
  unfold execUnlockExpiry
  simp (maxDischargeDepth := 40) only [implies_true, ↓keeps_refl, ↓keeps_ite, ↓keeps_foldl, ↓keeps_mk, ↓ramKeeps_refl, ↓safeKeeps_refl, ↓safeKeeps_of_eq, ↓ramKeeps_of_eq, ↓resKeeps_ite, ↓resKeeps_next, ↓keeps_logEntry, ↓keeps_updSafe, h]

theorem keeps_execLockoutEnd (s : State) {z : State} (h : Keeps z s) : ResKeeps z (execLockoutEnd s) := by
  unfold execLockoutEnd
  simp (maxDischargeDepth := 40) only [implies_true, ↓keeps_refl, ↓keeps_ite, ↓keeps_foldl, ↓keeps_mk, ↓ramKeeps_refl, ↓safeKeeps_refl, ↓safeKeeps_of_eq, ↓ramKeeps_of_eq, ↓resKeeps_ite, ↓resKeeps_next, h]

theorem keeps_bodyChangelogRead (r : Req) (s : State) {z : State} (h : Keeps z s) : AnsKeeps z (bodyChangelogRead r s) := by
  unfold bodyChangelogRead
  dsimp only
  (repeat' split) <;> simp (maxDischargeDepth := 40) only [implies_true, ↓keeps_refl, ↓keeps_ite, ↓keeps_foldl, ↓keeps_mk, ↓ramKeeps_refl, ↓safeKeeps_refl, ↓safeKeeps_of_eq, ↓ramKeeps_of_eq, ↓ansKeeps_ite, ↓ansKeeps_done, ↓ansKeeps_later, ↓keeps_no, ↓keeps_okay, ↓keeps_give, h]

theorem keeps_execChangelogRead (r : Req) (s : State) {z : State} (h : Keeps z s) : ResKeeps z (execChangelogRead r s) :=
  keeps_mbx _ _ _ _ _ h (keeps_bodyChangelogRead r s h)

theorem keeps_bodySafeRequest (u1 : Req) (s : State) {z : State} (h : Keeps z s) : AnsKeeps z (bodySafeRequest u1 s) := by
  unfold bodySafeRequest
  simp (maxDischargeDepth := 40) only [implies_true, ↓keeps_refl, ↓keeps_ite, ↓keeps_foldl, ↓keeps_mk, ↓ramKeeps_refl, ↓safeKeeps_refl, ↓safeKeeps_of_eq, ↓ramKeeps_of_eq, ↓ansKeeps_ite, ↓ansKeeps_done, ↓ansKeeps_later, ↓keeps_no, ↓keeps_okay, ↓keeps_give, ↓keeps_latchCause, h]

theorem keeps_execSafeRequest (r : Req) (s : State) {z : State} (h : Keeps z s) : ResKeeps z (execSafeRequest r s) :=
  keeps_mbx _ _ _ _ _ h (keeps_bodySafeRequest r s h)

theorem keeps_startTest (code : Nat) (s : State) {z : State} (h : Keeps z s) : Keeps z (startTest code s) := by
  unfold startTest
  simp (maxDischargeDepth := 40) only [implies_true, ↓keeps_refl, ↓keeps_ite, ↓keeps_foldl, ↓keeps_mk, ↓ramKeeps_refl, ↓safeKeeps_refl, ↓safeKeeps_of_eq, ↓ramKeeps_of_eq, ↓keeps_emit, ↓keeps_setLife, h]

end Sys2Proof.Machine
end

