-- ==== Sys2Proof/Laws/KeepArchive.lean ====
section
/-! SUPPORT. Every operation and meaning of Machine/Archive.lean keeps what `Keeps` names. -/

set_option linter.unusedSimpArgs false

namespace Sys2Proof.Machine

theorem keeps_bodyRecordCursorSet (r : Req) (s : State) {z : State} (h : Keeps z s) : AnsKeeps z (bodyRecordCursorSet r s) := by
  unfold bodyRecordCursorSet
  simp (maxDischargeDepth := 40) only [implies_true, ↓keeps_refl, ↓keeps_ite, ↓keeps_foldl, ↓keeps_mk, ↓ramKeeps_refl, ↓safeKeeps_refl, ↓safeKeeps_of_eq, ↓ramKeeps_of_eq, ↓ansKeeps_ite, ↓ansKeeps_done, ↓ansKeeps_later, ↓keeps_no, ↓keeps_okay, ↓keeps_give, h]

theorem keeps_execRecordCursorSet (r : Req) (s : State) {z : State} (h : Keeps z s) : ResKeeps z (execRecordCursorSet r s) :=
  keeps_mbx _ _ _ _ _ h (keeps_bodyRecordCursorSet r s h)

theorem keeps_bodyRecordWindowRead (r : Req) (s : State) {z : State} (h : Keeps z s) : AnsKeeps z (bodyRecordWindowRead r s) := by
  unfold bodyRecordWindowRead
  dsimp only
  (repeat' split) <;> simp (maxDischargeDepth := 40) only [implies_true, ↓keeps_refl, ↓keeps_ite, ↓keeps_foldl, ↓keeps_mk, ↓ramKeeps_refl, ↓safeKeeps_refl, ↓safeKeeps_of_eq, ↓ramKeeps_of_eq, ↓ansKeeps_ite, ↓ansKeeps_done, ↓ansKeeps_later, ↓keeps_no, ↓keeps_okay, ↓keeps_give, ↓keeps_stepFree, h]

theorem keeps_execRecordWindowRead (r : Req) (s : State) {z : State} (h : Keeps z s) : ResKeeps z (execRecordWindowRead r s) :=
  keeps_mbx _ _ _ _ _ h (keeps_bodyRecordWindowRead r s h)

theorem keeps_snapshotHistos (more : List Nat) (s : State) {z : State} (h : Keeps z s) : Keeps z (snapshotHistos more s) := by
  unfold snapshotHistos
  simp (maxDischargeDepth := 40) only [implies_true, ↓keeps_refl, ↓keeps_ite, ↓keeps_foldl, ↓keeps_mk, ↓ramKeeps_refl, ↓safeKeeps_refl, ↓safeKeeps_of_eq, ↓ramKeeps_of_eq, ↓keeps_stage, h]

theorem keeps_bodyHistoRead (r : Req) (s : State) {z : State} (h : Keeps z s) : AnsKeeps z (bodyHistoRead r s) := by
  unfold bodyHistoRead
  simp (maxDischargeDepth := 40) only [implies_true, ↓keeps_refl, ↓keeps_ite, ↓keeps_foldl, ↓keeps_mk, ↓ramKeeps_refl, ↓safeKeeps_refl, ↓safeKeeps_of_eq, ↓ramKeeps_of_eq, ↓ansKeeps_ite, ↓ansKeeps_done, ↓ansKeeps_later, ↓keeps_no, ↓keeps_okay, ↓keeps_give, ↓keeps_snapshotHistos, h]

theorem keeps_execHistoRead (r : Req) (s : State) {z : State} (h : Keeps z s) : ResKeeps z (execHistoRead r s) :=
  keeps_mbx _ _ _ _ _ h (keeps_bodyHistoRead r s h)

theorem keeps_bodyHistoConfig (r : Req) (s : State) {z : State} (h : Keeps z s) : AnsKeeps z (bodyHistoConfig r s) := by
  unfold bodyHistoConfig
  simp (maxDischargeDepth := 40) only [implies_true, ↓keeps_refl, ↓keeps_ite, ↓keeps_foldl, ↓keeps_mk, ↓ramKeeps_refl, ↓safeKeeps_refl, ↓safeKeeps_of_eq, ↓ramKeeps_of_eq, ↓ansKeeps_ite, ↓ansKeeps_done, ↓ansKeeps_later, ↓keeps_no, ↓keeps_okay, ↓keeps_give, ↓keeps_setCfg, h]

theorem keeps_execHistoConfig (r : Req) (s : State) {z : State} (h : Keeps z s) : ResKeeps z (execHistoConfig r s) :=
  keeps_mbx _ _ _ _ _ h (keeps_bodyHistoConfig r s h)

theorem keeps_histoSample (i : Image) (s : State) {z : State} (h : Keeps z s) : Keeps z (histoSample i s) := by
  unfold histoSample
  simp (maxDischargeDepth := 40) only [implies_true, ↓keeps_refl, ↓keeps_ite, ↓keeps_foldl, ↓keeps_mk, ↓ramKeeps_refl, ↓safeKeeps_refl, ↓safeKeeps_of_eq, ↓ramKeeps_of_eq, h]

theorem keeps_bodyQuotaSet (r : Req) (s : State) {z : State} (h : Keeps z s) : AnsKeeps z (bodyQuotaSet r s) := by
  unfold bodyQuotaSet
  simp (maxDischargeDepth := 40) only [implies_true, ↓keeps_refl, ↓keeps_ite, ↓keeps_foldl, ↓keeps_mk, ↓ramKeeps_refl, ↓safeKeeps_refl, ↓safeKeeps_of_eq, ↓ramKeeps_of_eq, ↓ansKeeps_ite, ↓ansKeeps_done, ↓ansKeeps_later, ↓keeps_no, ↓keeps_okay, ↓keeps_give, ↓keeps_setBucket, ↓keeps_setCfg, h]

theorem keeps_execQuotaSet (r : Req) (s : State) {z : State} (h : Keeps z s) : ResKeeps z (execQuotaSet r s) :=
  keeps_mbx _ _ _ _ _ h (keeps_bodyQuotaSet r s h)

theorem keeps_execTokenRefill (code : BitVec 16) (s : State) {z : State} (h : Keeps z s) : ResKeeps z (execTokenRefill code s) := by
  unfold execTokenRefill
  simp (maxDischargeDepth := 40) only [implies_true, ↓keeps_refl, ↓keeps_ite, ↓keeps_foldl, ↓keeps_mk, ↓ramKeeps_refl, ↓safeKeeps_refl, ↓safeKeeps_of_eq, ↓ramKeeps_of_eq, ↓resKeeps_ite, ↓resKeeps_next, ↓keeps_setBucket, ↓keeps_storeRec, h]

theorem keeps_receiveRec (s : State) (x : Word × EvRec × BitVec 16) {z : State} (h : Keeps z s) : Keeps z (receiveRec s x) := by
  unfold receiveRec
  simp (maxDischargeDepth := 40) only [implies_true, ↓keeps_refl, ↓keeps_ite, ↓keeps_foldl, ↓keeps_mk, ↓ramKeeps_refl, ↓safeKeeps_refl, ↓safeKeeps_of_eq, ↓ramKeeps_of_eq, ↓keeps_event, ↓keeps_offer, ↓keeps_setBucket, h]

theorem keeps_execRecordFrame (_src : Fin 64) (recs : List (Word × EvRec × BitVec 16)) (s : State) {z : State} (h : Keeps z s) : ResKeeps z (execRecordFrame _src recs s) := by
  unfold execRecordFrame
  simp (maxDischargeDepth := 40) only [implies_true, ↓keeps_refl, ↓keeps_ite, ↓keeps_foldl, ↓keeps_mk, ↓ramKeeps_refl, ↓safeKeeps_refl, ↓safeKeeps_of_eq, ↓ramKeeps_of_eq, ↓resKeeps_ite, ↓resKeeps_next, ↓keeps_receiveRec, h]

theorem keeps_execTraceFrame (_src : Fin 64) (_words : List Word) (s : State) {z : State} (h : Keeps z s) : ResKeeps z (execTraceFrame _src _words s) := by
  unfold execTraceFrame
  simp (maxDischargeDepth := 40) only [implies_true, ↓keeps_refl, ↓keeps_ite, ↓keeps_foldl, ↓keeps_mk, ↓ramKeeps_refl, ↓safeKeeps_refl, ↓safeKeeps_of_eq, ↓ramKeeps_of_eq, ↓resKeeps_ite, ↓resKeeps_next, h]

theorem keeps_updBlk (n : Nat) (f : Blk → Blk) (s : State) {z : State} (h : Keeps z s) : Keeps z (updBlk n f s) := by
  unfold updBlk
  simp (maxDischargeDepth := 40) only [implies_true, ↓keeps_refl, ↓keeps_ite, ↓keeps_foldl, ↓keeps_mk, ↓ramKeeps_refl, ↓safeKeeps_refl, ↓safeKeeps_of_eq, ↓ramKeeps_of_eq, h]

theorem keeps_setArch (st : Nat) (s : State) {z : State} (h : Keeps z s) : Keeps z (setArch st s) := by
  unfold setArch
  simp (maxDischargeDepth := 40) only [implies_true, ↓keeps_refl, ↓keeps_ite, ↓keeps_foldl, ↓keeps_mk, ↓ramKeeps_refl, ↓safeKeeps_refl, ↓safeKeeps_of_eq, ↓ramKeeps_of_eq, ↓keeps_event, ↓keeps_stepFree, h]

theorem keeps_checkGood (s : State) {z : State} (h : Keeps z s) : Keeps z (checkGood s) := by
  unfold checkGood
  simp (maxDischargeDepth := 40) only [implies_true, ↓keeps_refl, ↓keeps_ite, ↓keeps_foldl, ↓keeps_mk, ↓ramKeeps_refl, ↓safeKeeps_refl, ↓safeKeeps_of_eq, ↓ramKeeps_of_eq, ↓keeps_setArch, h]

theorem keeps_retire (n cause : Nat) (s : State) {z : State} (h : Keeps z s) : Keeps z (retire n cause s) := by
  unfold retire
  simp (maxDischargeDepth := 40) only [implies_true, ↓keeps_refl, ↓keeps_ite, ↓keeps_foldl, ↓keeps_mk, ↓ramKeeps_refl, ↓safeKeeps_refl, ↓safeKeeps_of_eq, ↓ramKeeps_of_eq, ↓keeps_checkGood, ↓keeps_event, ↓keeps_updBlk, h]

theorem keeps_scheduleRefresh (n : Nat) (s : State) {z : State} (h : Keeps z s) : Keeps z (scheduleRefresh n s) := by
  unfold scheduleRefresh
  dsimp only
  (repeat' split) <;> simp (maxDischargeDepth := 40) only [implies_true, ↓keeps_refl, ↓keeps_ite, ↓keeps_foldl, ↓keeps_mk, ↓ramKeeps_refl, ↓safeKeeps_refl, ↓safeKeeps_of_eq, ↓ramKeeps_of_eq, h]

theorem keeps_levelWear (s : State) {z : State} (h : Keeps z s) : Keeps z (levelWear s) := by
  unfold levelWear
  dsimp only
  (repeat' split) <;> simp (maxDischargeDepth := 40) only [implies_true, ↓keeps_refl, ↓keeps_ite, ↓keeps_foldl, ↓keeps_mk, ↓ramKeeps_refl, ↓safeKeeps_refl, ↓safeKeeps_of_eq, ↓ramKeeps_of_eq, ↓keeps_scheduleRefresh, h]

theorem keeps_reclaim (s : State) {z : State} (h : Keeps z s) : Keeps z (reclaim s) := by
  unfold reclaim
  dsimp only
  (repeat' split) <;> simp (maxDischargeDepth := 40) only [implies_true, ↓keeps_refl, ↓keeps_ite, ↓keeps_foldl, ↓keeps_mk, ↓ramKeeps_refl, ↓safeKeeps_refl, ↓safeKeeps_of_eq, ↓ramKeeps_of_eq, ↓keeps_setArch, ↓keeps_updBlk, h]

theorem keeps_stageRecords (n : Nat) (s : State) {z : State} (h : Keeps z s) : Keeps z (stageRecords n s) := by
  induction n generalizing s with
  | zero => exact h
  | succ n ih =>
    unfold stageRecords
    dsimp only
    (repeat' split) <;> first
      | exact h
      | simp (maxDischargeDepth := 40) only [↓ih, ↓keeps_ite, ↓keeps_mk, ↓keeps_event, ↓keeps_stage, ↓ramKeeps_refl, ↓safeKeeps_refl, h]


theorem keeps_startPage (s : State) {z : State} (h : Keeps z s) : Keeps z (startPage s) := by
  unfold startPage
  dsimp only
  (repeat' split) <;> simp (maxDischargeDepth := 40) only [implies_true, ↓keeps_refl, ↓keeps_ite, ↓keeps_foldl, ↓keeps_mk, ↓ramKeeps_refl, ↓safeKeeps_refl, ↓safeKeeps_of_eq, ↓ramKeeps_of_eq, ↓keeps_emit, ↓keeps_reclaim, h]

theorem keeps_archivePump (s : State) {z : State} (h : Keeps z s) : Keeps z (archivePump s) := by
  unfold archivePump
  simp (maxDischargeDepth := 40) only [implies_true, ↓keeps_refl, ↓keeps_ite, ↓keeps_foldl, ↓keeps_mk, ↓ramKeeps_refl, ↓safeKeeps_refl, ↓safeKeeps_of_eq, ↓ramKeeps_of_eq, ↓keeps_reclaim, ↓keeps_stageRecords, ↓keeps_startPage, h]

theorem keeps_mapChunk (b : Nat) (s : State) (c : Nat × List Byte) {z : State} (h : Keeps z s) : Keeps z (mapChunk b s c) := by
  unfold mapChunk
  simp (maxDischargeDepth := 40) only [implies_true, ↓keeps_refl, ↓keeps_ite, ↓keeps_foldl, ↓keeps_mk, ↓ramKeeps_refl, ↓safeKeeps_refl, ↓safeKeeps_of_eq, ↓ramKeeps_of_eq, ↓keeps_updBlk, h]

theorem keeps_eraseMoved (s : State) {z : State} (h : Keeps z s) : Keeps z (eraseMoved s) := by
  unfold eraseMoved
  simp (maxDischargeDepth := 40) only [implies_true, ↓keeps_refl, ↓keeps_ite, ↓keeps_foldl, ↓keeps_mk, ↓ramKeeps_refl, ↓safeKeeps_refl, ↓safeKeeps_of_eq, ↓ramKeeps_of_eq, h]

theorem keeps_pfailPump (s : State) {z : State} (h : Keeps z s) : Keeps z (pfailPump s) := by
  unfold pfailPump
  dsimp only
  (repeat' split) <;> simp (maxDischargeDepth := 40) only [implies_true, ↓keeps_refl, ↓keeps_ite, ↓keeps_foldl, ↓keeps_mk, ↓ramKeeps_refl, ↓safeKeeps_refl, ↓safeKeeps_of_eq, ↓ramKeeps_of_eq, ↓keeps_event, ↓keeps_startPage, h]

theorem keeps_journalPage (n : Nat) (s : State) {z : State} (h : Keeps z s) : Keeps z (journalPage n s) := by
  unfold journalPage
  simp (maxDischargeDepth := 40) only [implies_true, ↓keeps_refl, ↓keeps_ite, ↓keeps_foldl, ↓keeps_mk, ↓ramKeeps_refl, ↓safeKeeps_refl, ↓safeKeeps_of_eq, ↓ramKeeps_of_eq, ↓keeps_emit, h]

theorem keeps_execNandProgramDone (ok : Bool) (s : State) {z : State} (h : Keeps z s) : ResKeeps z (execNandProgramDone ok s) := by
  unfold execNandProgramDone
  dsimp only
  (repeat' split) <;> simp (maxDischargeDepth := 40) only [implies_true, ↓keeps_refl, ↓keeps_ite, ↓keeps_foldl, ↓keeps_mk, ↓ramKeeps_refl, ↓safeKeeps_refl, ↓safeKeeps_of_eq, ↓ramKeeps_of_eq, ↓resKeeps_ite, ↓resKeeps_next, ↓keeps_archivePump, ↓keeps_eraseMoved, ↓keeps_journalPage, ↓keeps_mapChunk, ↓keeps_pfailPump, ↓keeps_retire, ↓keeps_updBlk, h]

theorem keeps_execNandEraseDone (block : Nat) (ok : Bool) (s : State) {z : State} (h : Keeps z s) : ResKeeps z (execNandEraseDone block ok s) := by
  unfold execNandEraseDone
  simp (maxDischargeDepth := 40) only [implies_true, ↓keeps_refl, ↓keeps_ite, ↓keeps_foldl, ↓keeps_mk, ↓ramKeeps_refl, ↓safeKeeps_refl, ↓safeKeeps_of_eq, ↓ramKeeps_of_eq, ↓resKeeps_ite, ↓resKeeps_next, ↓keeps_archivePump, ↓keeps_levelWear, ↓keeps_retire, ↓keeps_updBlk, h]

theorem keeps_execArchivePatrol (block bits retries ageDays : Nat) (s : State) {z : State} (h : Keeps z s) : ResKeeps z (execArchivePatrol block bits retries ageDays s) := by
  unfold execArchivePatrol
  dsimp only
  (repeat' split) <;> simp (maxDischargeDepth := 40) only [implies_true, ↓keeps_refl, ↓keeps_ite, ↓keeps_foldl, ↓keeps_mk, ↓ramKeeps_refl, ↓safeKeeps_refl, ↓safeKeeps_of_eq, ↓ramKeeps_of_eq, ↓resKeeps_ite, ↓resKeeps_next, ↓keeps_archivePump, ↓keeps_event, ↓keeps_scheduleRefresh, ↓keeps_stepFree, ↓keeps_updBlk, h]

theorem keeps_archiveMounting (s : State) {z : State} (h : Keeps z s) : Keeps z (archiveMounting s) := by
  unfold archiveMounting
  simp (maxDischargeDepth := 40) only [implies_true, ↓keeps_refl, ↓keeps_ite, ↓keeps_foldl, ↓keeps_mk, ↓ramKeeps_refl, ↓safeKeeps_refl, ↓safeKeeps_of_eq, ↓ramKeeps_of_eq, ↓keeps_setArch, h]

theorem keeps_execArchiveMountDone (m : Mount) (s : State) {z : State} (h : Keeps z s) : ResKeeps z (execArchiveMountDone m s) := by
  unfold execArchiveMountDone
  simp (maxDischargeDepth := 40) only [implies_true, ↓keeps_refl, ↓keeps_ite, ↓keeps_foldl, ↓keeps_mk, ↓ramKeeps_refl, ↓safeKeeps_refl, ↓safeKeeps_of_eq, ↓ramKeeps_of_eq, ↓resKeeps_ite, ↓resKeeps_next, ↓keeps_archivePump, ↓keeps_checkGood, ↓keeps_event, ↓keeps_setArch, h]

theorem keeps_bodyArchiveStatus (r : Req) (s : State) {z : State} (h : Keeps z s) : AnsKeeps z (bodyArchiveStatus r s) := by
  unfold bodyArchiveStatus
  simp (maxDischargeDepth := 40) only [implies_true, ↓keeps_refl, ↓keeps_ite, ↓keeps_foldl, ↓keeps_mk, ↓ramKeeps_refl, ↓safeKeeps_refl, ↓safeKeeps_of_eq, ↓ramKeeps_of_eq, ↓ansKeeps_ite, ↓ansKeeps_done, ↓ansKeeps_later, ↓keeps_no, ↓keeps_okay, ↓keeps_give, h]

theorem keeps_execArchiveStatus (r : Req) (s : State) {z : State} (h : Keeps z s) : ResKeeps z (execArchiveStatus r s) :=
  keeps_mbx _ _ _ _ _ h (keeps_bodyArchiveStatus r s h)

theorem keeps_bodyArchiveRead (r : Req) (s : State) {z : State} (h : Keeps z s) : AnsKeeps z (bodyArchiveRead r s) := by
  unfold bodyArchiveRead
  dsimp only
  (repeat' split) <;> simp (maxDischargeDepth := 40) only [implies_true, ↓keeps_refl, ↓keeps_ite, ↓keeps_foldl, ↓keeps_mk, ↓ramKeeps_refl, ↓safeKeeps_refl, ↓safeKeeps_of_eq, ↓ramKeeps_of_eq, ↓ansKeeps_ite, ↓ansKeeps_done, ↓ansKeeps_later, ↓keeps_no, ↓keeps_okay, ↓keeps_give, ↓keeps_event, ↓keeps_scheduleRefresh, ↓keeps_stepFree, h]

theorem keeps_execArchiveRead (r : Req) (s : State) {z : State} (h : Keeps z s) : ResKeeps z (execArchiveRead r s) :=
  keeps_mbx _ _ _ _ _ h (keeps_bodyArchiveRead r s h)

theorem keeps_execHistoHourlySnapshot (s : State) {z : State} (h : Keeps z s) : ResKeeps z (execHistoHourlySnapshot s) := by
  unfold execHistoHourlySnapshot
  simp (maxDischargeDepth := 40) only [implies_true, ↓keeps_refl, ↓keeps_ite, ↓keeps_foldl, ↓keeps_mk, ↓ramKeeps_refl, ↓safeKeeps_refl, ↓safeKeeps_of_eq, ↓ramKeeps_of_eq, ↓resKeeps_ite, ↓resKeeps_next, ↓keeps_archivePump, ↓keeps_snapshotHistos, h]

theorem keeps_flushCapture (n place : Nat) (c : Capture) (s : State) {z : State} (h : Keeps z s) :
    Keeps z (flushCapture n place c s).2 := by
  induction n generalizing c s with
  | zero => exact h
  | succ n ih =>
    unfold flushCapture
    split
    · exact h
    · exact ih _ _ (keeps_mk h rfl rfl rfl (ramKeeps_refl _) (safeKeeps_refl _))


theorem keeps_setCapture (c : Capture) (s : State) {z : State} (h : Keeps z s) : Keeps z (setCapture c s) := by
  unfold setCapture
  simp (maxDischargeDepth := 40) only [implies_true, ↓keeps_refl, ↓keeps_ite, ↓keeps_foldl, ↓keeps_mk, ↓ramKeeps_refl, ↓safeKeeps_refl, ↓safeKeeps_of_eq, ↓ramKeeps_of_eq, h]

theorem keeps_captureImages (place : Nat) (is : List Image) (c : Capture) (s : State) {z : State} (h : Keeps z s) : Keeps z (captureImages place is c s) := by
  unfold captureImages
  simp (maxDischargeDepth := 40) only [implies_true, ↓keeps_refl, ↓keeps_ite, ↓keeps_foldl, ↓keeps_mk, ↓ramKeeps_refl, ↓safeKeeps_refl, ↓safeKeeps_of_eq, ↓ramKeeps_of_eq, ↓keeps_flushCapture, ↓keeps_setCapture, h]

theorem keeps_captureTrigger (t : Word) (a : Alarm) (s : State) {z : State} (h : Keeps z s) : Keeps z (captureTrigger t a s) := by
  unfold captureTrigger
  dsimp only
  (repeat' split) <;> simp (maxDischargeDepth := 40) only [implies_true, ↓keeps_refl, ↓keeps_ite, ↓keeps_foldl, ↓keeps_mk, ↓ramKeeps_refl, ↓safeKeeps_refl, ↓safeKeeps_of_eq, ↓ramKeeps_of_eq, ↓keeps_captureImages, ↓keeps_event, ↓keeps_setCapture, h]

theorem keeps_captureImage (before : List Alarm) (i : Image) (s : State) {z : State} (h : Keeps z s) : Keeps z (captureImage before i s) := by
  unfold captureImage
  dsimp only
  (repeat' split) <;> simp (maxDischargeDepth := 40) only [implies_true, ↓keeps_refl, ↓keeps_ite, ↓keeps_foldl, ↓keeps_mk, ↓ramKeeps_refl, ↓safeKeeps_refl, ↓safeKeeps_of_eq, ↓ramKeeps_of_eq, ↓keeps_captureImages, ↓keeps_captureTrigger, h]

theorem keeps_execIncidentCaptureClose (s : State) {z : State} (h : Keeps z s) : ResKeeps z (execIncidentCaptureClose s) := by
  unfold execIncidentCaptureClose
  dsimp only
  (repeat' split) <;> simp (maxDischargeDepth := 40) only [implies_true, ↓keeps_refl, ↓keeps_ite, ↓keeps_foldl, ↓keeps_mk, ↓ramKeeps_refl, ↓safeKeeps_refl, ↓safeKeeps_of_eq, ↓ramKeeps_of_eq, ↓resKeeps_ite, ↓resKeeps_next, ↓keeps_archivePump, ↓keeps_event, ↓keeps_setCapture, h]

theorem keeps_execPowerFailNFall (s : State) {z : State} (h : Keeps z s) : ResKeeps z (execPowerFailNFall s) := by
  unfold execPowerFailNFall
  simp (maxDischargeDepth := 40) only [implies_true, ↓keeps_refl, ↓keeps_ite, ↓keeps_foldl, ↓keeps_mk, ↓ramKeeps_refl, ↓safeKeeps_refl, ↓safeKeeps_of_eq, ↓ramKeeps_of_eq, ↓resKeeps_ite, ↓resKeeps_next, ↓keeps_pfailPump, h]

theorem keeps_execPowerFailNRise (s : State) {z : State} (h : Keeps z s) : ResKeeps z (execPowerFailNRise s) := by
  unfold execPowerFailNRise
  simp (maxDischargeDepth := 40) only [implies_true, ↓keeps_refl, ↓keeps_ite, ↓keeps_foldl, ↓keeps_mk, ↓ramKeeps_refl, ↓safeKeeps_refl, ↓safeKeeps_of_eq, ↓ramKeeps_of_eq, ↓resKeeps_ite, ↓resKeeps_next, h]

theorem keeps_execArchiveResume (s : State) {z : State} (h : Keeps z s) : ResKeeps z (execArchiveResume s) := by
  unfold execArchiveResume
  simp (maxDischargeDepth := 40) only [implies_true, ↓keeps_refl, ↓keeps_ite, ↓keeps_foldl, ↓keeps_mk, ↓ramKeeps_refl, ↓safeKeeps_refl, ↓safeKeeps_of_eq, ↓ramKeeps_of_eq, ↓resKeeps_ite, ↓resKeeps_next, ↓keeps_archivePump, h]

end Sys2Proof.Machine
end

