-- ==== Sys2Proof/Laws/KeepStalls.lean ====
section
/-! SUPPORT. Every operation and meaning of Machine/Stalls.lean keeps what `Keeps` names. -/

set_option linter.unusedSimpArgs false

namespace Sys2Proof.Machine

theorem keeps_updStall (n : Nat) (f : Stall → Stall) (s : State) {z : State} (h : Keeps z s) : Keeps z (updStall n f s) := by
  unfold updStall
  simp (maxDischargeDepth := 40) only [implies_true, ↓keeps_refl, ↓keeps_ite, ↓keeps_foldl, ↓keeps_mk, ↓ramKeeps_refl, ↓safeKeeps_refl, ↓safeKeeps_of_eq, ↓ramKeeps_of_eq, h]

theorem keeps_makePending (n : Nat) (p : List Byte) (sig : Word) (s : State) {z : State} (h : Keeps z s) : Keeps z (makePending n p sig s) := by
  unfold makePending
  simp (maxDischargeDepth := 40) only [implies_true, ↓keeps_refl, ↓keeps_ite, ↓keeps_foldl, ↓keeps_mk, ↓ramKeeps_refl, ↓safeKeeps_refl, ↓safeKeeps_of_eq, ↓ramKeeps_of_eq, ↓keeps_updStall, h]

theorem keeps_noteCopy (code : Nat) (old s : State) {z : State} (h : Keeps z s) : Keeps z (noteCopy code old s) := by
  unfold noteCopy
  simp (maxDischargeDepth := 40) only [implies_true, ↓keeps_refl, ↓keeps_ite, ↓keeps_foldl, ↓keeps_mk, ↓ramKeeps_refl, ↓safeKeeps_refl, ↓safeKeeps_of_eq, ↓ramKeeps_of_eq, h]

theorem keeps_startJob (code : Nat) (r : Req) (sig : Word) (s : State) {z : State} (h : Keeps z s) : AnsKeeps z (startJob code r sig s) := by
  unfold startJob
  simp (maxDischargeDepth := 40) only [implies_true, ↓keeps_refl, ↓keeps_ite, ↓keeps_foldl, ↓keeps_mk, ↓ramKeeps_refl, ↓safeKeeps_refl, ↓safeKeeps_of_eq, ↓ramKeeps_of_eq, ↓ansKeeps_ite, ↓ansKeeps_done, ↓ansKeeps_later, ↓keeps_no, ↓keeps_okay, ↓keeps_give, ↓keeps_sendCopies, h]

theorem keeps_awaitOthers (code : Nat) (r : Req) (sig : Word) (apply : State → State) (s : State) {z : State}
    (hk : ∀ t, Keeps t (apply t)) (h : Keeps z s) : Keeps z (awaitOthers code r sig apply s) := by
  unfold awaitOthers
  dsimp only
  exact keeps_ite (keeps_trans h (hk _)) (keeps_mk h rfl rfl rfl (ramKeeps_refl _) (safeKeeps_refl _))


theorem keeps_countOwn (s : State) {z : State} (h : Keeps z s) : Keeps z (countOwn s) := by
  unfold countOwn
  simp (maxDischargeDepth := 40) only [implies_true, ↓keeps_refl, ↓keeps_ite, ↓keeps_foldl, ↓keeps_mk, ↓ramKeeps_refl, ↓safeKeeps_refl, ↓safeKeeps_of_eq, ↓ramKeeps_of_eq, h]

theorem keeps_bodyStallLoadStructure (r : Req) (s : State) {z : State} (h : Keeps z s) : AnsKeeps z (bodyStallLoadStructure r s) := by
  unfold bodyStallLoadStructure
  dsimp only
  cases loadCheck s r.payload with
  | some x => exact keeps_ite h (keeps_event _ _ _ _ h)
  | none =>
    refine ansKeeps_ite (ansKeeps_done (keeps_awaitOthers _ _ _ _ s ?_ h))
      (ansKeeps_ite (ansKeeps_done (keeps_event _ _ _ _ h)) (ansKeeps_ite (ansKeeps_done (keeps_makePending _ _ _ s h)) (keeps_startJob _ _ _ s h)))
    exact fun t => keeps_countOwn _ (keeps_makePending _ _ _ t (keeps_refl t))

theorem keeps_execStallLoadStructure (r : Req) (s : State) {z : State} (h : Keeps z s) : ResKeeps z (execStallLoadStructure r s) :=
  keeps_mbx _ _ _ _ _ h (keeps_bodyStallLoadStructure r s h)

theorem keeps_buildScenario (n : Nat) (s : State) {z : State} (h : Keeps z s) : Keeps z (buildScenario n s) := by
  unfold buildScenario
  simp (maxDischargeDepth := 40) only [implies_true, ↓keeps_refl, ↓keeps_ite, ↓keeps_foldl, ↓keeps_mk, ↓ramKeeps_refl, ↓safeKeeps_refl, ↓safeKeeps_of_eq, ↓ramKeeps_of_eq, ↓keeps_updStall, h]

theorem keeps_buildScenarios (s : State) {z : State} (h : Keeps z s) : Keeps z (buildScenarios s) := by
  unfold buildScenarios
  simp (maxDischargeDepth := 40) only [implies_true, ↓keeps_refl, ↓keeps_ite, ↓keeps_foldl, ↓keeps_mk, ↓ramKeeps_refl, ↓safeKeeps_refl, ↓safeKeeps_of_eq, ↓ramKeeps_of_eq, ↓keeps_buildScenario, h]

theorem keeps_settleStalls (s : State) {z : State} (h : Keeps z s) : Keeps z (settleStalls s) := by
  unfold settleStalls
  simp (maxDischargeDepth := 40) only [implies_true, ↓keeps_refl, ↓keeps_ite, ↓keeps_foldl, ↓keeps_mk, ↓ramKeeps_refl, ↓safeKeeps_refl, ↓safeKeeps_of_eq, ↓ramKeeps_of_eq, ↓keeps_clearAlarm, h]

theorem keeps_activatePending (close : Nat) (s : State) {z : State} (h : Keeps z s) : Keeps z (activatePending close s) := by
  unfold activatePending
  simp (maxDischargeDepth := 40) only [implies_true, ↓keeps_refl, ↓keeps_ite, ↓keeps_foldl, ↓keeps_mk, ↓ramKeeps_refl, ↓safeKeeps_refl, ↓safeKeeps_of_eq, ↓ramKeeps_of_eq, ↓keeps_buildScenarios, ↓keeps_clearAlarm, ↓keeps_damaged, ↓keeps_event, ↓keeps_settleStalls, ↓keeps_updStall, h]

theorem keeps_execScenarioBuildComplete (scen : Fin 16) (s : State) {z : State} (h : Keeps z s) : ResKeeps z (execScenarioBuildComplete scen s) := by
  unfold execScenarioBuildComplete
  simp (maxDischargeDepth := 40) only [implies_true, ↓keeps_refl, ↓keeps_ite, ↓keeps_foldl, ↓keeps_mk, ↓ramKeeps_refl, ↓safeKeeps_refl, ↓safeKeeps_of_eq, ↓ramKeeps_of_eq, ↓resKeeps_ite, ↓resKeeps_next, ↓keeps_updStall, h]

theorem keeps_batchDone (n : Nat) (a : BatchAcc) (first : Bool) (s : State) {z : State} (h : Keeps z s) : Keeps z (batchDone n a first s) := by
  unfold batchDone
  simp (maxDischargeDepth := 40) only [implies_true, ↓keeps_refl, ↓keeps_ite, ↓keeps_foldl, ↓keeps_mk, ↓ramKeeps_refl, ↓safeKeeps_refl, ↓safeKeeps_of_eq, ↓ramKeeps_of_eq, ↓keeps_event, ↓keeps_updStall, h]

theorem keeps_builderBatch (n : Nat) (cycle : Word) (es : List ((Nat × Nat × Nat × Nat) × Int)) (s : State) {z : State} (h : Keeps z s) : Keeps z (builderBatch n cycle es s) := by
  unfold builderBatch
  simp (maxDischargeDepth := 40) only [implies_true, ↓keeps_refl, ↓keeps_ite, ↓keeps_foldl, ↓keeps_mk, ↓ramKeeps_refl, ↓safeKeeps_refl, ↓safeKeeps_of_eq, ↓ramKeeps_of_eq, ↓keeps_batchDone, ↓keeps_event, ↓keeps_updStall, h]

theorem keeps_bodyStallDelta (r : Req) (s : State) {z : State} (h : Keeps z s) : AnsKeeps z (bodyStallDelta r s) := by
  unfold bodyStallDelta
  simp (maxDischargeDepth := 40) only [implies_true, ↓keeps_refl, ↓keeps_ite, ↓keeps_foldl, ↓keeps_mk, ↓ramKeeps_refl, ↓safeKeeps_refl, ↓safeKeeps_of_eq, ↓ramKeeps_of_eq, ↓ansKeeps_ite, ↓ansKeeps_done, ↓ansKeeps_later, ↓keeps_no, ↓keeps_okay, ↓keeps_give, ↓keeps_batchDone, ↓keeps_updStall, h]

theorem keeps_execStallDelta (r : Req) (s : State) {z : State} (h : Keeps z s) : ResKeeps z (execStallDelta r s) :=
  keeps_mbx _ _ _ _ _ h (keeps_bodyStallDelta r s h)

theorem keeps_startSolve (n : Nat) (s : State) {z : State} (h : Keeps z s) : Keeps z (startSolve n s) := by
  unfold startSolve
  simp (maxDischargeDepth := 40) only [implies_true, ↓keeps_refl, ↓keeps_ite, ↓keeps_foldl, ↓keeps_mk, ↓ramKeeps_refl, ↓safeKeeps_refl, ↓safeKeeps_of_eq, ↓ramKeeps_of_eq, ↓keeps_event, ↓keeps_updStall, h]

theorem keeps_solveTrace (n : Nat) (o : SolveOut) (s : State) {z : State} (h : Keeps z s) : Keeps z (solveTrace n o s) := by
  unfold solveTrace
  simp (maxDischargeDepth := 40) only [implies_true, ↓keeps_refl, ↓keeps_ite, ↓keeps_foldl, ↓keeps_mk, ↓ramKeeps_refl, ↓safeKeeps_refl, ↓safeKeeps_of_eq, ↓ramKeeps_of_eq, ↓keeps_event, ↓keeps_updStall, h]

theorem keeps_endSolve (n : Nat) (s : State) {z : State} (h : Keeps z s) : Keeps z (endSolve n s) := by
  unfold endSolve
  simp (maxDischargeDepth := 40) only [implies_true, ↓keeps_refl, ↓keeps_ite, ↓keeps_foldl, ↓keeps_mk, ↓ramKeeps_refl, ↓safeKeeps_refl, ↓safeKeeps_of_eq, ↓ramKeeps_of_eq, ↓keeps_event, ↓keeps_solveTrace, ↓keeps_updStall, h]

theorem keeps_cutSolve (n : Nat) (s : State) {z : State} (h : Keeps z s) : Keeps z (cutSolve n s) := by
  unfold cutSolve
  simp (maxDischargeDepth := 40) only [implies_true, ↓keeps_refl, ↓keeps_ite, ↓keeps_foldl, ↓keeps_mk, ↓ramKeeps_refl, ↓safeKeeps_refl, ↓safeKeeps_of_eq, ↓ramKeeps_of_eq, ↓keeps_solveTrace, ↓keeps_stepFree, ↓keeps_updStall, h]

theorem keeps_bodyStallSolve (r : Req) (s : State) {z : State} (h : Keeps z s) : AnsKeeps z (bodyStallSolve r s) := by
  unfold bodyStallSolve
  simp (maxDischargeDepth := 40) only [implies_true, ↓keeps_refl, ↓keeps_ite, ↓keeps_foldl, ↓keeps_mk, ↓ramKeeps_refl, ↓safeKeeps_refl, ↓safeKeeps_of_eq, ↓ramKeeps_of_eq, ↓ansKeeps_ite, ↓ansKeeps_done, ↓ansKeeps_later, ↓keeps_no, ↓keeps_okay, ↓keeps_give, ↓keeps_endSolve, ↓keeps_startSolve, h]

theorem keeps_execStallSolve (r : Req) (s : State) {z : State} (h : Keeps z s) : ResKeeps z (execStallSolve r s) :=
  keeps_mbx _ _ _ _ _ h (keeps_bodyStallSolve r s h)

theorem keeps_dispatch (n : Nat) (s : State) {z : State} (h : Keeps z s) : Keeps z (dispatch n s) := by
  induction n generalizing s with
  | zero => exact h
  | succ n ih =>
    unfold dispatch
    split
    · exact ih _ (keeps_startSolve _ _ (keeps_mk h rfl rfl rfl (ramKeeps_refl _) (safeKeeps_refl _)))
    · exact h


theorem keeps_execSolveDone (stall : Fin 32) (s : State) {z : State} (h : Keeps z s) : ResKeeps z (execSolveDone stall s) := by
  unfold execSolveDone
  dsimp only
  (repeat' split) <;> simp (maxDischargeDepth := 40) only [implies_true, ↓keeps_refl, ↓keeps_ite, ↓keeps_foldl, ↓keeps_mk, ↓ramKeeps_refl, ↓safeKeeps_refl, ↓safeKeeps_of_eq, ↓ramKeeps_of_eq, ↓resKeeps_ite, ↓resKeeps_next, ↓keeps_dispatch, ↓keeps_endSolve, h]

theorem keeps_stopSolve (s : State) (n : Nat) {z : State} (h : Keeps z s) : Keeps z (stopSolve s n) := by
  unfold stopSolve
  simp (maxDischargeDepth := 40) only [implies_true, ↓keeps_refl, ↓keeps_ite, ↓keeps_foldl, ↓keeps_mk, ↓ramKeeps_refl, ↓safeKeeps_refl, ↓safeKeeps_of_eq, ↓ramKeeps_of_eq, ↓keeps_cutSolve, ↓keeps_updStall, h]

theorem keeps_execOutcomeInstant (s : State) {z : State} (h : Keeps z s) : ResKeeps z (execOutcomeInstant s) := by
  unfold execOutcomeInstant
  simp (maxDischargeDepth := 40) only [implies_true, ↓keeps_refl, ↓keeps_ite, ↓keeps_foldl, ↓keeps_mk, ↓ramKeeps_refl, ↓safeKeeps_refl, ↓safeKeeps_of_eq, ↓ramKeeps_of_eq, ↓resKeeps_ite, ↓resKeeps_next, ↓keeps_sendContribs, ↓keeps_stopSolve, h]

theorem keeps_faultStall (n region : Nat) (both : Bool) (s : State) {z : State} (h : Keeps z s) : Keeps z (faultStall n region both s) := by
  unfold faultStall
  simp (maxDischargeDepth := 40) only [implies_true, ↓keeps_refl, ↓keeps_ite, ↓keeps_foldl, ↓keeps_mk, ↓ramKeeps_refl, ↓safeKeeps_refl, ↓safeKeeps_of_eq, ↓ramKeeps_of_eq, ↓keeps_cutSolve, ↓keeps_damaged, ↓keeps_event, ↓keeps_raiseAlarm, ↓keeps_updStall, h]

theorem keeps_reloadStalls (s : State) {z : State} (h : Keeps z s) : Keeps z (reloadStalls s) := by
  unfold reloadStalls
  simp (maxDischargeDepth := 40) only [implies_true, ↓keeps_refl, ↓keeps_ite, ↓keeps_foldl, ↓keeps_mk, ↓ramKeeps_refl, ↓safeKeeps_refl, ↓safeKeeps_of_eq, ↓ramKeeps_of_eq, ↓keeps_damaged, h]

theorem keeps_abandonSolve (n : Nat) (s : State) {z : State} (h : Keeps z s) : Keeps z (abandonSolve n s) := by
  unfold abandonSolve
  simp (maxDischargeDepth := 40) only [implies_true, ↓keeps_refl, ↓keeps_ite, ↓keeps_foldl, ↓keeps_mk, ↓ramKeeps_refl, ↓safeKeeps_refl, ↓safeKeeps_of_eq, ↓ramKeeps_of_eq, ↓keeps_cutSolve, ↓keeps_updStall, h]

theorem keeps_bodyStallConfig (r : Req) (s : State) {z : State} (h : Keeps z s) : AnsKeeps z (bodyStallConfig r s) := by
  unfold bodyStallConfig
  simp (maxDischargeDepth := 40) only [implies_true, ↓keeps_refl, ↓keeps_ite, ↓keeps_foldl, ↓keeps_mk, ↓ramKeeps_refl, ↓safeKeeps_refl, ↓safeKeeps_of_eq, ↓ramKeeps_of_eq, ↓ansKeeps_ite, ↓ansKeeps_done, ↓ansKeeps_later, ↓keeps_no, ↓keeps_okay, ↓keeps_give, ↓keeps_abandonSolve, ↓keeps_dispatch, ↓keeps_noteCopy, ↓keeps_pendCfg, ↓keeps_shareCfg, h]

theorem keeps_execStallConfig (r : Req) (s : State) {z : State} (h : Keeps z s) : ResKeeps z (execStallConfig r s) :=
  keeps_mbx _ _ _ _ _ h (keeps_bodyStallConfig r s h)

theorem keeps_bodyStallStatus (r : Req) (s : State) {z : State} (h : Keeps z s) : AnsKeeps z (bodyStallStatus r s) := by
  unfold bodyStallStatus
  simp (maxDischargeDepth := 40) only [implies_true, ↓keeps_refl, ↓keeps_ite, ↓keeps_foldl, ↓keeps_mk, ↓ramKeeps_refl, ↓safeKeeps_refl, ↓safeKeeps_of_eq, ↓ramKeeps_of_eq, ↓ansKeeps_ite, ↓ansKeeps_done, ↓ansKeeps_later, ↓keeps_no, ↓keeps_okay, ↓keeps_give, ↓keeps_updStall, h]

theorem keeps_execStallStatus (r : Req) (s : State) {z : State} (h : Keeps z s) : ResKeeps z (execStallStatus r s) :=
  keeps_mbx _ _ _ _ _ h (keeps_bodyStallStatus r s h)

theorem keeps_bodyStallRead (r : Req) (s : State) {z : State} (h : Keeps z s) : AnsKeeps z (bodyStallRead r s) := by
  unfold bodyStallRead
  simp (maxDischargeDepth := 40) only [implies_true, ↓keeps_refl, ↓keeps_ite, ↓keeps_foldl, ↓keeps_mk, ↓ramKeeps_refl, ↓safeKeeps_refl, ↓safeKeeps_of_eq, ↓ramKeeps_of_eq, ↓ansKeeps_ite, ↓ansKeeps_done, ↓ansKeeps_later, ↓keeps_no, ↓keeps_okay, ↓keeps_give, h]

theorem keeps_execStallRead (r : Req) (s : State) {z : State} (h : Keeps z s) : ResKeeps z (execStallRead r s) :=
  keeps_mbx _ _ _ _ _ h (keeps_bodyStallRead r s h)

theorem keeps_execThrottleSample (celsius : Int) (s : State) {z : State} (h : Keeps z s) : ResKeeps z (execThrottleSample celsius s) := by
  unfold execThrottleSample
  simp (maxDischargeDepth := 40) only [implies_true, ↓keeps_refl, ↓keeps_ite, ↓keeps_foldl, ↓keeps_mk, ↓ramKeeps_refl, ↓safeKeeps_refl, ↓safeKeeps_of_eq, ↓ramKeeps_of_eq, ↓resKeeps_ite, ↓resKeeps_next, ↓keeps_event, h]

end Sys2Proof.Machine
end

