-- ==== Sys2Proof/Laws/KeepDp.lean ====
section
/-! SUPPORT. Every operation and meaning of Machine/Dp.lean keeps what `Keeps` names. -/

set_option linter.unusedSimpArgs false

namespace Sys2Proof.Machine

theorem keeps_updDp (f : Dp → Dp) (s : State) {z : State} (h : Keeps z s) : Keeps z (updDp f s) := by
  unfold updDp
  simp (maxDischargeDepth := 40) only [implies_true, ↓keeps_refl, ↓keeps_ite, ↓keeps_foldl, ↓keeps_mk, ↓ramKeeps_refl, ↓safeKeeps_refl, ↓safeKeeps_of_eq, ↓ramKeeps_of_eq, h]

theorem keeps_updPend (f : DpPend → DpPend) (s : State) {z : State} (h : Keeps z s) : Keeps z (updPend f s) := by
  unfold updPend
  simp (maxDischargeDepth := 40) only [implies_true, ↓keeps_refl, ↓keeps_ite, ↓keeps_foldl, ↓keeps_mk, ↓ramKeeps_refl, ↓safeKeeps_refl, ↓safeKeeps_of_eq, ↓ramKeeps_of_eq, ↓keeps_updDp, h]

theorem keeps_applyDpModeSet (r : Req) (s : State) {z : State} (h : Keeps z s) : Keeps z (applyDpModeSet r s) := by
  unfold applyDpModeSet
  simp (maxDischargeDepth := 40) only [implies_true, ↓keeps_refl, ↓keeps_ite, ↓keeps_foldl, ↓keeps_mk, ↓ramKeeps_refl, ↓safeKeeps_refl, ↓safeKeeps_of_eq, ↓ramKeeps_of_eq, ↓keeps_updDp, h]

theorem keeps_applySetpointSet (r : Req) (s : State) {z : State} (h : Keeps z s) : Keeps z (applySetpointSet r s) := by
  unfold applySetpointSet
  simp (maxDischargeDepth := 40) only [implies_true, ↓keeps_refl, ↓keeps_ite, ↓keeps_foldl, ↓keeps_mk, ↓ramKeeps_refl, ↓safeKeeps_refl, ↓safeKeeps_of_eq, ↓ramKeeps_of_eq, ↓keeps_updPend, h]

theorem keeps_applyJoystick (r : Req) (s : State) {z : State} (h : Keeps z s) : Keeps z (applyJoystick r s) := by
  unfold applyJoystick
  simp (maxDischargeDepth := 40) only [implies_true, ↓keeps_refl, ↓keeps_ite, ↓keeps_foldl, ↓keeps_mk, ↓ramKeeps_refl, ↓safeKeeps_refl, ↓safeKeeps_of_eq, ↓ramKeeps_of_eq, ↓keeps_clearAlarm, ↓keeps_updDp, h]

theorem keeps_applyTrackLoad (r : Req) (s : State) {z : State} (h : Keeps z s) : Keeps z (applyTrackLoad r s) := by
  unfold applyTrackLoad
  simp (maxDischargeDepth := 40) only [implies_true, ↓keeps_refl, ↓keeps_ite, ↓keeps_foldl, ↓keeps_mk, ↓ramKeeps_refl, ↓safeKeeps_refl, ↓safeKeeps_of_eq, ↓ramKeeps_of_eq, ↓keeps_updPend, h]

theorem keeps_logDp (code : Nat) (r : Req) (ch : List (Nat × Nat × Nat)) (s : State) {z : State} (h : Keeps z s) : Keeps z (logDp code r ch s) := by
  unfold logDp
  try dsimp only
  repeat' with_reducible first
    | exact h | exact keeps_refl _ | exact rfl | exact ramKeeps_refl _ | exact ramKeeps_writeAll _ _ _ | exact safeKeeps_refl _ | refine keeps_foldl (fun _ _ => ?_) ?_
    | apply keeps_ite
    | apply keeps_logChanges | exact safeKeeps_of_eq rfl rfl | dsimp only | split | refine keeps_mk ?_ ?_ ?_ ?_ ?_ ?_

theorem keeps_applyThrusterDefine (r : Req) (s : State) {z : State} (h : Keeps z s) : Keeps z (applyThrusterDefine r s) := by
  unfold applyThrusterDefine
  simp (maxDischargeDepth := 40) only [implies_true, ↓keeps_refl, ↓keeps_ite, ↓keeps_foldl, ↓keeps_mk, ↓ramKeeps_refl, ↓safeKeeps_refl, ↓safeKeeps_of_eq, ↓ramKeeps_of_eq, ↓keeps_logDp, ↓keeps_pendCfg, h]

theorem keeps_passTo (h1 : Handshake) (s : State) {z : State} (h : Keeps z s) : Keeps z (passTo h1 s) := by
  unfold passTo
  simp (maxDischargeDepth := 40) only [implies_true, ↓keeps_refl, ↓keeps_ite, ↓keeps_foldl, ↓keeps_mk, ↓ramKeeps_refl, ↓safeKeeps_refl, ↓safeKeeps_of_eq, ↓ramKeeps_of_eq, ↓keeps_answerOnly, ↓keeps_emit, h]

theorem keeps_applyPowerDefine (r : Req) (s : State) {z : State} (h : Keeps z s) : Keeps z (applyPowerDefine r s) := by
  unfold applyPowerDefine
  simp (maxDischargeDepth := 40) only [implies_true, ↓keeps_refl, ↓keeps_ite, ↓keeps_foldl, ↓keeps_mk, ↓ramKeeps_refl, ↓safeKeeps_refl, ↓safeKeeps_of_eq, ↓ramKeeps_of_eq, ↓keeps_logDp, ↓keeps_passTo, ↓keeps_pendCfg, h]

theorem keeps_regate (s0 s : State) {z : State} (h : Keeps z s) : Keeps z (regate s0 s) := by
  unfold regate
  simp (maxDischargeDepth := 40) only [implies_true, ↓keeps_refl, ↓keeps_ite, ↓keeps_foldl, ↓keeps_mk, ↓ramKeeps_refl, ↓safeKeeps_refl, ↓safeKeeps_of_eq, ↓ramKeeps_of_eq, ↓keeps_updateGates, ↓keeps_writeGated, h]

theorem keeps_takeFlr (s : State) {z : State} (h : Keeps z s) : Keeps z (takeFlr s) := by
  unfold takeFlr
  dsimp only
  (repeat' split) <;> simp (maxDischargeDepth := 40) only [implies_true, ↓keeps_refl, ↓keeps_ite, ↓keeps_foldl, ↓keeps_mk, ↓ramKeeps_refl, ↓safeKeeps_refl, ↓safeKeeps_of_eq, ↓ramKeeps_of_eq, ↓keeps_flrPairs, ↓keeps_regate, h]

theorem keeps_applyConseqConfig (r : Req) (s : State) {z : State} (h : Keeps z s) : Keeps z (applyConseqConfig r s) := by
  unfold applyConseqConfig
  simp (maxDischargeDepth := 40) only [implies_true, ↓keeps_refl, ↓keeps_ite, ↓keeps_foldl, ↓keeps_mk, ↓ramKeeps_refl, ↓safeKeeps_refl, ↓safeKeeps_of_eq, ↓ramKeeps_of_eq, ↓keeps_abandonSolve, ↓keeps_dispatch, ↓keeps_pendCfg, h]

theorem keeps_applyDpWeights (r : Req) (s : State) {z : State} (h : Keeps z s) : Keeps z (applyDpWeights r s) := by
  unfold applyDpWeights
  simp (maxDischargeDepth := 40) only [implies_true, ↓keeps_refl, ↓keeps_ite, ↓keeps_foldl, ↓keeps_mk, ↓ramKeeps_refl, ↓safeKeeps_refl, ↓safeKeeps_of_eq, ↓ramKeeps_of_eq, ↓keeps_pendCfg, h]

theorem keeps_applyFallbackLoad (r : Req) (s : State) {z : State} (h : Keeps z s) : Keeps z (applyFallbackLoad r s) := by
  unfold applyFallbackLoad
  simp (maxDischargeDepth := 40) only [implies_true, ↓keeps_refl, ↓keeps_ite, ↓keeps_foldl, ↓keeps_mk, ↓ramKeeps_refl, ↓safeKeeps_refl, ↓safeKeeps_of_eq, ↓ramKeeps_of_eq, ↓keeps_pendCfg, h]

theorem keeps_applyDp (code : Nat) (r : Req) (s : State) {z : State} (h : Keeps z s) : Keeps z (applyDp code r s) := by
  unfold applyDp
  (repeat' split) <;> simp (maxDischargeDepth := 40) [implies_true, ↓keeps_refl, ↓keeps_ite, ↓keeps_foldl, ↓keeps_mk, ↓ramKeeps_refl, ↓safeKeeps_refl, ↓safeKeeps_of_eq, ↓ramKeeps_of_eq, ↓keeps_applyConseqConfig, ↓keeps_applyDpModeSet, ↓keeps_applyDpWeights, ↓keeps_applyFallbackLoad, ↓keeps_applyJoystick, ↓keeps_applyPowerDefine, ↓keeps_applySetpointSet, ↓keeps_applyThrusterDefine, ↓keeps_applyTrackLoad, h]

theorem keeps_takeCopy (code : Nat) (r : Req) (s : State) {z : State} (h : Keeps z s) : Keeps z (takeCopy code r s) := by
  unfold takeCopy
  simp (maxDischargeDepth := 40) only [implies_true, ↓keeps_refl, ↓keeps_ite, ↓keeps_foldl, ↓keeps_mk, ↓ramKeeps_refl, ↓safeKeeps_refl, ↓safeKeeps_of_eq, ↓ramKeeps_of_eq, ↓keeps_applyDp, ↓keeps_noteCopy, h]

theorem keeps_acceptDp (code : Nat) (r : Req) (s : State) {z : State} (h : Keeps z s) : AnsKeeps z (acceptDp code r s) := by
  unfold acceptDp
  exact ansKeeps_ite (ansKeeps_done (keeps_awaitOthers _ _ _ _ s (fun t => keeps_takeCopy _ _ t (keeps_refl t)) h))
    (ansKeeps_ite h (ansKeeps_ite (ansKeeps_done (keeps_applyDp _ _ s h)) (keeps_startJob _ _ _ s h)))

theorem keeps_dpCommand (code : Nat) (check : Req → State → Option Status) (r : Req) (s : State) {z : State} (h : Keeps z s) : AnsKeeps z (dpCommand code check r s) := by
  unfold dpCommand
  (repeat' split) <;> simp (maxDischargeDepth := 40) [implies_true, ↓keeps_refl, ↓keeps_ite, ↓keeps_foldl, ↓keeps_mk, ↓ramKeeps_refl, ↓safeKeeps_refl, ↓safeKeeps_of_eq, ↓ramKeeps_of_eq, ↓ansKeeps_ite, ↓ansKeeps_done, ↓ansKeeps_later, ↓keeps_no, ↓keeps_okay, ↓keeps_give, ↓keeps_acceptDp, h]

theorem keeps_dpProtected (code : Nat) (guard : Req → State → Bool) (check : Req → State → Option Status) (r : Req) (s : State) {z : State} (h : Keeps z s) : AnsKeeps z (dpProtected code guard check r s) := by
  unfold dpProtected
  (repeat' split) <;> simp (maxDischargeDepth := 40) [implies_true, ↓keeps_refl, ↓keeps_ite, ↓keeps_foldl, ↓keeps_mk, ↓ramKeeps_refl, ↓safeKeeps_refl, ↓safeKeeps_of_eq, ↓ramKeeps_of_eq, ↓ansKeeps_ite, ↓ansKeeps_done, ↓ansKeeps_later, ↓keeps_no, ↓keeps_okay, ↓keeps_give, ↓keeps_acceptDp, ↓keeps_dpCommand, ↓keeps_refuseWrite, h]

theorem keeps_execDpModeSet (r : Req) (s : State) {z : State} (h : Keeps z s) : ResKeeps z (execDpModeSet r s) := by
  exact keeps_mbx _ _ _ _ _ h (keeps_dpCommand _ _ _ _ h)

theorem keeps_execSetpointSet (r : Req) (s : State) {z : State} (h : Keeps z s) : ResKeeps z (execSetpointSet r s) := by
  exact keeps_mbx _ _ _ _ _ h (keeps_dpCommand _ _ _ _ h)

theorem keeps_execThrusterDefine (r : Req) (s : State) {z : State} (h : Keeps z s) : ResKeeps z (execThrusterDefine r s) := by
  exact keeps_mbx _ _ _ _ _ h (keeps_dpProtected _ _ _ _ _ h)

theorem keeps_execPowerDefine (r : Req) (s : State) {z : State} (h : Keeps z s) : ResKeeps z (execPowerDefine r s) := by
  exact keeps_mbx _ _ _ _ _ h (keeps_dpProtected _ _ _ _ _ h)

theorem keeps_execConseqConfig (r : Req) (s : State) {z : State} (h : Keeps z s) : ResKeeps z (execConseqConfig r s) := by
  exact keeps_mbx _ _ _ _ _ h (keeps_dpCommand _ _ _ _ h)

theorem keeps_execDpWeights (r : Req) (s : State) {z : State} (h : Keeps z s) : ResKeeps z (execDpWeights r s) := by
  exact keeps_mbx _ _ _ _ _ h (keeps_dpCommand _ _ _ _ h)

theorem keeps_execFallbackLoad (r : Req) (s : State) {z : State} (h : Keeps z s) : ResKeeps z (execFallbackLoad r s) := by
  exact keeps_mbx _ _ _ _ _ h (keeps_dpCommand _ _ _ _ h)

theorem keeps_execJoystickDemand (r : Req) (s : State) {z : State} (h : Keeps z s) : ResKeeps z (execJoystickDemand r s) := by
  exact keeps_mbx _ _ _ _ _ h (keeps_dpCommand _ _ _ _ h)

theorem keeps_execTrackLoad (r : Req) (s : State) {z : State} (h : Keeps z s) : ResKeeps z (execTrackLoad r s) := by
  exact keeps_mbx _ _ _ _ _ h (keeps_dpCommand _ _ _ _ h)

theorem keeps_bodyDpStatus (u1 : Req) (s : State) {z : State} (h : Keeps z s) : AnsKeeps z (bodyDpStatus u1 s) := by
  unfold bodyDpStatus
  simp (maxDischargeDepth := 40) only [implies_true, ↓keeps_refl, ↓keeps_ite, ↓keeps_foldl, ↓keeps_mk, ↓ramKeeps_refl, ↓safeKeeps_refl, ↓safeKeeps_of_eq, ↓ramKeeps_of_eq, ↓ansKeeps_ite, ↓ansKeeps_done, ↓ansKeeps_later, ↓keeps_no, ↓keeps_okay, ↓keeps_give, h]

theorem keeps_execDpStatus (r : Req) (s : State) {z : State} (h : Keeps z s) : ResKeeps z (execDpStatus r s) :=
  keeps_mbx _ _ _ _ _ h (keeps_bodyDpStatus r s h)

theorem keeps_refuseCopy (j : Job) (mgr : Nat) (st : Status) (s : State) {z : State} (h : Keeps z s) : Keeps z (refuseCopy j mgr st s) := by
  unfold refuseCopy
  simp (maxDischargeDepth := 40) only [implies_true, ↓keeps_refl, ↓keeps_ite, ↓keeps_foldl, ↓keeps_mk, ↓ramKeeps_refl, ↓safeKeeps_refl, ↓safeKeeps_of_eq, ↓ramKeeps_of_eq, ↓keeps_finishJob, ↓keeps_logEntry, h]

theorem keeps_concludeOwn (j : Job) (s : State) {z : State} (h : Keeps z s) : Keeps z (concludeOwn j s) := by
  unfold concludeOwn
  simp (maxDischargeDepth := 40) only [implies_true, ↓keeps_refl, ↓keeps_ite, ↓keeps_foldl, ↓keeps_mk, ↓ramKeeps_refl, ↓safeKeeps_refl, ↓safeKeeps_of_eq, ↓ramKeeps_of_eq, ↓keeps_makePending, ↓keeps_takeCopy, h]

theorem keeps_concludeCopy (j : Job) (s : State) {z : State} (h : Keeps z s) : Keeps z (concludeCopy j s) := by
  unfold concludeCopy
  dsimp only
  (repeat' split) <;> simp (maxDischargeDepth := 40) only [implies_true, ↓keeps_refl, ↓keeps_ite, ↓keeps_foldl, ↓keeps_mk, ↓ramKeeps_refl, ↓safeKeeps_refl, ↓safeKeeps_of_eq, ↓ramKeeps_of_eq, ↓keeps_applyDp, ↓keeps_concludeOwn, ↓keeps_event, ↓keeps_finishJob, ↓keeps_makePending, ↓keeps_refuseCopy, h]

theorem keeps_countCopy (mgr : Nat) (sig : Word) (s : State) {z : State} (h : Keeps z s) : Keeps z (countCopy mgr sig s) := by
  unfold countCopy
  simp (maxDischargeDepth := 40) only [implies_true, ↓keeps_refl, ↓keeps_ite, ↓keeps_foldl, ↓keeps_mk, ↓ramKeeps_refl, ↓safeKeeps_refl, ↓safeKeeps_of_eq, ↓ramKeeps_of_eq, h]

theorem keeps_refuseJoin (d variant version reason : Nat) (s : State) {z : State} (h : Keeps z s) : Keeps z (refuseJoin d variant version reason s) := by
  unfold refuseJoin
  simp (maxDischargeDepth := 40) only [implies_true, ↓keeps_refl, ↓keeps_ite, ↓keeps_foldl, ↓keeps_mk, ↓ramKeeps_refl, ↓safeKeeps_refl, ↓safeKeeps_of_eq, ↓ramKeeps_of_eq, ↓keeps_event, ↓keeps_sendAnswer, h]

theorem keeps_refuseDefinitions (mgr : Nat) (s : State) {z : State} (h : Keeps z s) : Keeps z (refuseDefinitions mgr s) := by
  unfold refuseDefinitions
  (repeat' split) <;> simp (maxDischargeDepth := 40) [implies_true, ↓keeps_refl, ↓keeps_ite, ↓keeps_foldl, ↓keeps_mk, ↓ramKeeps_refl, ↓safeKeeps_refl, ↓safeKeeps_of_eq, ↓ramKeeps_of_eq, ↓keeps_refuseJoin, h]

theorem keeps_execCopyConfirm (mgr : Fin 3) (status : Nat) (signature : Word) (s : State) {z : State} (h : Keeps z s) : ResKeeps z (execCopyConfirm mgr status signature s) := by
  unfold execCopyConfirm
  dsimp only
  (repeat' split) <;> simp (maxDischargeDepth := 40) only [implies_true, ↓keeps_refl, ↓keeps_ite, ↓keeps_foldl, ↓keeps_mk, ↓ramKeeps_refl, ↓safeKeeps_refl, ↓safeKeeps_of_eq, ↓ramKeeps_of_eq, ↓resKeeps_ite, ↓resKeeps_next, ↓keeps_concludeCopy, ↓keeps_concludeOwn, ↓keeps_countCopy, ↓keeps_event, ↓keeps_refuseCopy, ↓keeps_refuseDefinitions, h]

theorem keeps_execCopyConfirmTimeout (s : State) {z : State} (h : Keeps z s) : ResKeeps z (execCopyConfirmTimeout s) := by
  unfold execCopyConfirmTimeout
  (repeat' split) <;> simp (maxDischargeDepth := 40) [implies_true, ↓keeps_refl, ↓keeps_ite, ↓keeps_foldl, ↓keeps_mk, ↓ramKeeps_refl, ↓safeKeeps_refl, ↓safeKeeps_of_eq, ↓ramKeeps_of_eq, ↓resKeeps_ite, ↓resKeeps_next, ↓keeps_concludeCopy, ↓keeps_concludeOwn, ↓keeps_refuseCopy, h]

theorem keeps_execJoyTimeout (s : State) {z : State} (h : Keeps z s) : ResKeeps z (execJoyTimeout s) := by
  unfold execJoyTimeout
  simp (maxDischargeDepth := 40) only [implies_true, ↓keeps_refl, ↓keeps_ite, ↓keeps_foldl, ↓keeps_mk, ↓ramKeeps_refl, ↓safeKeeps_refl, ↓safeKeeps_of_eq, ↓ramKeeps_of_eq, ↓resKeeps_ite, ↓resKeeps_next, ↓keeps_event, ↓keeps_raiseAlarm, ↓keeps_updDp, h]

end Sys2Proof.Machine
end

