-- ==== Sys2Proof/Laws/KeepFusion.lean ====
section
/-! SUPPORT. Every operation and meaning of Machine/Fusion.lean keeps what `Keeps` names. -/

set_option linter.unusedSimpArgs false

namespace Sys2Proof.Machine

theorem keeps_updFus (f : Fus → Fus) (s : State) {z : State} (h : Keeps z s) : Keeps z (updFus f s) := by
  unfold updFus
  simp (maxDischargeDepth := 40) only [implies_true, ↓keeps_refl, ↓keeps_ite, ↓keeps_foldl, ↓keeps_mk, ↓ramKeeps_refl, ↓safeKeeps_refl, ↓safeKeeps_of_eq, ↓ramKeeps_of_eq, h]

theorem keeps_updRt (n : Nat) (f : StreamRt → StreamRt) (s : State) {z : State} (h : Keeps z s) : Keeps z (updRt n f s) := by
  unfold updRt
  simp (maxDischargeDepth := 40) only [implies_true, ↓keeps_refl, ↓keeps_ite, ↓keeps_foldl, ↓keeps_mk, ↓ramKeeps_refl, ↓safeKeeps_refl, ↓safeKeeps_of_eq, ↓ramKeeps_of_eq, ↓keeps_updFus, h]

theorem keeps_noteFusion (s : State) {z : State} (h : Keeps z s) : Keeps z (noteFusion s) := by
  unfold noteFusion
  simp (maxDischargeDepth := 40) only [implies_true, ↓keeps_refl, ↓keeps_ite, ↓keeps_foldl, ↓keeps_mk, ↓ramKeeps_refl, ↓safeKeeps_refl, ↓safeKeeps_of_eq, ↓ramKeeps_of_eq, ↓keeps_updFus, h]

theorem keeps_fusionCfg (f : Cfg → Cfg) (s : State) {z : State} (h : Keeps z s) : Keeps z (fusionCfg f s) := by
  unfold fusionCfg
  simp (maxDischargeDepth := 40) only [implies_true, ↓keeps_refl, ↓keeps_ite, ↓keeps_foldl, ↓keeps_mk, ↓ramKeeps_refl, ↓safeKeeps_refl, ↓safeKeeps_of_eq, ↓ramKeeps_of_eq, ↓keeps_noteFusion, ↓keeps_setCfg, ↓keeps_updFus, h]

theorem keeps_defineStream (p : List Byte) (s : State) {z : State} (h : Keeps z s) : Keeps z (defineStream p s) := by
  unfold defineStream
  simp (maxDischargeDepth := 40) only [implies_true, ↓keeps_refl, ↓keeps_ite, ↓keeps_foldl, ↓keeps_mk, ↓ramKeeps_refl, ↓safeKeeps_refl, ↓safeKeeps_of_eq, ↓ramKeeps_of_eq, ↓keeps_fusionCfg, ↓keeps_updRt, h]

theorem keeps_askSource (code : Nat) (r : Req) (dev : Nat) (s : State) {z : State} (h : Keeps z s) : AnsKeeps z (askSource code r dev s) := by
  unfold askSource
  simp (maxDischargeDepth := 40) only [implies_true, ↓keeps_refl, ↓keeps_ite, ↓keeps_foldl, ↓keeps_mk, ↓ramKeeps_refl, ↓safeKeeps_refl, ↓safeKeeps_of_eq, ↓ramKeeps_of_eq, ↓ansKeeps_ite, ↓ansKeeps_done, ↓ansKeeps_later, ↓keeps_no, ↓keeps_okay, ↓keeps_give, ↓keeps_sendLong, h]

theorem keeps_bodyStreamDefine (r : Req) (s : State) {z : State} (h : Keeps z s) : AnsKeeps z (bodyStreamDefine r s) := by
  unfold bodyStreamDefine
  (repeat' split) <;> simp (maxDischargeDepth := 40) [implies_true, ↓keeps_refl, ↓keeps_ite, ↓keeps_foldl, ↓keeps_mk, ↓ramKeeps_refl, ↓safeKeeps_refl, ↓safeKeeps_of_eq, ↓ramKeeps_of_eq, ↓ansKeeps_ite, ↓ansKeeps_done, ↓ansKeeps_later, ↓keeps_no, ↓keeps_okay, ↓keeps_give, ↓keeps_askSource, ↓keeps_defineStream, ↓keeps_shareCfg, h]

theorem keeps_execStreamDefine (r : Req) (s : State) {z : State} (h : Keeps z s) : ResKeeps z (execStreamDefine r s) :=
  keeps_mbx _ _ _ _ _ h (keeps_bodyStreamDefine r s h)

theorem keeps_bodyStreamRead (r : Req) (s : State) {z : State} (h : Keeps z s) : AnsKeeps z (bodyStreamRead r s) := by
  unfold bodyStreamRead
  simp (maxDischargeDepth := 40) only [implies_true, ↓keeps_refl, ↓keeps_ite, ↓keeps_foldl, ↓keeps_mk, ↓ramKeeps_refl, ↓safeKeeps_refl, ↓safeKeeps_of_eq, ↓ramKeeps_of_eq, ↓ansKeeps_ite, ↓ansKeeps_done, ↓ansKeeps_later, ↓keeps_no, ↓keeps_okay, ↓keeps_give, h]

theorem keeps_execStreamRead (r : Req) (s : State) {z : State} (h : Keeps z s) : ResKeeps z (execStreamRead r s) :=
  keeps_mbx _ _ _ _ _ h (keeps_bodyStreamRead r s h)

theorem keeps_bodyTransformLoad (r : Req) (s : State) {z : State} (h : Keeps z s) : AnsKeeps z (bodyTransformLoad r s) := by
  unfold bodyTransformLoad
  simp (maxDischargeDepth := 40) only [implies_true, ↓keeps_refl, ↓keeps_ite, ↓keeps_foldl, ↓keeps_mk, ↓ramKeeps_refl, ↓safeKeeps_refl, ↓safeKeeps_of_eq, ↓ramKeeps_of_eq, ↓ansKeeps_ite, ↓ansKeeps_done, ↓ansKeeps_later, ↓keeps_no, ↓keeps_okay, ↓keeps_give, ↓keeps_fusionCfg, ↓keeps_shareCfg, h]

theorem keeps_execTransformLoad (r : Req) (s : State) {z : State} (h : Keeps z s) : ResKeeps z (execTransformLoad r s) :=
  keeps_mbx _ _ _ _ _ h (keeps_bodyTransformLoad r s h)

theorem keeps_bodyRefPrefer (r : Req) (s : State) {z : State} (h : Keeps z s) : AnsKeeps z (bodyRefPrefer r s) := by
  unfold bodyRefPrefer
  simp (maxDischargeDepth := 40) only [implies_true, ↓keeps_refl, ↓keeps_ite, ↓keeps_foldl, ↓keeps_mk, ↓ramKeeps_refl, ↓safeKeeps_refl, ↓safeKeeps_of_eq, ↓ramKeeps_of_eq, ↓ansKeeps_ite, ↓ansKeeps_done, ↓ansKeeps_later, ↓keeps_no, ↓keeps_okay, ↓keeps_give, ↓keeps_noteFusion, ↓keeps_shareCfg, ↓keeps_updFus, h]

theorem keeps_execRefPrefer (r : Req) (s : State) {z : State} (h : Keeps z s) : ResKeeps z (execRefPrefer r s) :=
  keeps_mbx _ _ _ _ _ h (keeps_bodyRefPrefer r s h)

theorem keeps_bodyObserverConfig (r : Req) (s : State) {z : State} (h : Keeps z s) : AnsKeeps z (bodyObserverConfig r s) := by
  unfold bodyObserverConfig
  simp (maxDischargeDepth := 40) only [implies_true, ↓keeps_refl, ↓keeps_ite, ↓keeps_foldl, ↓keeps_mk, ↓ramKeeps_refl, ↓safeKeeps_refl, ↓safeKeeps_of_eq, ↓ramKeeps_of_eq, ↓ansKeeps_ite, ↓ansKeeps_done, ↓ansKeeps_later, ↓keeps_no, ↓keeps_okay, ↓keeps_give, ↓keeps_fusionCfg, ↓keeps_shareCfg, h]

theorem keeps_execObserverConfig (r : Req) (s : State) {z : State} (h : Keeps z s) : ResKeeps z (execObserverConfig r s) :=
  keeps_mbx _ _ _ _ _ h (keeps_bodyObserverConfig r s h)

theorem keeps_clearStream (r : Req) (s : State) {z : State} (h : Keeps z s) : Keeps z (clearStream r s) := by
  unfold clearStream
  simp (maxDischargeDepth := 40) only [implies_true, ↓keeps_refl, ↓keeps_ite, ↓keeps_foldl, ↓keeps_mk, ↓ramKeeps_refl, ↓safeKeeps_refl, ↓safeKeeps_of_eq, ↓ramKeeps_of_eq, ↓keeps_updRt, h]

theorem keeps_bodyStreamStatus (r : Req) (s : State) {z : State} (h : Keeps z s) : AnsKeeps z (bodyStreamStatus r s) := by
  unfold bodyStreamStatus
  simp (maxDischargeDepth := 40) only [implies_true, ↓keeps_refl, ↓keeps_ite, ↓keeps_foldl, ↓keeps_mk, ↓ramKeeps_refl, ↓safeKeeps_refl, ↓safeKeeps_of_eq, ↓ramKeeps_of_eq, ↓ansKeeps_ite, ↓ansKeeps_done, ↓ansKeeps_later, ↓keeps_no, ↓keeps_okay, ↓keeps_give, ↓keeps_askSource, ↓keeps_clearStream, h]

theorem keeps_execStreamStatus (r : Req) (s : State) {z : State} (h : Keeps z s) : ResKeeps z (execStreamStatus r s) :=
  keeps_mbx _ _ _ _ _ h (keeps_bodyStreamStatus r s h)

theorem keeps_endSource (j : Job) (st : Status) (rejected : Nat) (s : State) {z : State} (h : Keeps z s) : Keeps z (endSource j st rejected s) := by
  unfold endSource
  simp (maxDischargeDepth := 40) only [implies_true, ↓keeps_refl, ↓keeps_ite, ↓keeps_foldl, ↓keeps_mk, ↓ramKeeps_refl, ↓safeKeeps_refl, ↓safeKeeps_of_eq, ↓ramKeeps_of_eq, ↓keeps_clearStream, ↓keeps_defineStream, ↓keeps_finishJob, ↓keeps_shareCfg, h]

theorem keeps_execSourceDevConfirm (dev : Fin 64) (status rejected : Nat) (s : State) {z : State} (h : Keeps z s) : ResKeeps z (execSourceDevConfirm dev status rejected s) := by
  unfold execSourceDevConfirm
  (repeat' split) <;> simp (maxDischargeDepth := 40) [implies_true, ↓keeps_refl, ↓keeps_ite, ↓keeps_foldl, ↓keeps_mk, ↓ramKeeps_refl, ↓safeKeeps_refl, ↓safeKeeps_of_eq, ↓ramKeeps_of_eq, ↓resKeeps_ite, ↓resKeeps_next, ↓keeps_endSource, h]

theorem keeps_execSourceDevConfirmTimeout (s : State) {z : State} (h : Keeps z s) : ResKeeps z (execSourceDevConfirmTimeout s) := by
  unfold execSourceDevConfirmTimeout
  (repeat' split) <;> simp (maxDischargeDepth := 40) [implies_true, ↓keeps_refl, ↓keeps_ite, ↓keeps_foldl, ↓keeps_mk, ↓ramKeeps_refl, ↓safeKeeps_refl, ↓safeKeeps_of_eq, ↓ramKeeps_of_eq, ↓resKeeps_ite, ↓resKeeps_next, ↓keeps_endSource, h]

theorem keeps_takeFusionCfg (close : Nat) (s : State) {z : State} (h : Keeps z s) : Keeps z (takeFusionCfg close s) := by
  unfold takeFusionCfg
  dsimp only
  (repeat' split) <;> simp (maxDischargeDepth := 40) only [implies_true, ↓keeps_refl, ↓keeps_ite, ↓keeps_foldl, ↓keeps_mk, ↓ramKeeps_refl, ↓safeKeeps_refl, ↓safeKeeps_of_eq, ↓ramKeeps_of_eq, ↓keeps_event, ↓keeps_updFus, ↓keeps_updRt, h]

theorem keeps_takeSample (e : Word) (s : State) (c : Contrib) {z : State} (h : Keeps z s) : Keeps z (takeSample e s c) := by
  unfold takeSample
  simp (maxDischargeDepth := 40) only [implies_true, ↓keeps_refl, ↓keeps_ite, ↓keeps_foldl, ↓keeps_mk, ↓ramKeeps_refl, ↓safeKeeps_refl, ↓safeKeeps_of_eq, ↓ramKeeps_of_eq, ↓keeps_updFus, ↓keeps_updRt, h]

theorem keeps_attitudeRefs (e : Word) (s : State) {z : State} (h : Keeps z s) : Keeps z (attitudeRefs e s) := by
  unfold attitudeRefs
  simp (maxDischargeDepth := 40) only [implies_true, ↓keeps_refl, ↓keeps_ite, ↓keeps_foldl, ↓keeps_mk, ↓ramKeeps_refl, ↓safeKeeps_refl, ↓safeKeeps_of_eq, ↓ramKeeps_of_eq, ↓keeps_updFus, h]

theorem keeps_alignStreams (e : Word) (s : State) {z : State} (h : Keeps z s) : Keeps z (alignStreams e s) := by
  unfold alignStreams
  simp (maxDischargeDepth := 40) only [implies_true, ↓keeps_refl, ↓keeps_ite, ↓keeps_foldl, ↓keeps_mk, ↓ramKeeps_refl, ↓safeKeeps_refl, ↓safeKeeps_of_eq, ↓ramKeeps_of_eq, ↓keeps_updFus, h]

theorem keeps_restored (s : State) (r : RingEnt) (prior : Kal) {z : State} (h : Keeps z s) : Keeps z (restored s r prior) := by
  unfold restored
  simp (maxDischargeDepth := 40) only [implies_true, ↓keeps_refl, ↓keeps_ite, ↓keeps_foldl, ↓keeps_mk, ↓ramKeeps_refl, ↓safeKeeps_refl, ↓safeKeeps_of_eq, ↓ramKeeps_of_eq, ↓keeps_updFus, h]

theorem keeps_takeLate (e : Word) (s : State) (c : Contrib) {z : State} (h : Keeps z s) : Keeps z (takeLate e s c) := by
  unfold takeLate
  dsimp only
  (repeat' split) <;> simp (maxDischargeDepth := 40) only [implies_true, ↓keeps_refl, ↓keeps_ite, ↓keeps_foldl, ↓keeps_mk, ↓ramKeeps_refl, ↓safeKeeps_refl, ↓safeKeeps_of_eq, ↓ramKeeps_of_eq, ↓keeps_event, ↓keeps_stepFree, ↓keeps_updFus, ↓keeps_updRt, h]

theorem keeps_captureAnchors (e : Word) (s : State) {z : State} (h : Keeps z s) : Keeps z (captureAnchors e s) := by
  unfold captureAnchors
  simp (maxDischargeDepth := 40) only [implies_true, ↓keeps_refl, ↓keeps_ite, ↓keeps_foldl, ↓keeps_mk, ↓ramKeeps_refl, ↓safeKeeps_refl, ↓safeKeeps_of_eq, ↓ramKeeps_of_eq, ↓keeps_event, ↓keeps_updRt, h]

theorem keeps_maskEvents (old x : StreamRt) (e : Word) (n : Nat) (s : State) {z : State} (h : Keeps z s) : Keeps z (maskEvents old x e n s) := by
  unfold maskEvents
  simp (maxDischargeDepth := 40) only [implies_true, ↓keeps_refl, ↓keeps_ite, ↓keeps_foldl, ↓keeps_mk, ↓ramKeeps_refl, ↓safeKeeps_refl, ↓safeKeeps_of_eq, ↓ramKeeps_of_eq, ↓keeps_event, h]

theorem keeps_confEvents (s : State) (n : Nat) {z : State} (h : Keeps z s) : Keeps z (confEvents s n) := by
  unfold confEvents
  simp (maxDischargeDepth := 40) only [implies_true, ↓keeps_refl, ↓keeps_ite, ↓keeps_foldl, ↓keeps_mk, ↓ramKeeps_refl, ↓safeKeeps_refl, ↓safeKeeps_of_eq, ↓ramKeeps_of_eq, ↓keeps_event, ↓keeps_updRt, h]

theorem keeps_testStream (e : Word) (s0 : State) (n : Nat) {z : State} (h : Keeps z s0) : Keeps z (testStream e s0 n) := by
  unfold testStream
  simp (maxDischargeDepth := 40) only [implies_true, ↓keeps_refl, ↓keeps_ite, ↓keeps_foldl, ↓keeps_mk, ↓ramKeeps_refl, ↓safeKeeps_refl, ↓safeKeeps_of_eq, ↓ramKeeps_of_eq, ↓keeps_maskEvents, ↓keeps_updRt, h]

theorem keeps_conflict (e : Word) (g : Nat) (c : List Nat) (s : State) {z : State} (h : Keeps z s) : Keeps z (conflict e g c s) := by
  unfold conflict
  simp (maxDischargeDepth := 40) only [implies_true, ↓keeps_refl, ↓keeps_ite, ↓keeps_foldl, ↓keeps_mk, ↓ramKeeps_refl, ↓safeKeeps_refl, ↓safeKeeps_of_eq, ↓ramKeeps_of_eq, ↓keeps_event, ↓keeps_raiseAlarm, ↓keeps_updRt, h]

theorem keeps_markOutlier (e : Word) (c used : List Nat) (s : State) (n : Nat) {z : State} (h : Keeps z s) : Keeps z (markOutlier e c used s n) := by
  unfold markOutlier
  simp (maxDischargeDepth := 40) only [implies_true, ↓keeps_refl, ↓keeps_ite, ↓keeps_foldl, ↓keeps_mk, ↓ramKeeps_refl, ↓safeKeeps_refl, ↓safeKeeps_of_eq, ↓ramKeeps_of_eq, ↓keeps_event, ↓keeps_report, ↓keeps_updRt, h]

theorem keeps_freeHeld (n : Nat) (s : State) {z : State} (h : Keeps z s) : Keeps z (freeHeld n s) := by
  unfold freeHeld
  simp (maxDischargeDepth := 40) only [implies_true, ↓keeps_refl, ↓keeps_ite, ↓keeps_foldl, ↓keeps_mk, ↓ramKeeps_refl, ↓safeKeeps_refl, ↓safeKeeps_of_eq, ↓ramKeeps_of_eq, ↓keeps_updRt, h]

theorem keeps_settleConflict (g : Nat) (s : State) {z : State} (h : Keeps z s) : Keeps z (settleConflict g s) := by
  unfold settleConflict
  simp (maxDischargeDepth := 40) only [implies_true, ↓keeps_refl, ↓keeps_ite, ↓keeps_foldl, ↓keeps_mk, ↓ramKeeps_refl, ↓safeKeeps_refl, ↓safeKeeps_of_eq, ↓ramKeeps_of_eq, ↓keeps_clearAlarm, h]

theorem keeps_compareGroup (e : Word) (g : Nat) (s : State) {z : State} (h : Keeps z s) : Keeps z (compareGroup e g s).1 := by
  unfold compareGroup
  try dsimp only
  (repeat' split) <;> repeat' with_reducible first
    | exact h | exact keeps_refl _ | exact rfl | exact ramKeeps_refl _ | exact ramKeeps_writeAll _ _ _ | exact safeKeeps_refl _ | refine keeps_foldl (fun _ _ => ?_) ?_
    | apply keeps_ite
    | apply keeps_conflict | apply keeps_freeHeld | apply keeps_markOutlier | exact safeKeeps_of_eq rfl rfl | dsimp only | split | refine keeps_mk ?_ ?_ ?_ ?_ ?_ ?_

theorem keeps_agreeSteps (e : Word) (g : Nat) (s : State) {z : State} (h : Keeps z s) : Keeps z (agreeSteps e g s) := by
  unfold agreeSteps
  (repeat' split) <;> simp (maxDischargeDepth := 40) [implies_true, ↓keeps_refl, ↓keeps_ite, ↓keeps_foldl, ↓keeps_mk, ↓ramKeeps_refl, ↓safeKeeps_refl, ↓safeKeeps_of_eq, ↓ramKeeps_of_eq, ↓keeps_updRt, h]

theorem keeps_dropPreference (s : State) {z : State} (h : Keeps z s) : Keeps z (dropPreference s) := by
  unfold dropPreference
  (repeat' split) <;> simp (maxDischargeDepth := 40) [implies_true, ↓keeps_refl, ↓keeps_ite, ↓keeps_foldl, ↓keeps_mk, ↓ramKeeps_refl, ↓safeKeeps_refl, ↓safeKeeps_of_eq, ↓ramKeeps_of_eq, ↓keeps_updFus, h]

theorem keeps_markUsed (used : List Nat) (s : State) {z : State} (h : Keeps z s) : Keeps z (markUsed used s) := by
  unfold markUsed
  simp (maxDischargeDepth := 40) only [implies_true, ↓keeps_refl, ↓keeps_ite, ↓keeps_foldl, ↓keeps_mk, ↓ramKeeps_refl, ↓safeKeeps_refl, ↓safeKeeps_of_eq, ↓ramKeeps_of_eq, ↓keeps_updRt, h]

theorem keeps_refFew (k : Nat) (s : State) {z : State} (h : Keeps z s) : Keeps z (refFew k s) := by
  unfold refFew
  simp (maxDischargeDepth := 40) only [implies_true, ↓keeps_refl, ↓keeps_ite, ↓keeps_foldl, ↓keeps_mk, ↓ramKeeps_refl, ↓safeKeeps_refl, ↓safeKeeps_of_eq, ↓ramKeeps_of_eq, ↓keeps_clearAlarm, ↓keeps_event, ↓keeps_raiseAlarm, ↓keeps_updFus, h]

theorem keeps_posStep (e : Word) (used : List Nat) (s : State) {z : State} (h : Keeps z s) : Keeps z (posStep e used s) := by
  unfold posStep
  simp (maxDischargeDepth := 40) only [implies_true, ↓keeps_refl, ↓keeps_ite, ↓keeps_foldl, ↓keeps_mk, ↓ramKeeps_refl, ↓safeKeeps_refl, ↓safeKeeps_of_eq, ↓ramKeeps_of_eq, ↓keeps_clearAlarm, ↓keeps_event, ↓keeps_updFus, h]

theorem keeps_hdgStep (e : Word) (used : List Nat) (s : State) {z : State} (h : Keeps z s) : Keeps z (hdgStep e used s) := by
  unfold hdgStep
  simp (maxDischargeDepth := 40) only [implies_true, ↓keeps_refl, ↓keeps_ite, ↓keeps_foldl, ↓keeps_mk, ↓ramKeeps_refl, ↓safeKeeps_refl, ↓safeKeeps_of_eq, ↓ramKeeps_of_eq, ↓keeps_clearAlarm, ↓keeps_event, ↓keeps_updFus, h]

theorem keeps_fixOrigin (e : Word) (used : List Nat) (s : State) {z : State} (h : Keeps z s) : Keeps z (fixOrigin e used s) := by
  unfold fixOrigin
  simp (maxDischargeDepth := 40) only [implies_true, ↓keeps_refl, ↓keeps_ite, ↓keeps_foldl, ↓keeps_mk, ↓ramKeeps_refl, ↓safeKeeps_refl, ↓safeKeeps_of_eq, ↓ramKeeps_of_eq, ↓keeps_alignStreams, h]

theorem keeps_observe (e : Word) (hs ps : List Nat) (resetH resetP : Bool) (s : State) {z : State} (h : Keeps z s) : Keeps z (observe e hs ps resetH resetP s) := by
  unfold observe
  simp (maxDischargeDepth := 40) only [implies_true, ↓keeps_refl, ↓keeps_ite, ↓keeps_foldl, ↓keeps_mk, ↓ramKeeps_refl, ↓safeKeeps_refl, ↓safeKeeps_of_eq, ↓ramKeeps_of_eq, ↓keeps_updFus, h]

theorem keeps_fuseEpoch (e : Word) (recs : List Contrib) (s : State) {z : State} (h : Keeps z s) : Keeps z (fuseEpoch e recs s) := by
  unfold fuseEpoch
  simp (maxDischargeDepth := 40) only [implies_true, ↓keeps_refl, ↓keeps_ite, ↓keeps_foldl, ↓keeps_mk, ↓ramKeeps_refl, ↓safeKeeps_refl, ↓safeKeeps_of_eq, ↓ramKeeps_of_eq, ↓keeps_agreeSteps, ↓keeps_alignStreams, ↓keeps_attitudeRefs, ↓keeps_captureAnchors, ↓keeps_compareGroup, ↓keeps_confEvents, ↓keeps_conflict, ↓keeps_dropPreference, ↓keeps_fixOrigin, ↓keeps_hdgStep, ↓keeps_markUsed, ↓keeps_observe, ↓keeps_posStep, ↓keeps_refFew, ↓keeps_settleConflict, ↓keeps_takeLate, ↓keeps_takeSample, ↓keeps_testStream, ↓keeps_updFus, h]

theorem keeps_fuseEmpty (n : Nat) (s : State) {z : State} (h : Keeps z s) : Keeps z (fuseEmpty n s) := by
  induction n generalizing s with
  | zero => exact h
  | succ n ih => exact ih _ (keeps_fuseEpoch _ _ _ h)


theorem keeps_fuse (e : Word) (recs : List Contrib) (s : State) {z : State} (h : Keeps z s) : Keeps z (fuse e recs s) := by
  unfold fuse
  simp (maxDischargeDepth := 40) only [implies_true, ↓keeps_refl, ↓keeps_ite, ↓keeps_foldl, ↓keeps_mk, ↓ramKeeps_refl, ↓safeKeeps_refl, ↓safeKeeps_of_eq, ↓ramKeeps_of_eq, ↓keeps_fuseEmpty, ↓keeps_fuseEpoch, h]

theorem keeps_execPosLost (heading : Bool) (s : State) {z : State} (h : Keeps z s) : ResKeeps z (execPosLost heading s) := by
  unfold execPosLost
  simp (maxDischargeDepth := 40) only [implies_true, ↓keeps_refl, ↓keeps_ite, ↓keeps_foldl, ↓keeps_mk, ↓ramKeeps_refl, ↓safeKeeps_refl, ↓safeKeeps_of_eq, ↓ramKeeps_of_eq, ↓resKeeps_ite, ↓resKeeps_next, ↓keeps_event, ↓keeps_raiseAlarm, ↓keeps_updFus, h]

theorem keeps_execPreferenceRelease (s : State) {z : State} (h : Keeps z s) : ResKeeps z (execPreferenceRelease s) := by
  unfold execPreferenceRelease
  simp (maxDischargeDepth := 40) only [implies_true, ↓keeps_refl, ↓keeps_ite, ↓keeps_foldl, ↓keeps_mk, ↓ramKeeps_refl, ↓safeKeeps_refl, ↓safeKeeps_of_eq, ↓ramKeeps_of_eq, ↓resKeeps_ite, ↓resKeeps_next, ↓keeps_freeHeld, ↓keeps_settleConflict, h]

end Sys2Proof.Machine
end

