-- ==== Sys2Proof/Laws/KeepCommit.lean ====
section
/-! SUPPORT. Every operation and meaning of Machine/Commit.lean keeps what `Keeps` names. -/

set_option linter.unusedSimpArgs false

namespace Sys2Proof.Machine

theorem keeps_commitDevices (e : Word) (cs : List Contrib) (s : State) {z : State} (h : Keeps z s) : Keeps z (commitDevices e cs s) := by
  unfold commitDevices
  simp (maxDischargeDepth := 40) only [implies_true, ↓keeps_refl, ↓keeps_ite, ↓keeps_foldl, ↓keeps_mk, ↓ramKeeps_refl, ↓safeKeeps_refl, ↓safeKeeps_of_eq, ↓ramKeeps_of_eq, h]

theorem keeps_setThr (e : Word) (n : Nat) (r : ThrRec) (s : State) {z : State} (h : Keeps z s) : Keeps z (setThr e n r s) := by
  unfold setThr
  simp (maxDischargeDepth := 40) only [implies_true, ↓keeps_refl, ↓keeps_ite, ↓keeps_foldl, ↓keeps_mk, ↓ramKeeps_refl, ↓safeKeeps_refl, ↓safeKeeps_of_eq, ↓ramKeeps_of_eq, ↓keeps_event, h]

theorem keeps_commitThrusters (e : Word) (cs : List Contrib) (s : State) {z : State} (h : Keeps z s) : Keeps z (commitThrusters e cs s) := by
  unfold commitThrusters
  simp (maxDischargeDepth := 40) only [implies_true, ↓keeps_refl, ↓keeps_ite, ↓keeps_foldl, ↓keeps_mk, ↓ramKeeps_refl, ↓safeKeeps_refl, ↓safeKeeps_of_eq, ↓ramKeeps_of_eq, ↓keeps_setThr, h]

theorem keeps_commitPower (cs : List Contrib) (s : State) {z : State} (h : Keeps z s) : Keeps z (commitPower cs s) := by
  unfold commitPower
  simp (maxDischargeDepth := 40) only [implies_true, ↓keeps_refl, ↓keeps_ite, ↓keeps_foldl, ↓keeps_mk, ↓ramKeeps_refl, ↓safeKeeps_refl, ↓safeKeeps_of_eq, ↓ramKeeps_of_eq, ↓keeps_clearAlarm, h]

theorem keeps_mergeReport (e : Word) (code : BitVec 16) (subj src sev : Nat) (detail : Word) (standing opens : Bool) (s : State) {z : State} (h : Keeps z s) : Keeps z (mergeReport e code subj src sev detail standing opens s) := by
  unfold mergeReport
  simp (maxDischargeDepth := 40) only [implies_true, ↓keeps_refl, ↓keeps_ite, ↓keeps_foldl, ↓keeps_mk, ↓ramKeeps_refl, ↓safeKeeps_refl, ↓safeKeeps_of_eq, ↓ramKeeps_of_eq, ↓keeps_event, h]

theorem keeps_mergeFault (s : State) (c : Contrib) {z : State} (h : Keeps z s) : Keeps z (mergeFault s c) := by
  unfold mergeFault
  simp (maxDischargeDepth := 40) only [implies_true, ↓keeps_refl, ↓keeps_ite, ↓keeps_foldl, ↓keeps_mk, ↓ramKeeps_refl, ↓safeKeeps_refl, ↓safeKeeps_of_eq, ↓ramKeeps_of_eq, ↓keeps_mergeReport, h]

theorem keeps_mergeCompare (s : State) (c : Contrib) {z : State} (h : Keeps z s) : Keeps z (mergeCompare s c) := by
  unfold mergeCompare
  simp (maxDischargeDepth := 40) only [implies_true, ↓keeps_refl, ↓keeps_ite, ↓keeps_foldl, ↓keeps_mk, ↓ramKeeps_refl, ↓safeKeeps_refl, ↓safeKeeps_of_eq, ↓ramKeeps_of_eq, ↓keeps_mergeReport, h]

theorem keeps_mergeDigests (e : Word) (cs : List Contrib) (s : State) {z : State} (h : Keeps z s) : Keeps z (mergeDigests e cs s) := by
  unfold mergeDigests
  try dsimp only
  repeat' with_reducible first
    | exact h | exact keeps_refl _ | exact rfl | exact ramKeeps_refl _ | exact ramKeeps_writeAll _ _ _ | exact safeKeeps_refl _ | refine keeps_foldl (fun _ _ => ?_) ?_
    | apply keeps_ite
    | apply keeps_event | apply keeps_mergeReport | exact safeKeeps_of_eq rfl rfl | dsimp only | split | refine keeps_mk ?_ ?_ ?_ ?_ ?_ ?_

theorem keeps_commitAlarms (e : Word) (cs : List Contrib) (s : State) {z : State} (h : Keeps z s) : Keeps z (commitAlarms e cs s) := by
  unfold commitAlarms
  simp (maxDischargeDepth := 40) only [implies_true, ↓keeps_refl, ↓keeps_ite, ↓keeps_foldl, ↓keeps_mk, ↓ramKeeps_refl, ↓safeKeeps_refl, ↓safeKeeps_of_eq, ↓ramKeeps_of_eq, ↓keeps_mergeCompare, ↓keeps_mergeDigests, ↓keeps_mergeFault, h]

theorem keeps_commitCompares (e : Word) (cs : List Contrib) (s : State) {z : State} (h : Keeps z s) : Keeps z (commitCompares e cs s) := by
  unfold commitCompares
  dsimp only
  (repeat' split) <;> simp (maxDischargeDepth := 40) only [implies_true, ↓keeps_refl, ↓keeps_ite, ↓keeps_foldl, ↓keeps_mk, ↓ramKeeps_refl, ↓safeKeeps_refl, ↓safeKeeps_of_eq, ↓ramKeeps_of_eq, ↓keeps_raiseAlarm, h]

theorem keeps_settleConseq (s : State) {z : State} (h : Keeps z s) : Keeps z (settleConseq s) := by
  unfold settleConseq
  simp (maxDischargeDepth := 40) only [implies_true, ↓keeps_refl, ↓keeps_ite, ↓keeps_foldl, ↓keeps_mk, ↓ramKeeps_refl, ↓safeKeeps_refl, ↓safeKeeps_of_eq, ↓ramKeeps_of_eq, ↓keeps_clearAlarm, h]

theorem keeps_commitScens (ws : List (Option Nat)) (counted : List Nat) (s : State) {z : State} (h : Keeps z s) : Keeps z (commitScens ws counted s) := by
  unfold commitScens
  simp (maxDischargeDepth := 40) only [implies_true, ↓keeps_refl, ↓keeps_ite, ↓keeps_foldl, ↓keeps_mk, ↓ramKeeps_refl, ↓safeKeeps_refl, ↓safeKeeps_of_eq, ↓ramKeeps_of_eq, ↓keeps_settleConseq, ↓keeps_updStall, h]

theorem keeps_commitShadows (ws : List (Option Nat)) (counted : List Nat) (s : State) {z : State} (h : Keeps z s) : Keeps z (commitShadows ws counted s) := by
  unfold commitShadows
  simp (maxDischargeDepth := 40) only [implies_true, ↓keeps_refl, ↓keeps_ite, ↓keeps_foldl, ↓keeps_mk, ↓ramKeeps_refl, ↓safeKeeps_refl, ↓safeKeeps_of_eq, ↓ramKeeps_of_eq, ↓keeps_updStall, h]

theorem keeps_signatureFault (activeSig : Option Nat) (w : Option Nat) (m : Nat) (s : State) {z : State} (h : Keeps z s) : Keeps z (signatureFault activeSig w m s) := by
  unfold signatureFault
  (repeat' split) <;> simp (maxDischargeDepth := 40) [implies_true, ↓keeps_refl, ↓keeps_ite, ↓keeps_foldl, ↓keeps_mk, ↓ramKeeps_refl, ↓safeKeeps_refl, ↓safeKeeps_of_eq, ↓ramKeeps_of_eq, ↓keeps_event, ↓keeps_raiseAlarm, h]

theorem keeps_commitOutcome (e : Word) (cs : List Contrib) (s : State) {z : State} (h : Keeps z s) : Keeps z (commitOutcome e cs s) := by
  unfold commitOutcome
  simp (maxDischargeDepth := 40) only [implies_true, ↓keeps_refl, ↓keeps_ite, ↓keeps_foldl, ↓keeps_mk, ↓ramKeeps_refl, ↓safeKeeps_refl, ↓safeKeeps_of_eq, ↓ramKeeps_of_eq, ↓keeps_commitScens, ↓keeps_commitShadows, ↓keeps_event, ↓keeps_signatureFault, h]

theorem keeps_noteBuilds (cs : List Contrib) (s : State) {z : State} (h : Keeps z s) : Keeps z (noteBuilds cs s) := by
  unfold noteBuilds
  simp (maxDischargeDepth := 40) only [implies_true, ↓keeps_refl, ↓keeps_ite, ↓keeps_foldl, ↓keeps_mk, ↓ramKeeps_refl, ↓safeKeeps_refl, ↓safeKeeps_of_eq, ↓ramKeeps_of_eq, h]

theorem keeps_commitBuilds (cs : List Contrib) (s : State) {z : State} (h : Keeps z s) : Keeps z (commitBuilds cs s) := by
  unfold commitBuilds
  dsimp only
  (repeat' split) <;> simp (maxDischargeDepth := 40) only [implies_true, ↓keeps_refl, ↓keeps_ite, ↓keeps_foldl, ↓keeps_mk, ↓ramKeeps_refl, ↓safeKeeps_refl, ↓safeKeeps_of_eq, ↓ramKeeps_of_eq, ↓keeps_event, ↓keeps_noteBuilds, ↓keeps_raiseAlarm, h]

theorem keeps_commitShared (e : Word) (cs : List Contrib) (s : State) {z : State} (h : Keeps z s) : Keeps z (commitShared e cs s) := by
  unfold commitShared
  simp (maxDischargeDepth := 40) only [implies_true, ↓keeps_refl, ↓keeps_ite, ↓keeps_foldl, ↓keeps_mk, ↓ramKeeps_refl, ↓safeKeeps_refl, ↓safeKeeps_of_eq, ↓ramKeeps_of_eq, ↓keeps_commitBuilds, ↓keeps_commitCompares, ↓keeps_commitDevices, ↓keeps_commitOutcome, ↓keeps_commitPower, ↓keeps_commitThrusters, h]

theorem keeps_commitActive (e : Word) (cs : List Contrib) (s : State) {z : State} (h : Keeps z s) : Keeps z (commitActive e cs s) := by
  unfold commitActive
  simp (maxDischargeDepth := 40) only [implies_true, ↓keeps_refl, ↓keeps_ite, ↓keeps_foldl, ↓keeps_mk, ↓ramKeeps_refl, ↓safeKeeps_refl, ↓safeKeeps_of_eq, ↓ramKeeps_of_eq, ↓keeps_commitAlarms, ↓keeps_commitShared, h]

theorem keeps_execFeedbackLost (thr : Fin 24) (s : State) {z : State} (h : Keeps z s) : ResKeeps z (execFeedbackLost thr s) := by
  unfold execFeedbackLost
  simp (maxDischargeDepth := 40) only [implies_true, ↓keeps_refl, ↓keeps_ite, ↓keeps_foldl, ↓keeps_mk, ↓ramKeeps_refl, ↓safeKeeps_refl, ↓safeKeeps_of_eq, ↓ramKeeps_of_eq, ↓resKeeps_ite, ↓resKeeps_next, ↓keeps_setThr, h]

theorem keeps_execPowerReserve (group : Fin 6) (s : State) {z : State} (h : Keeps z s) : ResKeeps z (execPowerReserve group s) := by
  unfold execPowerReserve
  simp (maxDischargeDepth := 40) only [implies_true, ↓keeps_refl, ↓keeps_ite, ↓keeps_foldl, ↓keeps_mk, ↓ramKeeps_refl, ↓safeKeeps_refl, ↓safeKeeps_of_eq, ↓ramKeeps_of_eq, ↓resKeeps_ite, ↓resKeeps_next, ↓keeps_clearAlarm, ↓keeps_event, ↓keeps_raiseAlarm, h]

theorem keeps_execMinorityLimit (mgr : Fin 3) (s : State) {z : State} (h : Keeps z s) : ResKeeps z (execMinorityLimit mgr s) := by
  unfold execMinorityLimit
  simp (maxDischargeDepth := 40) only [implies_true, ↓keeps_refl, ↓keeps_ite, ↓keeps_foldl, ↓keeps_mk, ↓ramKeeps_refl, ↓safeKeeps_refl, ↓safeKeeps_of_eq, ↓ramKeeps_of_eq, ↓resKeeps_ite, ↓resKeeps_next, ↓keeps_failSilent, h]

theorem keeps_execSplitClear (s : State) {z : State} (h : Keeps z s) : ResKeeps z (execSplitClear s) := by
  unfold execSplitClear
  simp (maxDischargeDepth := 40) only [implies_true, ↓keeps_refl, ↓keeps_ite, ↓keeps_foldl, ↓keeps_mk, ↓ramKeeps_refl, ↓safeKeeps_refl, ↓safeKeeps_of_eq, ↓ramKeeps_of_eq, ↓resKeeps_ite, ↓resKeeps_next, ↓keeps_clearAlarm, h]

theorem keeps_execAlarmEntryClear (code : BitVec 16) (subject : BitVec 8) (s : State) {z : State} (h : Keeps z s) : ResKeeps z (execAlarmEntryClear code subject s) := by
  unfold execAlarmEntryClear
  dsimp only
  (repeat' split) <;> simp (maxDischargeDepth := 40) only [implies_true, ↓keeps_refl, ↓keeps_ite, ↓keeps_foldl, ↓keeps_mk, ↓ramKeeps_refl, ↓safeKeeps_refl, ↓safeKeeps_of_eq, ↓ramKeeps_of_eq, ↓resKeeps_ite, ↓resKeeps_next, ↓keeps_event, h]

theorem keeps_execConseqFail (scen : Fin 16) (s : State) {z : State} (h : Keeps z s) : ResKeeps z (execConseqFail scen s) := by
  unfold execConseqFail
  simp (maxDischargeDepth := 40) only [implies_true, ↓keeps_refl, ↓keeps_ite, ↓keeps_foldl, ↓keeps_mk, ↓ramKeeps_refl, ↓safeKeeps_refl, ↓safeKeeps_of_eq, ↓ramKeeps_of_eq, ↓resKeeps_ite, ↓resKeeps_next, ↓keeps_event, ↓keeps_raiseAlarm, h]

theorem keeps_execConseqStale (scen : Fin 16) (s : State) {z : State} (h : Keeps z s) : ResKeeps z (execConseqStale scen s) := by
  unfold execConseqStale
  simp (maxDischargeDepth := 40) only [implies_true, ↓keeps_refl, ↓keeps_ite, ↓keeps_foldl, ↓keeps_mk, ↓ramKeeps_refl, ↓safeKeeps_refl, ↓safeKeeps_of_eq, ↓ramKeeps_of_eq, ↓resKeeps_ite, ↓resKeeps_next, ↓keeps_event, ↓keeps_report, h]

theorem keeps_execDegradedPlan (s : State) {z : State} (h : Keeps z s) : ResKeeps z (execDegradedPlan s) := by
  unfold execDegradedPlan
  simp (maxDischargeDepth := 40) only [implies_true, ↓keeps_refl, ↓keeps_ite, ↓keeps_foldl, ↓keeps_mk, ↓ramKeeps_refl, ↓safeKeeps_refl, ↓safeKeeps_of_eq, ↓ramKeeps_of_eq, ↓resKeeps_ite, ↓resKeeps_next, ↓keeps_event, ↓keeps_raiseAlarm, h]

theorem keeps_execSolverStale (s : State) {z : State} (h : Keeps z s) : ResKeeps z (execSolverStale s) := by
  unfold execSolverStale
  simp (maxDischargeDepth := 40) only [implies_true, ↓keeps_refl, ↓keeps_ite, ↓keeps_foldl, ↓keeps_mk, ↓ramKeeps_refl, ↓safeKeeps_refl, ↓safeKeeps_of_eq, ↓ramKeeps_of_eq, ↓resKeeps_ite, ↓resKeeps_next, ↓keeps_event, ↓keeps_report, ↓keeps_updDp, h]

theorem keeps_execQuorumLost (s : State) {z : State} (h : Keeps z s) : ResKeeps z (execQuorumLost s) := by
  unfold execQuorumLost
  simp (maxDischargeDepth := 40) only [implies_true, ↓keeps_refl, ↓keeps_ite, ↓keeps_foldl, ↓keeps_mk, ↓ramKeeps_refl, ↓safeKeeps_refl, ↓safeKeeps_of_eq, ↓ramKeeps_of_eq, ↓resKeeps_ite, ↓resKeeps_next, ↓keeps_abandonSwap, ↓keeps_dropOpen, ↓keeps_event, ↓keeps_report, ↓keeps_setRole, h]

theorem keeps_execDerivedBuildComplete (s : State) {z : State} (h : Keeps z s) : ResKeeps z (execDerivedBuildComplete s) := by
  unfold execDerivedBuildComplete
  (repeat' split) <;> simp (maxDischargeDepth := 40) [implies_true, ↓keeps_refl, ↓keeps_ite, ↓keeps_foldl, ↓keeps_mk, ↓ramKeeps_refl, ↓safeKeeps_refl, ↓safeKeeps_of_eq, ↓ramKeeps_of_eq, ↓resKeeps_ite, ↓resKeeps_next, ↓keeps_updDp, h]

end Sys2Proof.Machine
end

