-- ==== Sys2Proof/Laws/KeepRamp.lean ====
section
/-! SUPPORT. Every operation and meaning of Machine/Ramp.lean keeps what `Keeps` names. -/

set_option linter.unusedSimpArgs false

namespace Sys2Proof.Machine

theorem keeps_rampToward (s : State) {z : State} (h : Keeps z s) : Keeps z (rampToward s) := by
  unfold rampToward
  simp (maxDischargeDepth := 40) only [implies_true, ↓keeps_refl, ↓keeps_ite, ↓keeps_foldl, ↓keeps_mk, ↓ramKeeps_refl, ↓safeKeeps_refl, ↓safeKeeps_of_eq, ↓ramKeeps_of_eq, ↓keeps_updDp, h]

theorem keeps_trackStep (s : State) {z : State} (h : Keeps z s) : Keeps z (trackStep s) := by
  unfold trackStep
  simp (maxDischargeDepth := 40) only [implies_true, ↓keeps_refl, ↓keeps_ite, ↓keeps_foldl, ↓keeps_mk, ↓ramKeeps_refl, ↓safeKeeps_refl, ↓safeKeeps_of_eq, ↓ramKeeps_of_eq, ↓keeps_updDp, h]

theorem keeps_startRamp (s : State) {z : State} (h : Keeps z s) : Keeps z (startRamp s) := by
  unfold startRamp
  simp (maxDischargeDepth := 40) only [implies_true, ↓keeps_refl, ↓keeps_ite, ↓keeps_foldl, ↓keeps_mk, ↓ramKeeps_refl, ↓safeKeeps_refl, ↓safeKeeps_of_eq, ↓ramKeeps_of_eq, ↓keeps_event, ↓keeps_updDp, h]

theorem keeps_rampStep (hasState : Bool) (s : State) {z : State} (h : Keeps z s) : Keeps z (rampStep hasState s) := by
  unfold rampStep
  simp (maxDischargeDepth := 40) only [implies_true, ↓keeps_refl, ↓keeps_ite, ↓keeps_foldl, ↓keeps_mk, ↓ramKeeps_refl, ↓safeKeeps_refl, ↓safeKeeps_of_eq, ↓ramKeeps_of_eq, ↓keeps_rampToward, ↓keeps_startRamp, ↓keeps_trackStep, ↓keeps_updDp, h]

end Sys2Proof.Machine
end

