-- ==== Sys2Proof/Laws/KeepProblem.lean ====
section
/-! SUPPORT. Every operation and meaning of Machine/Problem.lean keeps what `Keeps` names. -/

set_option linter.unusedSimpArgs false

namespace Sys2Proof.Machine

theorem keeps_feedStall (g : Stages) (v : Variation) (n : Nat) (s : State) {z : State} (h : Keeps z s) : Keeps z (feedStall g v n s) := by
  unfold feedStall
  simp (maxDischargeDepth := 40) only [implies_true, ↓keeps_refl, ↓keeps_ite, ↓keeps_foldl, ↓keeps_mk, ↓ramKeeps_refl, ↓safeKeeps_refl, ↓safeKeeps_of_eq, ↓ramKeeps_of_eq, ↓keeps_builderBatch, h]

theorem keeps_feedStalls (i : Image) (s : State) {z : State} (h : Keeps z s) : Keeps z (feedStalls i s) := by
  unfold feedStalls
  simp (maxDischargeDepth := 40) only [implies_true, ↓keeps_refl, ↓keeps_ite, ↓keeps_foldl, ↓keeps_mk, ↓ramKeeps_refl, ↓safeKeeps_refl, ↓safeKeeps_of_eq, ↓ramKeeps_of_eq, ↓keeps_feedStall, h]

theorem keeps_fallbackLaw (i : Image) (s : State) {z : State} (h : Keeps z s) : Keeps z (fallbackLaw i s) := by
  unfold fallbackLaw
  simp (maxDischargeDepth := 40) only [implies_true, ↓keeps_refl, ↓keeps_ite, ↓keeps_foldl, ↓keeps_mk, ↓ramKeeps_refl, ↓safeKeeps_refl, ↓safeKeeps_of_eq, ↓ramKeeps_of_eq, ↓keeps_event, ↓keeps_updDp, h]

end Sys2Proof.Machine
end

