-- ==== Sys2Proof/Laws/KeepBoard.lean ====
section
/-! SUPPORT. Every operation and meaning of Machine/Board.lean keeps what `Keeps` names. -/

set_option linter.unusedSimpArgs false

namespace Sys2Proof.Machine

theorem keeps_updBrd (f : Brd → Brd) (s : State) {z : State} (h : Keeps z s) : Keeps z (updBrd f s) := by
  unfold updBrd
  simp (maxDischargeDepth := 40) only [implies_true, ↓keeps_refl, ↓keeps_ite, ↓keeps_foldl, ↓keeps_mk, ↓ramKeeps_refl, ↓safeKeeps_refl, ↓safeKeeps_of_eq, ↓ramKeeps_of_eq, h]

theorem keeps_updMem (f : Mem → Mem) (s : State) {z : State} (h : Keeps z s) : Keeps z (updMem f s) := by
  unfold updMem
  simp (maxDischargeDepth := 40) only [implies_true, ↓keeps_refl, ↓keeps_ite, ↓keeps_foldl, ↓keeps_mk, ↓ramKeeps_refl, ↓safeKeeps_refl, ↓safeKeeps_of_eq, ↓ramKeeps_of_eq, h]

theorem keeps_brdCount (n k : Nat) (s : State) {z : State} (h : Keeps z s) : Keeps z (brdCount n k s) := by
  unfold brdCount
  simp (maxDischargeDepth := 40) only [implies_true, ↓keeps_refl, ↓keeps_ite, ↓keeps_foldl, ↓keeps_mk, ↓ramKeeps_refl, ↓safeKeeps_refl, ↓safeKeeps_of_eq, ↓ramKeeps_of_eq, ↓keeps_updBrd, h]

theorem keeps_updDev (d : Nat) (f : DevRec → DevRec) (s : State) {z : State} (h : Keeps z s) : Keeps z (updDev d f s) := by
  unfold updDev
  simp (maxDischargeDepth := 40) only [implies_true, ↓keeps_refl, ↓keeps_ite, ↓keeps_foldl, ↓keeps_mk, ↓ramKeeps_refl, ↓safeKeeps_refl, ↓safeKeeps_of_eq, ↓ramKeeps_of_eq, ↓keeps_updBrd, h]

theorem keeps_bodyBoardRead (r : Req) (s : State) {z : State} (h : Keeps z s) : AnsKeeps z (bodyBoardRead r s) := by
  unfold bodyBoardRead
  dsimp only
  (repeat' split) <;> simp (maxDischargeDepth := 40) only [implies_true, ↓keeps_refl, ↓keeps_ite, ↓keeps_foldl, ↓keeps_mk, ↓ramKeeps_refl, ↓safeKeeps_refl, ↓safeKeeps_of_eq, ↓ramKeeps_of_eq, ↓ansKeeps_ite, ↓ansKeeps_done, ↓ansKeeps_later, ↓keeps_no, ↓keeps_okay, ↓keeps_give, h]

theorem keeps_execBoardRead (r : Req) (s : State) {z : State} (h : Keeps z s) : ResKeeps z (execBoardRead r s) :=
  keeps_mbx _ _ _ _ _ h (keeps_bodyBoardRead r s h)

theorem keeps_bodyBoardStreamStart (r : Req) (s : State) {z : State} (h : Keeps z s) : AnsKeeps z (bodyBoardStreamStart r s) := by
  unfold bodyBoardStreamStart
  simp (maxDischargeDepth := 40) only [implies_true, ↓keeps_refl, ↓keeps_ite, ↓keeps_foldl, ↓keeps_mk, ↓ramKeeps_refl, ↓safeKeeps_refl, ↓safeKeeps_of_eq, ↓ramKeeps_of_eq, ↓ansKeeps_ite, ↓ansKeeps_done, ↓ansKeeps_later, ↓keeps_no, ↓keeps_okay, ↓keeps_give, ↓keeps_updBrd, h]

theorem keeps_execBoardStreamStart (r : Req) (s : State) {z : State} (h : Keeps z s) : ResKeeps z (execBoardStreamStart r s) :=
  keeps_mbx _ _ _ _ _ h (keeps_bodyBoardStreamStart r s h)

theorem keeps_bodyBoardStreamStop (u1 : Req) (s : State) {z : State} (h : Keeps z s) : AnsKeeps z (bodyBoardStreamStop u1 s) := by
  unfold bodyBoardStreamStop
  simp (maxDischargeDepth := 40) only [implies_true, ↓keeps_refl, ↓keeps_ite, ↓keeps_foldl, ↓keeps_mk, ↓ramKeeps_refl, ↓safeKeeps_refl, ↓safeKeeps_of_eq, ↓ramKeeps_of_eq, ↓ansKeeps_ite, ↓ansKeeps_done, ↓ansKeeps_later, ↓keeps_no, ↓keeps_okay, ↓keeps_give, ↓keeps_updBrd, h]

theorem keeps_execBoardStreamStop (r : Req) (s : State) {z : State} (h : Keeps z s) : ResKeeps z (execBoardStreamStop r s) :=
  keeps_mbx _ _ _ _ _ h (keeps_bodyBoardStreamStop r s h)

theorem keeps_execBoardStreamSlot (consumed : Word) (s : State) {z : State} (h : Keeps z s) : ResKeeps z (execBoardStreamSlot consumed s) := by
  unfold execBoardStreamSlot
  dsimp only
  (repeat' split) <;> simp (maxDischargeDepth := 40) only [implies_true, ↓keeps_refl, ↓keeps_ite, ↓keeps_foldl, ↓keeps_mk, ↓ramKeeps_refl, ↓safeKeeps_refl, ↓safeKeeps_of_eq, ↓ramKeeps_of_eq, ↓resKeeps_ite, ↓resKeeps_next, ↓keeps_brdCount, ↓keeps_emit, ↓keeps_event, ↓keeps_updBrd, h]

theorem keeps_bodyBoardStatus (r : Req) (s : State) {z : State} (h : Keeps z s) : AnsKeeps z (bodyBoardStatus r s) := by
  unfold bodyBoardStatus
  simp (maxDischargeDepth := 40) only [implies_true, ↓keeps_refl, ↓keeps_ite, ↓keeps_foldl, ↓keeps_mk, ↓ramKeeps_refl, ↓safeKeeps_refl, ↓safeKeeps_of_eq, ↓ramKeeps_of_eq, ↓ansKeeps_ite, ↓ansKeeps_done, ↓ansKeeps_later, ↓keeps_no, ↓keeps_okay, ↓keeps_give, ↓keeps_updBrd, h]

theorem keeps_execBoardStatus (r : Req) (s : State) {z : State} (h : Keeps z s) : ResKeeps z (execBoardStatus r s) :=
  keeps_mbx _ _ _ _ _ h (keeps_bodyBoardStatus r s h)

theorem keeps_execBoardContribFrame (src : Fin 64) (seq : BitVec 16) (recs : List Contrib) (s : State) {z : State} (h : Keeps z s) : ResKeeps z (execBoardContribFrame src seq recs s) := by
  unfold execBoardContribFrame
  simp (maxDischargeDepth := 40) only [implies_true, ↓keeps_refl, ↓keeps_ite, ↓keeps_foldl, ↓keeps_mk, ↓ramKeeps_refl, ↓safeKeeps_refl, ↓safeKeeps_of_eq, ↓ramKeeps_of_eq, ↓resKeeps_ite, ↓resKeeps_next, ↓keeps_holdRecs, h]

theorem keeps_dropFrames (d : Nat) (s : State) {z : State} (h : Keeps z s) : Keeps z (dropFrames d s).1 := by
  unfold dropFrames
  try dsimp only
  (repeat' split) <;> repeat' with_reducible first
    | exact h | exact keeps_refl _ | exact rfl | exact ramKeeps_refl _ | exact ramKeeps_writeAll _ _ _ | exact safeKeeps_refl _ | refine keeps_foldl (fun _ _ => ?_) ?_
    | apply keeps_ite
    | apply keeps_brdCount | exact safeKeeps_of_eq rfl rfl | dsimp only | split | refine keeps_mk ?_ ?_ ?_ ?_ ?_ ?_

theorem keeps_dropRelays (d : Nat) (s : State) {z : State} (h : Keeps z s) : Keeps z (dropRelays d s) := by
  unfold dropRelays
  simp (maxDischargeDepth := 40) only [implies_true, ↓keeps_refl, ↓keeps_ite, ↓keeps_foldl, ↓keeps_mk, ↓ramKeeps_refl, ↓safeKeeps_refl, ↓safeKeeps_of_eq, ↓ramKeeps_of_eq, ↓keeps_respond, ↓keeps_trace, h]

theorem keeps_forget (d : Nat) (s : State) {z : State} (h : Keeps z s) : Keeps z (forget d s).1 := by
  unfold forget
  try dsimp only
  (repeat' split) <;> repeat' with_reducible first
    | exact h | exact keeps_refl _ | exact rfl | exact ramKeeps_refl _ | exact ramKeeps_writeAll _ _ _ | exact safeKeeps_refl _ | refine keeps_foldl (fun _ _ => ?_) ?_
    | apply keeps_ite
    | apply keeps_dropFrames | apply keeps_dropRelays | exact safeKeeps_of_eq rfl rfl | dsimp only | split | refine keeps_mk ?_ ?_ ?_ ?_ ?_ ?_

theorem keeps_memberChange (e : Word) (s : State) {z : State} (h : Keeps z s) : Keeps z (memberChange e s) := by
  unfold memberChange
  simp (maxDischargeDepth := 40) only [implies_true, ↓keeps_refl, ↓keeps_ite, ↓keeps_foldl, ↓keeps_mk, ↓ramKeeps_refl, ↓safeKeeps_refl, ↓safeKeeps_of_eq, ↓ramKeeps_of_eq, ↓keeps_updBrd, h]

theorem keeps_leaveCommit (l : Word) (how d : Nat) (s : State) {z : State} (h : Keeps z s) : Keeps z (leaveCommit l how d s) := by
  unfold leaveCommit
  simp (maxDischargeDepth := 40) only [implies_true, ↓keeps_refl, ↓keeps_ite, ↓keeps_foldl, ↓keeps_mk, ↓ramKeeps_refl, ↓safeKeeps_refl, ↓safeKeeps_of_eq, ↓ramKeeps_of_eq, ↓keeps_brdCount, ↓keeps_event, ↓keeps_forget, ↓keeps_memberChange, ↓keeps_updBrd, ↓keeps_updDev, ↓keeps_updMem, h]

theorem keeps_joinCommit (j : Word) (d : Nat) (s : State) {z : State} (h : Keeps z s) : Keeps z (joinCommit j d s) := by
  unfold joinCommit
  simp (maxDischargeDepth := 40) only [implies_true, ↓keeps_refl, ↓keeps_ite, ↓keeps_foldl, ↓keeps_mk, ↓ramKeeps_refl, ↓safeKeeps_refl, ↓safeKeeps_of_eq, ↓ramKeeps_of_eq, ↓keeps_event, ↓keeps_memberChange, ↓keeps_updDev, ↓keeps_updMem, h]

theorem keeps_admitMember (d : Nat) (s : State) {z : State} (h : Keeps z s) : Keeps z (admitMember d s) := by
  unfold admitMember
  simp (maxDischargeDepth := 40) only [implies_true, ↓keeps_refl, ↓keeps_ite, ↓keeps_foldl, ↓keeps_mk, ↓ramKeeps_refl, ↓safeKeeps_refl, ↓safeKeeps_of_eq, ↓ramKeeps_of_eq, ↓keeps_sendAnswer, ↓keeps_updDev, ↓keeps_updMem, h]

theorem keeps_bodyJoinPermit (r : Req) (s : State) {z : State} (h : Keeps z s) : AnsKeeps z (bodyJoinPermit r s) := by
  unfold bodyJoinPermit
  simp (maxDischargeDepth := 40) only [implies_true, ↓keeps_refl, ↓keeps_ite, ↓keeps_foldl, ↓keeps_mk, ↓ramKeeps_refl, ↓safeKeeps_refl, ↓safeKeeps_of_eq, ↓ramKeeps_of_eq, ↓ansKeeps_ite, ↓ansKeeps_done, ↓ansKeeps_later, ↓keeps_no, ↓keeps_okay, ↓keeps_give, ↓keeps_admitMember, ↓keeps_updDev, ↓keeps_updMem, h]

theorem keeps_execJoinPermit (r : Req) (s : State) {z : State} (h : Keeps z s) : ResKeeps z (execJoinPermit r s) :=
  keeps_mbx _ _ _ _ _ h (keeps_bodyJoinPermit r s h)

theorem keeps_bodyLeave (r : Req) (s : State) {z : State} (h : Keeps z s) : AnsKeeps z (bodyLeave r s) := by
  unfold bodyLeave
  simp (maxDischargeDepth := 40) only [implies_true, ↓keeps_refl, ↓keeps_ite, ↓keeps_foldl, ↓keeps_mk, ↓ramKeeps_refl, ↓safeKeeps_refl, ↓safeKeeps_of_eq, ↓ramKeeps_of_eq, ↓ansKeeps_ite, ↓ansKeeps_done, ↓ansKeeps_later, ↓keeps_no, ↓keeps_okay, ↓keeps_give, ↓keeps_updMem, h]

theorem keeps_execLeave (r : Req) (s : State) {z : State} (h : Keeps z s) : ResKeeps z (execLeave r s) :=
  keeps_mbx _ _ _ _ _ h (keeps_bodyLeave r s h)

theorem keeps_bodyMemberConfig (r : Req) (s : State) {z : State} (h : Keeps z s) : AnsKeeps z (bodyMemberConfig r s) := by
  unfold bodyMemberConfig
  simp (maxDischargeDepth := 40) only [implies_true, ↓keeps_refl, ↓keeps_ite, ↓keeps_foldl, ↓keeps_mk, ↓ramKeeps_refl, ↓safeKeeps_refl, ↓safeKeeps_of_eq, ↓ramKeeps_of_eq, ↓ansKeeps_ite, ↓ansKeeps_done, ↓ansKeeps_later, ↓keeps_no, ↓keeps_okay, ↓keeps_give, ↓keeps_setCfg, h]

theorem keeps_execMemberConfig (r : Req) (s : State) {z : State} (h : Keeps z s) : ResKeeps z (execMemberConfig r s) :=
  keeps_mbx _ _ _ _ _ h (keeps_bodyMemberConfig r s h)

theorem keeps_bodyInstallTable (r : Req) (s : State) {z : State} (h : Keeps z s) : AnsKeeps z (bodyInstallTable r s) := by
  unfold bodyInstallTable
  simp (maxDischargeDepth := 40) only [implies_true, ↓keeps_refl, ↓keeps_ite, ↓keeps_foldl, ↓keeps_mk, ↓ramKeeps_refl, ↓safeKeeps_refl, ↓safeKeeps_of_eq, ↓ramKeeps_of_eq, ↓ansKeeps_ite, ↓ansKeeps_done, ↓ansKeeps_later, ↓keeps_no, ↓keeps_okay, ↓keeps_give, ↓keeps_sendCopies, ↓keeps_setCfg, ↓keeps_storeCfg, ↓keeps_updMem, h]

theorem keeps_execInstallTable (r : Req) (s : State) {z : State} (h : Keeps z s) : ResKeeps z (execInstallTable r s) :=
  keeps_mbx _ _ _ _ _ h (keeps_bodyInstallTable r s h)

theorem keeps_execMissedEpochs (dev : Fin 64) (s : State) {z : State} (h : Keeps z s) : ResKeeps z (execMissedEpochs dev s) := by
  unfold execMissedEpochs
  dsimp only
  (repeat' split) <;> simp (maxDischargeDepth := 40) only [implies_true, ↓keeps_refl, ↓keeps_ite, ↓keeps_foldl, ↓keeps_mk, ↓ramKeeps_refl, ↓safeKeeps_refl, ↓safeKeeps_of_eq, ↓ramKeeps_of_eq, ↓resKeeps_ite, ↓resKeeps_next, ↓keeps_leaveCommit, ↓keeps_setThr, h]

theorem keeps_execPubIncomplete (epoch : Word) (missing : Nat) (s : State) {z : State} (h : Keeps z s) : ResKeeps z (execPubIncomplete epoch missing s) := by
  unfold execPubIncomplete
  simp (maxDischargeDepth := 40) only [implies_true, ↓keeps_refl, ↓keeps_ite, ↓keeps_foldl, ↓keeps_mk, ↓ramKeeps_refl, ↓safeKeeps_refl, ↓safeKeeps_of_eq, ↓ramKeeps_of_eq, ↓resKeeps_ite, ↓resKeeps_next, ↓keeps_brdCount, ↓keeps_event, ↓keeps_updMem, h]

end Sys2Proof.Machine
end

