-- ==== Sys2Proof/Laws/KeepRoles.lean ====
section
/-! SUPPORT. Every operation and meaning of Machine/Roles.lean keeps what `Keeps` names. -/

set_option linter.unusedSimpArgs false

namespace Sys2Proof.Machine

theorem keeps_hear (a b : Bool) (m : Member) (s : State) {z : State} (h : Keeps z s) : Keeps z (hear a b m s) := by
  unfold hear
  simp (maxDischargeDepth := 40) only [implies_true, ↓keeps_refl, ↓keeps_ite, ↓keeps_foldl, ↓keeps_mk, ↓ramKeeps_refl, ↓safeKeeps_refl, ↓safeKeeps_of_eq, ↓ramKeeps_of_eq, ↓keeps_updateRings, h]

theorem keeps_ownNumber (net port : Nat) (s : State) {z : State} (h : Keeps z s) : Keeps z (ownNumber net port s) := by
  unfold ownNumber
  simp (maxDischargeDepth := 40) only [implies_true, ↓keeps_refl, ↓keeps_ite, ↓keeps_foldl, ↓keeps_mk, ↓ramKeeps_refl, ↓safeKeeps_refl, ↓safeKeeps_of_eq, ↓ramKeeps_of_eq, ↓keeps_event, ↓keeps_latchCause, ↓keeps_report, h]

theorem keeps_ownNumberFree (s : State) {z : State} (h : Keeps z s) : Keeps z (ownNumberFree s) := by
  unfold ownNumberFree
  simp (maxDischargeDepth := 40) only [implies_true, ↓keeps_refl, ↓keeps_ite, ↓keeps_foldl, ↓keeps_mk, ↓ramKeeps_refl, ↓safeKeeps_refl, ↓safeKeeps_of_eq, ↓ramKeeps_of_eq, ↓keeps_ownNumber, ↓keeps_stepFree, h]

theorem keeps_hearOn (net port : Bool) (m : Member) (k : State → State) (s : State) {z : State} (hk : ∀ t, Keeps t (k t)) (h : Keeps z s) :
    Keeps z (hearOn net port m k s) :=
  keeps_ite (keeps_ownNumber _ _ s h) (keeps_trans (keeps_hear _ _ m s h) (hk _))


theorem keeps_hearBoth (m : Member) (k : State → State) (s : State) {z : State} (hk : ∀ t, Keeps t (k t)) (h : Keeps z s) :
    Keeps z (hearBoth m k s) :=
  keeps_ite (keeps_ownNumberFree s h) (keeps_trans (keeps_hear _ _ m s h) (hk _))


theorem keeps_execMemberPresent (net port : Bool) (m : Member) (s : State) {z : State} (h : Keeps z s) : ResKeeps z (execMemberPresent net port m s) := by
  unfold execMemberPresent
  (repeat' split) <;> simp (maxDischargeDepth := 40) [implies_true, ↓keeps_refl, ↓keeps_ite, ↓keeps_foldl, ↓keeps_mk, ↓ramKeeps_refl, ↓safeKeeps_refl, ↓safeKeeps_of_eq, ↓ramKeeps_of_eq, ↓resKeeps_ite, ↓resKeeps_next, ↓keeps_hearOn, h]

theorem keeps_newWindow (s : State) {z : State} (h : Keeps z s) : Keeps z (newWindow s) := by
  unfold newWindow
  simp (maxDischargeDepth := 40) only [implies_true, ↓keeps_refl, ↓keeps_ite, ↓keeps_foldl, ↓keeps_mk, ↓ramKeeps_refl, ↓safeKeeps_refl, ↓safeKeeps_of_eq, ↓ramKeeps_of_eq, ↓keeps_updMem, h]

theorem keeps_noQuorum (s : State) {z : State} (h : Keeps z s) : Keeps z (noQuorum s) := by
  unfold noQuorum
  simp (maxDischargeDepth := 40) only [implies_true, ↓keeps_refl, ↓keeps_ite, ↓keeps_foldl, ↓keeps_mk, ↓ramKeeps_refl, ↓safeKeeps_refl, ↓safeKeeps_of_eq, ↓ramKeeps_of_eq, ↓keeps_event, ↓keeps_report, ↓keeps_updMem, h]

theorem keeps_formActive (s : State) {z : State} (h : Keeps z s) : Keeps z (formActive s) := by
  unfold formActive
  simp (maxDischargeDepth := 40) only [implies_true, ↓keeps_refl, ↓keeps_ite, ↓keeps_foldl, ↓keeps_mk, ↓ramKeeps_refl, ↓safeKeeps_refl, ↓safeKeeps_of_eq, ↓ramKeeps_of_eq, ↓keeps_noQuorum, ↓keeps_selectSource, ↓keeps_setLife, ↓keeps_setRole, ↓keeps_updMem, h]

theorem keeps_formation (s : State) {z : State} (h : Keeps z s) : Keeps z (formation s) := by
  unfold formation
  simp (maxDischargeDepth := 40) only [implies_true, ↓keeps_refl, ↓keeps_ite, ↓keeps_foldl, ↓keeps_mk, ↓ramKeeps_refl, ↓safeKeeps_refl, ↓safeKeeps_of_eq, ↓ramKeeps_of_eq, ↓keeps_formActive, ↓keeps_noQuorum, ↓keeps_sendMember, ↓keeps_silentIfSafe, ↓keeps_updMem, h]

theorem keeps_execFormationWindowEnd (s : State) {z : State} (h : Keeps z s) : ResKeeps z (execFormationWindowEnd s) := by
  unfold execFormationWindowEnd
  simp (maxDischargeDepth := 40) only [implies_true, ↓keeps_refl, ↓keeps_ite, ↓keeps_foldl, ↓keeps_mk, ↓ramKeeps_refl, ↓safeKeeps_refl, ↓safeKeeps_of_eq, ↓ramKeeps_of_eq, ↓resKeeps_ite, ↓resKeeps_next, ↓keeps_formation, ↓keeps_newWindow, h]

theorem keeps_execJoinRequestTimer (s : State) {z : State} (h : Keeps z s) : ResKeeps z (execJoinRequestTimer s) := by
  unfold execJoinRequestTimer
  simp (maxDischargeDepth := 40) only [implies_true, ↓keeps_refl, ↓keeps_ite, ↓keeps_foldl, ↓keeps_mk, ↓ramKeeps_refl, ↓safeKeeps_refl, ↓safeKeeps_of_eq, ↓ramKeeps_of_eq, ↓resKeeps_ite, ↓resKeeps_next, ↓keeps_sendMember, h]

theorem keeps_takeJoin (m : Member) (s : State) {z : State} (h : Keeps z s) : Keeps z (takeJoin m s) := by
  unfold takeJoin
  simp (maxDischargeDepth := 40) only [implies_true, ↓keeps_refl, ↓keeps_ite, ↓keeps_foldl, ↓keeps_mk, ↓ramKeeps_refl, ↓safeKeeps_refl, ↓safeKeeps_of_eq, ↓ramKeeps_of_eq, ↓keeps_admitMember, ↓keeps_event, ↓keeps_refuseJoin, ↓keeps_sendAnswer, ↓keeps_updDev, ↓keeps_updMem, h]

theorem keeps_execJoinFrame (net port : Bool) (m : Member) (s : State) {z : State} (h : Keeps z s) : ResKeeps z (execJoinFrame net port m s) := by
  unfold execJoinFrame
  simp (maxDischargeDepth := 40) only [implies_true, ↓keeps_refl, ↓keeps_ite, ↓keeps_foldl, ↓keeps_mk, ↓ramKeeps_refl, ↓safeKeeps_refl, ↓safeKeeps_of_eq, ↓ramKeeps_of_eq, ↓resKeeps_ite, ↓resKeeps_next, ↓keeps_hearOn, ↓keeps_takeJoin, h]

theorem keeps_takeThrusters (h1 : Handshake) (s : State) {z : State} (h : Keeps z s) : Keeps z (takeThrusters h1 s) := by
  unfold takeThrusters
  simp (maxDischargeDepth := 40) only [implies_true, ↓keeps_refl, ↓keeps_ite, ↓keeps_foldl, ↓keeps_mk, ↓ramKeeps_refl, ↓safeKeeps_refl, ↓safeKeeps_of_eq, ↓ramKeeps_of_eq, h]

theorem keeps_takePlant (h1 : Handshake) (s : State) {z : State} (h : Keeps z s) : Keeps z (takePlant h1 s) := by
  unfold takePlant
  simp (maxDischargeDepth := 40) only [implies_true, ↓keeps_refl, ↓keeps_ite, ↓keeps_foldl, ↓keeps_mk, ↓ramKeeps_refl, ↓safeKeeps_refl, ↓safeKeeps_of_eq, ↓ramKeeps_of_eq, ↓keeps_takeThrusters, h]

theorem keeps_takeDefinitions (h1 : Handshake) (s : State) {z : State} (h : Keeps z s) : Keeps z (takeDefinitions h1 s) := by
  unfold takeDefinitions
  simp (maxDischargeDepth := 40) only [implies_true, ↓keeps_refl, ↓keeps_ite, ↓keeps_foldl, ↓keeps_mk, ↓ramKeeps_refl, ↓safeKeeps_refl, ↓safeKeeps_of_eq, ↓ramKeeps_of_eq, h]

theorem keeps_takeCounters (h1 : Handshake) (s : State) {z : State} (h : Keeps z s) : Keeps z (takeCounters h1 s) := by
  unfold takeCounters
  simp (maxDischargeDepth := 40) only [implies_true, ↓keeps_refl, ↓keeps_ite, ↓keeps_foldl, ↓keeps_mk, ↓ramKeeps_refl, ↓safeKeeps_refl, ↓safeKeeps_of_eq, ↓ramKeeps_of_eq, ↓keeps_updDp, h]

theorem keeps_adoptHandshake (h1 : Handshake) (s : State) {z : State} (h : Keeps z s) : Keeps z (adoptHandshake h1 s) := by
  unfold adoptHandshake
  simp (maxDischargeDepth := 40) only [implies_true, ↓keeps_refl, ↓keeps_ite, ↓keeps_foldl, ↓keeps_mk, ↓ramKeeps_refl, ↓safeKeeps_refl, ↓safeKeeps_of_eq, ↓ramKeeps_of_eq, ↓keeps_flrPairs, ↓keeps_moveTime, ↓keeps_regate, ↓keeps_takeCounters, ↓keeps_takeDefinitions, ↓keeps_takeThrusters, h]

theorem keeps_takeAnswer (m : Member) (hs : Option Handshake) (s : State) {z : State} (h : Keeps z s) : Keeps z (takeAnswer m hs s) := by
  unfold takeAnswer
  (repeat' split) <;> simp (maxDischargeDepth := 40) [implies_true, ↓keeps_refl, ↓keeps_ite, ↓keeps_foldl, ↓keeps_mk, ↓ramKeeps_refl, ↓safeKeeps_refl, ↓safeKeeps_of_eq, ↓ramKeeps_of_eq, ↓keeps_adoptHandshake, ↓keeps_takePlant, ↓keeps_updMem, h]

theorem keeps_execJoinAnswerFrame (m : Member) (hs : Option Handshake) (s : State) {z : State} (h : Keeps z s) : ResKeeps z (execJoinAnswerFrame m hs s) := by
  unfold execJoinAnswerFrame
  simp (maxDischargeDepth := 40) only [implies_true, ↓keeps_refl, ↓keeps_ite, ↓keeps_foldl, ↓keeps_mk, ↓ramKeeps_refl, ↓safeKeeps_refl, ↓safeKeeps_of_eq, ↓ramKeeps_of_eq, ↓resKeeps_ite, ↓resKeeps_next, ↓keeps_hearBoth, ↓keeps_takeAnswer, h]

theorem keeps_execLeaveFrame (m : Member) (s : State) {z : State} (h : Keeps z s) : ResKeeps z (execLeaveFrame m s) := by
  unfold execLeaveFrame
  simp (maxDischargeDepth := 40) only [implies_true, ↓keeps_refl, ↓keeps_ite, ↓keeps_foldl, ↓keeps_mk, ↓ramKeeps_refl, ↓safeKeeps_refl, ↓safeKeeps_of_eq, ↓ramKeeps_of_eq, ↓resKeeps_ite, ↓resKeeps_next, ↓keeps_hearBoth, ↓keeps_updMem, h]

theorem keeps_execRecoveryFrame (m : Member) (s : State) {z : State} (h : Keeps z s) : ResKeeps z (execRecoveryFrame m s) := by
  unfold execRecoveryFrame
  simp (maxDischargeDepth := 40) only [implies_true, ↓keeps_refl, ↓keeps_ite, ↓keeps_foldl, ↓keeps_mk, ↓ramKeeps_refl, ↓safeKeeps_refl, ↓safeKeeps_of_eq, ↓ramKeeps_of_eq, ↓resKeeps_ite, ↓resKeeps_next, ↓keeps_event, ↓keeps_hearBoth, ↓keeps_sendAnswer, ↓keeps_updMem, h]

theorem keeps_decideTakeover (reason : Nat) (s : State) {z : State} (h : Keeps z s) : Keeps z (decideTakeover reason s) := by
  unfold decideTakeover
  simp (maxDischargeDepth := 40) only [implies_true, ↓keeps_refl, ↓keeps_ite, ↓keeps_foldl, ↓keeps_mk, ↓ramKeeps_refl, ↓safeKeeps_refl, ↓safeKeeps_of_eq, ↓ramKeeps_of_eq, ↓keeps_abandonSwap, ↓keeps_noQuorum, ↓keeps_selectSource, ↓keeps_setRole, h]

theorem keeps_execTakeoverDecision (s : State) {z : State} (h : Keeps z s) : ResKeeps z (execTakeoverDecision s) := by
  unfold execTakeoverDecision
  (repeat' split) <;> simp (maxDischargeDepth := 40) [implies_true, ↓keeps_refl, ↓keeps_ite, ↓keeps_foldl, ↓keeps_mk, ↓ramKeeps_refl, ↓safeKeeps_refl, ↓safeKeeps_of_eq, ↓ramKeeps_of_eq, ↓resKeeps_ite, ↓resKeeps_next, ↓keeps_decideTakeover, h]

theorem keeps_takeSilent (m : Member) (s : State) {z : State} (h : Keeps z s) : Keeps z (takeSilent m s) := by
  unfold takeSilent
  simp (maxDischargeDepth := 40) only [implies_true, ↓keeps_refl, ↓keeps_ite, ↓keeps_foldl, ↓keeps_mk, ↓ramKeeps_refl, ↓safeKeeps_refl, ↓safeKeeps_of_eq, ↓ramKeeps_of_eq, ↓keeps_abandonSwap, ↓keeps_decideTakeover, ↓keeps_event, ↓keeps_raiseAlarm, ↓keeps_updMem, h]

theorem keeps_execSilentFrame (m : Member) (s : State) {z : State} (h : Keeps z s) : ResKeeps z (execSilentFrame m s) := by
  unfold execSilentFrame
  simp (maxDischargeDepth := 40) only [implies_true, ↓keeps_refl, ↓keeps_ite, ↓keeps_foldl, ↓keeps_mk, ↓ramKeeps_refl, ↓safeKeeps_refl, ↓safeKeeps_of_eq, ↓ramKeeps_of_eq, ↓resKeeps_ite, ↓resKeeps_next, ↓keeps_hearBoth, ↓keeps_takeSilent, h]

theorem keeps_engageCtxs (thr : Nat) (r : CmdRec) (s : State) {z : State} (h : Keeps z s) : Keeps z (engageCtxs thr r s) := by
  unfold engageCtxs
  simp (maxDischargeDepth := 40) only [implies_true, ↓keeps_refl, ↓keeps_ite, ↓keeps_foldl, ↓keeps_mk, ↓ramKeeps_refl, ↓safeKeeps_refl, ↓safeKeeps_of_eq, ↓ramKeeps_of_eq, ↓keeps_disableCtx, ↓keeps_enableCtx, h]

theorem keeps_startCompare (x : Selection) (s : State) {z : State} (h : Keeps z s) : Keeps z (startCompare x s) := by
  unfold startCompare
  simp (maxDischargeDepth := 40) only [implies_true, ↓keeps_refl, ↓keeps_ite, ↓keeps_foldl, ↓keeps_mk, ↓ramKeeps_refl, ↓safeKeeps_refl, ↓safeKeeps_of_eq, ↓ramKeeps_of_eq, ↓keeps_updSafe, h]

theorem keeps_reportCompare (thr : Nat) (e : Word) (x : Selection) (act : Nat) (r : Option CmdRec) (s : State) {z : State} (h : Keeps z s) : Keeps z (reportCompare thr e x act r s) := by
  unfold reportCompare
  simp (maxDischargeDepth := 40) only [implies_true, ↓keeps_refl, ↓keeps_ite, ↓keeps_foldl, ↓keeps_mk, ↓ramKeeps_refl, ↓safeKeeps_refl, ↓safeKeeps_of_eq, ↓ramKeeps_of_eq, ↓keeps_event, ↓keeps_startCompare, h]

theorem keeps_applyThr (told : Bool) (e : Word) (s : State) (n : Nat) {z : State} (h : Keeps z s) : Keeps z (applyThr told e s n) := by
  unfold applyThr
  dsimp only
  (repeat' split) <;> simp (maxDischargeDepth := 40) only [implies_true, ↓keeps_refl, ↓keeps_ite, ↓keeps_foldl, ↓keeps_mk, ↓ramKeeps_refl, ↓safeKeeps_refl, ↓safeKeeps_of_eq, ↓ramKeeps_of_eq, ↓keeps_engageCtxs, ↓keeps_reportCompare, h]

theorem keeps_applyAll (told : Bool) (e : Word) (s : State) {z : State} (h : Keeps z s) : Keeps z (applyAll told e s) := by
  unfold applyAll
  simp (maxDischargeDepth := 40) only [implies_true, ↓keeps_refl, ↓keeps_ite, ↓keeps_foldl, ↓keeps_mk, ↓ramKeeps_refl, ↓safeKeeps_refl, ↓safeKeeps_of_eq, ↓ramKeeps_of_eq, ↓keeps_applyThr, ↓keeps_driveOutputs, ↓keeps_flrRelease, h]

theorem keeps_execCmdFrame (mgr : Fin 3) (epoch16 : BitVec 16) (recs : List CmdRec) (s : State) {z : State} (h : Keeps z s) : ResKeeps z (execCmdFrame mgr epoch16 recs s) := by
  unfold execCmdFrame
  simp (maxDischargeDepth := 40) only [implies_true, ↓keeps_refl, ↓keeps_ite, ↓keeps_foldl, ↓keeps_mk, ↓ramKeeps_refl, ↓safeKeeps_refl, ↓safeKeeps_of_eq, ↓ramKeeps_of_eq, ↓resKeeps_ite, ↓resKeeps_next, h]

theorem keeps_execCmdWaitExpiry (s : State) {z : State} (h : Keeps z s) : ResKeeps z (execCmdWaitExpiry s) := by
  unfold execCmdWaitExpiry
  simp (maxDischargeDepth := 40) only [implies_true, ↓keeps_refl, ↓keeps_ite, ↓keeps_foldl, ↓keeps_mk, ↓ramKeeps_refl, ↓safeKeeps_refl, ↓safeKeeps_of_eq, ↓ramKeeps_of_eq, ↓resKeeps_ite, ↓resKeeps_next, ↓keeps_applyAll, h]

theorem keeps_reselect (s : State) {z : State} (h : Keeps z s) : Keeps z (reselect s) := by
  unfold reselect
  simp (maxDischargeDepth := 40) only [implies_true, ↓keeps_refl, ↓keeps_ite, ↓keeps_foldl, ↓keeps_mk, ↓ramKeeps_refl, ↓safeKeeps_refl, ↓safeKeeps_of_eq, ↓ramKeeps_of_eq, ↓keeps_applyAll, h]

theorem keeps_bodyRoleStatus (u1 : Req) (s : State) {z : State} (h : Keeps z s) : AnsKeeps z (bodyRoleStatus u1 s) := by
  unfold bodyRoleStatus
  simp (maxDischargeDepth := 40) only [implies_true, ↓keeps_refl, ↓keeps_ite, ↓keeps_foldl, ↓keeps_mk, ↓ramKeeps_refl, ↓safeKeeps_refl, ↓safeKeeps_of_eq, ↓ramKeeps_of_eq, ↓ansKeeps_ite, ↓ansKeeps_done, ↓ansKeeps_later, ↓keeps_no, ↓keeps_okay, ↓keeps_give, h]

theorem keeps_execRoleStatus (r : Req) (s : State) {z : State} (h : Keeps z s) : ResKeeps z (execRoleStatus r s) :=
  keeps_mbx _ _ _ _ _ h (keeps_bodyRoleStatus r s h)

theorem keeps_bodyRoleSwap (r : Req) (s : State) {z : State} (h : Keeps z s) : AnsKeeps z (bodyRoleSwap r s) := by
  unfold bodyRoleSwap
  simp (maxDischargeDepth := 40) only [implies_true, ↓keeps_refl, ↓keeps_ite, ↓keeps_foldl, ↓keeps_mk, ↓ramKeeps_refl, ↓safeKeeps_refl, ↓safeKeeps_of_eq, ↓ramKeeps_of_eq, ↓ansKeeps_ite, ↓ansKeeps_done, ↓ansKeeps_later, ↓keeps_no, ↓keeps_okay, ↓keeps_give, ↓keeps_updBrd, h]

theorem keeps_execRoleSwap (r : Req) (s : State) {z : State} (h : Keeps z s) : ResKeeps z (execRoleSwap r s) :=
  keeps_mbx _ _ _ _ _ h (keeps_bodyRoleSwap r s h)

theorem keeps_bodyMgrSilence (r : Req) (s : State) {z : State} (h : Keeps z s) : AnsKeeps z (bodyMgrSilence r s) := by
  unfold bodyMgrSilence
  simp (maxDischargeDepth := 40) only [implies_true, ↓keeps_refl, ↓keeps_ite, ↓keeps_foldl, ↓keeps_mk, ↓ramKeeps_refl, ↓safeKeeps_refl, ↓safeKeeps_of_eq, ↓ramKeeps_of_eq, ↓ansKeeps_ite, ↓ansKeeps_done, ↓ansKeeps_later, ↓keeps_no, ↓keeps_okay, ↓keeps_give, ↓keeps_sendCopies, ↓keeps_updMem, h]

theorem keeps_execMgrSilence (r : Req) (s : State) {z : State} (h : Keeps z s) : ResKeeps z (execMgrSilence r s) :=
  keeps_mbx _ _ _ _ _ h (keeps_bodyMgrSilence r s h)

theorem keeps_takeRedundancy (close : Nat) (s : State) {z : State} (h : Keeps z s) : Keeps z (takeRedundancy close s) := by
  unfold takeRedundancy
  dsimp only
  (repeat' split) <;> simp (maxDischargeDepth := 40) only [implies_true, ↓keeps_refl, ↓keeps_ite, ↓keeps_foldl, ↓keeps_mk, ↓ramKeeps_refl, ↓safeKeeps_refl, ↓safeKeeps_of_eq, ↓ramKeeps_of_eq, ↓keeps_updMem, h]

theorem keeps_bodyRedundancyConfig (r : Req) (s : State) {z : State} (h : Keeps z s) : AnsKeeps z (bodyRedundancyConfig r s) := by
  unfold bodyRedundancyConfig
  simp (maxDischargeDepth := 40) only [implies_true, ↓keeps_refl, ↓keeps_ite, ↓keeps_foldl, ↓keeps_mk, ↓ramKeeps_refl, ↓safeKeeps_refl, ↓safeKeeps_of_eq, ↓ramKeeps_of_eq, ↓ansKeeps_ite, ↓ansKeeps_done, ↓ansKeeps_later, ↓keeps_no, ↓keeps_okay, ↓keeps_give, ↓keeps_shareCfg, ↓keeps_storeCfg, ↓keeps_updMem, h]

theorem keeps_execRedundancyConfig (r : Req) (s : State) {z : State} (h : Keeps z s) : ResKeeps z (execRedundancyConfig r s) :=
  keeps_mbx _ _ _ _ _ h (keeps_bodyRedundancyConfig r s h)

end Sys2Proof.Machine
end

