-- ==== Sys2Proof/Laws/KeepPublish.lean ====
section
/-! SUPPORT. Every operation and meaning of Machine/Publish.lean keeps what `Keeps` names. -/

set_option linter.unusedSimpArgs false

namespace Sys2Proof.Machine

theorem keeps_setFlags (s : State) {z : State} (h : Keeps z s) : Keeps z (setFlags s) := by
  unfold setFlags
  simp (maxDischargeDepth := 40) only [implies_true, ↓keeps_refl, ↓keeps_ite, ↓keeps_foldl, ↓keeps_mk, ↓ramKeeps_refl, ↓safeKeeps_refl, ↓safeKeeps_of_eq, ↓ramKeeps_of_eq, ↓keeps_updDp, h]

theorem keeps_moveOrigin (lat lon : Word) (s : State) {z : State} (h : Keeps z s) : Keeps z (moveOrigin lat lon s) := by
  unfold moveOrigin
  simp (maxDischargeDepth := 40) only [implies_true, ↓keeps_refl, ↓keeps_ite, ↓keeps_foldl, ↓keeps_mk, ↓ramKeeps_refl, ↓safeKeeps_refl, ↓safeKeeps_of_eq, ↓ramKeeps_of_eq, ↓keeps_updDp, ↓keeps_updFus, h]

theorem keeps_takeMode (s : State) {z : State} (h : Keeps z s) : Keeps z (takeMode s) := by
  unfold takeMode
  dsimp only
  (repeat' split) <;> simp (maxDischargeDepth := 40) only [implies_true, ↓keeps_refl, ↓keeps_ite, ↓keeps_foldl, ↓keeps_mk, ↓ramKeeps_refl, ↓safeKeeps_refl, ↓safeKeeps_of_eq, ↓ramKeeps_of_eq, ↓keeps_event, ↓keeps_updDp, ↓keeps_updStall, h]

theorem keeps_takeValues (s : State) {z : State} (h : Keeps z s) : Keeps z (takeValues s) := by
  unfold takeValues
  dsimp only
  (repeat' split) <;> simp (maxDischargeDepth := 40) only [implies_true, ↓keeps_refl, ↓keeps_ite, ↓keeps_foldl, ↓keeps_mk, ↓ramKeeps_refl, ↓safeKeeps_refl, ↓safeKeeps_of_eq, ↓ramKeeps_of_eq, ↓keeps_moveOrigin, ↓keeps_updDp, h]

theorem keeps_rescenario (old : Cfg) (s : State) (n : Nat) {z : State} (h : Keeps z s) : Keeps z (rescenario old s n) := by
  unfold rescenario
  simp (maxDischargeDepth := 40) only [implies_true, ↓keeps_refl, ↓keeps_ite, ↓keeps_foldl, ↓keeps_mk, ↓ramKeeps_refl, ↓safeKeeps_refl, ↓safeKeeps_of_eq, ↓ramKeeps_of_eq, ↓keeps_buildScenario, ↓keeps_settleConseq, ↓keeps_updStall, h]

theorem keeps_passDescriptors (s : State) {z : State} (h : Keeps z s) : Keeps z (passDescriptors s) := by
  unfold passDescriptors
  simp (maxDischargeDepth := 40) only [implies_true, ↓keeps_refl, ↓keeps_ite, ↓keeps_foldl, ↓keeps_mk, ↓ramKeeps_refl, ↓safeKeeps_refl, ↓safeKeeps_of_eq, ↓ramKeeps_of_eq, ↓keeps_passTo, h]

theorem keeps_takeCfg (s : State) {z : State} (h : Keeps z s) : Keeps z (takeCfg s) := by
  unfold takeCfg
  dsimp only
  (repeat' split) <;> simp (maxDischargeDepth := 40) only [implies_true, ↓keeps_refl, ↓keeps_ite, ↓keeps_foldl, ↓keeps_mk, ↓ramKeeps_refl, ↓safeKeeps_refl, ↓safeKeeps_of_eq, ↓ramKeeps_of_eq, ↓keeps_flrPairs, ↓keeps_passDescriptors, ↓keeps_regate, ↓keeps_rescenario, h]

theorem keeps_takeAccepted (close : Nat) (s : State) {z : State} (h : Keeps z s) : Keeps z (takeAccepted close s) := by
  unfold takeAccepted
  simp (maxDischargeDepth := 40) only [implies_true, ↓keeps_refl, ↓keeps_ite, ↓keeps_foldl, ↓keeps_mk, ↓ramKeeps_refl, ↓safeKeeps_refl, ↓safeKeeps_of_eq, ↓ramKeeps_of_eq, ↓keeps_activatePending, ↓keeps_takeCfg, ↓keeps_takeMode, ↓keeps_takeValues, ↓keeps_updDp, ↓keeps_updMem, h]

theorem keeps_takeDpCycle (close : Nat) (s : State) {z : State} (h : Keeps z s) : Keeps z (takeDpCycle close s) := by
  unfold takeDpCycle
  dsimp only
  (repeat' split) <;> simp (maxDischargeDepth := 40) only [implies_true, ↓keeps_refl, ↓keeps_ite, ↓keeps_foldl, ↓keeps_mk, ↓ramKeeps_refl, ↓safeKeeps_refl, ↓safeKeeps_of_eq, ↓ramKeeps_of_eq, ↓keeps_takeAccepted, ↓keeps_updDp, h]

theorem keeps_switchTo (source kind : Nat) (desc : List Byte) (sig : Word) (loss : Nat) (s : State) {z : State} (h : Keeps z s) : Keeps z (switchTo source kind desc sig loss s) := by
  unfold switchTo
  simp (maxDischargeDepth := 40) only [implies_true, ↓keeps_refl, ↓keeps_ite, ↓keeps_foldl, ↓keeps_mk, ↓ramKeeps_refl, ↓safeKeeps_refl, ↓safeKeeps_of_eq, ↓ramKeeps_of_eq, ↓keeps_clearAlarm, ↓keeps_event, ↓keeps_updDp, ↓keeps_updStall, h]

theorem keeps_switchStructure (s0 : State) {z : State} (h : Keeps z s0) : Keeps z (switchStructure s0) := by
  unfold switchStructure
  dsimp only
  (repeat' split) <;> simp (maxDischargeDepth := 40) only [implies_true, ↓keeps_refl, ↓keeps_ite, ↓keeps_foldl, ↓keeps_mk, ↓ramKeeps_refl, ↓safeKeeps_refl, ↓safeKeeps_of_eq, ↓ramKeeps_of_eq, ↓keeps_event, ↓keeps_switchTo, ↓keeps_updDp, h]

theorem keeps_buildCycle (i : Image) (s0 : State) {z : State} (h : Keeps z s0) : Keeps z (buildCycle i s0) := by
  unfold buildCycle
  simp (maxDischargeDepth := 40) only [implies_true, ↓keeps_refl, ↓keeps_ite, ↓keeps_foldl, ↓keeps_mk, ↓ramKeeps_refl, ↓safeKeeps_refl, ↓safeKeeps_of_eq, ↓ramKeeps_of_eq, ↓keeps_dispatch, ↓keeps_feedStalls, ↓keeps_stopSolve, ↓keeps_switchStructure, ↓keeps_updDp, h]

theorem keeps_abandonCycle (s : State) {z : State} (h : Keeps z s) : Keeps z (abandonCycle s) := by
  unfold abandonCycle
  simp (maxDischargeDepth := 40) only [implies_true, ↓keeps_refl, ↓keeps_ite, ↓keeps_foldl, ↓keeps_mk, ↓ramKeeps_refl, ↓safeKeeps_refl, ↓safeKeeps_of_eq, ↓ramKeeps_of_eq, ↓keeps_updDp, h]

theorem keeps_keepHeading (i : Image) (s : State) {z : State} (h : Keeps z s) : Keeps z (keepHeading i s) := by
  unfold keepHeading
  simp (maxDischargeDepth := 40) only [implies_true, ↓keeps_refl, ↓keeps_ite, ↓keeps_foldl, ↓keeps_mk, ↓ramKeeps_refl, ↓safeKeeps_refl, ↓safeKeeps_of_eq, ↓ramKeeps_of_eq, ↓keeps_updDp, h]

theorem keeps_settleBuilds (s : State) {z : State} (h : Keeps z s) : Keeps z (settleBuilds s) := by
  unfold settleBuilds
  simp (maxDischargeDepth := 40) only [implies_true, ↓keeps_refl, ↓keeps_ite, ↓keeps_foldl, ↓keeps_mk, ↓ramKeeps_refl, ↓safeKeeps_refl, ↓safeKeeps_of_eq, ↓ramKeeps_of_eq, ↓keeps_updStall, h]

theorem keeps_dpWork (i : Image) (s0 : State) {z : State} (h : Keeps z s0) : Keeps z (dpWork i s0) := by
  unfold dpWork
  simp (maxDischargeDepth := 40) only [implies_true, ↓keeps_refl, ↓keeps_ite, ↓keeps_foldl, ↓keeps_mk, ↓ramKeeps_refl, ↓safeKeeps_refl, ↓safeKeeps_of_eq, ↓ramKeeps_of_eq, ↓keeps_abandonCycle, ↓keeps_buildCycle, ↓keeps_fallbackLaw, ↓keeps_keepHeading, ↓keeps_reloadStalls, ↓keeps_settleBuilds, h]

theorem keeps_settleSilent (old : Option Image) (i : Image) (s : State) {z : State} (h : Keeps z s) : Keeps z (settleSilent old i s) := by
  unfold settleSilent
  simp (maxDischargeDepth := 40) only [implies_true, ↓keeps_refl, ↓keeps_ite, ↓keeps_foldl, ↓keeps_mk, ↓ramKeeps_refl, ↓safeKeeps_refl, ↓safeKeeps_of_eq, ↓ramKeeps_of_eq, ↓keeps_clearAlarm, ↓keeps_updMem, h]

theorem keeps_imageTaken (i : Image) (s : State) {z : State} (h : Keeps z s) : Keeps z (imageTaken i s) := by
  unfold imageTaken
  simp (maxDischargeDepth := 40) only [implies_true, ↓keeps_refl, ↓keeps_ite, ↓keeps_foldl, ↓keeps_mk, ↓ramKeeps_refl, ↓safeKeeps_refl, ↓safeKeeps_of_eq, ↓ramKeeps_of_eq, ↓keeps_captureImage, ↓keeps_dpWork, ↓keeps_flrBoard, ↓keeps_histoSample, ↓keeps_inputBack, ↓keeps_raiseIrq, ↓keeps_settleSilent, ↓keeps_updBrd, ↓keeps_updMem, ↓keeps_updateGates, h]

theorem keeps_sendJoinCopies (s : State) {z : State} (h : Keeps z s) : Keeps z (sendJoinCopies s) := by
  unfold sendJoinCopies
  simp (maxDischargeDepth := 40) only [implies_true, ↓keeps_refl, ↓keeps_ite, ↓keeps_foldl, ↓keeps_mk, ↓ramKeeps_refl, ↓safeKeeps_refl, ↓safeKeeps_of_eq, ↓ramKeeps_of_eq, ↓keeps_sendCopies, h]

theorem keeps_sendImage (i : Image) (s : State) {z : State} (h : Keeps z s) : Keeps z (sendImage i s) := by
  unfold sendImage
  simp (maxDischargeDepth := 40) only [implies_true, ↓keeps_refl, ↓keeps_ite, ↓keeps_foldl, ↓keeps_mk, ↓ramKeeps_refl, ↓safeKeeps_refl, ↓safeKeeps_of_eq, ↓ramKeeps_of_eq, ↓keeps_brdCount, ↓keeps_memberChange, ↓keeps_sendJoinCopies, ↓keeps_sendLong, ↓keeps_updBrd, ↓keeps_updMem, h]

theorem keeps_publish (late : Bool) (s : State) {z : State} (h : Keeps z s) : Keeps z (publish late s) := by
  unfold publish
  dsimp only
  (repeat' split) <;> simp (maxDischargeDepth := 40) only [implies_true, ↓keeps_refl, ↓keeps_ite, ↓keeps_foldl, ↓keeps_mk, ↓ramKeeps_refl, ↓safeKeeps_refl, ↓safeKeeps_of_eq, ↓ramKeeps_of_eq, ↓keeps_event, ↓keeps_fuse, ↓keeps_imageTaken, ↓keeps_rampStep, ↓keeps_sendImage, ↓keeps_setFlags, ↓keeps_updFus, h]

theorem keeps_execFusionResultReady (s : State) {z : State} (h : Keeps z s) : ResKeeps z (execFusionResultReady s) := by
  unfold execFusionResultReady
  simp (maxDischargeDepth := 40) only [implies_true, ↓keeps_refl, ↓keeps_ite, ↓keeps_foldl, ↓keeps_mk, ↓ramKeeps_refl, ↓safeKeeps_refl, ↓safeKeeps_of_eq, ↓ramKeeps_of_eq, ↓resKeeps_ite, ↓resKeeps_next, ↓keeps_publish, h]

theorem keeps_execPublicationDeadline (s : State) {z : State} (h : Keeps z s) : ResKeeps z (execPublicationDeadline s) := by
  unfold execPublicationDeadline
  simp (maxDischargeDepth := 40) only [implies_true, ↓keeps_refl, ↓keeps_ite, ↓keeps_foldl, ↓keeps_mk, ↓ramKeeps_refl, ↓safeKeeps_refl, ↓safeKeeps_of_eq, ↓ramKeeps_of_eq, ↓resKeeps_ite, ↓resKeeps_next, ↓keeps_publish, h]

theorem keeps_boardLost (region : Nat) (s : State) {z : State} (h : Keeps z s) : Keeps z (boardLost region s) := by
  unfold boardLost
  dsimp only
  (repeat' split) <;> simp (maxDischargeDepth := 40) only [implies_true, ↓keeps_refl, ↓keeps_ite, ↓keeps_foldl, ↓keeps_mk, ↓ramKeeps_refl, ↓safeKeeps_refl, ↓safeKeeps_of_eq, ↓ramKeeps_of_eq, ↓keeps_brdCount, ↓keeps_commitShared, ↓keeps_dropOpen, ↓keeps_event, ↓keeps_fuse, ↓keeps_rampStep, ↓keeps_report, ↓keeps_updBrd, h]

end Sys2Proof.Machine
end

