-- ==== Sys2Proof/Laws/KeepEpoch.lean ====
section
/-! SUPPORT. Every operation and meaning of Machine/Epoch.lean keeps what `Keeps` names. -/

set_option linter.unusedSimpArgs false

namespace Sys2Proof.Machine

theorem keeps_quietStep (s : State) {z : State} (h : Keeps z s) : Keeps z (quietStep s) := by
  unfold quietStep
  simp (maxDischargeDepth := 40) only [implies_true, ↓keeps_refl, ↓keeps_ite, ↓keeps_foldl, ↓keeps_mk, ↓ramKeeps_refl, ↓safeKeeps_refl, ↓safeKeeps_of_eq, ↓ramKeeps_of_eq, h]

theorem keeps_ageRequests (s : State) {z : State} (h : Keeps z s) : Keeps z (ageRequests s) := by
  unfold ageRequests
  simp (maxDischargeDepth := 40) only [implies_true, ↓keeps_refl, ↓keeps_ite, ↓keeps_foldl, ↓keeps_mk, ↓ramKeeps_refl, ↓safeKeeps_refl, ↓safeKeeps_of_eq, ↓ramKeeps_of_eq, ↓keeps_updDev, ↓keeps_updMem, h]

theorem keeps_execTick (s : State) {z : State} (h : Keeps z s) : ResKeeps z (execTick s) := by
  unfold execTick
  dsimp only
  have h1 : Keeps z { s with
      time := tickTime s.time, cyc := { s.cyc with ticks := s.cyc.ticks + 1 }
      safe := { s.safe with unlockMs := countDown s.safe.unlockMs }
      mram := { s.mram with lockoutMs := countDown s.mram.lockoutMs, wrong := s.mram.wrong.map (· + 1) }
      dp := { s.dp with joyTimer := if s.dp.mode = 2 || s.mem.joining then s.dp.joyTimer + 1 else s.dp.joyTimer } } :=
    keeps_trans h ⟨rfl, rfl, rfl, rfl, rfl, ramKeeps_refl _, safeKeeps_of_eq rfl rfl⟩
  have h2 := keeps_ageRequests _ h1
  refine resKeeps_ite h (resKeeps_next (keeps_archivePump _ ?_))
  refine keeps_ite (keeps_ptpTick _ ?_) ?_ <;> exact keeps_ite (keeps_quietStep _ h2) h2

theorem keeps_agree (c : Word) (s : State) {z : State} (h : Keeps z s) : Keeps z (agree c s) := by
  unfold agree
  simp (maxDischargeDepth := 40) only [implies_true, ↓keeps_refl, ↓keeps_ite, ↓keeps_foldl, ↓keeps_mk, ↓ramKeeps_refl, ↓safeKeeps_refl, ↓safeKeeps_of_eq, ↓ramKeeps_of_eq, ↓keeps_clearAlarm, ↓keeps_updDp, ↓keeps_updStall, h]

theorem keeps_fallBack (c : Word) (cause mgrs : Nat) (s : State) {z : State} (h : Keeps z s) : Keeps z (fallBack c cause mgrs s) := by
  unfold fallBack
  simp (maxDischargeDepth := 40) only [implies_true, ↓keeps_refl, ↓keeps_ite, ↓keeps_foldl, ↓keeps_mk, ↓ramKeeps_refl, ↓safeKeeps_refl, ↓safeKeeps_of_eq, ↓ramKeeps_of_eq, ↓keeps_event, ↓keeps_updDp, ↓keeps_updStall, h]

theorem keeps_decideCycle (s : State) {z : State} (h : Keeps z s) : Keeps z (decideCycle s) := by
  unfold decideCycle
  (repeat' split) <;> simp (maxDischargeDepth := 40) [implies_true, ↓keeps_refl, ↓keeps_ite, ↓keeps_foldl, ↓keeps_mk, ↓ramKeeps_refl, ↓safeKeeps_refl, ↓safeKeeps_of_eq, ↓ramKeeps_of_eq, ↓keeps_agree, ↓keeps_fallBack, h]

theorem keeps_sendCommands (s : State) {z : State} (h : Keeps z s) : Keeps z (sendCommands s) := by
  unfold sendCommands
  simp (maxDischargeDepth := 40) only [implies_true, ↓keeps_refl, ↓keeps_ite, ↓keeps_foldl, ↓keeps_mk, ↓ramKeeps_refl, ↓safeKeeps_refl, ↓safeKeeps_of_eq, ↓ramKeeps_of_eq, ↓keeps_sendTo, ↓keeps_updDp, h]

theorem keeps_sendOwn (s : State) {z : State} (h : Keeps z s) : Keeps z (sendOwn s) := by
  unfold sendOwn
  simp (maxDischargeDepth := 40) only [implies_true, ↓keeps_refl, ↓keeps_ite, ↓keeps_foldl, ↓keeps_mk, ↓ramKeeps_refl, ↓safeKeeps_refl, ↓safeKeeps_of_eq, ↓ramKeeps_of_eq, ↓keeps_sendContribs, h]

theorem keeps_nextEpoch (s : State) {z : State} (h : Keeps z s) : Keeps z (nextEpoch s) := by
  unfold nextEpoch
  simp (maxDischargeDepth := 40) only [implies_true, ↓keeps_refl, ↓keeps_ite, ↓keeps_foldl, ↓keeps_mk, ↓ramKeeps_refl, ↓safeKeeps_refl, ↓safeKeeps_of_eq, ↓ramKeeps_of_eq, h]

theorem keeps_applyStep (s : State) {z : State} (h : Keeps z s) : Keeps z (applyStep s) := by
  unfold applyStep
  dsimp only
  (repeat' split) <;> simp (maxDischargeDepth := 40) only [implies_true, ↓keeps_refl, ↓keeps_ite, ↓keeps_foldl, ↓keeps_mk, ↓ramKeeps_refl, ↓safeKeeps_refl, ↓safeKeeps_of_eq, ↓ramKeeps_of_eq, ↓keeps_event, ↓keeps_stepTime, ↓keeps_updTime, h]

theorem keeps_takeBoundary (s : State) {z : State} (h : Keeps z s) : Keeps z (takeBoundary s) := by
  unfold takeBoundary
  simp (maxDischargeDepth := 40) only [implies_true, ↓keeps_refl, ↓keeps_ite, ↓keeps_foldl, ↓keeps_mk, ↓ramKeeps_refl, ↓safeKeeps_refl, ↓safeKeeps_of_eq, ↓ramKeeps_of_eq, ↓keeps_storeCfg, ↓keeps_takeFlr, h]

theorem keeps_boundaryCauses (s : State) {z : State} (h : Keeps z s) : Keeps z (boundaryCauses s) := by
  unfold boundaryCauses
  dsimp only
  (repeat' split) <;> simp (maxDischargeDepth := 40) only [implies_true, ↓keeps_refl, ↓keeps_ite, ↓keeps_foldl, ↓keeps_mk, ↓ramKeeps_refl, ↓safeKeeps_refl, ↓safeKeeps_of_eq, ↓ramKeeps_of_eq, ↓keeps_failSilent, ↓keeps_latchCause, h]

theorem keeps_doSwap (s : State) {z : State} (h : Keeps z s) : Keeps z (doSwap s) := by
  unfold doSwap
  simp (maxDischargeDepth := 40) only [implies_true, ↓keeps_refl, ↓keeps_ite, ↓keeps_foldl, ↓keeps_mk, ↓ramKeeps_refl, ↓safeKeeps_refl, ↓safeKeeps_of_eq, ↓ramKeeps_of_eq, ↓keeps_abandonSwap, ↓keeps_event, ↓keeps_memberChange, ↓keeps_reselect, ↓keeps_selectSource, ↓keeps_setRole, ↓keeps_updBrd, ↓keeps_updDev, h]

theorem keeps_leaveNow (s : State) {z : State} (h : Keeps z s) : Keeps z (leaveNow s) := by
  unfold leaveNow
  simp (maxDischargeDepth := 40) only [implies_true, ↓keeps_refl, ↓keeps_ite, ↓keeps_foldl, ↓keeps_mk, ↓ramKeeps_refl, ↓safeKeeps_refl, ↓safeKeeps_of_eq, ↓ramKeeps_of_eq, ↓keeps_sendMember, ↓keeps_updMem, h]

theorem keeps_takeoverStep (s : State) {z : State} (h : Keeps z s) : Keeps z (takeoverStep s) := by
  unfold takeoverStep
  simp (maxDischargeDepth := 40) only [implies_true, ↓keeps_refl, ↓keeps_ite, ↓keeps_foldl, ↓keeps_mk, ↓ramKeeps_refl, ↓safeKeeps_refl, ↓safeKeeps_of_eq, ↓ramKeeps_of_eq, h]

theorem keeps_releaseDegraded (s : State) {z : State} (h : Keeps z s) : Keeps z (releaseDegraded s) := by
  unfold releaseDegraded
  simp (maxDischargeDepth := 40) only [implies_true, ↓keeps_refl, ↓keeps_ite, ↓keeps_foldl, ↓keeps_mk, ↓ramKeeps_refl, ↓safeKeeps_refl, ↓safeKeeps_of_eq, ↓ramKeeps_of_eq, ↓keeps_flrRelease, h]

theorem keeps_epochWork (s : State) {z : State} (h : Keeps z s) : Keeps z (epochWork s) := by
  unfold epochWork
  simp (maxDischargeDepth := 40) only [implies_true, ↓keeps_refl, ↓keeps_ite, ↓keeps_foldl, ↓keeps_mk, ↓ramKeeps_refl, ↓safeKeeps_refl, ↓safeKeeps_of_eq, ↓ramKeeps_of_eq, ↓keeps_applyStep, ↓keeps_boundaryCauses, ↓keeps_decideCycle, ↓keeps_doSwap, ↓keeps_leaveNow, ↓keeps_quietStep, ↓keeps_releaseDegraded, ↓keeps_reselect, ↓keeps_sendCommands, ↓keeps_sendMember, ↓keeps_sendOwn, ↓keeps_takeBoundary, ↓keeps_takeoverStep, h]

theorem keeps_execEpochInstant (s : State) {z : State} (h : Keeps z s) : ResKeeps z (execEpochInstant s) := by
  unfold execEpochInstant
  simp (maxDischargeDepth := 40) only [implies_true, ↓keeps_refl, ↓keeps_ite, ↓keeps_foldl, ↓keeps_mk, ↓ramKeeps_refl, ↓safeKeeps_refl, ↓safeKeeps_of_eq, ↓ramKeeps_of_eq, ↓resKeeps_ite, ↓resKeeps_next, ↓keeps_epochWork, ↓keeps_nextEpoch, ↓keeps_publish, h]

theorem keeps_takeOver (e : Word) (s : State) {z : State} (h : Keeps z s) : Keeps z (takeOver e s) := by
  unfold takeOver
  dsimp only
  (repeat' split) <;> simp (maxDischargeDepth := 40) only [implies_true, ↓keeps_refl, ↓keeps_ite, ↓keeps_foldl, ↓keeps_mk, ↓ramKeeps_refl, ↓safeKeeps_refl, ↓safeKeeps_of_eq, ↓ramKeeps_of_eq, ↓keeps_event, ↓keeps_memberChange, ↓keeps_reselect, ↓keeps_updBrd, ↓keeps_updDev, h]

theorem keeps_silenceMgrs (e : Word) (s : State) {z : State} (h : Keeps z s) : Keeps z (silenceMgrs e s) := by
  unfold silenceMgrs
  simp (maxDischargeDepth := 40) only [implies_true, ↓keeps_refl, ↓keeps_ite, ↓keeps_foldl, ↓keeps_mk, ↓ramKeeps_refl, ↓safeKeeps_refl, ↓safeKeeps_of_eq, ↓ramKeeps_of_eq, ↓keeps_memberChange, ↓keeps_updDev, ↓keeps_updMem, h]

theorem keeps_commitMembers (e : Word) (s : State) {z : State} (h : Keeps z s) : Keeps z (commitMembers e s) := by
  unfold commitMembers
  simp (maxDischargeDepth := 40) only [implies_true, ↓keeps_refl, ↓keeps_ite, ↓keeps_foldl, ↓keeps_mk, ↓ramKeeps_refl, ↓safeKeeps_refl, ↓safeKeeps_of_eq, ↓ramKeeps_of_eq, ↓keeps_joinCommit, ↓keeps_leaveCommit, ↓keeps_takeJoin, ↓keeps_updMem, h]

theorem keeps_commitStep (e : Word) (s : State) {z : State} (h : Keeps z s) : Keeps z (commitStep e s) := by
  unfold commitStep
  simp (maxDischargeDepth := 40) only [implies_true, ↓keeps_refl, ↓keeps_ite, ↓keeps_foldl, ↓keeps_mk, ↓ramKeeps_refl, ↓safeKeeps_refl, ↓safeKeeps_of_eq, ↓ramKeeps_of_eq, ↓keeps_updTime, h]

theorem keeps_takeCommit (e : Word) (s : State) {z : State} (h : Keeps z s) : Keeps z (takeCommit e s).1 := by
  unfold takeCommit
  try dsimp only
  (repeat' split) <;> repeat' with_reducible first
    | exact h | exact keeps_refl _ | exact rfl | exact ramKeeps_refl _ | exact ramKeeps_writeAll _ _ _ | exact safeKeeps_refl _ | refine keeps_foldl (fun _ _ => ?_) ?_
    | apply keeps_ite
    | apply keeps_brdCount | apply keeps_event | apply keeps_updBrd | exact safeKeeps_of_eq rfl rfl | dsimp only | split | refine keeps_mk ?_ ?_ ?_ ?_ ?_ ?_

theorem keeps_closeEpoch (s0 : State) {z : State} (h : Keeps z s0) : Keeps z (closeEpoch s0) := by
  unfold closeEpoch
  simp (maxDischargeDepth := 40) only [implies_true, ↓keeps_refl, ↓keeps_ite, ↓keeps_foldl, ↓keeps_mk, ↓ramKeeps_refl, ↓safeKeeps_refl, ↓safeKeeps_of_eq, ↓ramKeeps_of_eq, ↓keeps_commitActive, ↓keeps_commitMembers, ↓keeps_commitStep, ↓keeps_publish, ↓keeps_silenceMgrs, ↓keeps_takeCommit, ↓keeps_takeDpCycle, ↓keeps_takeFusionCfg, ↓keeps_takeOver, ↓keeps_takeRedundancy, ↓keeps_updFus, ↓keeps_updMem, h]

theorem keeps_execEpochClose (s : State) {z : State} (h : Keeps z s) : ResKeeps z (execEpochClose s) := by
  unfold execEpochClose
  simp (maxDischargeDepth := 40) only [implies_true, ↓keeps_refl, ↓keeps_ite, ↓keeps_foldl, ↓keeps_mk, ↓ramKeeps_refl, ↓safeKeeps_refl, ↓safeKeeps_of_eq, ↓ramKeeps_of_eq, ↓resKeeps_ite, ↓resKeeps_next, ↓keeps_closeEpoch, h]

theorem keeps_adoptDevices (i : Image) (s : State) {z : State} (h : Keeps z s) : Keeps z (adoptDevices i s) := by
  unfold adoptDevices
  simp (maxDischargeDepth := 40) only [implies_true, ↓keeps_refl, ↓keeps_ite, ↓keeps_foldl, ↓keeps_mk, ↓ramKeeps_refl, ↓safeKeeps_refl, ↓safeKeeps_of_eq, ↓ramKeeps_of_eq, ↓keeps_memberChange, ↓keeps_updBrd, h]

theorem keeps_adoptLeaves (i : Image) (old : List DevRec) (s : State) {z : State} (h : Keeps z s) : Keeps z (adoptLeaves i old s) := by
  unfold adoptLeaves
  simp (maxDischargeDepth := 40) only [implies_true, ↓keeps_refl, ↓keeps_ite, ↓keeps_foldl, ↓keeps_mk, ↓ramKeeps_refl, ↓safeKeeps_refl, ↓safeKeeps_of_eq, ↓ramKeeps_of_eq, ↓keeps_forget, ↓keeps_updDev, h]

theorem keeps_adoptTime (i : Image) (s : State) {z : State} (h : Keeps z s) : Keeps z (adoptTime i s) := by
  unfold adoptTime
  simp (maxDischargeDepth := 40) only [implies_true, ↓keeps_refl, ↓keeps_ite, ↓keeps_foldl, ↓keeps_mk, ↓ramKeeps_refl, ↓safeKeeps_refl, ↓safeKeeps_of_eq, ↓ramKeeps_of_eq, ↓keeps_updMem, h]

theorem keeps_adoptPlant (i : Image) (s : State) {z : State} (h : Keeps z s) : Keeps z (adoptPlant i s) := by
  unfold adoptPlant
  simp (maxDischargeDepth := 40) only [implies_true, ↓keeps_refl, ↓keeps_ite, ↓keeps_foldl, ↓keeps_mk, ↓ramKeeps_refl, ↓safeKeeps_refl, ↓safeKeeps_of_eq, ↓ramKeeps_of_eq, ↓keeps_updBrd, h]

theorem keeps_adoptCounters (i : Image) (s : State) {z : State} (h : Keeps z s) : Keeps z (adoptCounters i s) := by
  unfold adoptCounters
  simp (maxDischargeDepth := 40) only [implies_true, ↓keeps_refl, ↓keeps_ite, ↓keeps_foldl, ↓keeps_mk, ↓ramKeeps_refl, ↓safeKeeps_refl, ↓safeKeeps_of_eq, ↓ramKeeps_of_eq, ↓keeps_updDp, h]

theorem keeps_adoptSetpoint (i : Image) (s : State) {z : State} (h : Keeps z s) : Keeps z (adoptSetpoint i s) := by
  unfold adoptSetpoint
  simp (maxDischargeDepth := 40) only [implies_true, ↓keeps_refl, ↓keeps_ite, ↓keeps_foldl, ↓keeps_mk, ↓ramKeeps_refl, ↓safeKeeps_refl, ↓safeKeeps_of_eq, ↓ramKeeps_of_eq, ↓keeps_updDp, h]

theorem keeps_adoptMode (i : Image) (s : State) {z : State} (h : Keeps z s) : Keeps z (adoptMode i s) := by
  unfold adoptMode
  simp (maxDischargeDepth := 40) only [implies_true, ↓keeps_refl, ↓keeps_ite, ↓keeps_foldl, ↓keeps_mk, ↓ramKeeps_refl, ↓safeKeeps_refl, ↓safeKeeps_of_eq, ↓ramKeeps_of_eq, ↓keeps_updDp, h]

theorem keeps_takeShown (close : Nat) (i : Image) (s : State) {z : State} (h : Keeps z s) : Keeps z (takeShown close i s) := by
  unfold takeShown
  simp (maxDischargeDepth := 40) only [implies_true, ↓keeps_refl, ↓keeps_ite, ↓keeps_foldl, ↓keeps_mk, ↓ramKeeps_refl, ↓safeKeeps_refl, ↓safeKeeps_of_eq, ↓ramKeeps_of_eq, ↓keeps_adoptMode, ↓keeps_takeDpCycle, ↓keeps_updDp, h]

theorem keeps_takeLost (i : Image) (s : State) {z : State} (h : Keeps z s) : Keeps z (takeLost i s) := by
  unfold takeLost
  simp (maxDischargeDepth := 40) only [implies_true, ↓keeps_refl, ↓keeps_ite, ↓keeps_foldl, ↓keeps_mk, ↓ramKeeps_refl, ↓safeKeeps_refl, ↓safeKeeps_of_eq, ↓ramKeeps_of_eq, ↓keeps_commitShared, ↓keeps_fuse, ↓keeps_rampStep, ↓keeps_takeShown, h]

theorem keeps_adoptDecision (i : Image) (s : State) {z : State} (h : Keeps z s) : Keeps z (adoptDecision i s) := by
  unfold adoptDecision
  simp (maxDischargeDepth := 40) only [implies_true, ↓keeps_refl, ↓keeps_ite, ↓keeps_foldl, ↓keeps_mk, ↓ramKeeps_refl, ↓safeKeeps_refl, ↓safeKeeps_of_eq, ↓ramKeeps_of_eq, ↓keeps_updDp, h]

theorem keeps_adoptEstimate (i : Image) (s : State) {z : State} (h : Keeps z s) : Keeps z (adoptEstimate i s) := by
  unfold adoptEstimate
  simp (maxDischargeDepth := 40) only [implies_true, ↓keeps_refl, ↓keeps_ite, ↓keeps_foldl, ↓keeps_mk, ↓ramKeeps_refl, ↓safeKeeps_refl, ↓safeKeeps_of_eq, ↓ramKeeps_of_eq, ↓keeps_updFus, h]

theorem keeps_adoptFirst (i : Image) (s : State) {z : State} (h : Keeps z s) : Keeps z (adoptFirst i s) := by
  unfold adoptFirst
  simp (maxDischargeDepth := 40) only [implies_true, ↓keeps_refl, ↓keeps_ite, ↓keeps_foldl, ↓keeps_mk, ↓ramKeeps_refl, ↓safeKeeps_refl, ↓safeKeeps_of_eq, ↓ramKeeps_of_eq, ↓keeps_adoptEstimate, ↓keeps_adoptSetpoint, ↓keeps_updDp, ↓keeps_updFus, h]

theorem keeps_countSelf (i : Image) (s : State) {z : State} (h : Keeps z s) : Keeps z (countSelf i s) := by
  unfold countSelf
  simp (maxDischargeDepth := 40) only [implies_true, ↓keeps_refl, ↓keeps_ite, ↓keeps_foldl, ↓keeps_mk, ↓ramKeeps_refl, ↓safeKeeps_refl, ↓safeKeeps_of_eq, ↓ramKeeps_of_eq, ↓keeps_updMem, h]

theorem keeps_installManager (first : Bool) (i : Image) (s0 : State) {z : State} (h : Keeps z s0) : Keeps z (installManager first i s0) := by
  unfold installManager
  simp (maxDischargeDepth := 40) only [implies_true, ↓keeps_refl, ↓keeps_ite, ↓keeps_foldl, ↓keeps_mk, ↓ramKeeps_refl, ↓safeKeeps_refl, ↓safeKeeps_of_eq, ↓ramKeeps_of_eq, ↓keeps_adoptCounters, ↓keeps_adoptDecision, ↓keeps_adoptDevices, ↓keeps_adoptEstimate, ↓keeps_adoptFirst, ↓keeps_adoptPlant, ↓keeps_adoptSetpoint, ↓keeps_commitShared, ↓keeps_countSelf, ↓keeps_fuse, ↓keeps_imageTaken, ↓keeps_rampStep, ↓keeps_takeFusionCfg, ↓keeps_takeLost, ↓keeps_takeRedundancy, ↓keeps_takeShown, ↓keeps_updBrd, h]

theorem keeps_installWorker (i : Image) (s : State) {z : State} (h : Keeps z s) : Keeps z (installWorker i s) := by
  unfold installWorker
  simp (maxDischargeDepth := 40) only [implies_true, ↓keeps_refl, ↓keeps_ite, ↓keeps_foldl, ↓keeps_mk, ↓ramKeeps_refl, ↓safeKeeps_refl, ↓safeKeeps_of_eq, ↓ramKeeps_of_eq, ↓keeps_adoptPlant, ↓keeps_imageTaken, ↓keeps_updDp, h]

theorem keeps_notListed (i : Image) (s : State) {z : State} (h : Keeps z s) : Keeps z (notListed i s) := by
  unfold notListed
  dsimp only
  (repeat' split) <;> simp (maxDischargeDepth := 40) only [implies_true, ↓keeps_refl, ↓keeps_ite, ↓keeps_foldl, ↓keeps_mk, ↓ramKeeps_refl, ↓safeKeeps_refl, ↓safeKeeps_of_eq, ↓ramKeeps_of_eq, ↓keeps_disableCtx, ↓keeps_dropOpen, ↓keeps_event, ↓keeps_loseTime, ↓keeps_setLife, ↓keeps_setRole, ↓keeps_startTest, ↓keeps_updMem, h]

theorem keeps_ownListed (i : Image) (s : State) {z : State} (h : Keeps z s) : Keeps z (ownListed i s) := by
  unfold ownListed
  simp (maxDischargeDepth := 40) only [implies_true, ↓keeps_refl, ↓keeps_ite, ↓keeps_foldl, ↓keeps_mk, ↓ramKeeps_refl, ↓safeKeeps_refl, ↓safeKeeps_of_eq, ↓ramKeeps_of_eq, ↓keeps_failSilent, ↓keeps_noQuorum, ↓keeps_notListed, ↓keeps_setLife, ↓keeps_setRole, ↓keeps_silentIfSafe, ↓keeps_updMem, h]

theorem keeps_install (i : Image) (s : State) {z : State} (h : Keeps z s) : Keeps z (install i s) := by
  unfold install
  simp (maxDischargeDepth := 40) only [implies_true, ↓keeps_refl, ↓keeps_ite, ↓keeps_foldl, ↓keeps_mk, ↓ramKeeps_refl, ↓safeKeeps_refl, ↓safeKeeps_of_eq, ↓ramKeeps_of_eq, ↓keeps_adoptDevices, ↓keeps_adoptLeaves, ↓keeps_adoptTime, ↓keeps_driveOutputs, ↓keeps_installManager, ↓keeps_installWorker, ↓keeps_noQuorum, ↓keeps_ownListed, ↓keeps_reselect, ↓keeps_updMem, h]

theorem keeps_twoActive (i own : Image) (s : State) {z : State} (h : Keeps z s) : Keeps z (twoActive i own s) := by
  unfold twoActive
  simp (maxDischargeDepth := 40) only [implies_true, ↓keeps_refl, ↓keeps_ite, ↓keeps_foldl, ↓keeps_mk, ↓ramKeeps_refl, ↓safeKeeps_refl, ↓safeKeeps_of_eq, ↓ramKeeps_of_eq, ↓keeps_event, ↓keeps_failSilent, h]

theorem keeps_cancelTakeover (s : State) {z : State} (h : Keeps z s) : Keeps z (cancelTakeover s) := by
  unfold cancelTakeover
  simp (maxDischargeDepth := 40) only [implies_true, ↓keeps_refl, ↓keeps_ite, ↓keeps_foldl, ↓keeps_mk, ↓ramKeeps_refl, ↓safeKeeps_refl, ↓safeKeeps_of_eq, ↓ramKeeps_of_eq, ↓keeps_dropOpen, ↓keeps_setRole, h]

theorem keeps_execBoardImageInstall (img : Image) (s : State) {z : State} (h : Keeps z s) : ResKeeps z (execBoardImageInstall img s) := by
  unfold execBoardImageInstall
  dsimp only
  (repeat' split) <;> simp (maxDischargeDepth := 40) only [implies_true, ↓keeps_refl, ↓keeps_ite, ↓keeps_foldl, ↓keeps_mk, ↓ramKeeps_refl, ↓safeKeeps_refl, ↓safeKeeps_of_eq, ↓ramKeeps_of_eq, ↓resKeeps_ite, ↓resKeeps_next, ↓keeps_cancelTakeover, ↓keeps_install, ↓keeps_twoActive, h]

end Sys2Proof.Machine
end

