-- ==== Sys2Proof/Laws/KeepMemProt.lean ====
section
/-! SUPPORT. Every operation and meaning of Machine/MemProt.lean keeps what `Keeps` names. -/

set_option linter.unusedSimpArgs false

namespace Sys2Proof.Machine

theorem keeps_updRegion (n : Nat) (f : Region → Region) (s : State) {z : State} (h : Keeps z s) : Keeps z (updRegion n f s) := by
  unfold updRegion
  simp (maxDischargeDepth := 40) only [implies_true, ↓keeps_refl, ↓keeps_ite, ↓keeps_foldl, ↓keeps_mk, ↓ramKeeps_refl, ↓safeKeeps_refl, ↓safeKeeps_of_eq, ↓ramKeeps_of_eq, h]

theorem keeps_bodyMemStatus (r : Req) (s : State) {z : State} (h : Keeps z s) : AnsKeeps z (bodyMemStatus r s) := by
  unfold bodyMemStatus
  try dsimp only
  repeat' with_reducible first
    | exact h | exact keeps_refl _ | exact rfl | exact ramKeeps_refl _ | exact ramKeeps_writeAll _ _ _ | exact safeKeeps_refl _ | refine keeps_foldl (fun _ _ => ?_) ?_
    | apply keeps_ite | apply ansKeeps_ite | apply ansKeeps_done | apply ansKeeps_later
    | apply keeps_no | apply keeps_okay | apply keeps_give | apply keeps_updRegion | exact safeKeeps_of_eq rfl rfl | dsimp only | split | refine keeps_mk ?_ ?_ ?_ ?_ ?_ ?_
  all_goals rfl

theorem keeps_execMemStatus (r : Req) (s : State) {z : State} (h : Keeps z s) : ResKeeps z (execMemStatus r s) :=
  keeps_mbx _ _ _ _ _ h (keeps_bodyMemStatus r s h)

theorem keeps_bodyScrubConfig (r : Req) (s : State) {z : State} (h : Keeps z s) : AnsKeeps z (bodyScrubConfig r s) := by
  unfold bodyScrubConfig
  simp (maxDischargeDepth := 40) only [implies_true, ↓keeps_refl, ↓keeps_ite, ↓keeps_foldl, ↓keeps_mk, ↓ramKeeps_refl, ↓safeKeeps_refl, ↓safeKeeps_of_eq, ↓ramKeeps_of_eq, ↓ansKeeps_ite, ↓ansKeeps_done, ↓ansKeeps_later, ↓keeps_no, ↓keeps_okay, ↓keeps_give, ↓keeps_setCfg, h]

theorem keeps_execScrubConfig (r : Req) (s : State) {z : State} (h : Keeps z s) : ResKeeps z (execScrubConfig r s) :=
  keeps_mbx _ _ _ _ _ h (keeps_bodyScrubConfig r s h)

theorem keeps_hardSite (n addr pos : Nat) (s : State) {z : State} (h : Keeps z s) : Keeps z (hardSite n addr pos s) := by
  unfold hardSite
  simp (maxDischargeDepth := 40) only [implies_true, ↓keeps_refl, ↓keeps_ite, ↓keeps_foldl, ↓keeps_mk, ↓ramKeeps_refl, ↓safeKeeps_refl, ↓safeKeeps_of_eq, ↓ramKeeps_of_eq, ↓keeps_event, h]

theorem keeps_markPos (n pos : Nat) (s : State) {z : State} (h : Keeps z s) : Keeps z (markPos n pos s) := by
  unfold markPos
  simp (maxDischargeDepth := 40) only [implies_true, ↓keeps_refl, ↓keeps_ite, ↓keeps_foldl, ↓keeps_mk, ↓ramKeeps_refl, ↓safeKeeps_refl, ↓safeKeeps_of_eq, ↓ramKeeps_of_eq, ↓keeps_event, ↓keeps_raiseAlarm, ↓keeps_updRegion, h]

theorem keeps_correct (n addr pos : Nat) (s : State) {z : State} (h : Keeps z s) : Keeps z (correct n addr pos s) := by
  unfold correct
  simp (maxDischargeDepth := 40) only [implies_true, ↓keeps_refl, ↓keeps_ite, ↓keeps_foldl, ↓keeps_mk, ↓ramKeeps_refl, ↓safeKeeps_refl, ↓safeKeeps_of_eq, ↓ramKeeps_of_eq, ↓keeps_event, ↓keeps_hardSite, ↓keeps_markPos, ↓keeps_updRegion, h]

theorem keeps_badStall (n k : Nat) (s : State) {z : State} (h : Keeps z s) : Keeps z (badStall n k s) := by
  unfold badStall
  simp (maxDischargeDepth := 40) only [implies_true, ↓keeps_refl, ↓keeps_ite, ↓keeps_foldl, ↓keeps_mk, ↓ramKeeps_refl, ↓safeKeeps_refl, ↓safeKeeps_of_eq, ↓ramKeeps_of_eq, ↓keeps_faultStall, ↓keeps_updStall, h]

theorem keeps_badFrame (port : Nat) (own : Bool) (s : State) {z : State} (h : Keeps z s) : Keeps z (badFrame port own s) := by
  unfold badFrame
  simp (maxDischargeDepth := 40) only [implies_true, ↓keeps_refl, ↓keeps_ite, ↓keeps_foldl, ↓keeps_mk, ↓ramKeeps_refl, ↓safeKeeps_refl, ↓safeKeeps_of_eq, ↓ramKeeps_of_eq, ↓keeps_emit, h]

theorem keeps_badTrace (u i : Nat) (s : State) {z : State} (h : Keeps z s) : Keeps z (badTrace u i s) := by
  unfold badTrace
  simp (maxDischargeDepth := 40) only [implies_true, ↓keeps_refl, ↓keeps_ite, ↓keeps_foldl, ↓keeps_mk, ↓ramKeeps_refl, ↓safeKeeps_refl, ↓safeKeeps_of_eq, ↓ramKeeps_of_eq, ↓keeps_trace, h]

theorem keeps_badStaging (i : Nat) (again : Bool) (s : State) {z : State} (h : Keeps z s) : Keeps z (badStaging i again s) := by
  unfold badStaging
  dsimp only
  (repeat' split) <;> simp (maxDischargeDepth := 40) only [implies_true, ↓keeps_refl, ↓keeps_ite, ↓keeps_foldl, ↓keeps_mk, ↓ramKeeps_refl, ↓safeKeeps_refl, ↓safeKeeps_of_eq, ↓ramKeeps_of_eq, ↓keeps_event, h]

theorem keeps_badStream (s : State) {z : State} (h : Keeps z s) : Keeps z (badStream s) := by
  unfold badStream
  dsimp only
  (repeat' split) <;> simp (maxDischargeDepth := 40) only [implies_true, ↓keeps_refl, ↓keeps_ite, ↓keeps_foldl, ↓keeps_mk, ↓ramKeeps_refl, ↓safeKeeps_refl, ↓safeKeeps_of_eq, ↓ramKeeps_of_eq, ↓keeps_brdCount, ↓keeps_updBrd, h]

theorem keeps_reactUse (n : Nat) (u : MemUse) (s : State) {z : State} (h : Keeps z s) : Keeps z (reactUse n u s) := by
  unfold reactUse
  dsimp only
  (repeat' split) <;> simp (maxDischargeDepth := 40) only [implies_true, ↓keeps_refl, ↓keeps_ite, ↓keeps_foldl, ↓keeps_mk, ↓ramKeeps_refl, ↓safeKeeps_refl, ↓safeKeeps_of_eq, ↓ramKeeps_of_eq, ↓keeps_badFrame, ↓keeps_badStaging, ↓keeps_badStall, ↓keeps_badStream, ↓keeps_badTrace, ↓keeps_boardLost, ↓keeps_damaged, ↓keeps_enterLost, ↓keeps_finish, ↓keeps_trace, ↓keeps_updBrd, ↓keeps_updCtx, ↓keeps_updFilt, h]

theorem keeps_uncorrectable (n addr syndrome : Nat) (u : MemUse) (s : State) {z : State} (h : Keeps z s) : Keeps z (uncorrectable n addr syndrome u s) := by
  unfold uncorrectable
  simp (maxDischargeDepth := 40) only [implies_true, ↓keeps_refl, ↓keeps_ite, ↓keeps_foldl, ↓keeps_mk, ↓ramKeeps_refl, ↓safeKeeps_refl, ↓safeKeeps_of_eq, ↓ramKeeps_of_eq, ↓keeps_event, ↓keeps_failSilent, ↓keeps_latchCause, ↓keeps_reactUse, ↓keeps_updRegion, h]

theorem keeps_passDone (n : Nat) (s : State) {z : State} (h : Keeps z s) : Keeps z (passDone n s) := by
  unfold passDone
  simp (maxDischargeDepth := 40) only [implies_true, ↓keeps_refl, ↓keeps_ite, ↓keeps_foldl, ↓keeps_mk, ↓ramKeeps_refl, ↓safeKeeps_refl, ↓safeKeeps_of_eq, ↓ramKeeps_of_eq, ↓keeps_event, ↓keeps_updRegion, h]

theorem keeps_passBegin (n : Nat) (s : State) {z : State} (h : Keeps z s) : Keeps z (passBegin n s) := by
  unfold passBegin
  simp (maxDischargeDepth := 40) only [implies_true, ↓keeps_refl, ↓keeps_ite, ↓keeps_foldl, ↓keeps_mk, ↓ramKeeps_refl, ↓safeKeeps_refl, ↓safeKeeps_of_eq, ↓ramKeeps_of_eq, ↓keeps_updRegion, h]

theorem keeps_scrubWrap (n addr : Nat) (s : State) {z : State} (h : Keeps z s) : Keeps z (scrubWrap n addr s) := by
  unfold scrubWrap
  simp (maxDischargeDepth := 40) only [implies_true, ↓keeps_refl, ↓keeps_ite, ↓keeps_foldl, ↓keeps_mk, ↓ramKeeps_refl, ↓safeKeeps_refl, ↓safeKeeps_of_eq, ↓ramKeeps_of_eq, ↓keeps_passBegin, ↓keeps_passDone, h]

theorem keeps_execScrubRead (region : Fin 9) (addr word : Nat) (use : MemUse) (s : State) {z : State} (h : Keeps z s) : ResKeeps z (execScrubRead region addr word use s) := by
  unfold execScrubRead
  dsimp only
  (repeat' split) <;> simp (maxDischargeDepth := 40) only [implies_true, ↓keeps_refl, ↓keeps_ite, ↓keeps_foldl, ↓keeps_mk, ↓ramKeeps_refl, ↓safeKeeps_refl, ↓safeKeeps_of_eq, ↓ramKeeps_of_eq, ↓resKeeps_ite, ↓resKeeps_next, ↓keeps_correct, ↓keeps_scrubWrap, ↓keeps_uncorrectable, ↓keeps_updRegion, h]

theorem keeps_execWriteBack (region : Fin 9) (addr : Nat) (overtaken : Bool) (s : State) {z : State} (h : Keeps z s) : ResKeeps z (execWriteBack region addr overtaken s) := by
  unfold execWriteBack
  simp (maxDischargeDepth := 40) only [implies_true, ↓keeps_refl, ↓keeps_ite, ↓keeps_foldl, ↓keeps_mk, ↓ramKeeps_refl, ↓safeKeeps_refl, ↓safeKeeps_of_eq, ↓ramKeeps_of_eq, ↓resKeeps_ite, ↓resKeeps_next, ↓keeps_updRegion, h]

theorem keeps_execMergeBufferEvict (region : Fin 9) (addr writes : Nat) (parityOk : Bool) (use : MemUse) (s : State) {z : State} (h : Keeps z s) : ResKeeps z (execMergeBufferEvict region addr writes parityOk use s) := by
  unfold execMergeBufferEvict
  simp (maxDischargeDepth := 40) only [implies_true, ↓keeps_refl, ↓keeps_ite, ↓keeps_foldl, ↓keeps_mk, ↓ramKeeps_refl, ↓safeKeeps_refl, ↓safeKeeps_of_eq, ↓ramKeeps_of_eq, ↓resKeeps_ite, ↓resKeeps_next, ↓keeps_uncorrectable, ↓keeps_updRegion, h]

end Sys2Proof.Machine
end

