-- ==== Sys2Proof/Laws/KeepRestart.lean ====
section
/-! SUPPORT. Every operation and meaning of Machine/Restart.lean keeps what `Keeps` names. -/

set_option linter.unusedSimpArgs false

namespace Sys2Proof.Machine

/-- A reset of scope SYSTEM keeps the AON domain (R544). -/
theorem keeps_resetDevice (code : Nat) (s : State) {z : State} (hc : 2 ≤ code) (h : Keeps z s) : Keeps z (resetDevice code s) := by
  have hf : fullScope code = false := decide_eq_false (by omega)
  refine keeps_trans h ?_
  unfold resetDevice
  dsimp only
  refine keeps_foldl (fun t n => keeps_ite (keeps_raiseAlarm _ _ _ _ t (keeps_refl t)) (keeps_refl t))
    (keeps_ite (keeps_raiseAlarm _ _ _ _ _ ?_) ?_) <;>
  refine ⟨rfl, rfl, rfl, rfl, rfl, fun _ => rfl, ⟨fun n hn => ?_, fun _ _ => rfl⟩⟩ <;>
  ( show ((if fullScope code = true then 0 else s.safe.causes) ||| 1).getLsbD n = true
    rw [hf]
    exact getLsbD_or_left _ _ n hn )

theorem keeps_updRst (f : Rst → Rst) (s : State) {z : State} (h : Keeps z s) (hs : (f s.rst).straps = s.rst.straps)
    (hc : (f s.rst).cause = s.rst.cause) : Keeps z (updRst f s) :=
  keeps_trans h ⟨rfl, rfl, hs, hc, rfl, ramKeeps_refl _, safeKeeps_refl _⟩


theorem keeps_updTests (f : Tests → Tests) (s : State) {z : State} (h : Keeps z s) : Keeps z (updTests f s) := by
  unfold updTests
  simp (maxDischargeDepth := 40) only [implies_true, ↓keeps_refl, ↓keeps_ite, ↓keeps_foldl, ↓keeps_mk, ↓ramKeeps_refl, ↓safeKeeps_refl, ↓safeKeeps_of_eq, ↓ramKeeps_of_eq, h]

theorem keeps_updFw (f : Fw → Fw) (s : State) {z : State} (h : Keeps z s) : Keeps z (updFw f s) := by
  unfold updFw
  simp (maxDischargeDepth := 40) only [implies_true, ↓keeps_refl, ↓keeps_ite, ↓keeps_foldl, ↓keeps_mk, ↓ramKeeps_refl, ↓safeKeeps_refl, ↓safeKeeps_of_eq, ↓ramKeeps_of_eq, h]

theorem keeps_execSysrstN (s : State) {z : State} (h : Keeps z s) : ResKeeps z (execSysrstN s) := by
  unfold execSysrstN
  (repeat' split) <;> simp (maxDischargeDepth := 40) [implies_true, ↓keeps_refl, ↓keeps_ite, ↓keeps_foldl, ↓keeps_mk, ↓ramKeeps_refl, ↓safeKeeps_refl, ↓safeKeeps_of_eq, ↓ramKeeps_of_eq, ↓resKeeps_ite, ↓resKeeps_next, ↓keeps_resetDevice, h]

theorem keeps_execSupWatchdog (s : State) {z : State} (h : Keeps z s) : ResKeeps z (execSupWatchdog s) := by
  unfold execSupWatchdog
  (repeat' split) <;> simp (maxDischargeDepth := 40) [implies_true, ↓keeps_refl, ↓keeps_ite, ↓keeps_foldl, ↓keeps_mk, ↓ramKeeps_refl, ↓safeKeeps_refl, ↓safeKeeps_of_eq, ↓ramKeeps_of_eq, ↓resKeeps_ite, ↓resKeeps_next, ↓keeps_resetDevice, h]

theorem keeps_execStartTimeout (s : State) {z : State} (h : Keeps z s) : ResKeeps z (execStartTimeout s) := by
  unfold execStartTimeout
  (repeat' split) <;> simp (maxDischargeDepth := 40) [implies_true, ↓keeps_refl, ↓keeps_ite, ↓keeps_foldl, ↓keeps_mk, ↓ramKeeps_refl, ↓safeKeeps_refl, ↓safeKeeps_of_eq, ↓ramKeeps_of_eq, ↓resKeeps_ite, ↓resKeeps_next, ↓keeps_resetDevice, h]

theorem keeps_execDeviceResetDelay (s : State) {z : State} (h : Keeps z s) : ResKeeps z (execDeviceResetDelay s) := by
  unfold execDeviceResetDelay
  (repeat' split) <;> simp (maxDischargeDepth := 40) [implies_true, ↓keeps_refl, ↓keeps_ite, ↓keeps_foldl, ↓keeps_mk, ↓ramKeeps_refl, ↓safeKeeps_refl, ↓safeKeeps_of_eq, ↓ramKeeps_of_eq, ↓resKeeps_ite, ↓resKeeps_next, ↓keeps_resetDevice, h]

theorem keeps_execRefCrystalFault (s : State) {z : State} (h : Keeps z s) : ResKeeps z (execRefCrystalFault s) := by
  unfold execRefCrystalFault
  (repeat' split) <;> simp (maxDischargeDepth := 40) [implies_true, ↓keeps_refl, ↓keeps_ite, ↓keeps_foldl, ↓keeps_mk, ↓ramKeeps_refl, ↓safeKeeps_refl, ↓safeKeeps_of_eq, ↓ramKeeps_of_eq, ↓resKeeps_ite, ↓resKeeps_next, ↓keeps_resetDevice, h]

theorem keeps_checkRing (s : State) {z : State} (h : Keeps z s) : Keeps z (checkRing s) := by
  unfold checkRing
  simp (maxDischargeDepth := 40) only [implies_true, ↓keeps_refl, ↓keeps_ite, ↓keeps_foldl, ↓keeps_mk, ↓ramKeeps_refl, ↓safeKeeps_refl, ↓safeKeeps_of_eq, ↓ramKeeps_of_eq, ↓keeps_event, h]

theorem keeps_notices (s : State) {z : State} (h : Keeps z s) : Keeps z (notices s) := by
  unfold notices
  simp (maxDischargeDepth := 40) only [implies_true, ↓keeps_refl, ↓keeps_ite, ↓keeps_foldl, ↓keeps_mk, ↓ramKeeps_refl, ↓safeKeeps_refl, ↓safeKeeps_of_eq, ↓ramKeeps_of_eq, ↓keeps_event, ↓keeps_updRst, h]

theorem keeps_loadShadows (s : State) {z : State} (h : Keeps z s) : Keeps z (loadShadows s) := by
  unfold loadShadows
  simp (maxDischargeDepth := 40) only [implies_true, ↓keeps_refl, ↓keeps_ite, ↓keeps_foldl, ↓keeps_mk, ↓ramKeeps_refl, ↓safeKeeps_refl, ↓safeKeeps_of_eq, ↓ramKeeps_of_eq, ↓keeps_event, ↓keeps_report, ↓keeps_updRst, h]

theorem keeps_enterCloakroom (reason : Nat) (s : State) {z : State} (h : Keeps z s) : Keeps z (enterCloakroom reason s) := by
  unfold enterCloakroom
  simp (maxDischargeDepth := 40) only [implies_true, ↓keeps_refl, ↓keeps_ite, ↓keeps_foldl, ↓keeps_mk, ↓ramKeeps_refl, ↓safeKeeps_refl, ↓safeKeeps_of_eq, ↓ramKeeps_of_eq, ↓keeps_event, ↓keeps_setLife, ↓keeps_updFw, ↓keeps_updRst, h]

theorem keeps_enterLoading (s : State) {z : State} (h : Keeps z s) : Keeps z (enterLoading s) := by
  unfold enterLoading
  simp (maxDischargeDepth := 40) only [implies_true, ↓keeps_refl, ↓keeps_ite, ↓keeps_foldl, ↓keeps_mk, ↓ramKeeps_refl, ↓safeKeeps_refl, ↓safeKeeps_of_eq, ↓ramKeeps_of_eq, ↓keeps_checkRing, ↓keeps_enterCloakroom, ↓keeps_flushHeld, ↓keeps_loadShadows, ↓keeps_notices, ↓keeps_setLife, ↓keeps_updRst, h]

theorem keeps_execPllLock (s : State) {z : State} (h : Keeps z s) : ResKeeps z (execPllLock s) := by
  unfold execPllLock
  simp (maxDischargeDepth := 40) only [implies_true, ↓keeps_refl, ↓keeps_ite, ↓keeps_foldl, ↓keeps_mk, ↓ramKeeps_refl, ↓safeKeeps_refl, ↓safeKeeps_of_eq, ↓ramKeeps_of_eq, ↓resKeeps_ite, ↓resKeeps_next, ↓keeps_updRst, h]

theorem keeps_startCtx (n : Nat) (s : State) {z : State} (h : Keeps z s) : Keeps z (startCtx n s) := by
  unfold startCtx
  dsimp only
  (repeat' split) <;> simp (maxDischargeDepth := 40) only [implies_true, ↓keeps_refl, ↓keeps_ite, ↓keeps_foldl, ↓keeps_mk, ↓ramKeeps_refl, ↓safeKeeps_refl, ↓safeKeeps_of_eq, ↓ramKeeps_of_eq, ↓keeps_updCtx, ↓keeps_writeGated, h]

theorem keeps_applyShadows (s : State) {z : State} (h : Keeps z s) : Keeps z (applyShadows s) := by
  unfold applyShadows
  simp (maxDischargeDepth := 40) only [implies_true, ↓keeps_refl, ↓keeps_ite, ↓keeps_foldl, ↓keeps_mk, ↓ramKeeps_refl, ↓safeKeeps_refl, ↓safeKeeps_of_eq, ↓ramKeeps_of_eq, ↓keeps_markBound, ↓keeps_portRoles, ↓keeps_startCtx, ↓keeps_takeFusionCfg, ↓keeps_takePairs, ↓keeps_updateGates, h]

theorem keeps_joinGroups (s : State) {z : State} (h : Keeps z s) : Keeps z (joinGroups s) := by
  unfold joinGroups
  simp (maxDischargeDepth := 40) only [implies_true, ↓keeps_refl, ↓keeps_ite, ↓keeps_foldl, ↓keeps_mk, ↓ramKeeps_refl, ↓safeKeeps_refl, ↓safeKeeps_of_eq, ↓ramKeeps_of_eq, ↓keeps_joinGroup, h]

theorem keeps_enterSelftest (s : State) {z : State} (h : Keeps z s) : Keeps z (enterSelftest s) := by
  unfold enterSelftest
  simp (maxDischargeDepth := 40) only [implies_true, ↓keeps_refl, ↓keeps_ite, ↓keeps_foldl, ↓keeps_mk, ↓ramKeeps_refl, ↓safeKeeps_refl, ↓safeKeeps_of_eq, ↓ramKeeps_of_eq, ↓keeps_aoSupply, ↓keeps_applyShadows, ↓keeps_joinGroups, ↓keeps_setLife, ↓keeps_updRst, ↓keeps_updTests, h]

theorem keeps_execReleaseGapExpiry (s : State) {z : State} (h : Keeps z s) : ResKeeps z (execReleaseGapExpiry s) := by
  unfold execReleaseGapExpiry
  simp (maxDischargeDepth := 40) only [implies_true, ↓keeps_refl, ↓keeps_ite, ↓keeps_foldl, ↓keeps_mk, ↓ramKeeps_refl, ↓safeKeeps_refl, ↓safeKeeps_of_eq, ↓ramKeeps_of_eq, ↓resKeeps_ite, ↓resKeeps_next, ↓keeps_enterLoading, ↓keeps_enterSelftest, ↓keeps_updRst, h]

theorem keeps_execDdr4TrainingDone (s : State) {z : State} (h : Keeps z s) : ResKeeps z (execDdr4TrainingDone s) := by
  unfold execDdr4TrainingDone
  simp (maxDischargeDepth := 40) only [implies_true, ↓keeps_refl, ↓keeps_ite, ↓keeps_foldl, ↓keeps_mk, ↓ramKeeps_refl, ↓safeKeeps_refl, ↓safeKeeps_of_eq, ↓ramKeeps_of_eq, ↓resKeeps_ite, ↓resKeeps_next, ↓keeps_updRst, h]

theorem keeps_startImage (source : Nat) (bytes : List Byte) (s : State) {z : State} (h : Keeps z s) : Keeps z (startImage source bytes s) := by
  unfold startImage
  simp (maxDischargeDepth := 40) only [implies_true, ↓keeps_refl, ↓keeps_ite, ↓keeps_foldl, ↓keeps_mk, ↓ramKeeps_refl, ↓safeKeeps_refl, ↓safeKeeps_of_eq, ↓ramKeeps_of_eq, ↓keeps_updFw, ↓keeps_updRst, h]

theorem keeps_rejectImage (n : Nat) (s : State) {z : State} (h : Keeps z s) : Keeps z (rejectImage n s) := by
  unfold rejectImage
  simp (maxDischargeDepth := 40) only [implies_true, ↓keeps_refl, ↓keeps_ite, ↓keeps_foldl, ↓keeps_mk, ↓ramKeeps_refl, ↓safeKeeps_refl, ↓safeKeeps_of_eq, ↓ramKeeps_of_eq, ↓keeps_event, h]

theorem keeps_execBootRomDone (s : State) {z : State} (h : Keeps z s) : ResKeeps z (execBootRomDone s) := by
  unfold execBootRomDone
  simp (maxDischargeDepth := 40) only [implies_true, ↓keeps_refl, ↓keeps_ite, ↓keeps_foldl, ↓keeps_mk, ↓ramKeeps_refl, ↓safeKeeps_refl, ↓safeKeeps_of_eq, ↓ramKeeps_of_eq, ↓resKeeps_ite, ↓resKeeps_next, ↓keeps_enterCloakroom, ↓keeps_event, ↓keeps_rejectImage, ↓keeps_startImage, h]

theorem keeps_execPcieBootPoll (fetched : Option (List Byte)) (s : State) {z : State} (h : Keeps z s) : ResKeeps z (execPcieBootPoll fetched s) := by
  unfold execPcieBootPoll
  (repeat' split) <;> simp (maxDischargeDepth := 40) [implies_true, ↓keeps_refl, ↓keeps_ite, ↓keeps_foldl, ↓keeps_mk, ↓ramKeeps_refl, ↓safeKeeps_refl, ↓safeKeeps_of_eq, ↓ramKeeps_of_eq, ↓resKeeps_ite, ↓resKeeps_next, ↓keeps_emit, ↓keeps_event, ↓keeps_fetched, ↓keeps_startImage, ↓keeps_updRst, h]

theorem keeps_execFailedStartClearTimer (s : State) {z : State} (h : Keeps z s) : ResKeeps z (execFailedStartClearTimer s) := by
  unfold execFailedStartClearTimer
  simp (maxDischargeDepth := 40) only [implies_true, ↓keeps_refl, ↓keeps_ite, ↓keeps_foldl, ↓keeps_mk, ↓ramKeeps_refl, ↓safeKeeps_refl, ↓safeKeeps_of_eq, ↓ramKeeps_of_eq, ↓resKeeps_ite, ↓resKeeps_next, ↓keeps_event, h]

theorem keeps_bodyFailcountClear (u1 : Req) (s : State) {z : State} (h : Keeps z s) : AnsKeeps z (bodyFailcountClear u1 s) := by
  unfold bodyFailcountClear
  simp (maxDischargeDepth := 40) only [implies_true, ↓keeps_refl, ↓keeps_ite, ↓keeps_foldl, ↓keeps_mk, ↓ramKeeps_refl, ↓safeKeeps_refl, ↓safeKeeps_of_eq, ↓ramKeeps_of_eq, ↓ansKeeps_ite, ↓ansKeeps_done, ↓ansKeeps_later, ↓keeps_no, ↓keeps_okay, ↓keeps_give, ↓keeps_event, h]

theorem keeps_execFailcountClear (r : Req) (s : State) {z : State} (h : Keeps z s) : ResKeeps z (execFailcountClear r s) :=
  keeps_mbx _ _ _ _ _ h (keeps_bodyFailcountClear r s h)

theorem keeps_bodyDeviceReset (r : Req) (s : State) {z : State} (h : Keeps z s) : AnsKeeps z (bodyDeviceReset r s) := by
  unfold bodyDeviceReset
  simp (maxDischargeDepth := 40) only [implies_true, ↓keeps_refl, ↓keeps_ite, ↓keeps_foldl, ↓keeps_mk, ↓ramKeeps_refl, ↓safeKeeps_refl, ↓safeKeeps_of_eq, ↓ramKeeps_of_eq, ↓ansKeeps_ite, ↓ansKeeps_done, ↓ansKeeps_later, ↓keeps_no, ↓keeps_okay, ↓keeps_give, ↓keeps_updRst, h]

theorem keeps_execDeviceReset (r : Req) (s : State) {z : State} (h : Keeps z s) : ResKeeps z (execDeviceReset r s) :=
  keeps_mbx _ _ _ _ _ h (keeps_bodyDeviceReset r s h)

theorem keeps_bodyFwLoad (r : Req) (s : State) {z : State} (h : Keeps z s) : AnsKeeps z (bodyFwLoad r s) := by
  unfold bodyFwLoad
  simp (maxDischargeDepth := 40) only [implies_true, ↓keeps_refl, ↓keeps_ite, ↓keeps_foldl, ↓keeps_mk, ↓ramKeeps_refl, ↓safeKeeps_refl, ↓safeKeeps_of_eq, ↓ramKeeps_of_eq, ↓ansKeeps_ite, ↓ansKeeps_done, ↓ansKeeps_later, ↓keeps_no, ↓keeps_okay, ↓keeps_give, ↓keeps_updFw, h]

theorem keeps_execFwLoad (r : Req) (s : State) {z : State} (h : Keeps z s) : ResKeeps z (execFwLoad r s) :=
  keeps_mbx _ _ _ _ _ h (keeps_bodyFwLoad r s h)

theorem keeps_bodySafeImageLoad (r : Req) (s : State) {z : State} (h : Keeps z s) : AnsKeeps z (bodySafeImageLoad r s) := by
  unfold bodySafeImageLoad
  dsimp only
  (repeat' split) <;> simp (maxDischargeDepth := 40) only [implies_true, ↓keeps_refl, ↓keeps_ite, ↓keeps_foldl, ↓keeps_mk, ↓ramKeeps_refl, ↓safeKeeps_refl, ↓safeKeeps_of_eq, ↓ramKeeps_of_eq, ↓ansKeeps_ite, ↓ansKeeps_done, ↓ansKeeps_later, ↓keeps_no, ↓keeps_okay, ↓keeps_give, ↓keeps_storeCfg, h]

theorem keeps_execSafeImageLoad (r : Req) (s : State) {z : State} (h : Keeps z s) : ResKeeps z (execSafeImageLoad r s) :=
  keeps_mbx _ _ _ _ _ h (keeps_bodySafeImageLoad r s h)

theorem keeps_setResult (code res ms detail : Nat) (s : State) {z : State} (h : Keeps z s) : Keeps z (setResult code res ms detail s) := by
  unfold setResult
  simp (maxDischargeDepth := 40) only [implies_true, ↓keeps_refl, ↓keeps_ite, ↓keeps_foldl, ↓keeps_mk, ↓ramKeeps_refl, ↓safeKeeps_refl, ↓safeKeeps_of_eq, ↓ramKeeps_of_eq, ↓keeps_updTests, h]

theorem keeps_bodySelftestRun (r : Req) (s : State) {z : State} (h : Keeps z s) : AnsKeeps z (bodySelftestRun r s) := by
  unfold bodySelftestRun
  dsimp only
  (repeat' split) <;> simp (maxDischargeDepth := 40) only [implies_true, ↓keeps_refl, ↓keeps_ite, ↓keeps_foldl, ↓keeps_mk, ↓ramKeeps_refl, ↓safeKeeps_refl, ↓safeKeeps_of_eq, ↓ramKeeps_of_eq, ↓ansKeeps_ite, ↓ansKeeps_done, ↓ansKeeps_later, ↓keeps_no, ↓keeps_okay, ↓keeps_give, ↓keeps_event, ↓keeps_setResult, ↓keeps_startTest, ↓keeps_updTests, h]

theorem keeps_execSelftestRun (r : Req) (s : State) {z : State} (h : Keeps z s) : ResKeeps z (execSelftestRun r s) :=
  keeps_mbx _ _ _ _ _ h (keeps_bodySelftestRun r s h)

theorem keeps_bodySelftestStatus (u1 : Req) (s : State) {z : State} (h : Keeps z s) : AnsKeeps z (bodySelftestStatus u1 s) := by
  unfold bodySelftestStatus
  simp (maxDischargeDepth := 40) only [implies_true, ↓keeps_refl, ↓keeps_ite, ↓keeps_foldl, ↓keeps_mk, ↓ramKeeps_refl, ↓safeKeeps_refl, ↓safeKeeps_of_eq, ↓ramKeeps_of_eq, ↓ansKeeps_ite, ↓ansKeeps_done, ↓ansKeeps_later, ↓keeps_no, ↓keeps_okay, ↓keeps_give, h]

theorem keeps_execSelftestStatus (r : Req) (s : State) {z : State} (h : Keeps z s) : ResKeeps z (execSelftestStatus r s) :=
  keeps_mbx _ _ _ _ _ h (keeps_bodySelftestStatus r s h)

theorem keeps_testDone (r : TestResult) (s : State) {z : State} (h : Keeps z s) : Keeps z (testDone r s) := by
  unfold testDone
  simp (maxDischargeDepth := 40) only [implies_true, ↓keeps_refl, ↓keeps_ite, ↓keeps_foldl, ↓keeps_mk, ↓ramKeeps_refl, ↓safeKeeps_refl, ↓safeKeeps_of_eq, ↓ramKeeps_of_eq, ↓keeps_event, ↓keeps_latchCause, ↓keeps_setResult, h]

theorem keeps_faultPorts (s : State) {z : State} (h : Keeps z s) : Keeps z (faultPorts s) := by
  unfold faultPorts
  simp (maxDischargeDepth := 40) only [implies_true, ↓keeps_refl, ↓keeps_ite, ↓keeps_foldl, ↓keeps_mk, ↓ramKeeps_refl, ↓safeKeeps_refl, ↓safeKeeps_of_eq, ↓ramKeeps_of_eq, ↓keeps_endCopies, ↓keeps_setPort, ↓keeps_updPort, h]

theorem keeps_endInjection (s : State) {z : State} (h : Keeps z s) : Keeps z (endInjection s) := by
  unfold endInjection
  simp (maxDischargeDepth := 40) only [implies_true, ↓keeps_refl, ↓keeps_ite, ↓keeps_foldl, ↓keeps_mk, ↓ramKeeps_refl, ↓safeKeeps_refl, ↓safeKeeps_of_eq, ↓ramKeeps_of_eq, ↓keeps_setPort, h]

theorem keeps_execSelftestComplete (r : TestResult) (s : State) {z : State} (h : Keeps z s) : ResKeeps z (execSelftestComplete r s) := by
  unfold execSelftestComplete
  simp (maxDischargeDepth := 40) only [implies_true, ↓keeps_refl, ↓keeps_ite, ↓keeps_foldl, ↓keeps_mk, ↓ramKeeps_refl, ↓safeKeeps_refl, ↓safeKeeps_of_eq, ↓ramKeeps_of_eq, ↓resKeeps_ite, ↓resKeeps_next, ↓keeps_archiveMounting, ↓keeps_endInjection, ↓keeps_setLife, ↓keeps_testDone, ↓keeps_updTests, h]

theorem keeps_execPeriodicSelftest (r : TestResult) (s : State) {z : State} (h : Keeps z s) : ResKeeps z (execPeriodicSelftest r s) := by
  unfold execPeriodicSelftest
  simp (maxDischargeDepth := 40) only [implies_true, ↓keeps_refl, ↓keeps_ite, ↓keeps_foldl, ↓keeps_mk, ↓ramKeeps_refl, ↓safeKeeps_refl, ↓safeKeeps_of_eq, ↓ramKeeps_of_eq, ↓resKeeps_ite, ↓resKeeps_next, ↓keeps_testDone, h]

theorem keeps_latchMitten (n : Nat) (test : Bool) (s : State) {z : State} (h : Keeps z s) : Keeps z (latchMitten n test s) := by
  unfold latchMitten
  simp (maxDischargeDepth := 40) only [implies_true, ↓keeps_refl, ↓keeps_ite, ↓keeps_foldl, ↓keeps_mk, ↓ramKeeps_refl, ↓safeKeeps_refl, ↓safeKeeps_of_eq, ↓ramKeeps_of_eq, ↓keeps_latchCause, h]

theorem keeps_execMittenMismatch (pair : Fin 8) (s : State) {z : State} (h : Keeps z s) : ResKeeps z (execMittenMismatch pair s) := by
  unfold execMittenMismatch
  (repeat' split) <;> simp (maxDischargeDepth := 40) [implies_true, ↓keeps_refl, ↓keeps_ite, ↓keeps_foldl, ↓keeps_mk, ↓ramKeeps_refl, ↓safeKeeps_refl, ↓safeKeeps_of_eq, ↓ramKeeps_of_eq, ↓resKeeps_ite, ↓resKeeps_next, ↓keeps_faultPorts, ↓keeps_latchMitten, ↓keeps_resetDevice, h]

end Sys2Proof.Machine
end

