-- ==== Sys2Proof/WellFormed.lean ====
section
/-! DEFINITION. Which commands and events are well formed: operands within the widths and lengths the spec gives them. -/

namespace Sys2Proof

/-- A request's payload fits its path: 240 bytes in a slot or datagram, 4 MiB by DMA, and no DMA over UDP
(R449, R452, R463). -/
def Req.wf (r : Req) : Bool :=
  match r.dma with
  | none => r.payload.length ≤ 240
  | some d => r.payload.length = d.reqLen && d.reqLen ≤ 4194304 && d.rspMax ≤ 4194304 &&
      (match r.path with | .udp _ _ _ => false | _ => true)

/-- A contribution record: KIND, SRC, SUBJECT and LEN in one byte each, a body of LEN units (R362). -/
def Contrib.wf (c : Contrib) : Bool :=
  (c.kind < 256 : Bool) && c.src < 64 && c.subject < 256 && c.len < 256 && c.body < 2 ^ (64 * c.len)

/-- A section's bits fit its size (R359). -/
def Sec.wf (x : Sec) : Bool := (x.code < 256 : Bool) && x.val < 2 ^ (8 * x.bytes)

/-- An image: publisher a manager number, its sections of different codes (R359, R360). -/
def Image.wf (i : Image) : Bool := (i.publisher ≤ 2 : Bool) && i.secs.all Sec.wf && (i.secs.map (·.code)).Nodup

/-- A command record names one of the 24 thrusters and a mode of the installation (Table 6.8). -/
def CmdRec.wf (c : CmdRec) : Bool := (1 ≤ c.thr : Bool) && c.thr ≤ 24 && c.mode < 256

/-- A MEMBER payload: device and neighbour numbers, port states of 4 bits, a subtype of Table 12.6. -/
def Member.wf (m : Member) : Bool :=
  (m.device < 64 : Bool) && m.addressee < 256 && 1 ≤ m.subtype && m.subtype ≤ 6 && m.status < 256 && m.role < 256 &&
    m.portStates.length = 4 && m.portStates.all (· < 8) && m.neighbours.length = 4 && m.neighbours.all (· < 256)

/-- A frame header whose fields fit their widths (Table 12.2). -/
def Hdr.wf (h : Hdr) : Bool :=
  (h.type < 256 : Bool) && h.ver < 16 && h.src < 256 && h.dst < 256 && h.flow < 256 && h.hops < 256 && h.len < 65536 && h.prio < 4

/-- A NAK payload whose fields fit their widths (Table 12.8). -/
def Nak.wf (n : Nak) : Bool := (n.code < 256 : Bool) && n.port < 4 && n.origType < 256 && n.origSrc < 256 && n.origFlow < 256

/-- A CAN frame: an 11-bit or 29-bit identifier, and the data bytes its DLC implies; a remote frame has none (R418,
R420). -/
def CanFrame.wf (f : CanFrame) : Bool :=
  (f.id < (if f.ide then 2 ^ 29 else 2 ^ 11) : Bool) && f.dlc < 16 &&
    f.data.length = (if f.rtr then 0 else Machine.dlcLen f.fdf f.dlc)

/-- The well-formed commands and events. -/
def Instr.wf : Instr → Bool
  | .identify r => r.wf
  | .heartbeat r => r.wf
  | .hostConfig r => r.wf
  | .hostStatus r => r.wf
  | .boardRead r => r.wf
  | .boardStreamStart r => r.wf
  | .boardStreamStop r => r.wf
  | .boardStatus r => r.wf
  | .joinPermit r => r.wf
  | .leave r => r.wf
  | .memberConfig r => r.wf
  | .installTable r => r.wf
  | .streamDefine r => r.wf
  | .streamRead r => r.wf
  | .transformLoad r => r.wf
  | .refPrefer r => r.wf
  | .observerConfig r => r.wf
  | .streamStatus r => r.wf
  | .stallLoadStructure r => r.wf
  | .stallDelta r => r.wf
  | .stallConfig r => r.wf
  | .stallSolve r => r.wf
  | .stallStatus r => r.wf
  | .stallRead r => r.wf
  | .loopDefine r => r.wf
  | .loopCoefWrite r => r.wf
  | .loopControl r => r.wf
  | .traceArm r => r.wf
  | .traceRead r => r.wf
  | .loopStatus r => r.wf
  | .filterConfig r => r.wf
  | .filterBankLoad r => r.wf
  | .filterBankSwap r => r.wf
  | .dcbFreeze r => r.wf
  | .filterStatus r => r.wf
  | .aoConfig r => r.wf
  | .canConfig r => r.wf
  | .canAutobaud r => r.wf
  | .canTx r => r.wf
  | .canCancel r => r.wf
  | .canStatus r => r.wf
  | .canRxRead r => r.wf
  | .canRouteDefine r => r.wf
  | .uartConfig r => r.wf
  | .uartStatus r => r.wf
  | .uartRxRead r => r.wf
  | .uartTx r => r.wf
  | .lan61162Config r => r.wf
  | .timeConfig r => r.wf
  | .timeAcceptStep r => r.wf
  | .timeStatus r => r.wf
  | .safeConfig r => r.wf
  | .safeStatus r => r.wf
  | .unlock r => r.wf
  | .changelogRead r => r.wf
  | .safeRequest r => r.wf
  | .recordCursorSet r => r.wf
  | .recordWindowRead r => r.wf
  | .histoRead r => r.wf
  | .quotaSet r => r.wf
  | .histoConfig r => r.wf
  | .archiveStatus r => r.wf
  | .archiveRead r => r.wf
  | .flowDefine r => r.wf
  | .linkStatus r => r.wf
  | .linkPortControl r => r.wf
  | .roleStatus r => r.wf
  | .roleSwap r => r.wf
  | .mgrSilence r => r.wf
  | .redundancyConfig r => r.wf
  | .memStatus r => r.wf
  | .scrubConfig r => r.wf
  | .selftestRun r => r.wf
  | .selftestStatus r => r.wf
  | .deviceReset r => r.wf
  | .fwLoad r => r.wf
  | .failcountClear r => r.wf
  | .safeImageLoad r => r.wf
  | .dpModeSet r => r.wf
  | .setpointSet r => r.wf
  | .thrusterDefine r => r.wf
  | .powerDefine r => r.wf
  | .conseqConfig r => r.wf
  | .dpWeights r => r.wf
  | .fallbackLoad r => r.wf
  | .dpStatus r => r.wf
  | .joystickDemand r => r.wf
  | .trackLoad r => r.wf
  | .hifDoorbell v => v.toNat < 2 ^ 31
  | .hifMbxDone _ => true
  | .hifIrqStat _ => true
  | .hifIrqEn _ => true
  | .hifHeartbeat _ => true
  | .bar0OtherWrite off bytes => off + bytes.length ≤ 0x10000
  | .udpMailboxDatagram _ _ _ _ _ bytes => bytes.length ≤ 1472
  | .udpResponseExpiry _ _ _ => true
  | .notification => true
  | .endpointReset _ => true
  | .dmaReadDone _ bytes => bytes.length ≤ 4194304
  | .dmaReadTimeout => true
  | .mbxRelayFrame _ _ _ bytes => 16 ≤ bytes.length
  | .relayAnswer _ _ bytes => 16 ≤ bytes.length
  | .relayResend _ => true
  | .deviceResetDelay => true
  | .hostLost _ => true
  | .copyConfirm _ st _ => st ≤ 15
  | .copyConfirmTimeout => true
  | .sourceDevConfirmTimeout => true
  | .powerOnReset => true
  | .brownOut => true
  | .sysrstN => true
  | .supWatchdog => true
  | .startTimeout => true
  | .resetRelease _ _ => true
  | .releaseGapExpiry => true
  | .pllLock => true
  | .bootRomDone => true
  | .pcieBootPoll f => match f with | some b => (b.length ≤ 3145728 : Bool) | none => true
  | .ddr4TrainingDone => true
  | .failedStartClearTimer => true
  | .selftestComplete _ => true
  | .periodicSelftest _ => true
  | .mittenMismatch _ => true
  | .clockFault _ _ => true
  | .refCrystalFault => true
  | .supplyFault _ _ => true
  | .overtemp _ => true
  | .scDisagree _ => true
  | .faultReactionCounter _ => true
  | .glovePulseStart _ => true
  | .gloveOffWindowEnd _ _ => true
  | .glovePulseEnd _ => true
  | .gloveReturnWindowEnd _ _ => true
  | .staticReadbackMismatch _ _ => true
  | .siChannelChange _ _ => true
  | .siDiscrepancy _ => true
  | .safeResetNFall => true
  | .safeResetNRise _ => true
  | .resetStuck => true
  | .strapSample _ => true
  | .unlockExpiry => true
  | .lockoutEnd => true
  | .tick => true
  | .epochInstant => true
  | .epochClose => true
  | .fusionResultReady => true
  | .publicationDeadline => true
  | .posLost _ => true
  | .preferenceRelease => true
  | .boardContribFrame _ _ recs => recs.all Contrib.wf
  | .boardImageInstall img => img.wf
  | .pubIncomplete _ _ => true
  | .boardStreamSlot _ => true
  | .missedEpochs _ => true
  | .feedbackLost _ => true
  | .quorumLost => true
  | .powerReserve _ => true
  | .minorityLimit _ => true
  | .splitClear => true
  | .alarmEntryClear _ _ => true
  | .conseqFail _ => true
  | .conseqStale _ => true
  | .degradedPlan => true
  | .solverStale => true
  | .formationWindowEnd => true
  | .joinRequestTimer => true
  | .takeoverDecision => true
  | .outcomeInstant => true
  | .solveDone _ => true
  | .derivedBuildComplete => true
  | .scenarioBuildComplete _ => true
  | .throttleSample _ => true
  | .joyTimeout => true
  | .cmdFrame _ _ recs => recs.length ≤ 24 && recs.all CmdRec.wf
  | .cmdWaitExpiry => true
  | .memberPresent _ _ m => m.wf
  | .joinFrame _ _ m => m.wf
  | .joinAnswerFrame m _ => m.wf
  | .leaveFrame m => m.wf
  | .silentFrame m => m.wf
  | .recoveryFrame m => m.wf
  | .mapExpiry _ => true
  | .syncSend => true
  | .syncFrame _ _ h rest _ _ => h.wf && h.type = 2 && h.hops ≤ 62 && rest.length ≤ 1000
  | .linkDelayExchange _ _ => true
  | .syncLoss => true
  | .ptpMessage _ _ => true
  | .macTxDone _ _ _ _ _ _ => true
  | .ppsInEdge _ => true
  | .ppsInMissing => true
  | .ppsOutRise => true
  | .ppsOutFall => true
  | .ref10Lost _ => true
  | .helloSend => true
  | .helloReceive _ _ _ _ _ _ => true
  | .portDown _ => true
  | .linkFrameHeader _ h => h.wf
  | .linkFrameEnd _ _ f _ => f.hdr.wf && f.payload.length ≤ 1008
  | .ackReceive _ _ => true
  | .ackTimer _ => true
  | .resendReceive _ _ => true
  | .resendTimeout _ _ => true
  | .quarantineEnd _ => true
  | .degradedRestore _ => true
  | .nakFrame _ _ n => n.wf
  | .dataFrame _ _ _ bytes => bytes.length ≤ 1008
  | .recordFrame _ _ => true
  | .traceFrame _ _ => true
  | .tokenRefill _ => true
  | .canFrameRx _ f _ => f.wf
  | .canAttemptStart _ _ => true
  | .canAttemptEnd _ _ => true
  | .busOffRecovery _ => true
  | .canRxOverrun _ _ => true
  | .autobaudDwellEnd _ _ => true
  | .uartSentence _ _ _ chars _ _ => chars.all fun b => (0x20 ≤ b.toNat : Bool) && b.toNat ≤ 0x7E
  | .uartTxSentenceDone _ => true
  | .lan61162Datagram _ _ _ _ _ _ _ => true
  | .sensorDatagram _ _ _ _ _ _ => true
  | .filterOutputSample _ _ _ _ => true
  | .modulatorReset _ => true
  | .afeFifoOverrun _ _ => true
  | .loopRangePersist _ => true
  | .aoReadbackSample _ _ => true
  | .aoMismatch _ => true
  | .loopGridInstant => true
  | .inputCeased _ => true
  | .holdExpiry _ => true
  | .scrubRead g _ w _ => w < (if g = 1 || g = 8 then 2 ^ 144 else 2 ^ 80)
  | .writeBack _ _ _ => true
  | .mergeBufferEvict _ _ n _ _ => (1 ≤ n : Bool)
  | .nandProgramDone _ => true
  | .archiveMountDone m => (1 ≤ m.pageChunks : Bool) && 1 ≤ m.blockPages && m.badBlocks.all (· < m.blocks)
  | .archivePatrol _ bits retries _ => (bits ≤ 72 : Bool) && retries ≤ 4
  | .histoHourlySnapshot => true
  | .incidentCaptureClose => true
  | .powerFailNFall => true
  | .powerFailNRise => true
  | .archiveResume => true
  | .timeSourceLost => true
  | .sourceDevConfirm _ st _ => st ≤ 15
  | .nandEraseDone _ _ => true

end Sys2Proof
end

