-- ==== Sys2Proof/Laws/PerInstr.lean ====
section
/-! SUPPORT. One lemma per command and event about its syntax: a mailbox command is what the mailbox server makes of its own
code, its code is served by some device, and its well-formedness is its request's. -/

namespace Sys2Proof.Laws.MailboxCode
open Sys2Proof.Machine

/-- The mailbox code and request of a command (Tables 15.2 to 15.19); none for an event or a register access. -/
def codeOf : Instr → Option (Nat × Req)
  | .identify r => some (0x0101, r)
  | .heartbeat r => some (0x0102, r)
  | .hostConfig r => some (0x0103, r)
  | .hostStatus r => some (0x0104, r)
  | .boardRead r => some (0x0201, r)
  | .boardStreamStart r => some (0x0202, r)
  | .boardStreamStop r => some (0x0203, r)
  | .boardStatus r => some (0x0204, r)
  | .joinPermit r => some (0x0205, r)
  | .leave r => some (0x0206, r)
  | .memberConfig r => some (0x0207, r)
  | .installTable r => some (0x0208, r)
  | .streamDefine r => some (0x0301, r)
  | .streamRead r => some (0x0302, r)
  | .transformLoad r => some (0x0303, r)
  | .refPrefer r => some (0x0304, r)
  | .observerConfig r => some (0x0305, r)
  | .streamStatus r => some (0x0306, r)
  | .stallLoadStructure r => some (0x0401, r)
  | .stallDelta r => some (0x0402, r)
  | .stallConfig r => some (0x0403, r)
  | .stallSolve r => some (0x0404, r)
  | .stallStatus r => some (0x0405, r)
  | .stallRead r => some (0x0406, r)
  | .loopDefine r => some (0x0501, r)
  | .loopCoefWrite r => some (0x0502, r)
  | .loopControl r => some (0x0503, r)
  | .traceArm r => some (0x0504, r)
  | .traceRead r => some (0x0505, r)
  | .loopStatus r => some (0x0506, r)
  | .filterConfig r => some (0x0601, r)
  | .filterBankLoad r => some (0x0602, r)
  | .filterBankSwap r => some (0x0603, r)
  | .dcbFreeze r => some (0x0604, r)
  | .filterStatus r => some (0x0605, r)
  | .aoConfig r => some (0x0606, r)
  | .canConfig r => some (0x0701, r)
  | .canAutobaud r => some (0x0702, r)
  | .canTx r => some (0x0703, r)
  | .canCancel r => some (0x0704, r)
  | .canStatus r => some (0x0705, r)
  | .canRxRead r => some (0x0706, r)
  | .canRouteDefine r => some (0x0707, r)
  | .uartConfig r => some (0x0708, r)
  | .uartStatus r => some (0x0709, r)
  | .uartRxRead r => some (0x070A, r)
  | .uartTx r => some (0x070B, r)
  | .lan61162Config r => some (0x070C, r)
  | .timeConfig r => some (0x0801, r)
  | .timeAcceptStep r => some (0x0802, r)
  | .timeStatus r => some (0x0803, r)
  | .safeConfig r => some (0x0901, r)
  | .safeStatus r => some (0x0902, r)
  | .unlock r => some (0x0903, r)
  | .changelogRead r => some (0x0904, r)
  | .safeRequest r => some (0x0905, r)
  | .recordCursorSet r => some (0x0A01, r)
  | .recordWindowRead r => some (0x0A02, r)
  | .histoRead r => some (0x0A03, r)
  | .quotaSet r => some (0x0A04, r)
  | .histoConfig r => some (0x0A05, r)
  | .archiveStatus r => some (0x0A06, r)
  | .archiveRead r => some (0x0A07, r)
  | .flowDefine r => some (0x0B01, r)
  | .linkStatus r => some (0x0B02, r)
  | .linkPortControl r => some (0x0B03, r)
  | .roleStatus r => some (0x0C01, r)
  | .roleSwap r => some (0x0C02, r)
  | .mgrSilence r => some (0x0C03, r)
  | .redundancyConfig r => some (0x0C04, r)
  | .memStatus r => some (0x0D01, r)
  | .scrubConfig r => some (0x0D02, r)
  | .selftestRun r => some (0x0E01, r)
  | .selftestStatus r => some (0x0E02, r)
  | .deviceReset r => some (0x0F01, r)
  | .fwLoad r => some (0x0F02, r)
  | .failcountClear r => some (0x0F03, r)
  | .safeImageLoad r => some (0x0F04, r)
  | .dpModeSet r => some (0x1001, r)
  | .setpointSet r => some (0x1002, r)
  | .thrusterDefine r => some (0x1003, r)
  | .powerDefine r => some (0x1004, r)
  | .conseqConfig r => some (0x1005, r)
  | .dpWeights r => some (0x1006, r)
  | .fallbackLoad r => some (0x1007, r)
  | .dpStatus r => some (0x1008, r)
  | .joystickDemand r => some (0x1009, r)
  | .trackLoad r => some (0x100A, r)
  | .hifDoorbell _ => none
  | .hifMbxDone _ => none
  | .hifIrqStat _ => none
  | .hifIrqEn _ => none
  | .hifHeartbeat _ => none
  | .bar0OtherWrite _ _ => none
  | .udpMailboxDatagram _ _ _ _ _ _ => none
  | .udpResponseExpiry _ _ _ => none
  | .notification => none
  | .endpointReset _ => none
  | .dmaReadDone _ _ => none
  | .dmaReadTimeout => none
  | .mbxRelayFrame _ _ _ _ => none
  | .relayAnswer _ _ _ => none
  | .relayResend _ => none
  | .deviceResetDelay => none
  | .hostLost _ => none
  | .copyConfirm _ _ _ => none
  | .copyConfirmTimeout => none
  | .sourceDevConfirmTimeout => none
  | .powerOnReset => none
  | .brownOut => none
  | .sysrstN => none
  | .supWatchdog => none
  | .startTimeout => none
  | .resetRelease _ _ => none
  | .releaseGapExpiry => none
  | .pllLock => none
  | .bootRomDone => none
  | .pcieBootPoll _ => none
  | .ddr4TrainingDone => none
  | .failedStartClearTimer => none
  | .selftestComplete _ => none
  | .periodicSelftest _ => none
  | .mittenMismatch _ => none
  | .clockFault _ _ => none
  | .refCrystalFault => none
  | .supplyFault _ _ => none
  | .overtemp _ => none
  | .scDisagree _ => none
  | .faultReactionCounter _ => none
  | .glovePulseStart _ => none
  | .gloveOffWindowEnd _ _ => none
  | .glovePulseEnd _ => none
  | .gloveReturnWindowEnd _ _ => none
  | .staticReadbackMismatch _ _ => none
  | .siChannelChange _ _ => none
  | .siDiscrepancy _ => none
  | .safeResetNFall => none
  | .safeResetNRise _ => none
  | .resetStuck => none
  | .strapSample _ => none
  | .unlockExpiry => none
  | .lockoutEnd => none
  | .tick => none
  | .epochInstant => none
  | .epochClose => none
  | .fusionResultReady => none
  | .publicationDeadline => none
  | .posLost _ => none
  | .preferenceRelease => none
  | .boardContribFrame _ _ _ => none
  | .boardImageInstall _ => none
  | .pubIncomplete _ _ => none
  | .boardStreamSlot _ => none
  | .missedEpochs _ => none
  | .feedbackLost _ => none
  | .quorumLost => none
  | .powerReserve _ => none
  | .minorityLimit _ => none
  | .splitClear => none
  | .alarmEntryClear _ _ => none
  | .conseqFail _ => none
  | .conseqStale _ => none
  | .degradedPlan => none
  | .solverStale => none
  | .formationWindowEnd => none
  | .joinRequestTimer => none
  | .takeoverDecision => none
  | .outcomeInstant => none
  | .solveDone _ => none
  | .derivedBuildComplete => none
  | .scenarioBuildComplete _ => none
  | .throttleSample _ => none
  | .joyTimeout => none
  | .cmdFrame _ _ _ => none
  | .cmdWaitExpiry => none
  | .memberPresent _ _ _ => none
  | .joinFrame _ _ _ => none
  | .joinAnswerFrame _ _ => none
  | .leaveFrame _ => none
  | .silentFrame _ => none
  | .recoveryFrame _ => none
  | .mapExpiry _ => none
  | .syncSend => none
  | .syncFrame _ _ _ _ _ _ => none
  | .linkDelayExchange _ _ => none
  | .syncLoss => none
  | .ptpMessage _ _ => none
  | .macTxDone _ _ _ _ _ _ => none
  | .ppsInEdge _ => none
  | .ppsInMissing => none
  | .ppsOutRise => none
  | .ppsOutFall => none
  | .ref10Lost _ => none
  | .helloSend => none
  | .helloReceive _ _ _ _ _ _ => none
  | .portDown _ => none
  | .linkFrameHeader _ _ => none
  | .linkFrameEnd _ _ _ _ => none
  | .ackReceive _ _ => none
  | .ackTimer _ => none
  | .resendReceive _ _ => none
  | .resendTimeout _ _ => none
  | .quarantineEnd _ => none
  | .degradedRestore _ => none
  | .nakFrame _ _ _ => none
  | .dataFrame _ _ _ _ => none
  | .recordFrame _ _ => none
  | .traceFrame _ _ => none
  | .tokenRefill _ => none
  | .canFrameRx _ _ _ => none
  | .canAttemptStart _ _ => none
  | .canAttemptEnd _ _ => none
  | .busOffRecovery _ => none
  | .canRxOverrun _ _ => none
  | .autobaudDwellEnd _ _ => none
  | .uartSentence _ _ _ _ _ _ => none
  | .uartTxSentenceDone _ => none
  | .lan61162Datagram _ _ _ _ _ _ _ => none
  | .sensorDatagram _ _ _ _ _ _ => none
  | .filterOutputSample _ _ _ _ => none
  | .modulatorReset _ => none
  | .afeFifoOverrun _ _ => none
  | .loopRangePersist _ => none
  | .aoReadbackSample _ _ => none
  | .aoMismatch _ => none
  | .loopGridInstant => none
  | .inputCeased _ => none
  | .holdExpiry _ => none
  | .scrubRead _ _ _ _ => none
  | .writeBack _ _ _ => none
  | .mergeBufferEvict _ _ _ _ _ => none
  | .nandProgramDone _ => none
  | .archiveMountDone _ => none
  | .archivePatrol _ _ _ _ => none
  | .histoHourlySnapshot => none
  | .incidentCaptureClose => none
  | .powerFailNFall => none
  | .powerFailNRise => none
  | .archiveResume => none
  | .timeSourceLost => none
  | .sourceDevConfirm _ _ _ => none
  | .nandEraseDone _ _ => none

/-- What each lemma states of its constructor. -/
def Statement (i : Instr) : Prop :=
  ∀ code r, codeOf i = some (code, r) → instrOf code r = some i ∧ (served code).isSome = true ∧ (i.wf = true → r.wf = true)

/-- A mailbox command's statement, from its three facts at its own code. -/
theorem of_facts {i : Instr} {code : Nat} {r : Req} (hc : codeOf i = some (code, r)) (hi : instrOf code r = some i)
    (hs : (served code).isSome = true) (hw : i.wf = r.wf) : Statement i := by
  intro c q h
  obtain ⟨rfl, rfl⟩ := Prod.mk.inj (Option.some.inj (hc.symm.trans h))
  exact ⟨hi, hs, fun h => hw ▸ h⟩

/-- An event's statement: it has no mailbox code. -/
theorem of_none {i : Instr} (h : codeOf i = none) : Statement i := fun _ _ g => nomatch h.symm.trans g

theorem identify (r : Req) : Statement (.identify r) := of_facts rfl rfl rfl rfl
theorem heartbeat (r : Req) : Statement (.heartbeat r) := of_facts rfl rfl rfl rfl
theorem hostConfig (r : Req) : Statement (.hostConfig r) := of_facts rfl rfl rfl rfl
theorem hostStatus (r : Req) : Statement (.hostStatus r) := of_facts rfl rfl rfl rfl
theorem boardRead (r : Req) : Statement (.boardRead r) := of_facts rfl rfl rfl rfl
theorem boardStreamStart (r : Req) : Statement (.boardStreamStart r) := of_facts rfl rfl rfl rfl
theorem boardStreamStop (r : Req) : Statement (.boardStreamStop r) := of_facts rfl rfl rfl rfl
theorem boardStatus (r : Req) : Statement (.boardStatus r) := of_facts rfl rfl rfl rfl
theorem joinPermit (r : Req) : Statement (.joinPermit r) := of_facts rfl rfl rfl rfl
theorem leave (r : Req) : Statement (.leave r) := of_facts rfl rfl rfl rfl
theorem memberConfig (r : Req) : Statement (.memberConfig r) := of_facts rfl rfl rfl rfl
theorem installTable (r : Req) : Statement (.installTable r) := of_facts rfl rfl rfl rfl
theorem streamDefine (r : Req) : Statement (.streamDefine r) := of_facts rfl rfl rfl rfl
theorem streamRead (r : Req) : Statement (.streamRead r) := of_facts rfl rfl rfl rfl
theorem transformLoad (r : Req) : Statement (.transformLoad r) := of_facts rfl rfl rfl rfl
theorem refPrefer (r : Req) : Statement (.refPrefer r) := of_facts rfl rfl rfl rfl
theorem observerConfig (r : Req) : Statement (.observerConfig r) := of_facts rfl rfl rfl rfl
theorem streamStatus (r : Req) : Statement (.streamStatus r) := of_facts rfl rfl rfl rfl
theorem stallLoadStructure (r : Req) : Statement (.stallLoadStructure r) := of_facts rfl rfl rfl rfl
theorem stallDelta (r : Req) : Statement (.stallDelta r) := of_facts rfl rfl rfl rfl
theorem stallConfig (r : Req) : Statement (.stallConfig r) := of_facts rfl rfl rfl rfl
theorem stallSolve (r : Req) : Statement (.stallSolve r) := of_facts rfl rfl rfl rfl
theorem stallStatus (r : Req) : Statement (.stallStatus r) := of_facts rfl rfl rfl rfl
theorem stallRead (r : Req) : Statement (.stallRead r) := of_facts rfl rfl rfl rfl
theorem loopDefine (r : Req) : Statement (.loopDefine r) := of_facts rfl rfl rfl rfl
theorem loopCoefWrite (r : Req) : Statement (.loopCoefWrite r) := of_facts rfl rfl rfl rfl
theorem loopControl (r : Req) : Statement (.loopControl r) := of_facts rfl rfl rfl rfl
theorem traceArm (r : Req) : Statement (.traceArm r) := of_facts rfl rfl rfl rfl
theorem traceRead (r : Req) : Statement (.traceRead r) := of_facts rfl rfl rfl rfl
theorem loopStatus (r : Req) : Statement (.loopStatus r) := of_facts rfl rfl rfl rfl
theorem filterConfig (r : Req) : Statement (.filterConfig r) := of_facts rfl rfl rfl rfl
theorem filterBankLoad (r : Req) : Statement (.filterBankLoad r) := of_facts rfl rfl rfl rfl
theorem filterBankSwap (r : Req) : Statement (.filterBankSwap r) := of_facts rfl rfl rfl rfl
theorem dcbFreeze (r : Req) : Statement (.dcbFreeze r) := of_facts rfl rfl rfl rfl
theorem filterStatus (r : Req) : Statement (.filterStatus r) := of_facts rfl rfl rfl rfl
theorem aoConfig (r : Req) : Statement (.aoConfig r) := of_facts rfl rfl rfl rfl
theorem canConfig (r : Req) : Statement (.canConfig r) := of_facts rfl rfl rfl rfl
theorem canAutobaud (r : Req) : Statement (.canAutobaud r) := of_facts rfl rfl rfl rfl
theorem canTx (r : Req) : Statement (.canTx r) := of_facts rfl rfl rfl rfl
theorem canCancel (r : Req) : Statement (.canCancel r) := of_facts rfl rfl rfl rfl
theorem canStatus (r : Req) : Statement (.canStatus r) := of_facts rfl rfl rfl rfl
theorem canRxRead (r : Req) : Statement (.canRxRead r) := of_facts rfl rfl rfl rfl
theorem canRouteDefine (r : Req) : Statement (.canRouteDefine r) := of_facts rfl rfl rfl rfl
theorem uartConfig (r : Req) : Statement (.uartConfig r) := of_facts rfl rfl rfl rfl
theorem uartStatus (r : Req) : Statement (.uartStatus r) := of_facts rfl rfl rfl rfl
theorem uartRxRead (r : Req) : Statement (.uartRxRead r) := of_facts rfl rfl rfl rfl
theorem uartTx (r : Req) : Statement (.uartTx r) := of_facts rfl rfl rfl rfl
theorem lan61162Config (r : Req) : Statement (.lan61162Config r) := of_facts rfl rfl rfl rfl
theorem timeConfig (r : Req) : Statement (.timeConfig r) := of_facts rfl rfl rfl rfl
theorem timeAcceptStep (r : Req) : Statement (.timeAcceptStep r) := of_facts rfl rfl rfl rfl
theorem timeStatus (r : Req) : Statement (.timeStatus r) := of_facts rfl rfl rfl rfl
theorem safeConfig (r : Req) : Statement (.safeConfig r) := of_facts rfl rfl rfl rfl
theorem safeStatus (r : Req) : Statement (.safeStatus r) := of_facts rfl rfl rfl rfl
theorem unlock (r : Req) : Statement (.unlock r) := of_facts rfl rfl rfl rfl
theorem changelogRead (r : Req) : Statement (.changelogRead r) := of_facts rfl rfl rfl rfl
theorem safeRequest (r : Req) : Statement (.safeRequest r) := of_facts rfl rfl rfl rfl
theorem recordCursorSet (r : Req) : Statement (.recordCursorSet r) := of_facts rfl rfl rfl rfl
theorem recordWindowRead (r : Req) : Statement (.recordWindowRead r) := of_facts rfl rfl rfl rfl
theorem histoRead (r : Req) : Statement (.histoRead r) := of_facts rfl rfl rfl rfl
theorem quotaSet (r : Req) : Statement (.quotaSet r) := of_facts rfl rfl rfl rfl
theorem histoConfig (r : Req) : Statement (.histoConfig r) := of_facts rfl rfl rfl rfl
theorem archiveStatus (r : Req) : Statement (.archiveStatus r) := of_facts rfl rfl rfl rfl
theorem archiveRead (r : Req) : Statement (.archiveRead r) := of_facts rfl rfl rfl rfl
theorem flowDefine (r : Req) : Statement (.flowDefine r) := of_facts rfl rfl rfl rfl
theorem linkStatus (r : Req) : Statement (.linkStatus r) := of_facts rfl rfl rfl rfl
theorem linkPortControl (r : Req) : Statement (.linkPortControl r) := of_facts rfl rfl rfl rfl
theorem roleStatus (r : Req) : Statement (.roleStatus r) := of_facts rfl rfl rfl rfl
theorem roleSwap (r : Req) : Statement (.roleSwap r) := of_facts rfl rfl rfl rfl
theorem mgrSilence (r : Req) : Statement (.mgrSilence r) := of_facts rfl rfl rfl rfl
theorem redundancyConfig (r : Req) : Statement (.redundancyConfig r) := of_facts rfl rfl rfl rfl
theorem memStatus (r : Req) : Statement (.memStatus r) := of_facts rfl rfl rfl rfl
theorem scrubConfig (r : Req) : Statement (.scrubConfig r) := of_facts rfl rfl rfl rfl
theorem selftestRun (r : Req) : Statement (.selftestRun r) := of_facts rfl rfl rfl rfl
theorem selftestStatus (r : Req) : Statement (.selftestStatus r) := of_facts rfl rfl rfl rfl
theorem deviceReset (r : Req) : Statement (.deviceReset r) := of_facts rfl rfl rfl rfl
theorem fwLoad (r : Req) : Statement (.fwLoad r) := of_facts rfl rfl rfl rfl
theorem failcountClear (r : Req) : Statement (.failcountClear r) := of_facts rfl rfl rfl rfl
theorem safeImageLoad (r : Req) : Statement (.safeImageLoad r) := of_facts rfl rfl rfl rfl
theorem dpModeSet (r : Req) : Statement (.dpModeSet r) := of_facts rfl rfl rfl rfl
theorem setpointSet (r : Req) : Statement (.setpointSet r) := of_facts rfl rfl rfl rfl
theorem thrusterDefine (r : Req) : Statement (.thrusterDefine r) := of_facts rfl rfl rfl rfl
theorem powerDefine (r : Req) : Statement (.powerDefine r) := of_facts rfl rfl rfl rfl
theorem conseqConfig (r : Req) : Statement (.conseqConfig r) := of_facts rfl rfl rfl rfl
theorem dpWeights (r : Req) : Statement (.dpWeights r) := of_facts rfl rfl rfl rfl
theorem fallbackLoad (r : Req) : Statement (.fallbackLoad r) := of_facts rfl rfl rfl rfl
theorem dpStatus (r : Req) : Statement (.dpStatus r) := of_facts rfl rfl rfl rfl
theorem joystickDemand (r : Req) : Statement (.joystickDemand r) := of_facts rfl rfl rfl rfl
theorem trackLoad (r : Req) : Statement (.trackLoad r) := of_facts rfl rfl rfl rfl
theorem hifDoorbell (v : Word) : Statement (.hifDoorbell v) := of_none rfl
theorem hifMbxDone (v : Word) : Statement (.hifMbxDone v) := of_none rfl
theorem hifIrqStat (v : Word) : Statement (.hifIrqStat v) := of_none rfl
theorem hifIrqEn (v : Word) : Statement (.hifIrqEn v) := of_none rfl
theorem hifHeartbeat (v : Word) : Statement (.hifHeartbeat v) := of_none rfl
theorem bar0OtherWrite (off : Nat) (bytes : List Byte) : Statement (.bar0OtherWrite off bytes) := of_none rfl
theorem udpMailboxDatagram (mac : Fin 2) (dst : Word) (src : Word) (port : BitVec 16) (checksumOk : Bool) (bytes : List Byte) : Statement (.udpMailboxDatagram mac dst src port checksumOk bytes) := of_none rfl
theorem udpResponseExpiry (src : Word) (port : BitVec 16) (tag : BitVec 16) : Statement (.udpResponseExpiry src port tag) := of_none rfl
theorem notification : Statement (.notification) := of_none rfl
theorem endpointReset (kind : Fin 4) : Statement (.endpointReset kind) := of_none rfl
theorem dmaReadDone (ok : Bool) (bytes : List Byte) : Statement (.dmaReadDone ok bytes) := of_none rfl
theorem dmaReadTimeout : Statement (.dmaReadTimeout) := of_none rfl
theorem mbxRelayFrame (src : Fin 64) (seq : BitVec 16) (replay : Bool) (bytes : List Byte) : Statement (.mbxRelayFrame src seq replay bytes) := of_none rfl
theorem relayAnswer (src : Fin 64) (seq : BitVec 16) (bytes : List Byte) : Statement (.relayAnswer src seq bytes) := of_none rfl
theorem relayResend (seq : BitVec 16) : Statement (.relayResend seq) := of_none rfl
theorem deviceResetDelay : Statement (.deviceResetDelay) := of_none rfl
theorem hostLost (path : Watch) : Statement (.hostLost path) := of_none rfl
theorem copyConfirm (mgr : Fin 3) (status : Nat) (signature : Word) : Statement (.copyConfirm mgr status signature) := of_none rfl
theorem copyConfirmTimeout : Statement (.copyConfirmTimeout) := of_none rfl
theorem sourceDevConfirmTimeout : Statement (.sourceDevConfirmTimeout) := of_none rfl
theorem powerOnReset : Statement (.powerOnReset) := of_none rfl
theorem brownOut : Statement (.brownOut) := of_none rfl
theorem sysrstN : Statement (.sysrstN) := of_none rfl
theorem supWatchdog : Statement (.supWatchdog) := of_none rfl
theorem startTimeout : Statement (.startTimeout) := of_none rfl
theorem resetRelease (straps : BitVec 12) (trimOk : Bool) : Statement (.resetRelease straps trimOk) := of_none rfl
theorem releaseGapExpiry : Statement (.releaseGapExpiry) := of_none rfl
theorem pllLock : Statement (.pllLock) := of_none rfl
theorem bootRomDone : Statement (.bootRomDone) := of_none rfl
theorem pcieBootPoll (fetched : Option (List Byte)) : Statement (.pcieBootPoll fetched) := of_none rfl
theorem ddr4TrainingDone : Statement (.ddr4TrainingDone) := of_none rfl
theorem failedStartClearTimer : Statement (.failedStartClearTimer) := of_none rfl
theorem selftestComplete (r : TestResult) : Statement (.selftestComplete r) := of_none rfl
theorem periodicSelftest (r : TestResult) : Statement (.periodicSelftest r) := of_none rfl
theorem mittenMismatch (pair : Fin 8) : Statement (.mittenMismatch pair) := of_none rfl
theorem clockFault (domain : Fin 17) (inRange : Bool) : Statement (.clockFault domain inRange) := of_none rfl
theorem refCrystalFault : Statement (.refCrystalFault) := of_none rfl
theorem supplyFault (rail : Fin 9) (level : RailLevel) : Statement (.supplyFault rail level) := of_none rfl
theorem overtemp (celsius : Int) : Statement (.overtemp celsius) := of_none rfl
theorem scDisagree (agree : Bool) : Statement (.scDisagree agree) := of_none rfl
theorem faultReactionCounter (path : Fin 4) : Statement (.faultReactionCounter path) := of_none rfl
theorem glovePulseStart (out : Fin 16) : Statement (.glovePulseStart out) := of_none rfl
theorem gloveOffWindowEnd (out : Fin 16) (seen : SeenLevels) : Statement (.gloveOffWindowEnd out seen) := of_none rfl
theorem glovePulseEnd (out : Fin 16) : Statement (.glovePulseEnd out) := of_none rfl
theorem gloveReturnWindowEnd (out : Fin 16) (high : Bool) : Statement (.gloveReturnWindowEnd out high) := of_none rfl
theorem staticReadbackMismatch (out : Fin 16) (high : Bool) : Statement (.staticReadbackMismatch out high) := of_none rfl
theorem siChannelChange (ch : Fin 16) (high : Bool) : Statement (.siChannelChange ch high) := of_none rfl
theorem siDiscrepancy (pair : Fin 8) : Statement (.siDiscrepancy pair) := of_none rfl
theorem safeResetNFall : Statement (.safeResetNFall) := of_none rfl
theorem safeResetNRise (lowMs : Nat) : Statement (.safeResetNRise lowMs) := of_none rfl
theorem resetStuck : Statement (.resetStuck) := of_none rfl
theorem strapSample (pins : BitVec 12) : Statement (.strapSample pins) := of_none rfl
theorem unlockExpiry : Statement (.unlockExpiry) := of_none rfl
theorem lockoutEnd : Statement (.lockoutEnd) := of_none rfl
theorem tick : Statement (.tick) := of_none rfl
theorem epochInstant : Statement (.epochInstant) := of_none rfl
theorem epochClose : Statement (.epochClose) := of_none rfl
theorem fusionResultReady : Statement (.fusionResultReady) := of_none rfl
theorem publicationDeadline : Statement (.publicationDeadline) := of_none rfl
theorem posLost (heading : Bool) : Statement (.posLost heading) := of_none rfl
theorem preferenceRelease : Statement (.preferenceRelease) := of_none rfl
theorem boardContribFrame (src : Fin 64) (seq : BitVec 16) (recs : List Contrib) : Statement (.boardContribFrame src seq recs) := of_none rfl
theorem boardImageInstall (img : Image) : Statement (.boardImageInstall img) := of_none rfl
theorem pubIncomplete (epoch : Word) (missing : Nat) : Statement (.pubIncomplete epoch missing) := of_none rfl
theorem boardStreamSlot (consumed : Word) : Statement (.boardStreamSlot consumed) := of_none rfl
theorem missedEpochs (dev : Fin 64) : Statement (.missedEpochs dev) := of_none rfl
theorem feedbackLost (thr : Fin 24) : Statement (.feedbackLost thr) := of_none rfl
theorem quorumLost : Statement (.quorumLost) := of_none rfl
theorem powerReserve (group : Fin 6) : Statement (.powerReserve group) := of_none rfl
theorem minorityLimit (mgr : Fin 3) : Statement (.minorityLimit mgr) := of_none rfl
theorem splitClear : Statement (.splitClear) := of_none rfl
theorem alarmEntryClear (code : BitVec 16) (subject : BitVec 8) : Statement (.alarmEntryClear code subject) := of_none rfl
theorem conseqFail (scen : Fin 16) : Statement (.conseqFail scen) := of_none rfl
theorem conseqStale (scen : Fin 16) : Statement (.conseqStale scen) := of_none rfl
theorem degradedPlan : Statement (.degradedPlan) := of_none rfl
theorem solverStale : Statement (.solverStale) := of_none rfl
theorem formationWindowEnd : Statement (.formationWindowEnd) := of_none rfl
theorem joinRequestTimer : Statement (.joinRequestTimer) := of_none rfl
theorem takeoverDecision : Statement (.takeoverDecision) := of_none rfl
theorem outcomeInstant : Statement (.outcomeInstant) := of_none rfl
theorem solveDone (stall : Fin 32) : Statement (.solveDone stall) := of_none rfl
theorem derivedBuildComplete : Statement (.derivedBuildComplete) := of_none rfl
theorem scenarioBuildComplete (scen : Fin 16) : Statement (.scenarioBuildComplete scen) := of_none rfl
theorem throttleSample (celsius : Int) : Statement (.throttleSample celsius) := of_none rfl
theorem joyTimeout : Statement (.joyTimeout) := of_none rfl
theorem cmdFrame (mgr : Fin 3) (epoch16 : BitVec 16) (recs : List CmdRec) : Statement (.cmdFrame mgr epoch16 recs) := of_none rfl
theorem cmdWaitExpiry : Statement (.cmdWaitExpiry) := of_none rfl
theorem memberPresent (net : Bool) (port : Bool) (m : Member) : Statement (.memberPresent net port m) := of_none rfl
theorem joinFrame (net : Bool) (port : Bool) (m : Member) : Statement (.joinFrame net port m) := of_none rfl
theorem joinAnswerFrame (m : Member) (hs : Option Handshake) : Statement (.joinAnswerFrame m hs) := of_none rfl
theorem leaveFrame (m : Member) : Statement (.leaveFrame m) := of_none rfl
theorem silentFrame (m : Member) : Statement (.silentFrame m) := of_none rfl
theorem recoveryFrame (m : Member) : Statement (.recoveryFrame m) := of_none rfl
theorem mapExpiry (dev : Fin 64) : Statement (.mapExpiry dev) := of_none rfl
theorem syncSend : Statement (.syncSend) := of_none rfl
theorem syncFrame (net : Bool) (port : Bool) (h : Hdr) (rest : List Byte) (corr : Nat) (offset : Int) : Statement (.syncFrame net port h rest corr offset) := of_none rfl
theorem linkDelayExchange (port : Fin 4) (ns : Nat) : Statement (.linkDelayExchange port ns) := of_none rfl
theorem syncLoss : Statement (.syncLoss) := of_none rfl
theorem ptpMessage (mac : Fin 2) (m : PtpMsg) : Statement (.ptpMessage mac m) := of_none rfl
theorem macTxDone (mac : Fin 2) (fast : Bool) (kind : Fin 16) (oneStep : Bool) (status : Fin 3) (raw : Nat) : Statement (.macTxDone mac fast kind oneStep status raw) := of_none rfl
theorem ppsInEdge (stamp : Nat) : Statement (.ppsInEdge stamp) := of_none rfl
theorem ppsInMissing : Statement (.ppsInMissing) := of_none rfl
theorem ppsOutRise : Statement (.ppsOutRise) := of_none rfl
theorem ppsOutFall : Statement (.ppsOutFall) := of_none rfl
theorem ref10Lost (hz : Nat) : Statement (.ref10Lost hz) := of_none rfl
theorem helloSend : Statement (.helloSend) := of_none rfl
theorem helloReceive (port : Fin 4) (dev : Fin 64) (net : Bool) (pnum : Bool) (nbState : Fin 8) (errorFree : Bool) : Statement (.helloReceive port dev net pnum nbState errorFree) := of_none rfl
theorem portDown (port : Fin 4) : Statement (.portDown port) := of_none rfl
theorem linkFrameHeader (port : Fin 4) (h : Hdr) : Statement (.linkFrameHeader port h) := of_none rfl
theorem linkFrameEnd (port : Fin 4) (hseq : BitVec 8) (f : Frame) (outcome : FrameEnd) : Statement (.linkFrameEnd port hseq f outcome) := of_none rfl
theorem ackReceive (port : Fin 4) (hseq : BitVec 8) : Statement (.ackReceive port hseq) := of_none rfl
theorem ackTimer (port : Fin 4) : Statement (.ackTimer port) := of_none rfl
theorem resendReceive (port : Fin 4) (hseq : BitVec 8) : Statement (.resendReceive port hseq) := of_none rfl
theorem resendTimeout (port : Fin 4) (hseq : BitVec 8) : Statement (.resendTimeout port hseq) := of_none rfl
theorem quarantineEnd (port : Fin 4) : Statement (.quarantineEnd port) := of_none rfl
theorem degradedRestore (port : Fin 4) : Statement (.degradedRestore port) := of_none rfl
theorem nakFrame (port : Fin 4) (src : Fin 64) (n : Nak) : Statement (.nakFrame port src n) := of_none rfl
theorem dataFrame (src : Fin 64) (flow : BitVec 8) (seq : BitVec 16) (bytes : List Byte) : Statement (.dataFrame src flow seq bytes) := of_none rfl
theorem recordFrame (src : Fin 64) (recs : List (Word × EvRec × BitVec 16)) : Statement (.recordFrame src recs) := of_none rfl
theorem traceFrame (src : Fin 64) (words : List Word) : Statement (.traceFrame src words) := of_none rfl
theorem tokenRefill (code : BitVec 16) : Statement (.tokenRefill code) := of_none rfl
theorem canFrameRx (ch : Fin 8) (f : CanFrame) (rx : CanRx) : Statement (.canFrameRx ch f rx) := of_none rfl
theorem canAttemptStart (ch : Fin 8) (stamp : Nat) : Statement (.canAttemptStart ch stamp) := of_none rfl
theorem canAttemptEnd (ch : Fin 8) (e : CanEnd) : Statement (.canAttemptEnd ch e) := of_none rfl
theorem busOffRecovery (ch : Fin 8) : Statement (.busOffRecovery ch) := of_none rfl
theorem canRxOverrun (ch : Fin 8) (lost : Nat) : Statement (.canRxOverrun ch lost) := of_none rfl
theorem autobaudDwellEnd (ch : Fin 8) (onError : Bool) : Statement (.autobaudDwellEnd ch onError) := of_none rfl
theorem uartSentence (u : Fin 8) (noise : Nat) (restarts : Nat) (chars : List Byte) (framing : Bool) (stamp : Nat) : Statement (.uartSentence u noise restarts chars framing stamp) := of_none rfl
theorem uartTxSentenceDone (u : Fin 8) : Statement (.uartTxSentenceDone u) := of_none rfl
theorem lan61162Datagram (mac : Fin 2) (fast : Bool) (group : Word) (port : BitVec 16) (headerOk : Bool) (sentences : List LanSentence) (raw : Nat) : Statement (.lan61162Datagram mac fast group port headerOk sentences raw) := of_none rfl
theorem sensorDatagram (mac : Fin 2) (fast : Bool) (src : Word) (port : BitVec 16) (bytes : List Byte) (raw : Nat) : Statement (.sensorDatagram mac fast src port bytes raw) := of_none rfl
theorem filterOutputSample (ch : Fin 16) (stream : Nat) (done : Nat) (spacing : Nat) : Statement (.filterOutputSample ch stream done spacing) := of_none rfl
theorem modulatorReset (ch : Fin 16) : Statement (.modulatorReset ch) := of_none rfl
theorem afeFifoOverrun (ch : Fin 16) (lost : Nat) : Statement (.afeFifoOverrun ch lost) := of_none rfl
theorem loopRangePersist (ch : Fin 16) : Statement (.loopRangePersist ch) := of_none rfl
theorem aoReadbackSample (out : Fin 8) (mv : Int) : Statement (.aoReadbackSample out mv) := of_none rfl
theorem aoMismatch (out : Fin 8) : Statement (.aoMismatch out) := of_none rfl
theorem loopGridInstant : Statement (.loopGridInstant) := of_none rfl
theorem inputCeased (ctx : Fin 128) : Statement (.inputCeased ctx) := of_none rfl
theorem holdExpiry (ctx : Fin 128) : Statement (.holdExpiry ctx) := of_none rfl
theorem scrubRead (region : Fin 9) (addr : Nat) (word : Nat) (use : MemUse) : Statement (.scrubRead region addr word use) := of_none rfl
theorem writeBack (region : Fin 9) (addr : Nat) (overtaken : Bool) : Statement (.writeBack region addr overtaken) := of_none rfl
theorem mergeBufferEvict (region : Fin 9) (addr : Nat) (writes : Nat) (parityOk : Bool) (use : MemUse) : Statement (.mergeBufferEvict region addr writes parityOk use) := of_none rfl
theorem nandProgramDone (ok : Bool) : Statement (.nandProgramDone ok) := of_none rfl
theorem archiveMountDone (m : Mount) : Statement (.archiveMountDone m) := of_none rfl
theorem archivePatrol (block : Nat) (bits : Nat) (retries : Nat) (ageDays : Nat) : Statement (.archivePatrol block bits retries ageDays) := of_none rfl
theorem histoHourlySnapshot : Statement (.histoHourlySnapshot) := of_none rfl
theorem incidentCaptureClose : Statement (.incidentCaptureClose) := of_none rfl
theorem powerFailNFall : Statement (.powerFailNFall) := of_none rfl
theorem powerFailNRise : Statement (.powerFailNRise) := of_none rfl
theorem archiveResume : Statement (.archiveResume) := of_none rfl
theorem timeSourceLost : Statement (.timeSourceLost) := of_none rfl
theorem sourceDevConfirm (dev : Fin 64) (status : Nat) (rejected : Nat) : Statement (.sourceDevConfirm dev status rejected) := of_none rfl
theorem nandEraseDone (block : Nat) (ok : Bool) : Statement (.nandEraseDone block ok) := of_none rfl

end Sys2Proof.Laws.MailboxCode
end

