-- ==== Sys2Proof/Laws/Quiet.lean ====
section
/-! SUPPORT. What recording an event, sending and answering leave alone; the shape of a command that completes. -/

namespace Sys2Proof
open Sys2Proof.Machine

theorem Quiet.refl (s : State) : Quiet s s := by constructor <;> rfl

theorem Quiet.trans {a b c : State} (h : Quiet a b) (k : Quiet b c) : Quiet a c := by
  obtain ⟨p, fr, v, cf, cn, mr, fw, rs, sf, ti, cy, br, me, dp, so, fu, lo, fi, ao, bu, ar, mp, te⟩ := h
  obtain ⟨p', fr', v', cf', cn', mr', fw', rs', sf', ti', cy', br', me', dp', so', fu', lo', fi', ao', bu', ar', mp', te'⟩ := k
  have e1 : { c.mram with ring := a.mram.ring, head := a.mram.head, ringBad := a.mram.ringBad } = a.mram := by
    rw [← mr, ← mr']
  have e2 : { c.rst with held := a.rst.held } = a.rst := by rw [← rs, ← rs']
  have e3 : { c.loop with trace := a.loop.trace } = a.loop := by rw [← lo, ← lo']
  constructor <;> first | assumption | (simp only [*])

theorem Quiet.foldl {α : Type} {f : State → α → State} (hf : ∀ s x, Quiet s (f s x)) (l : List α) (s : State) :
    Quiet s (l.foldl f s) := by
  induction l generalizing s with
  | nil => exact Quiet.refl s
  | cons x l ih => exact (hf s x).trans (ih _)

theorem Quiet.ite {c : Prop} [Decidable c] {s t u : State} (h : Quiet s t) (k : Quiet s u) : Quiet s (if c then t else u) := by
  split <;> assumption

theorem quiet_emit (o : Out) (s : State) : Quiet s (emit o s) := by constructor <;> rfl
theorem quiet_raiseIrq (b : Nat) (s : State) : Quiet s (raiseIrq b s) := by
  unfold raiseIrq; simp only; split <;> constructor <;> rfl
theorem quiet_hif (s : State) (h : Hif) : Quiet s { s with hif := h } := by constructor <;> rfl
theorem quiet_link (s : State) (l : Link) : Quiet s { s with link := l } := by constructor <;> rfl
theorem quiet_enqueue (ix : Nat) (f : Frame) (s : State) : Quiet s (enqueue ix f s) := quiet_link _ _
theorem quiet_pump (s : State) : Quiet s (pump s) := quiet_link _ _
theorem quiet_sendNet (f : Frame) (n : Bool) (s : State) : Quiet s (sendNet f n s) := by
  unfold sendNet
  simp only
  split
  · split <;> split <;>
      first | exact Quiet.refl _ | exact quiet_enqueue _ _ _ | exact (quiet_enqueue _ _ _).trans (quiet_enqueue _ _ _)
  · split
    · exact quiet_enqueue _ _ _
    · exact quiet_link _ _
theorem quiet_sendFrame (ty fl pr : Nat) (b : Bool) (d : Nat) (e : BitVec 16) (p : List Byte) (g : Hdr → Hdr) (s : State) :
    Quiet s (sendFrame ty fl pr b d e p g s) := by
  unfold sendFrame
  exact (((quiet_link s _).trans (Quiet.foldl (fun t n => quiet_sendNet _ n t) _ _))).trans (quiet_pump _)
theorem quiet_sendSys (ty d : Nat) (e : Word) (p : List Byte) (s : State) : Quiet s (sendSys ty d e p s) :=
  quiet_sendFrame _ _ _ _ _ _ _ _ _
theorem quiet_sendMember (n : Nat) (s : State) : Quiet s (sendMember n s) := quiet_sendSys _ _ _ _ _
theorem quiet_notify (n : Word) (r : EvRec) (s : State) : Quiet s (notify n r s) := by
  unfold notify; simp only; split
  · exact Quiet.refl _
  · split <;> exact quiet_hif _ _
theorem quiet_ringAppend (r : EvRec) (s : State) : Quiet s (ringAppend r s) := by constructor <;> rfl
theorem quiet_storeRec (r : EvRec) (own : Bool) (s : State) : Quiet s (storeRec r own s) := by
  unfold storeRec
  have h := (quiet_ringAppend r s).trans (quiet_notify s.mram.head r _)
  simp only
  split
  · exact h.trans (quiet_sendSys _ _ _ _ _)
  · exact h
theorem quiet_setBucket (b : Bucket) (s : State) : Quiet s (setBucket b s) := by constructor <;> rfl
theorem quiet_offer (r : EvRec) (k : Nat) (own : Bool) (s : State) : Quiet s (offer r k own s) := by
  unfold offer
  extract_lets b b1
  split
  · refine Quiet.trans ?_ (quiet_storeRec _ _ _)
    refine Quiet.trans ?_ (quiet_setBucket _ _)
    exact Quiet.ite (quiet_storeRec _ _ _) (Quiet.refl _)
  · exact quiet_setBucket _ _
theorem quiet_fireTraces (n code : Nat) (s : State) : Quiet s (fireTraces n code s) := by
  induction n generalizing code s with
  | zero => exact Quiet.refl _
  | succ n ih =>
    unfold fireTraces
    simp only
    split
    · exact Quiet.refl _
    · refine Quiet.trans ?_ (ih _ _)
      refine Quiet.trans ?_ (Quiet.foldl (fun t u => quiet_offer _ _ _ _) _ _)
      constructor <;> rfl

/-- Recording an event is quiet. -/
theorem quiet_event (code sev : Nat) (ps : List Nat) (s : State) : Quiet s (event code sev ps s) := by
  unfold event
  split
  · exact (quiet_offer _ _ _ _).trans (quiet_fireTraces _ _ _)
  · constructor <;> rfl

theorem quiet_sendTo (ty fl pr : Nat) (b : Bool) (d : Nat) (e : BitVec 16) (p : List Byte) (g : Hdr → Hdr) (s : State) :
    Quiet s (sendTo ty fl pr b d e p g s) := by
  unfold sendTo
  exact (quiet_sendFrame _ _ _ _ _ _ _ _ _).trans (Quiet.foldl (fun t n => quiet_event _ _ _ _) _ _)
theorem quiet_sendLong (ty d : Nat) (e : Word) (bs : List Byte) (rp : Bool) (s : State) : Quiet s (sendLong ty d e bs rp s) := by
  unfold sendLong
  exact Quiet.foldl (fun t p => quiet_sendTo _ _ _ _ _ _ _ _ _) _ _
theorem quiet_writeSlot (n off : Nat) (bs : List Byte) (s : State) : Quiet s (writeSlot n off bs s) := by constructor <;> rfl
theorem quiet_respondWith (fl code : Nat) (r : Req) (st : Nat) (pay : List Byte) (s : State) :
    Quiet s (respondWith fl code r st pay s) := by
  unfold respondWith
  simp only
  split
  · exact quiet_hif _ _
  · have h (s1 s2 : State) (k : Quiet s1 s2) (o : Prop) [Decidable o] (h4 : Hif) :
        Quiet s1 (if o then raiseIrq 0 { s2 with hif := h4 } else { s2 with hif := h4 }) := by
      split
      · exact k.trans ((quiet_hif _ _).trans (quiet_raiseIrq _ _))
      · exact k.trans (quiet_hif _ _)
    apply h
    refine Quiet.trans ?_ (quiet_writeSlot _ _ _ _)
    split
    · split
      · exact (quiet_hif _ _).trans (quiet_emit _ _)
      · exact quiet_hif _ _
    · exact quiet_hif _ _
  · exact (quiet_hif s _).trans (quiet_emit _ _)
  · exact (quiet_hif s _).trans (quiet_sendLong _ _ _ _ _ _)
theorem quiet_respond (code : Nat) (r : Req) (st : Nat) (pay : List Byte) (s : State) : Quiet s (respond code r st pay s) :=
  quiet_respondWith _ _ _ _ _ _
theorem quiet_trace (code : Nat) (r : Req) (st : Nat) (s : State) : Quiet s (trace code r st s) := by
  unfold trace; split
  · exact Quiet.refl _
  · exact quiet_event _ _ _ _
theorem quiet_sendRelay (code : Nat) (r : Req) (s : State) : Quiet s (sendRelay code r s) := by
  unfold sendRelay
  exact (quiet_hif _ _).trans (quiet_sendLong _ _ _ _ _ _)
theorem quiet_answerHcrc (p : Path) (b : List Byte) (s : State) : Quiet s (answerHcrc p b s) := by
  unfold answerHcrc
  exact ((quiet_hif _ _).trans (quiet_respondWith _ _ _ _ _ _)).trans (quiet_event _ _ _ _)
theorem quiet_takeNext (n : Nat) (s : State) : Quiet s (takeNext n s) := by
  induction n generalizing s with
  | zero => exact Quiet.refl _
  | succ n ih =>
    unfold takeNext
    split
    · exact Quiet.refl _
    · split
      · exact Quiet.refl _
      · rename_i p b0 rest _
        have h1 (p : Path) : Quiet s (match p with
          | .slot k => { s with hif := { s.hif with waiting := rest, busy := s.hif.busy ||| wd (2 ^ k.val) } }
          | _ => { s with hif := { s.hif with waiting := rest } }) := by
          split <;> exact quiet_hif _ _
        simp only
        split
        · exact (quiet_hif _ _).trans (ih _)
        · exact (h1 p).trans ((quiet_answerHcrc _ _ _).trans (ih _))
        · exact (h1 p).trans (((quiet_trace _ _ _ _).trans (quiet_respond _ _ _ _ _)).trans (ih _))
        · exact (h1 p).trans ((quiet_hif _ _).trans (quiet_emit _ _))
        · exact (h1 p).trans ((quiet_sendRelay _ _ _).trans (ih _))
        · exact (h1 p).trans (quiet_hif _ _)

/-- The server taking what waits is quiet. -/
theorem quiet_serve (s : State) : Quiet s (serve s) := quiet_takeNext _ _

/-- Answering is quiet. -/
theorem quiet_finish (code : Nat) (r : Req) (st : Status) (pay : List Byte) (s : State) : Quiet s (finish code r st pay s) := by
  unfold finish
  extract_lets p s1 _ s2
  have h1 : Quiet s s1 := (quiet_trace _ _ _ _).trans (quiet_respond _ _ _ _ _)
  have h2 : Quiet s s2 := Quiet.ite (h1.trans (quiet_hif _ _)) h1
  exact h2.trans (quiet_serve _)

/-- A command that the mailbox takes and whose body completes answers OK. -/
theorem mbx_answers {code : Nat} {len : List Byte → Option Status} {body : Req → State → Ans} {r : Req} {pay : List Byte} {s u : State}
    (h : Takes code r pay s) (hl : len r.payload = none) (hb : body r s = .done .ok pay u) :
    mbx code len body r s = .next (finish code r .ok pay u) := by
  obtain ⟨h1, h2, h3, h4⟩ := h
  have hc : (decide (s.rst.life = .cloakroom) && !cloakServed code) = false := by
    cases hd : decide (s.rst.life = .cloakroom)
    · rfl
    · simp [h2 (of_decide_eq_true hd)]
  have hr : (if isCopy code r s then none else roleRefusal code s) = none := by
    rcases h3 with h | h <;> simp [h]
  unfold mbx
  rw [h1, hc, hr, hl, hb]
  cases hd : r.dma with
  | none => rfl
  | some d =>
    have := h4 d hd
    have h5 : ¬ pay.length > d.rspMax := by omega
    simp [h5]

/-- A command that the mailbox takes and whose body waits for others goes on without an answer. -/
theorem mbx_later {code : Nat} {len : List Byte → Option Status} {body : Req → State → Ans} {r : Req} {s u : State}
    (h : Takes code r [] s) (hl : len r.payload = none) (hb : body r s = .later u) : mbx code len body r s = .next u := by
  obtain ⟨h1, h2, h3, -⟩ := h
  have hc : (decide (s.rst.life = .cloakroom) && !cloakServed code) = false := by
    cases hd : decide (s.rst.life = .cloakroom)
    · rfl
    · simp [h2 (of_decide_eq_true hd)]
  have hr : (if isCopy code r s then none else roleRefusal code s) = none := by
    rcases h3 with h | h <;> simp [h]
  unfold mbx
  rw [h1, hc, hr, hl, hb]
  rfl

end Sys2Proof
end

