-- ==== Sys2Proof/Laws/State.lean ====
section
/-! SUPPORT. One lemma per field of State for each update that the meanings share: the field it writes, and every other field as
before; and reading one element after it. -/

namespace Sys2Proof.Machine

/-! ## Lists by index -/

@[simp] theorem upd_length {α : Type} (l : List α) (n : Nat) (f : α → α) : (upd l n f).length = l.length := by simp [upd]

/-- The element changed is the one named, where the list has it; every other stays. -/
theorem upd_getD {α : Type} (l : List α) (n m : Nat) (f : α → α) (d : α) :
    (upd l n f).getD m d = if n = m ∧ n < l.length then f (l.getD n d) else l.getD m d := by
  simp only [upd, List.getD_eq_getElem?_getD, List.getElem?_modify]
  by_cases h : n = m
  · subst h
    by_cases k : n < l.length <;> simp [k]
  · simp [h]

@[simp] theorem addAt_length (l : List Nat) (n k : Nat) : (addAt l n k).length = l.length := upd_length _ _ _

/-! ## Fields after an update -/

@[simp] theorem emit_pending (o : Out) (s : State) : (emit o s).pending = s.pending := rfl
@[simp] theorem emit_free (o : Out) (s : State) : (emit o s).free = s.free := rfl
@[simp] theorem emit_undo (o : Out) (s : State) : (emit o s).undo = s.undo := rfl
@[simp] theorem emit_outs (o : Out) (s : State) : (emit o s).outs = s.outs ++ [o] := rfl
@[simp] theorem emit_variant (o : Out) (s : State) : (emit o s).variant = s.variant := rfl
@[simp] theorem emit_cfg (o : Out) (s : State) : (emit o s).cfg = s.cfg := rfl
@[simp] theorem emit_cfgNext (o : Out) (s : State) : (emit o s).cfgNext = s.cfgNext := rfl
@[simp] theorem emit_mram (o : Out) (s : State) : (emit o s).mram = s.mram := rfl
@[simp] theorem emit_fw (o : Out) (s : State) : (emit o s).fw = s.fw := rfl
@[simp] theorem emit_rst (o : Out) (s : State) : (emit o s).rst = s.rst := rfl
@[simp] theorem emit_safe (o : Out) (s : State) : (emit o s).safe = s.safe := rfl
@[simp] theorem emit_time (o : Out) (s : State) : (emit o s).time = s.time := rfl
@[simp] theorem emit_cyc (o : Out) (s : State) : (emit o s).cyc = s.cyc := rfl
@[simp] theorem emit_brd (o : Out) (s : State) : (emit o s).brd = s.brd := rfl
@[simp] theorem emit_mem (o : Out) (s : State) : (emit o s).mem = s.mem := rfl
@[simp] theorem emit_dp (o : Out) (s : State) : (emit o s).dp = s.dp := rfl
@[simp] theorem emit_sol (o : Out) (s : State) : (emit o s).sol = s.sol := rfl
@[simp] theorem emit_fus (o : Out) (s : State) : (emit o s).fus = s.fus := rfl
@[simp] theorem emit_loop (o : Out) (s : State) : (emit o s).loop = s.loop := rfl
@[simp] theorem emit_filt (o : Out) (s : State) : (emit o s).filt = s.filt := rfl
@[simp] theorem emit_ao (o : Out) (s : State) : (emit o s).ao = s.ao := rfl
@[simp] theorem emit_bus (o : Out) (s : State) : (emit o s).bus = s.bus := rfl
@[simp] theorem emit_link (o : Out) (s : State) : (emit o s).link = s.link := rfl
@[simp] theorem emit_hif (o : Out) (s : State) : (emit o s).hif = s.hif := rfl
@[simp] theorem emit_rcd (o : Out) (s : State) : (emit o s).rcd = s.rcd := rfl
@[simp] theorem emit_arch (o : Out) (s : State) : (emit o s).arch = s.arch := rfl
@[simp] theorem emit_memp (o : Out) (s : State) : (emit o s).memp = s.memp := rfl
@[simp] theorem emit_tests (o : Out) (s : State) : (emit o s).tests = s.tests := rfl

@[simp] theorem stepFree_pending (s : State) : (stepFree s).pending = s.pending := rfl
@[simp] theorem stepFree_free (s : State) : (stepFree s).free = s.free + 1 := rfl
@[simp] theorem stepFree_undo (s : State) : (stepFree s).undo = s.undo := rfl
@[simp] theorem stepFree_outs (s : State) : (stepFree s).outs = s.outs := rfl
@[simp] theorem stepFree_variant (s : State) : (stepFree s).variant = s.variant := rfl
@[simp] theorem stepFree_cfg (s : State) : (stepFree s).cfg = s.cfg := rfl
@[simp] theorem stepFree_cfgNext (s : State) : (stepFree s).cfgNext = s.cfgNext := rfl
@[simp] theorem stepFree_mram (s : State) : (stepFree s).mram = s.mram := rfl
@[simp] theorem stepFree_fw (s : State) : (stepFree s).fw = s.fw := rfl
@[simp] theorem stepFree_rst (s : State) : (stepFree s).rst = s.rst := rfl
@[simp] theorem stepFree_safe (s : State) : (stepFree s).safe = s.safe := rfl
@[simp] theorem stepFree_time (s : State) : (stepFree s).time = s.time := rfl
@[simp] theorem stepFree_cyc (s : State) : (stepFree s).cyc = s.cyc := rfl
@[simp] theorem stepFree_brd (s : State) : (stepFree s).brd = s.brd := rfl
@[simp] theorem stepFree_mem (s : State) : (stepFree s).mem = s.mem := rfl
@[simp] theorem stepFree_dp (s : State) : (stepFree s).dp = s.dp := rfl
@[simp] theorem stepFree_sol (s : State) : (stepFree s).sol = s.sol := rfl
@[simp] theorem stepFree_fus (s : State) : (stepFree s).fus = s.fus := rfl
@[simp] theorem stepFree_loop (s : State) : (stepFree s).loop = s.loop := rfl
@[simp] theorem stepFree_filt (s : State) : (stepFree s).filt = s.filt := rfl
@[simp] theorem stepFree_ao (s : State) : (stepFree s).ao = s.ao := rfl
@[simp] theorem stepFree_bus (s : State) : (stepFree s).bus = s.bus := rfl
@[simp] theorem stepFree_link (s : State) : (stepFree s).link = s.link := rfl
@[simp] theorem stepFree_hif (s : State) : (stepFree s).hif = s.hif := rfl
@[simp] theorem stepFree_rcd (s : State) : (stepFree s).rcd = s.rcd := rfl
@[simp] theorem stepFree_arch (s : State) : (stepFree s).arch = s.arch := rfl
@[simp] theorem stepFree_memp (s : State) : (stepFree s).memp = s.memp := rfl
@[simp] theorem stepFree_tests (s : State) : (stepFree s).tests = s.tests := rfl

@[simp] theorem setBucket_pending (b : Bucket) (s : State) : (setBucket b s).pending = s.pending := rfl
@[simp] theorem setBucket_free (b : Bucket) (s : State) : (setBucket b s).free = s.free := rfl
@[simp] theorem setBucket_undo (b : Bucket) (s : State) : (setBucket b s).undo = s.undo := rfl
@[simp] theorem setBucket_outs (b : Bucket) (s : State) : (setBucket b s).outs = s.outs := rfl
@[simp] theorem setBucket_variant (b : Bucket) (s : State) : (setBucket b s).variant = s.variant := rfl
@[simp] theorem setBucket_cfg (b : Bucket) (s : State) : (setBucket b s).cfg = s.cfg := rfl
@[simp] theorem setBucket_cfgNext (b : Bucket) (s : State) : (setBucket b s).cfgNext = s.cfgNext := rfl
@[simp] theorem setBucket_mram (b : Bucket) (s : State) : (setBucket b s).mram = s.mram := rfl
@[simp] theorem setBucket_fw (b : Bucket) (s : State) : (setBucket b s).fw = s.fw := rfl
@[simp] theorem setBucket_rst (b : Bucket) (s : State) : (setBucket b s).rst = s.rst := rfl
@[simp] theorem setBucket_safe (b : Bucket) (s : State) : (setBucket b s).safe = s.safe := rfl
@[simp] theorem setBucket_time (b : Bucket) (s : State) : (setBucket b s).time = s.time := rfl
@[simp] theorem setBucket_cyc (b : Bucket) (s : State) : (setBucket b s).cyc = s.cyc := rfl
@[simp] theorem setBucket_brd (b : Bucket) (s : State) : (setBucket b s).brd = s.brd := rfl
@[simp] theorem setBucket_mem (b : Bucket) (s : State) : (setBucket b s).mem = s.mem := rfl
@[simp] theorem setBucket_dp (b : Bucket) (s : State) : (setBucket b s).dp = s.dp := rfl
@[simp] theorem setBucket_sol (b : Bucket) (s : State) : (setBucket b s).sol = s.sol := rfl
@[simp] theorem setBucket_fus (b : Bucket) (s : State) : (setBucket b s).fus = s.fus := rfl
@[simp] theorem setBucket_loop (b : Bucket) (s : State) : (setBucket b s).loop = s.loop := rfl
@[simp] theorem setBucket_filt (b : Bucket) (s : State) : (setBucket b s).filt = s.filt := rfl
@[simp] theorem setBucket_ao (b : Bucket) (s : State) : (setBucket b s).ao = s.ao := rfl
@[simp] theorem setBucket_bus (b : Bucket) (s : State) : (setBucket b s).bus = s.bus := rfl
@[simp] theorem setBucket_link (b : Bucket) (s : State) : (setBucket b s).link = s.link := rfl
@[simp] theorem setBucket_hif (b : Bucket) (s : State) : (setBucket b s).hif = s.hif := rfl
@[simp] theorem setBucket_rcd (b : Bucket) (s : State) : (setBucket b s).rcd = { s.rcd with buckets := b :: s.rcd.buckets.filter (·.code ≠ b.code) } := rfl
@[simp] theorem setBucket_arch (b : Bucket) (s : State) : (setBucket b s).arch = s.arch := rfl
@[simp] theorem setBucket_memp (b : Bucket) (s : State) : (setBucket b s).memp = s.memp := rfl
@[simp] theorem setBucket_tests (b : Bucket) (s : State) : (setBucket b s).tests = s.tests := rfl

@[simp] theorem hifCount_pending (n : Nat) (s : State) : (hifCount n s).pending = s.pending := rfl
@[simp] theorem hifCount_free (n : Nat) (s : State) : (hifCount n s).free = s.free := rfl
@[simp] theorem hifCount_undo (n : Nat) (s : State) : (hifCount n s).undo = s.undo := rfl
@[simp] theorem hifCount_outs (n : Nat) (s : State) : (hifCount n s).outs = s.outs := rfl
@[simp] theorem hifCount_variant (n : Nat) (s : State) : (hifCount n s).variant = s.variant := rfl
@[simp] theorem hifCount_cfg (n : Nat) (s : State) : (hifCount n s).cfg = s.cfg := rfl
@[simp] theorem hifCount_cfgNext (n : Nat) (s : State) : (hifCount n s).cfgNext = s.cfgNext := rfl
@[simp] theorem hifCount_mram (n : Nat) (s : State) : (hifCount n s).mram = s.mram := rfl
@[simp] theorem hifCount_fw (n : Nat) (s : State) : (hifCount n s).fw = s.fw := rfl
@[simp] theorem hifCount_rst (n : Nat) (s : State) : (hifCount n s).rst = s.rst := rfl
@[simp] theorem hifCount_safe (n : Nat) (s : State) : (hifCount n s).safe = s.safe := rfl
@[simp] theorem hifCount_time (n : Nat) (s : State) : (hifCount n s).time = s.time := rfl
@[simp] theorem hifCount_cyc (n : Nat) (s : State) : (hifCount n s).cyc = s.cyc := rfl
@[simp] theorem hifCount_brd (n : Nat) (s : State) : (hifCount n s).brd = s.brd := rfl
@[simp] theorem hifCount_mem (n : Nat) (s : State) : (hifCount n s).mem = s.mem := rfl
@[simp] theorem hifCount_dp (n : Nat) (s : State) : (hifCount n s).dp = s.dp := rfl
@[simp] theorem hifCount_sol (n : Nat) (s : State) : (hifCount n s).sol = s.sol := rfl
@[simp] theorem hifCount_fus (n : Nat) (s : State) : (hifCount n s).fus = s.fus := rfl
@[simp] theorem hifCount_loop (n : Nat) (s : State) : (hifCount n s).loop = s.loop := rfl
@[simp] theorem hifCount_filt (n : Nat) (s : State) : (hifCount n s).filt = s.filt := rfl
@[simp] theorem hifCount_ao (n : Nat) (s : State) : (hifCount n s).ao = s.ao := rfl
@[simp] theorem hifCount_bus (n : Nat) (s : State) : (hifCount n s).bus = s.bus := rfl
@[simp] theorem hifCount_link (n : Nat) (s : State) : (hifCount n s).link = s.link := rfl
@[simp] theorem hifCount_hif (n : Nat) (s : State) : (hifCount n s).hif = { s.hif with counts := addAt s.hif.counts n 1 } := rfl
@[simp] theorem hifCount_rcd (n : Nat) (s : State) : (hifCount n s).rcd = s.rcd := rfl
@[simp] theorem hifCount_arch (n : Nat) (s : State) : (hifCount n s).arch = s.arch := rfl
@[simp] theorem hifCount_memp (n : Nat) (s : State) : (hifCount n s).memp = s.memp := rfl
@[simp] theorem hifCount_tests (n : Nat) (s : State) : (hifCount n s).tests = s.tests := rfl

@[simp] theorem updPort_pending (ix : Nat) (f : Port → Port) (s : State) : (updPort ix f s).pending = s.pending := rfl
@[simp] theorem updPort_free (ix : Nat) (f : Port → Port) (s : State) : (updPort ix f s).free = s.free := rfl
@[simp] theorem updPort_undo (ix : Nat) (f : Port → Port) (s : State) : (updPort ix f s).undo = s.undo := rfl
@[simp] theorem updPort_outs (ix : Nat) (f : Port → Port) (s : State) : (updPort ix f s).outs = s.outs := rfl
@[simp] theorem updPort_variant (ix : Nat) (f : Port → Port) (s : State) : (updPort ix f s).variant = s.variant := rfl
@[simp] theorem updPort_cfg (ix : Nat) (f : Port → Port) (s : State) : (updPort ix f s).cfg = s.cfg := rfl
@[simp] theorem updPort_cfgNext (ix : Nat) (f : Port → Port) (s : State) : (updPort ix f s).cfgNext = s.cfgNext := rfl
@[simp] theorem updPort_mram (ix : Nat) (f : Port → Port) (s : State) : (updPort ix f s).mram = s.mram := rfl
@[simp] theorem updPort_fw (ix : Nat) (f : Port → Port) (s : State) : (updPort ix f s).fw = s.fw := rfl
@[simp] theorem updPort_rst (ix : Nat) (f : Port → Port) (s : State) : (updPort ix f s).rst = s.rst := rfl
@[simp] theorem updPort_safe (ix : Nat) (f : Port → Port) (s : State) : (updPort ix f s).safe = s.safe := rfl
@[simp] theorem updPort_time (ix : Nat) (f : Port → Port) (s : State) : (updPort ix f s).time = s.time := rfl
@[simp] theorem updPort_cyc (ix : Nat) (f : Port → Port) (s : State) : (updPort ix f s).cyc = s.cyc := rfl
@[simp] theorem updPort_brd (ix : Nat) (f : Port → Port) (s : State) : (updPort ix f s).brd = s.brd := rfl
@[simp] theorem updPort_mem (ix : Nat) (f : Port → Port) (s : State) : (updPort ix f s).mem = s.mem := rfl
@[simp] theorem updPort_dp (ix : Nat) (f : Port → Port) (s : State) : (updPort ix f s).dp = s.dp := rfl
@[simp] theorem updPort_sol (ix : Nat) (f : Port → Port) (s : State) : (updPort ix f s).sol = s.sol := rfl
@[simp] theorem updPort_fus (ix : Nat) (f : Port → Port) (s : State) : (updPort ix f s).fus = s.fus := rfl
@[simp] theorem updPort_loop (ix : Nat) (f : Port → Port) (s : State) : (updPort ix f s).loop = s.loop := rfl
@[simp] theorem updPort_filt (ix : Nat) (f : Port → Port) (s : State) : (updPort ix f s).filt = s.filt := rfl
@[simp] theorem updPort_ao (ix : Nat) (f : Port → Port) (s : State) : (updPort ix f s).ao = s.ao := rfl
@[simp] theorem updPort_bus (ix : Nat) (f : Port → Port) (s : State) : (updPort ix f s).bus = s.bus := rfl
@[simp] theorem updPort_link (ix : Nat) (f : Port → Port) (s : State) : (updPort ix f s).link = { s.link with ports := upd s.link.ports ix f } := rfl
@[simp] theorem updPort_hif (ix : Nat) (f : Port → Port) (s : State) : (updPort ix f s).hif = s.hif := rfl
@[simp] theorem updPort_rcd (ix : Nat) (f : Port → Port) (s : State) : (updPort ix f s).rcd = s.rcd := rfl
@[simp] theorem updPort_arch (ix : Nat) (f : Port → Port) (s : State) : (updPort ix f s).arch = s.arch := rfl
@[simp] theorem updPort_memp (ix : Nat) (f : Port → Port) (s : State) : (updPort ix f s).memp = s.memp := rfl
@[simp] theorem updPort_tests (ix : Nat) (f : Port → Port) (s : State) : (updPort ix f s).tests = s.tests := rfl

@[simp] theorem updSafe_pending (f : Safe → Safe) (s : State) : (updSafe f s).pending = s.pending := rfl
@[simp] theorem updSafe_free (f : Safe → Safe) (s : State) : (updSafe f s).free = s.free := rfl
@[simp] theorem updSafe_undo (f : Safe → Safe) (s : State) : (updSafe f s).undo = s.undo := rfl
@[simp] theorem updSafe_outs (f : Safe → Safe) (s : State) : (updSafe f s).outs = s.outs := rfl
@[simp] theorem updSafe_variant (f : Safe → Safe) (s : State) : (updSafe f s).variant = s.variant := rfl
@[simp] theorem updSafe_cfg (f : Safe → Safe) (s : State) : (updSafe f s).cfg = s.cfg := rfl
@[simp] theorem updSafe_cfgNext (f : Safe → Safe) (s : State) : (updSafe f s).cfgNext = s.cfgNext := rfl
@[simp] theorem updSafe_mram (f : Safe → Safe) (s : State) : (updSafe f s).mram = s.mram := rfl
@[simp] theorem updSafe_fw (f : Safe → Safe) (s : State) : (updSafe f s).fw = s.fw := rfl
@[simp] theorem updSafe_rst (f : Safe → Safe) (s : State) : (updSafe f s).rst = s.rst := rfl
@[simp] theorem updSafe_safe (f : Safe → Safe) (s : State) : (updSafe f s).safe = f s.safe := rfl
@[simp] theorem updSafe_time (f : Safe → Safe) (s : State) : (updSafe f s).time = s.time := rfl
@[simp] theorem updSafe_cyc (f : Safe → Safe) (s : State) : (updSafe f s).cyc = s.cyc := rfl
@[simp] theorem updSafe_brd (f : Safe → Safe) (s : State) : (updSafe f s).brd = s.brd := rfl
@[simp] theorem updSafe_mem (f : Safe → Safe) (s : State) : (updSafe f s).mem = s.mem := rfl
@[simp] theorem updSafe_dp (f : Safe → Safe) (s : State) : (updSafe f s).dp = s.dp := rfl
@[simp] theorem updSafe_sol (f : Safe → Safe) (s : State) : (updSafe f s).sol = s.sol := rfl
@[simp] theorem updSafe_fus (f : Safe → Safe) (s : State) : (updSafe f s).fus = s.fus := rfl
@[simp] theorem updSafe_loop (f : Safe → Safe) (s : State) : (updSafe f s).loop = s.loop := rfl
@[simp] theorem updSafe_filt (f : Safe → Safe) (s : State) : (updSafe f s).filt = s.filt := rfl
@[simp] theorem updSafe_ao (f : Safe → Safe) (s : State) : (updSafe f s).ao = s.ao := rfl
@[simp] theorem updSafe_bus (f : Safe → Safe) (s : State) : (updSafe f s).bus = s.bus := rfl
@[simp] theorem updSafe_link (f : Safe → Safe) (s : State) : (updSafe f s).link = s.link := rfl
@[simp] theorem updSafe_hif (f : Safe → Safe) (s : State) : (updSafe f s).hif = s.hif := rfl
@[simp] theorem updSafe_rcd (f : Safe → Safe) (s : State) : (updSafe f s).rcd = s.rcd := rfl
@[simp] theorem updSafe_arch (f : Safe → Safe) (s : State) : (updSafe f s).arch = s.arch := rfl
@[simp] theorem updSafe_memp (f : Safe → Safe) (s : State) : (updSafe f s).memp = s.memp := rfl
@[simp] theorem updSafe_tests (f : Safe → Safe) (s : State) : (updSafe f s).tests = s.tests := rfl

@[simp] theorem updGlove_pending (n : Nat) (f : Glove → Glove) (s : State) : (updGlove n f s).pending = s.pending := rfl
@[simp] theorem updGlove_free (n : Nat) (f : Glove → Glove) (s : State) : (updGlove n f s).free = s.free := rfl
@[simp] theorem updGlove_undo (n : Nat) (f : Glove → Glove) (s : State) : (updGlove n f s).undo = s.undo := rfl
@[simp] theorem updGlove_outs (n : Nat) (f : Glove → Glove) (s : State) : (updGlove n f s).outs = s.outs := rfl
@[simp] theorem updGlove_variant (n : Nat) (f : Glove → Glove) (s : State) : (updGlove n f s).variant = s.variant := rfl
@[simp] theorem updGlove_cfg (n : Nat) (f : Glove → Glove) (s : State) : (updGlove n f s).cfg = s.cfg := rfl
@[simp] theorem updGlove_cfgNext (n : Nat) (f : Glove → Glove) (s : State) : (updGlove n f s).cfgNext = s.cfgNext := rfl
@[simp] theorem updGlove_mram (n : Nat) (f : Glove → Glove) (s : State) : (updGlove n f s).mram = s.mram := rfl
@[simp] theorem updGlove_fw (n : Nat) (f : Glove → Glove) (s : State) : (updGlove n f s).fw = s.fw := rfl
@[simp] theorem updGlove_rst (n : Nat) (f : Glove → Glove) (s : State) : (updGlove n f s).rst = s.rst := rfl
@[simp] theorem updGlove_safe (n : Nat) (f : Glove → Glove) (s : State) : (updGlove n f s).safe = { s.safe with glove := upd s.safe.glove n f } := rfl
@[simp] theorem updGlove_time (n : Nat) (f : Glove → Glove) (s : State) : (updGlove n f s).time = s.time := rfl
@[simp] theorem updGlove_cyc (n : Nat) (f : Glove → Glove) (s : State) : (updGlove n f s).cyc = s.cyc := rfl
@[simp] theorem updGlove_brd (n : Nat) (f : Glove → Glove) (s : State) : (updGlove n f s).brd = s.brd := rfl
@[simp] theorem updGlove_mem (n : Nat) (f : Glove → Glove) (s : State) : (updGlove n f s).mem = s.mem := rfl
@[simp] theorem updGlove_dp (n : Nat) (f : Glove → Glove) (s : State) : (updGlove n f s).dp = s.dp := rfl
@[simp] theorem updGlove_sol (n : Nat) (f : Glove → Glove) (s : State) : (updGlove n f s).sol = s.sol := rfl
@[simp] theorem updGlove_fus (n : Nat) (f : Glove → Glove) (s : State) : (updGlove n f s).fus = s.fus := rfl
@[simp] theorem updGlove_loop (n : Nat) (f : Glove → Glove) (s : State) : (updGlove n f s).loop = s.loop := rfl
@[simp] theorem updGlove_filt (n : Nat) (f : Glove → Glove) (s : State) : (updGlove n f s).filt = s.filt := rfl
@[simp] theorem updGlove_ao (n : Nat) (f : Glove → Glove) (s : State) : (updGlove n f s).ao = s.ao := rfl
@[simp] theorem updGlove_bus (n : Nat) (f : Glove → Glove) (s : State) : (updGlove n f s).bus = s.bus := rfl
@[simp] theorem updGlove_link (n : Nat) (f : Glove → Glove) (s : State) : (updGlove n f s).link = s.link := rfl
@[simp] theorem updGlove_hif (n : Nat) (f : Glove → Glove) (s : State) : (updGlove n f s).hif = s.hif := rfl
@[simp] theorem updGlove_rcd (n : Nat) (f : Glove → Glove) (s : State) : (updGlove n f s).rcd = s.rcd := rfl
@[simp] theorem updGlove_arch (n : Nat) (f : Glove → Glove) (s : State) : (updGlove n f s).arch = s.arch := rfl
@[simp] theorem updGlove_memp (n : Nat) (f : Glove → Glove) (s : State) : (updGlove n f s).memp = s.memp := rfl
@[simp] theorem updGlove_tests (n : Nat) (f : Glove → Glove) (s : State) : (updGlove n f s).tests = s.tests := rfl

@[simp] theorem updTime_pending (f : Time → Time) (s : State) : (updTime f s).pending = s.pending := rfl
@[simp] theorem updTime_free (f : Time → Time) (s : State) : (updTime f s).free = s.free := rfl
@[simp] theorem updTime_undo (f : Time → Time) (s : State) : (updTime f s).undo = s.undo := rfl
@[simp] theorem updTime_outs (f : Time → Time) (s : State) : (updTime f s).outs = s.outs := rfl
@[simp] theorem updTime_variant (f : Time → Time) (s : State) : (updTime f s).variant = s.variant := rfl
@[simp] theorem updTime_cfg (f : Time → Time) (s : State) : (updTime f s).cfg = s.cfg := rfl
@[simp] theorem updTime_cfgNext (f : Time → Time) (s : State) : (updTime f s).cfgNext = s.cfgNext := rfl
@[simp] theorem updTime_mram (f : Time → Time) (s : State) : (updTime f s).mram = s.mram := rfl
@[simp] theorem updTime_fw (f : Time → Time) (s : State) : (updTime f s).fw = s.fw := rfl
@[simp] theorem updTime_rst (f : Time → Time) (s : State) : (updTime f s).rst = s.rst := rfl
@[simp] theorem updTime_safe (f : Time → Time) (s : State) : (updTime f s).safe = s.safe := rfl
@[simp] theorem updTime_time (f : Time → Time) (s : State) : (updTime f s).time = f s.time := rfl
@[simp] theorem updTime_cyc (f : Time → Time) (s : State) : (updTime f s).cyc = s.cyc := rfl
@[simp] theorem updTime_brd (f : Time → Time) (s : State) : (updTime f s).brd = s.brd := rfl
@[simp] theorem updTime_mem (f : Time → Time) (s : State) : (updTime f s).mem = s.mem := rfl
@[simp] theorem updTime_dp (f : Time → Time) (s : State) : (updTime f s).dp = s.dp := rfl
@[simp] theorem updTime_sol (f : Time → Time) (s : State) : (updTime f s).sol = s.sol := rfl
@[simp] theorem updTime_fus (f : Time → Time) (s : State) : (updTime f s).fus = s.fus := rfl
@[simp] theorem updTime_loop (f : Time → Time) (s : State) : (updTime f s).loop = s.loop := rfl
@[simp] theorem updTime_filt (f : Time → Time) (s : State) : (updTime f s).filt = s.filt := rfl
@[simp] theorem updTime_ao (f : Time → Time) (s : State) : (updTime f s).ao = s.ao := rfl
@[simp] theorem updTime_bus (f : Time → Time) (s : State) : (updTime f s).bus = s.bus := rfl
@[simp] theorem updTime_link (f : Time → Time) (s : State) : (updTime f s).link = s.link := rfl
@[simp] theorem updTime_hif (f : Time → Time) (s : State) : (updTime f s).hif = s.hif := rfl
@[simp] theorem updTime_rcd (f : Time → Time) (s : State) : (updTime f s).rcd = s.rcd := rfl
@[simp] theorem updTime_arch (f : Time → Time) (s : State) : (updTime f s).arch = s.arch := rfl
@[simp] theorem updTime_memp (f : Time → Time) (s : State) : (updTime f s).memp = s.memp := rfl
@[simp] theorem updTime_tests (f : Time → Time) (s : State) : (updTime f s).tests = s.tests := rfl

@[simp] theorem updMac_pending (mac : Nat) (f : MacTime → MacTime) (s : State) : (updMac mac f s).pending = s.pending := rfl
@[simp] theorem updMac_free (mac : Nat) (f : MacTime → MacTime) (s : State) : (updMac mac f s).free = s.free := rfl
@[simp] theorem updMac_undo (mac : Nat) (f : MacTime → MacTime) (s : State) : (updMac mac f s).undo = s.undo := rfl
@[simp] theorem updMac_outs (mac : Nat) (f : MacTime → MacTime) (s : State) : (updMac mac f s).outs = s.outs := rfl
@[simp] theorem updMac_variant (mac : Nat) (f : MacTime → MacTime) (s : State) : (updMac mac f s).variant = s.variant := rfl
@[simp] theorem updMac_cfg (mac : Nat) (f : MacTime → MacTime) (s : State) : (updMac mac f s).cfg = s.cfg := rfl
@[simp] theorem updMac_cfgNext (mac : Nat) (f : MacTime → MacTime) (s : State) : (updMac mac f s).cfgNext = s.cfgNext := rfl
@[simp] theorem updMac_mram (mac : Nat) (f : MacTime → MacTime) (s : State) : (updMac mac f s).mram = s.mram := rfl
@[simp] theorem updMac_fw (mac : Nat) (f : MacTime → MacTime) (s : State) : (updMac mac f s).fw = s.fw := rfl
@[simp] theorem updMac_rst (mac : Nat) (f : MacTime → MacTime) (s : State) : (updMac mac f s).rst = s.rst := rfl
@[simp] theorem updMac_safe (mac : Nat) (f : MacTime → MacTime) (s : State) : (updMac mac f s).safe = s.safe := rfl
@[simp] theorem updMac_time (mac : Nat) (f : MacTime → MacTime) (s : State) : (updMac mac f s).time = { s.time with mac := upd s.time.mac mac f } := rfl
@[simp] theorem updMac_cyc (mac : Nat) (f : MacTime → MacTime) (s : State) : (updMac mac f s).cyc = s.cyc := rfl
@[simp] theorem updMac_brd (mac : Nat) (f : MacTime → MacTime) (s : State) : (updMac mac f s).brd = s.brd := rfl
@[simp] theorem updMac_mem (mac : Nat) (f : MacTime → MacTime) (s : State) : (updMac mac f s).mem = s.mem := rfl
@[simp] theorem updMac_dp (mac : Nat) (f : MacTime → MacTime) (s : State) : (updMac mac f s).dp = s.dp := rfl
@[simp] theorem updMac_sol (mac : Nat) (f : MacTime → MacTime) (s : State) : (updMac mac f s).sol = s.sol := rfl
@[simp] theorem updMac_fus (mac : Nat) (f : MacTime → MacTime) (s : State) : (updMac mac f s).fus = s.fus := rfl
@[simp] theorem updMac_loop (mac : Nat) (f : MacTime → MacTime) (s : State) : (updMac mac f s).loop = s.loop := rfl
@[simp] theorem updMac_filt (mac : Nat) (f : MacTime → MacTime) (s : State) : (updMac mac f s).filt = s.filt := rfl
@[simp] theorem updMac_ao (mac : Nat) (f : MacTime → MacTime) (s : State) : (updMac mac f s).ao = s.ao := rfl
@[simp] theorem updMac_bus (mac : Nat) (f : MacTime → MacTime) (s : State) : (updMac mac f s).bus = s.bus := rfl
@[simp] theorem updMac_link (mac : Nat) (f : MacTime → MacTime) (s : State) : (updMac mac f s).link = s.link := rfl
@[simp] theorem updMac_hif (mac : Nat) (f : MacTime → MacTime) (s : State) : (updMac mac f s).hif = s.hif := rfl
@[simp] theorem updMac_rcd (mac : Nat) (f : MacTime → MacTime) (s : State) : (updMac mac f s).rcd = s.rcd := rfl
@[simp] theorem updMac_arch (mac : Nat) (f : MacTime → MacTime) (s : State) : (updMac mac f s).arch = s.arch := rfl
@[simp] theorem updMac_memp (mac : Nat) (f : MacTime → MacTime) (s : State) : (updMac mac f s).memp = s.memp := rfl
@[simp] theorem updMac_tests (mac : Nat) (f : MacTime → MacTime) (s : State) : (updMac mac f s).tests = s.tests := rfl

@[simp] theorem updBrd_pending (f : Brd → Brd) (s : State) : (updBrd f s).pending = s.pending := rfl
@[simp] theorem updBrd_free (f : Brd → Brd) (s : State) : (updBrd f s).free = s.free := rfl
@[simp] theorem updBrd_undo (f : Brd → Brd) (s : State) : (updBrd f s).undo = s.undo := rfl
@[simp] theorem updBrd_outs (f : Brd → Brd) (s : State) : (updBrd f s).outs = s.outs := rfl
@[simp] theorem updBrd_variant (f : Brd → Brd) (s : State) : (updBrd f s).variant = s.variant := rfl
@[simp] theorem updBrd_cfg (f : Brd → Brd) (s : State) : (updBrd f s).cfg = s.cfg := rfl
@[simp] theorem updBrd_cfgNext (f : Brd → Brd) (s : State) : (updBrd f s).cfgNext = s.cfgNext := rfl
@[simp] theorem updBrd_mram (f : Brd → Brd) (s : State) : (updBrd f s).mram = s.mram := rfl
@[simp] theorem updBrd_fw (f : Brd → Brd) (s : State) : (updBrd f s).fw = s.fw := rfl
@[simp] theorem updBrd_rst (f : Brd → Brd) (s : State) : (updBrd f s).rst = s.rst := rfl
@[simp] theorem updBrd_safe (f : Brd → Brd) (s : State) : (updBrd f s).safe = s.safe := rfl
@[simp] theorem updBrd_time (f : Brd → Brd) (s : State) : (updBrd f s).time = s.time := rfl
@[simp] theorem updBrd_cyc (f : Brd → Brd) (s : State) : (updBrd f s).cyc = s.cyc := rfl
@[simp] theorem updBrd_brd (f : Brd → Brd) (s : State) : (updBrd f s).brd = f s.brd := rfl
@[simp] theorem updBrd_mem (f : Brd → Brd) (s : State) : (updBrd f s).mem = s.mem := rfl
@[simp] theorem updBrd_dp (f : Brd → Brd) (s : State) : (updBrd f s).dp = s.dp := rfl
@[simp] theorem updBrd_sol (f : Brd → Brd) (s : State) : (updBrd f s).sol = s.sol := rfl
@[simp] theorem updBrd_fus (f : Brd → Brd) (s : State) : (updBrd f s).fus = s.fus := rfl
@[simp] theorem updBrd_loop (f : Brd → Brd) (s : State) : (updBrd f s).loop = s.loop := rfl
@[simp] theorem updBrd_filt (f : Brd → Brd) (s : State) : (updBrd f s).filt = s.filt := rfl
@[simp] theorem updBrd_ao (f : Brd → Brd) (s : State) : (updBrd f s).ao = s.ao := rfl
@[simp] theorem updBrd_bus (f : Brd → Brd) (s : State) : (updBrd f s).bus = s.bus := rfl
@[simp] theorem updBrd_link (f : Brd → Brd) (s : State) : (updBrd f s).link = s.link := rfl
@[simp] theorem updBrd_hif (f : Brd → Brd) (s : State) : (updBrd f s).hif = s.hif := rfl
@[simp] theorem updBrd_rcd (f : Brd → Brd) (s : State) : (updBrd f s).rcd = s.rcd := rfl
@[simp] theorem updBrd_arch (f : Brd → Brd) (s : State) : (updBrd f s).arch = s.arch := rfl
@[simp] theorem updBrd_memp (f : Brd → Brd) (s : State) : (updBrd f s).memp = s.memp := rfl
@[simp] theorem updBrd_tests (f : Brd → Brd) (s : State) : (updBrd f s).tests = s.tests := rfl

@[simp] theorem updMem_pending (f : Mem → Mem) (s : State) : (updMem f s).pending = s.pending := rfl
@[simp] theorem updMem_free (f : Mem → Mem) (s : State) : (updMem f s).free = s.free := rfl
@[simp] theorem updMem_undo (f : Mem → Mem) (s : State) : (updMem f s).undo = s.undo := rfl
@[simp] theorem updMem_outs (f : Mem → Mem) (s : State) : (updMem f s).outs = s.outs := rfl
@[simp] theorem updMem_variant (f : Mem → Mem) (s : State) : (updMem f s).variant = s.variant := rfl
@[simp] theorem updMem_cfg (f : Mem → Mem) (s : State) : (updMem f s).cfg = s.cfg := rfl
@[simp] theorem updMem_cfgNext (f : Mem → Mem) (s : State) : (updMem f s).cfgNext = s.cfgNext := rfl
@[simp] theorem updMem_mram (f : Mem → Mem) (s : State) : (updMem f s).mram = s.mram := rfl
@[simp] theorem updMem_fw (f : Mem → Mem) (s : State) : (updMem f s).fw = s.fw := rfl
@[simp] theorem updMem_rst (f : Mem → Mem) (s : State) : (updMem f s).rst = s.rst := rfl
@[simp] theorem updMem_safe (f : Mem → Mem) (s : State) : (updMem f s).safe = s.safe := rfl
@[simp] theorem updMem_time (f : Mem → Mem) (s : State) : (updMem f s).time = s.time := rfl
@[simp] theorem updMem_cyc (f : Mem → Mem) (s : State) : (updMem f s).cyc = s.cyc := rfl
@[simp] theorem updMem_brd (f : Mem → Mem) (s : State) : (updMem f s).brd = s.brd := rfl
@[simp] theorem updMem_mem (f : Mem → Mem) (s : State) : (updMem f s).mem = f s.mem := rfl
@[simp] theorem updMem_dp (f : Mem → Mem) (s : State) : (updMem f s).dp = s.dp := rfl
@[simp] theorem updMem_sol (f : Mem → Mem) (s : State) : (updMem f s).sol = s.sol := rfl
@[simp] theorem updMem_fus (f : Mem → Mem) (s : State) : (updMem f s).fus = s.fus := rfl
@[simp] theorem updMem_loop (f : Mem → Mem) (s : State) : (updMem f s).loop = s.loop := rfl
@[simp] theorem updMem_filt (f : Mem → Mem) (s : State) : (updMem f s).filt = s.filt := rfl
@[simp] theorem updMem_ao (f : Mem → Mem) (s : State) : (updMem f s).ao = s.ao := rfl
@[simp] theorem updMem_bus (f : Mem → Mem) (s : State) : (updMem f s).bus = s.bus := rfl
@[simp] theorem updMem_link (f : Mem → Mem) (s : State) : (updMem f s).link = s.link := rfl
@[simp] theorem updMem_hif (f : Mem → Mem) (s : State) : (updMem f s).hif = s.hif := rfl
@[simp] theorem updMem_rcd (f : Mem → Mem) (s : State) : (updMem f s).rcd = s.rcd := rfl
@[simp] theorem updMem_arch (f : Mem → Mem) (s : State) : (updMem f s).arch = s.arch := rfl
@[simp] theorem updMem_memp (f : Mem → Mem) (s : State) : (updMem f s).memp = s.memp := rfl
@[simp] theorem updMem_tests (f : Mem → Mem) (s : State) : (updMem f s).tests = s.tests := rfl

@[simp] theorem updDev_pending (d : Nat) (f : DevRec → DevRec) (s : State) : (updDev d f s).pending = s.pending := rfl
@[simp] theorem updDev_free (d : Nat) (f : DevRec → DevRec) (s : State) : (updDev d f s).free = s.free := rfl
@[simp] theorem updDev_undo (d : Nat) (f : DevRec → DevRec) (s : State) : (updDev d f s).undo = s.undo := rfl
@[simp] theorem updDev_outs (d : Nat) (f : DevRec → DevRec) (s : State) : (updDev d f s).outs = s.outs := rfl
@[simp] theorem updDev_variant (d : Nat) (f : DevRec → DevRec) (s : State) : (updDev d f s).variant = s.variant := rfl
@[simp] theorem updDev_cfg (d : Nat) (f : DevRec → DevRec) (s : State) : (updDev d f s).cfg = s.cfg := rfl
@[simp] theorem updDev_cfgNext (d : Nat) (f : DevRec → DevRec) (s : State) : (updDev d f s).cfgNext = s.cfgNext := rfl
@[simp] theorem updDev_mram (d : Nat) (f : DevRec → DevRec) (s : State) : (updDev d f s).mram = s.mram := rfl
@[simp] theorem updDev_fw (d : Nat) (f : DevRec → DevRec) (s : State) : (updDev d f s).fw = s.fw := rfl
@[simp] theorem updDev_rst (d : Nat) (f : DevRec → DevRec) (s : State) : (updDev d f s).rst = s.rst := rfl
@[simp] theorem updDev_safe (d : Nat) (f : DevRec → DevRec) (s : State) : (updDev d f s).safe = s.safe := rfl
@[simp] theorem updDev_time (d : Nat) (f : DevRec → DevRec) (s : State) : (updDev d f s).time = s.time := rfl
@[simp] theorem updDev_cyc (d : Nat) (f : DevRec → DevRec) (s : State) : (updDev d f s).cyc = s.cyc := rfl
@[simp] theorem updDev_brd (d : Nat) (f : DevRec → DevRec) (s : State) : (updDev d f s).brd = { s.brd with devices := upd s.brd.devices d f } := rfl
@[simp] theorem updDev_mem (d : Nat) (f : DevRec → DevRec) (s : State) : (updDev d f s).mem = s.mem := rfl
@[simp] theorem updDev_dp (d : Nat) (f : DevRec → DevRec) (s : State) : (updDev d f s).dp = s.dp := rfl
@[simp] theorem updDev_sol (d : Nat) (f : DevRec → DevRec) (s : State) : (updDev d f s).sol = s.sol := rfl
@[simp] theorem updDev_fus (d : Nat) (f : DevRec → DevRec) (s : State) : (updDev d f s).fus = s.fus := rfl
@[simp] theorem updDev_loop (d : Nat) (f : DevRec → DevRec) (s : State) : (updDev d f s).loop = s.loop := rfl
@[simp] theorem updDev_filt (d : Nat) (f : DevRec → DevRec) (s : State) : (updDev d f s).filt = s.filt := rfl
@[simp] theorem updDev_ao (d : Nat) (f : DevRec → DevRec) (s : State) : (updDev d f s).ao = s.ao := rfl
@[simp] theorem updDev_bus (d : Nat) (f : DevRec → DevRec) (s : State) : (updDev d f s).bus = s.bus := rfl
@[simp] theorem updDev_link (d : Nat) (f : DevRec → DevRec) (s : State) : (updDev d f s).link = s.link := rfl
@[simp] theorem updDev_hif (d : Nat) (f : DevRec → DevRec) (s : State) : (updDev d f s).hif = s.hif := rfl
@[simp] theorem updDev_rcd (d : Nat) (f : DevRec → DevRec) (s : State) : (updDev d f s).rcd = s.rcd := rfl
@[simp] theorem updDev_arch (d : Nat) (f : DevRec → DevRec) (s : State) : (updDev d f s).arch = s.arch := rfl
@[simp] theorem updDev_memp (d : Nat) (f : DevRec → DevRec) (s : State) : (updDev d f s).memp = s.memp := rfl
@[simp] theorem updDev_tests (d : Nat) (f : DevRec → DevRec) (s : State) : (updDev d f s).tests = s.tests := rfl

@[simp] theorem updDp_pending (f : Dp → Dp) (s : State) : (updDp f s).pending = s.pending := rfl
@[simp] theorem updDp_free (f : Dp → Dp) (s : State) : (updDp f s).free = s.free := rfl
@[simp] theorem updDp_undo (f : Dp → Dp) (s : State) : (updDp f s).undo = s.undo := rfl
@[simp] theorem updDp_outs (f : Dp → Dp) (s : State) : (updDp f s).outs = s.outs := rfl
@[simp] theorem updDp_variant (f : Dp → Dp) (s : State) : (updDp f s).variant = s.variant := rfl
@[simp] theorem updDp_cfg (f : Dp → Dp) (s : State) : (updDp f s).cfg = s.cfg := rfl
@[simp] theorem updDp_cfgNext (f : Dp → Dp) (s : State) : (updDp f s).cfgNext = s.cfgNext := rfl
@[simp] theorem updDp_mram (f : Dp → Dp) (s : State) : (updDp f s).mram = s.mram := rfl
@[simp] theorem updDp_fw (f : Dp → Dp) (s : State) : (updDp f s).fw = s.fw := rfl
@[simp] theorem updDp_rst (f : Dp → Dp) (s : State) : (updDp f s).rst = s.rst := rfl
@[simp] theorem updDp_safe (f : Dp → Dp) (s : State) : (updDp f s).safe = s.safe := rfl
@[simp] theorem updDp_time (f : Dp → Dp) (s : State) : (updDp f s).time = s.time := rfl
@[simp] theorem updDp_cyc (f : Dp → Dp) (s : State) : (updDp f s).cyc = s.cyc := rfl
@[simp] theorem updDp_brd (f : Dp → Dp) (s : State) : (updDp f s).brd = s.brd := rfl
@[simp] theorem updDp_mem (f : Dp → Dp) (s : State) : (updDp f s).mem = s.mem := rfl
@[simp] theorem updDp_dp (f : Dp → Dp) (s : State) : (updDp f s).dp = f s.dp := rfl
@[simp] theorem updDp_sol (f : Dp → Dp) (s : State) : (updDp f s).sol = s.sol := rfl
@[simp] theorem updDp_fus (f : Dp → Dp) (s : State) : (updDp f s).fus = s.fus := rfl
@[simp] theorem updDp_loop (f : Dp → Dp) (s : State) : (updDp f s).loop = s.loop := rfl
@[simp] theorem updDp_filt (f : Dp → Dp) (s : State) : (updDp f s).filt = s.filt := rfl
@[simp] theorem updDp_ao (f : Dp → Dp) (s : State) : (updDp f s).ao = s.ao := rfl
@[simp] theorem updDp_bus (f : Dp → Dp) (s : State) : (updDp f s).bus = s.bus := rfl
@[simp] theorem updDp_link (f : Dp → Dp) (s : State) : (updDp f s).link = s.link := rfl
@[simp] theorem updDp_hif (f : Dp → Dp) (s : State) : (updDp f s).hif = s.hif := rfl
@[simp] theorem updDp_rcd (f : Dp → Dp) (s : State) : (updDp f s).rcd = s.rcd := rfl
@[simp] theorem updDp_arch (f : Dp → Dp) (s : State) : (updDp f s).arch = s.arch := rfl
@[simp] theorem updDp_memp (f : Dp → Dp) (s : State) : (updDp f s).memp = s.memp := rfl
@[simp] theorem updDp_tests (f : Dp → Dp) (s : State) : (updDp f s).tests = s.tests := rfl

@[simp] theorem updPend_pending (f : DpPend → DpPend) (s : State) : (updPend f s).pending = s.pending := rfl
@[simp] theorem updPend_free (f : DpPend → DpPend) (s : State) : (updPend f s).free = s.free := rfl
@[simp] theorem updPend_undo (f : DpPend → DpPend) (s : State) : (updPend f s).undo = s.undo := rfl
@[simp] theorem updPend_outs (f : DpPend → DpPend) (s : State) : (updPend f s).outs = s.outs := rfl
@[simp] theorem updPend_variant (f : DpPend → DpPend) (s : State) : (updPend f s).variant = s.variant := rfl
@[simp] theorem updPend_cfg (f : DpPend → DpPend) (s : State) : (updPend f s).cfg = s.cfg := rfl
@[simp] theorem updPend_cfgNext (f : DpPend → DpPend) (s : State) : (updPend f s).cfgNext = s.cfgNext := rfl
@[simp] theorem updPend_mram (f : DpPend → DpPend) (s : State) : (updPend f s).mram = s.mram := rfl
@[simp] theorem updPend_fw (f : DpPend → DpPend) (s : State) : (updPend f s).fw = s.fw := rfl
@[simp] theorem updPend_rst (f : DpPend → DpPend) (s : State) : (updPend f s).rst = s.rst := rfl
@[simp] theorem updPend_safe (f : DpPend → DpPend) (s : State) : (updPend f s).safe = s.safe := rfl
@[simp] theorem updPend_time (f : DpPend → DpPend) (s : State) : (updPend f s).time = s.time := rfl
@[simp] theorem updPend_cyc (f : DpPend → DpPend) (s : State) : (updPend f s).cyc = s.cyc := rfl
@[simp] theorem updPend_brd (f : DpPend → DpPend) (s : State) : (updPend f s).brd = s.brd := rfl
@[simp] theorem updPend_mem (f : DpPend → DpPend) (s : State) : (updPend f s).mem = s.mem := rfl
@[simp] theorem updPend_dp (f : DpPend → DpPend) (s : State) : (updPend f s).dp = { s.dp with pend := f s.dp.pend } := rfl
@[simp] theorem updPend_sol (f : DpPend → DpPend) (s : State) : (updPend f s).sol = s.sol := rfl
@[simp] theorem updPend_fus (f : DpPend → DpPend) (s : State) : (updPend f s).fus = s.fus := rfl
@[simp] theorem updPend_loop (f : DpPend → DpPend) (s : State) : (updPend f s).loop = s.loop := rfl
@[simp] theorem updPend_filt (f : DpPend → DpPend) (s : State) : (updPend f s).filt = s.filt := rfl
@[simp] theorem updPend_ao (f : DpPend → DpPend) (s : State) : (updPend f s).ao = s.ao := rfl
@[simp] theorem updPend_bus (f : DpPend → DpPend) (s : State) : (updPend f s).bus = s.bus := rfl
@[simp] theorem updPend_link (f : DpPend → DpPend) (s : State) : (updPend f s).link = s.link := rfl
@[simp] theorem updPend_hif (f : DpPend → DpPend) (s : State) : (updPend f s).hif = s.hif := rfl
@[simp] theorem updPend_rcd (f : DpPend → DpPend) (s : State) : (updPend f s).rcd = s.rcd := rfl
@[simp] theorem updPend_arch (f : DpPend → DpPend) (s : State) : (updPend f s).arch = s.arch := rfl
@[simp] theorem updPend_memp (f : DpPend → DpPend) (s : State) : (updPend f s).memp = s.memp := rfl
@[simp] theorem updPend_tests (f : DpPend → DpPend) (s : State) : (updPend f s).tests = s.tests := rfl

@[simp] theorem updStall_pending (n : Nat) (f : Stall → Stall) (s : State) : (updStall n f s).pending = s.pending := rfl
@[simp] theorem updStall_free (n : Nat) (f : Stall → Stall) (s : State) : (updStall n f s).free = s.free := rfl
@[simp] theorem updStall_undo (n : Nat) (f : Stall → Stall) (s : State) : (updStall n f s).undo = s.undo := rfl
@[simp] theorem updStall_outs (n : Nat) (f : Stall → Stall) (s : State) : (updStall n f s).outs = s.outs := rfl
@[simp] theorem updStall_variant (n : Nat) (f : Stall → Stall) (s : State) : (updStall n f s).variant = s.variant := rfl
@[simp] theorem updStall_cfg (n : Nat) (f : Stall → Stall) (s : State) : (updStall n f s).cfg = s.cfg := rfl
@[simp] theorem updStall_cfgNext (n : Nat) (f : Stall → Stall) (s : State) : (updStall n f s).cfgNext = s.cfgNext := rfl
@[simp] theorem updStall_mram (n : Nat) (f : Stall → Stall) (s : State) : (updStall n f s).mram = s.mram := rfl
@[simp] theorem updStall_fw (n : Nat) (f : Stall → Stall) (s : State) : (updStall n f s).fw = s.fw := rfl
@[simp] theorem updStall_rst (n : Nat) (f : Stall → Stall) (s : State) : (updStall n f s).rst = s.rst := rfl
@[simp] theorem updStall_safe (n : Nat) (f : Stall → Stall) (s : State) : (updStall n f s).safe = s.safe := rfl
@[simp] theorem updStall_time (n : Nat) (f : Stall → Stall) (s : State) : (updStall n f s).time = s.time := rfl
@[simp] theorem updStall_cyc (n : Nat) (f : Stall → Stall) (s : State) : (updStall n f s).cyc = s.cyc := rfl
@[simp] theorem updStall_brd (n : Nat) (f : Stall → Stall) (s : State) : (updStall n f s).brd = s.brd := rfl
@[simp] theorem updStall_mem (n : Nat) (f : Stall → Stall) (s : State) : (updStall n f s).mem = s.mem := rfl
@[simp] theorem updStall_dp (n : Nat) (f : Stall → Stall) (s : State) : (updStall n f s).dp = s.dp := rfl
@[simp] theorem updStall_sol (n : Nat) (f : Stall → Stall) (s : State) : (updStall n f s).sol = { s.sol with stalls := upd s.sol.stalls n f } := rfl
@[simp] theorem updStall_fus (n : Nat) (f : Stall → Stall) (s : State) : (updStall n f s).fus = s.fus := rfl
@[simp] theorem updStall_loop (n : Nat) (f : Stall → Stall) (s : State) : (updStall n f s).loop = s.loop := rfl
@[simp] theorem updStall_filt (n : Nat) (f : Stall → Stall) (s : State) : (updStall n f s).filt = s.filt := rfl
@[simp] theorem updStall_ao (n : Nat) (f : Stall → Stall) (s : State) : (updStall n f s).ao = s.ao := rfl
@[simp] theorem updStall_bus (n : Nat) (f : Stall → Stall) (s : State) : (updStall n f s).bus = s.bus := rfl
@[simp] theorem updStall_link (n : Nat) (f : Stall → Stall) (s : State) : (updStall n f s).link = s.link := rfl
@[simp] theorem updStall_hif (n : Nat) (f : Stall → Stall) (s : State) : (updStall n f s).hif = s.hif := rfl
@[simp] theorem updStall_rcd (n : Nat) (f : Stall → Stall) (s : State) : (updStall n f s).rcd = s.rcd := rfl
@[simp] theorem updStall_arch (n : Nat) (f : Stall → Stall) (s : State) : (updStall n f s).arch = s.arch := rfl
@[simp] theorem updStall_memp (n : Nat) (f : Stall → Stall) (s : State) : (updStall n f s).memp = s.memp := rfl
@[simp] theorem updStall_tests (n : Nat) (f : Stall → Stall) (s : State) : (updStall n f s).tests = s.tests := rfl

@[simp] theorem updFus_pending (f : Fus → Fus) (s : State) : (updFus f s).pending = s.pending := rfl
@[simp] theorem updFus_free (f : Fus → Fus) (s : State) : (updFus f s).free = s.free := rfl
@[simp] theorem updFus_undo (f : Fus → Fus) (s : State) : (updFus f s).undo = s.undo := rfl
@[simp] theorem updFus_outs (f : Fus → Fus) (s : State) : (updFus f s).outs = s.outs := rfl
@[simp] theorem updFus_variant (f : Fus → Fus) (s : State) : (updFus f s).variant = s.variant := rfl
@[simp] theorem updFus_cfg (f : Fus → Fus) (s : State) : (updFus f s).cfg = s.cfg := rfl
@[simp] theorem updFus_cfgNext (f : Fus → Fus) (s : State) : (updFus f s).cfgNext = s.cfgNext := rfl
@[simp] theorem updFus_mram (f : Fus → Fus) (s : State) : (updFus f s).mram = s.mram := rfl
@[simp] theorem updFus_fw (f : Fus → Fus) (s : State) : (updFus f s).fw = s.fw := rfl
@[simp] theorem updFus_rst (f : Fus → Fus) (s : State) : (updFus f s).rst = s.rst := rfl
@[simp] theorem updFus_safe (f : Fus → Fus) (s : State) : (updFus f s).safe = s.safe := rfl
@[simp] theorem updFus_time (f : Fus → Fus) (s : State) : (updFus f s).time = s.time := rfl
@[simp] theorem updFus_cyc (f : Fus → Fus) (s : State) : (updFus f s).cyc = s.cyc := rfl
@[simp] theorem updFus_brd (f : Fus → Fus) (s : State) : (updFus f s).brd = s.brd := rfl
@[simp] theorem updFus_mem (f : Fus → Fus) (s : State) : (updFus f s).mem = s.mem := rfl
@[simp] theorem updFus_dp (f : Fus → Fus) (s : State) : (updFus f s).dp = s.dp := rfl
@[simp] theorem updFus_sol (f : Fus → Fus) (s : State) : (updFus f s).sol = s.sol := rfl
@[simp] theorem updFus_fus (f : Fus → Fus) (s : State) : (updFus f s).fus = f s.fus := rfl
@[simp] theorem updFus_loop (f : Fus → Fus) (s : State) : (updFus f s).loop = s.loop := rfl
@[simp] theorem updFus_filt (f : Fus → Fus) (s : State) : (updFus f s).filt = s.filt := rfl
@[simp] theorem updFus_ao (f : Fus → Fus) (s : State) : (updFus f s).ao = s.ao := rfl
@[simp] theorem updFus_bus (f : Fus → Fus) (s : State) : (updFus f s).bus = s.bus := rfl
@[simp] theorem updFus_link (f : Fus → Fus) (s : State) : (updFus f s).link = s.link := rfl
@[simp] theorem updFus_hif (f : Fus → Fus) (s : State) : (updFus f s).hif = s.hif := rfl
@[simp] theorem updFus_rcd (f : Fus → Fus) (s : State) : (updFus f s).rcd = s.rcd := rfl
@[simp] theorem updFus_arch (f : Fus → Fus) (s : State) : (updFus f s).arch = s.arch := rfl
@[simp] theorem updFus_memp (f : Fus → Fus) (s : State) : (updFus f s).memp = s.memp := rfl
@[simp] theorem updFus_tests (f : Fus → Fus) (s : State) : (updFus f s).tests = s.tests := rfl

@[simp] theorem updRt_pending (n : Nat) (f : StreamRt → StreamRt) (s : State) : (updRt n f s).pending = s.pending := rfl
@[simp] theorem updRt_free (n : Nat) (f : StreamRt → StreamRt) (s : State) : (updRt n f s).free = s.free := rfl
@[simp] theorem updRt_undo (n : Nat) (f : StreamRt → StreamRt) (s : State) : (updRt n f s).undo = s.undo := rfl
@[simp] theorem updRt_outs (n : Nat) (f : StreamRt → StreamRt) (s : State) : (updRt n f s).outs = s.outs := rfl
@[simp] theorem updRt_variant (n : Nat) (f : StreamRt → StreamRt) (s : State) : (updRt n f s).variant = s.variant := rfl
@[simp] theorem updRt_cfg (n : Nat) (f : StreamRt → StreamRt) (s : State) : (updRt n f s).cfg = s.cfg := rfl
@[simp] theorem updRt_cfgNext (n : Nat) (f : StreamRt → StreamRt) (s : State) : (updRt n f s).cfgNext = s.cfgNext := rfl
@[simp] theorem updRt_mram (n : Nat) (f : StreamRt → StreamRt) (s : State) : (updRt n f s).mram = s.mram := rfl
@[simp] theorem updRt_fw (n : Nat) (f : StreamRt → StreamRt) (s : State) : (updRt n f s).fw = s.fw := rfl
@[simp] theorem updRt_rst (n : Nat) (f : StreamRt → StreamRt) (s : State) : (updRt n f s).rst = s.rst := rfl
@[simp] theorem updRt_safe (n : Nat) (f : StreamRt → StreamRt) (s : State) : (updRt n f s).safe = s.safe := rfl
@[simp] theorem updRt_time (n : Nat) (f : StreamRt → StreamRt) (s : State) : (updRt n f s).time = s.time := rfl
@[simp] theorem updRt_cyc (n : Nat) (f : StreamRt → StreamRt) (s : State) : (updRt n f s).cyc = s.cyc := rfl
@[simp] theorem updRt_brd (n : Nat) (f : StreamRt → StreamRt) (s : State) : (updRt n f s).brd = s.brd := rfl
@[simp] theorem updRt_mem (n : Nat) (f : StreamRt → StreamRt) (s : State) : (updRt n f s).mem = s.mem := rfl
@[simp] theorem updRt_dp (n : Nat) (f : StreamRt → StreamRt) (s : State) : (updRt n f s).dp = s.dp := rfl
@[simp] theorem updRt_sol (n : Nat) (f : StreamRt → StreamRt) (s : State) : (updRt n f s).sol = s.sol := rfl
@[simp] theorem updRt_fus (n : Nat) (f : StreamRt → StreamRt) (s : State) : (updRt n f s).fus = { s.fus with streams := upd s.fus.streams n f } := rfl
@[simp] theorem updRt_loop (n : Nat) (f : StreamRt → StreamRt) (s : State) : (updRt n f s).loop = s.loop := rfl
@[simp] theorem updRt_filt (n : Nat) (f : StreamRt → StreamRt) (s : State) : (updRt n f s).filt = s.filt := rfl
@[simp] theorem updRt_ao (n : Nat) (f : StreamRt → StreamRt) (s : State) : (updRt n f s).ao = s.ao := rfl
@[simp] theorem updRt_bus (n : Nat) (f : StreamRt → StreamRt) (s : State) : (updRt n f s).bus = s.bus := rfl
@[simp] theorem updRt_link (n : Nat) (f : StreamRt → StreamRt) (s : State) : (updRt n f s).link = s.link := rfl
@[simp] theorem updRt_hif (n : Nat) (f : StreamRt → StreamRt) (s : State) : (updRt n f s).hif = s.hif := rfl
@[simp] theorem updRt_rcd (n : Nat) (f : StreamRt → StreamRt) (s : State) : (updRt n f s).rcd = s.rcd := rfl
@[simp] theorem updRt_arch (n : Nat) (f : StreamRt → StreamRt) (s : State) : (updRt n f s).arch = s.arch := rfl
@[simp] theorem updRt_memp (n : Nat) (f : StreamRt → StreamRt) (s : State) : (updRt n f s).memp = s.memp := rfl
@[simp] theorem updRt_tests (n : Nat) (f : StreamRt → StreamRt) (s : State) : (updRt n f s).tests = s.tests := rfl

@[simp] theorem updCtx_pending (n : Nat) (f : Ctx → Ctx) (s : State) : (updCtx n f s).pending = s.pending := rfl
@[simp] theorem updCtx_free (n : Nat) (f : Ctx → Ctx) (s : State) : (updCtx n f s).free = s.free := rfl
@[simp] theorem updCtx_undo (n : Nat) (f : Ctx → Ctx) (s : State) : (updCtx n f s).undo = s.undo := rfl
@[simp] theorem updCtx_outs (n : Nat) (f : Ctx → Ctx) (s : State) : (updCtx n f s).outs = s.outs := rfl
@[simp] theorem updCtx_variant (n : Nat) (f : Ctx → Ctx) (s : State) : (updCtx n f s).variant = s.variant := rfl
@[simp] theorem updCtx_cfg (n : Nat) (f : Ctx → Ctx) (s : State) : (updCtx n f s).cfg = s.cfg := rfl
@[simp] theorem updCtx_cfgNext (n : Nat) (f : Ctx → Ctx) (s : State) : (updCtx n f s).cfgNext = s.cfgNext := rfl
@[simp] theorem updCtx_mram (n : Nat) (f : Ctx → Ctx) (s : State) : (updCtx n f s).mram = s.mram := rfl
@[simp] theorem updCtx_fw (n : Nat) (f : Ctx → Ctx) (s : State) : (updCtx n f s).fw = s.fw := rfl
@[simp] theorem updCtx_rst (n : Nat) (f : Ctx → Ctx) (s : State) : (updCtx n f s).rst = s.rst := rfl
@[simp] theorem updCtx_safe (n : Nat) (f : Ctx → Ctx) (s : State) : (updCtx n f s).safe = s.safe := rfl
@[simp] theorem updCtx_time (n : Nat) (f : Ctx → Ctx) (s : State) : (updCtx n f s).time = s.time := rfl
@[simp] theorem updCtx_cyc (n : Nat) (f : Ctx → Ctx) (s : State) : (updCtx n f s).cyc = s.cyc := rfl
@[simp] theorem updCtx_brd (n : Nat) (f : Ctx → Ctx) (s : State) : (updCtx n f s).brd = s.brd := rfl
@[simp] theorem updCtx_mem (n : Nat) (f : Ctx → Ctx) (s : State) : (updCtx n f s).mem = s.mem := rfl
@[simp] theorem updCtx_dp (n : Nat) (f : Ctx → Ctx) (s : State) : (updCtx n f s).dp = s.dp := rfl
@[simp] theorem updCtx_sol (n : Nat) (f : Ctx → Ctx) (s : State) : (updCtx n f s).sol = s.sol := rfl
@[simp] theorem updCtx_fus (n : Nat) (f : Ctx → Ctx) (s : State) : (updCtx n f s).fus = s.fus := rfl
@[simp] theorem updCtx_loop (n : Nat) (f : Ctx → Ctx) (s : State) : (updCtx n f s).loop = { s.loop with ctx := upd s.loop.ctx n f } := rfl
@[simp] theorem updCtx_filt (n : Nat) (f : Ctx → Ctx) (s : State) : (updCtx n f s).filt = s.filt := rfl
@[simp] theorem updCtx_ao (n : Nat) (f : Ctx → Ctx) (s : State) : (updCtx n f s).ao = s.ao := rfl
@[simp] theorem updCtx_bus (n : Nat) (f : Ctx → Ctx) (s : State) : (updCtx n f s).bus = s.bus := rfl
@[simp] theorem updCtx_link (n : Nat) (f : Ctx → Ctx) (s : State) : (updCtx n f s).link = s.link := rfl
@[simp] theorem updCtx_hif (n : Nat) (f : Ctx → Ctx) (s : State) : (updCtx n f s).hif = s.hif := rfl
@[simp] theorem updCtx_rcd (n : Nat) (f : Ctx → Ctx) (s : State) : (updCtx n f s).rcd = s.rcd := rfl
@[simp] theorem updCtx_arch (n : Nat) (f : Ctx → Ctx) (s : State) : (updCtx n f s).arch = s.arch := rfl
@[simp] theorem updCtx_memp (n : Nat) (f : Ctx → Ctx) (s : State) : (updCtx n f s).memp = s.memp := rfl
@[simp] theorem updCtx_tests (n : Nat) (f : Ctx → Ctx) (s : State) : (updCtx n f s).tests = s.tests := rfl

@[simp] theorem updFilt_pending (ch : Nat) (f : Filt → Filt) (s : State) : (updFilt ch f s).pending = s.pending := rfl
@[simp] theorem updFilt_free (ch : Nat) (f : Filt → Filt) (s : State) : (updFilt ch f s).free = s.free := rfl
@[simp] theorem updFilt_undo (ch : Nat) (f : Filt → Filt) (s : State) : (updFilt ch f s).undo = s.undo := rfl
@[simp] theorem updFilt_outs (ch : Nat) (f : Filt → Filt) (s : State) : (updFilt ch f s).outs = s.outs := rfl
@[simp] theorem updFilt_variant (ch : Nat) (f : Filt → Filt) (s : State) : (updFilt ch f s).variant = s.variant := rfl
@[simp] theorem updFilt_cfg (ch : Nat) (f : Filt → Filt) (s : State) : (updFilt ch f s).cfg = s.cfg := rfl
@[simp] theorem updFilt_cfgNext (ch : Nat) (f : Filt → Filt) (s : State) : (updFilt ch f s).cfgNext = s.cfgNext := rfl
@[simp] theorem updFilt_mram (ch : Nat) (f : Filt → Filt) (s : State) : (updFilt ch f s).mram = s.mram := rfl
@[simp] theorem updFilt_fw (ch : Nat) (f : Filt → Filt) (s : State) : (updFilt ch f s).fw = s.fw := rfl
@[simp] theorem updFilt_rst (ch : Nat) (f : Filt → Filt) (s : State) : (updFilt ch f s).rst = s.rst := rfl
@[simp] theorem updFilt_safe (ch : Nat) (f : Filt → Filt) (s : State) : (updFilt ch f s).safe = s.safe := rfl
@[simp] theorem updFilt_time (ch : Nat) (f : Filt → Filt) (s : State) : (updFilt ch f s).time = s.time := rfl
@[simp] theorem updFilt_cyc (ch : Nat) (f : Filt → Filt) (s : State) : (updFilt ch f s).cyc = s.cyc := rfl
@[simp] theorem updFilt_brd (ch : Nat) (f : Filt → Filt) (s : State) : (updFilt ch f s).brd = s.brd := rfl
@[simp] theorem updFilt_mem (ch : Nat) (f : Filt → Filt) (s : State) : (updFilt ch f s).mem = s.mem := rfl
@[simp] theorem updFilt_dp (ch : Nat) (f : Filt → Filt) (s : State) : (updFilt ch f s).dp = s.dp := rfl
@[simp] theorem updFilt_sol (ch : Nat) (f : Filt → Filt) (s : State) : (updFilt ch f s).sol = s.sol := rfl
@[simp] theorem updFilt_fus (ch : Nat) (f : Filt → Filt) (s : State) : (updFilt ch f s).fus = s.fus := rfl
@[simp] theorem updFilt_loop (ch : Nat) (f : Filt → Filt) (s : State) : (updFilt ch f s).loop = s.loop := rfl
@[simp] theorem updFilt_filt (ch : Nat) (f : Filt → Filt) (s : State) : (updFilt ch f s).filt = upd s.filt ch f := rfl
@[simp] theorem updFilt_ao (ch : Nat) (f : Filt → Filt) (s : State) : (updFilt ch f s).ao = s.ao := rfl
@[simp] theorem updFilt_bus (ch : Nat) (f : Filt → Filt) (s : State) : (updFilt ch f s).bus = s.bus := rfl
@[simp] theorem updFilt_link (ch : Nat) (f : Filt → Filt) (s : State) : (updFilt ch f s).link = s.link := rfl
@[simp] theorem updFilt_hif (ch : Nat) (f : Filt → Filt) (s : State) : (updFilt ch f s).hif = s.hif := rfl
@[simp] theorem updFilt_rcd (ch : Nat) (f : Filt → Filt) (s : State) : (updFilt ch f s).rcd = s.rcd := rfl
@[simp] theorem updFilt_arch (ch : Nat) (f : Filt → Filt) (s : State) : (updFilt ch f s).arch = s.arch := rfl
@[simp] theorem updFilt_memp (ch : Nat) (f : Filt → Filt) (s : State) : (updFilt ch f s).memp = s.memp := rfl
@[simp] theorem updFilt_tests (ch : Nat) (f : Filt → Filt) (s : State) : (updFilt ch f s).tests = s.tests := rfl

@[simp] theorem updAo_pending (o : Nat) (f : Ao → Ao) (s : State) : (updAo o f s).pending = s.pending := rfl
@[simp] theorem updAo_free (o : Nat) (f : Ao → Ao) (s : State) : (updAo o f s).free = s.free := rfl
@[simp] theorem updAo_undo (o : Nat) (f : Ao → Ao) (s : State) : (updAo o f s).undo = s.undo := rfl
@[simp] theorem updAo_outs (o : Nat) (f : Ao → Ao) (s : State) : (updAo o f s).outs = s.outs := rfl
@[simp] theorem updAo_variant (o : Nat) (f : Ao → Ao) (s : State) : (updAo o f s).variant = s.variant := rfl
@[simp] theorem updAo_cfg (o : Nat) (f : Ao → Ao) (s : State) : (updAo o f s).cfg = s.cfg := rfl
@[simp] theorem updAo_cfgNext (o : Nat) (f : Ao → Ao) (s : State) : (updAo o f s).cfgNext = s.cfgNext := rfl
@[simp] theorem updAo_mram (o : Nat) (f : Ao → Ao) (s : State) : (updAo o f s).mram = s.mram := rfl
@[simp] theorem updAo_fw (o : Nat) (f : Ao → Ao) (s : State) : (updAo o f s).fw = s.fw := rfl
@[simp] theorem updAo_rst (o : Nat) (f : Ao → Ao) (s : State) : (updAo o f s).rst = s.rst := rfl
@[simp] theorem updAo_safe (o : Nat) (f : Ao → Ao) (s : State) : (updAo o f s).safe = s.safe := rfl
@[simp] theorem updAo_time (o : Nat) (f : Ao → Ao) (s : State) : (updAo o f s).time = s.time := rfl
@[simp] theorem updAo_cyc (o : Nat) (f : Ao → Ao) (s : State) : (updAo o f s).cyc = s.cyc := rfl
@[simp] theorem updAo_brd (o : Nat) (f : Ao → Ao) (s : State) : (updAo o f s).brd = s.brd := rfl
@[simp] theorem updAo_mem (o : Nat) (f : Ao → Ao) (s : State) : (updAo o f s).mem = s.mem := rfl
@[simp] theorem updAo_dp (o : Nat) (f : Ao → Ao) (s : State) : (updAo o f s).dp = s.dp := rfl
@[simp] theorem updAo_sol (o : Nat) (f : Ao → Ao) (s : State) : (updAo o f s).sol = s.sol := rfl
@[simp] theorem updAo_fus (o : Nat) (f : Ao → Ao) (s : State) : (updAo o f s).fus = s.fus := rfl
@[simp] theorem updAo_loop (o : Nat) (f : Ao → Ao) (s : State) : (updAo o f s).loop = s.loop := rfl
@[simp] theorem updAo_filt (o : Nat) (f : Ao → Ao) (s : State) : (updAo o f s).filt = s.filt := rfl
@[simp] theorem updAo_ao (o : Nat) (f : Ao → Ao) (s : State) : (updAo o f s).ao = upd s.ao o f := rfl
@[simp] theorem updAo_bus (o : Nat) (f : Ao → Ao) (s : State) : (updAo o f s).bus = s.bus := rfl
@[simp] theorem updAo_link (o : Nat) (f : Ao → Ao) (s : State) : (updAo o f s).link = s.link := rfl
@[simp] theorem updAo_hif (o : Nat) (f : Ao → Ao) (s : State) : (updAo o f s).hif = s.hif := rfl
@[simp] theorem updAo_rcd (o : Nat) (f : Ao → Ao) (s : State) : (updAo o f s).rcd = s.rcd := rfl
@[simp] theorem updAo_arch (o : Nat) (f : Ao → Ao) (s : State) : (updAo o f s).arch = s.arch := rfl
@[simp] theorem updAo_memp (o : Nat) (f : Ao → Ao) (s : State) : (updAo o f s).memp = s.memp := rfl
@[simp] theorem updAo_tests (o : Nat) (f : Ao → Ao) (s : State) : (updAo o f s).tests = s.tests := rfl

@[simp] theorem updCan_pending (ch : Nat) (f : Can → Can) (s : State) : (updCan ch f s).pending = s.pending := rfl
@[simp] theorem updCan_free (ch : Nat) (f : Can → Can) (s : State) : (updCan ch f s).free = s.free := rfl
@[simp] theorem updCan_undo (ch : Nat) (f : Can → Can) (s : State) : (updCan ch f s).undo = s.undo := rfl
@[simp] theorem updCan_outs (ch : Nat) (f : Can → Can) (s : State) : (updCan ch f s).outs = s.outs := rfl
@[simp] theorem updCan_variant (ch : Nat) (f : Can → Can) (s : State) : (updCan ch f s).variant = s.variant := rfl
@[simp] theorem updCan_cfg (ch : Nat) (f : Can → Can) (s : State) : (updCan ch f s).cfg = s.cfg := rfl
@[simp] theorem updCan_cfgNext (ch : Nat) (f : Can → Can) (s : State) : (updCan ch f s).cfgNext = s.cfgNext := rfl
@[simp] theorem updCan_mram (ch : Nat) (f : Can → Can) (s : State) : (updCan ch f s).mram = s.mram := rfl
@[simp] theorem updCan_fw (ch : Nat) (f : Can → Can) (s : State) : (updCan ch f s).fw = s.fw := rfl
@[simp] theorem updCan_rst (ch : Nat) (f : Can → Can) (s : State) : (updCan ch f s).rst = s.rst := rfl
@[simp] theorem updCan_safe (ch : Nat) (f : Can → Can) (s : State) : (updCan ch f s).safe = s.safe := rfl
@[simp] theorem updCan_time (ch : Nat) (f : Can → Can) (s : State) : (updCan ch f s).time = s.time := rfl
@[simp] theorem updCan_cyc (ch : Nat) (f : Can → Can) (s : State) : (updCan ch f s).cyc = s.cyc := rfl
@[simp] theorem updCan_brd (ch : Nat) (f : Can → Can) (s : State) : (updCan ch f s).brd = s.brd := rfl
@[simp] theorem updCan_mem (ch : Nat) (f : Can → Can) (s : State) : (updCan ch f s).mem = s.mem := rfl
@[simp] theorem updCan_dp (ch : Nat) (f : Can → Can) (s : State) : (updCan ch f s).dp = s.dp := rfl
@[simp] theorem updCan_sol (ch : Nat) (f : Can → Can) (s : State) : (updCan ch f s).sol = s.sol := rfl
@[simp] theorem updCan_fus (ch : Nat) (f : Can → Can) (s : State) : (updCan ch f s).fus = s.fus := rfl
@[simp] theorem updCan_loop (ch : Nat) (f : Can → Can) (s : State) : (updCan ch f s).loop = s.loop := rfl
@[simp] theorem updCan_filt (ch : Nat) (f : Can → Can) (s : State) : (updCan ch f s).filt = s.filt := rfl
@[simp] theorem updCan_ao (ch : Nat) (f : Can → Can) (s : State) : (updCan ch f s).ao = s.ao := rfl
@[simp] theorem updCan_bus (ch : Nat) (f : Can → Can) (s : State) : (updCan ch f s).bus = { s.bus with can := upd s.bus.can ch f } := rfl
@[simp] theorem updCan_link (ch : Nat) (f : Can → Can) (s : State) : (updCan ch f s).link = s.link := rfl
@[simp] theorem updCan_hif (ch : Nat) (f : Can → Can) (s : State) : (updCan ch f s).hif = s.hif := rfl
@[simp] theorem updCan_rcd (ch : Nat) (f : Can → Can) (s : State) : (updCan ch f s).rcd = s.rcd := rfl
@[simp] theorem updCan_arch (ch : Nat) (f : Can → Can) (s : State) : (updCan ch f s).arch = s.arch := rfl
@[simp] theorem updCan_memp (ch : Nat) (f : Can → Can) (s : State) : (updCan ch f s).memp = s.memp := rfl
@[simp] theorem updCan_tests (ch : Nat) (f : Can → Can) (s : State) : (updCan ch f s).tests = s.tests := rfl

@[simp] theorem updUart_pending (u : Nat) (f : Uart → Uart) (s : State) : (updUart u f s).pending = s.pending := rfl
@[simp] theorem updUart_free (u : Nat) (f : Uart → Uart) (s : State) : (updUart u f s).free = s.free := rfl
@[simp] theorem updUart_undo (u : Nat) (f : Uart → Uart) (s : State) : (updUart u f s).undo = s.undo := rfl
@[simp] theorem updUart_outs (u : Nat) (f : Uart → Uart) (s : State) : (updUart u f s).outs = s.outs := rfl
@[simp] theorem updUart_variant (u : Nat) (f : Uart → Uart) (s : State) : (updUart u f s).variant = s.variant := rfl
@[simp] theorem updUart_cfg (u : Nat) (f : Uart → Uart) (s : State) : (updUart u f s).cfg = s.cfg := rfl
@[simp] theorem updUart_cfgNext (u : Nat) (f : Uart → Uart) (s : State) : (updUart u f s).cfgNext = s.cfgNext := rfl
@[simp] theorem updUart_mram (u : Nat) (f : Uart → Uart) (s : State) : (updUart u f s).mram = s.mram := rfl
@[simp] theorem updUart_fw (u : Nat) (f : Uart → Uart) (s : State) : (updUart u f s).fw = s.fw := rfl
@[simp] theorem updUart_rst (u : Nat) (f : Uart → Uart) (s : State) : (updUart u f s).rst = s.rst := rfl
@[simp] theorem updUart_safe (u : Nat) (f : Uart → Uart) (s : State) : (updUart u f s).safe = s.safe := rfl
@[simp] theorem updUart_time (u : Nat) (f : Uart → Uart) (s : State) : (updUart u f s).time = s.time := rfl
@[simp] theorem updUart_cyc (u : Nat) (f : Uart → Uart) (s : State) : (updUart u f s).cyc = s.cyc := rfl
@[simp] theorem updUart_brd (u : Nat) (f : Uart → Uart) (s : State) : (updUart u f s).brd = s.brd := rfl
@[simp] theorem updUart_mem (u : Nat) (f : Uart → Uart) (s : State) : (updUart u f s).mem = s.mem := rfl
@[simp] theorem updUart_dp (u : Nat) (f : Uart → Uart) (s : State) : (updUart u f s).dp = s.dp := rfl
@[simp] theorem updUart_sol (u : Nat) (f : Uart → Uart) (s : State) : (updUart u f s).sol = s.sol := rfl
@[simp] theorem updUart_fus (u : Nat) (f : Uart → Uart) (s : State) : (updUart u f s).fus = s.fus := rfl
@[simp] theorem updUart_loop (u : Nat) (f : Uart → Uart) (s : State) : (updUart u f s).loop = s.loop := rfl
@[simp] theorem updUart_filt (u : Nat) (f : Uart → Uart) (s : State) : (updUart u f s).filt = s.filt := rfl
@[simp] theorem updUart_ao (u : Nat) (f : Uart → Uart) (s : State) : (updUart u f s).ao = s.ao := rfl
@[simp] theorem updUart_bus (u : Nat) (f : Uart → Uart) (s : State) : (updUart u f s).bus = { s.bus with uart := upd s.bus.uart u f } := rfl
@[simp] theorem updUart_link (u : Nat) (f : Uart → Uart) (s : State) : (updUart u f s).link = s.link := rfl
@[simp] theorem updUart_hif (u : Nat) (f : Uart → Uart) (s : State) : (updUart u f s).hif = s.hif := rfl
@[simp] theorem updUart_rcd (u : Nat) (f : Uart → Uart) (s : State) : (updUart u f s).rcd = s.rcd := rfl
@[simp] theorem updUart_arch (u : Nat) (f : Uart → Uart) (s : State) : (updUart u f s).arch = s.arch := rfl
@[simp] theorem updUart_memp (u : Nat) (f : Uart → Uart) (s : State) : (updUart u f s).memp = s.memp := rfl
@[simp] theorem updUart_tests (u : Nat) (f : Uart → Uart) (s : State) : (updUart u f s).tests = s.tests := rfl

@[simp] theorem updBlk_pending (n : Nat) (f : Blk → Blk) (s : State) : (updBlk n f s).pending = s.pending := rfl
@[simp] theorem updBlk_free (n : Nat) (f : Blk → Blk) (s : State) : (updBlk n f s).free = s.free := rfl
@[simp] theorem updBlk_undo (n : Nat) (f : Blk → Blk) (s : State) : (updBlk n f s).undo = s.undo := rfl
@[simp] theorem updBlk_outs (n : Nat) (f : Blk → Blk) (s : State) : (updBlk n f s).outs = s.outs := rfl
@[simp] theorem updBlk_variant (n : Nat) (f : Blk → Blk) (s : State) : (updBlk n f s).variant = s.variant := rfl
@[simp] theorem updBlk_cfg (n : Nat) (f : Blk → Blk) (s : State) : (updBlk n f s).cfg = s.cfg := rfl
@[simp] theorem updBlk_cfgNext (n : Nat) (f : Blk → Blk) (s : State) : (updBlk n f s).cfgNext = s.cfgNext := rfl
@[simp] theorem updBlk_mram (n : Nat) (f : Blk → Blk) (s : State) : (updBlk n f s).mram = s.mram := rfl
@[simp] theorem updBlk_fw (n : Nat) (f : Blk → Blk) (s : State) : (updBlk n f s).fw = s.fw := rfl
@[simp] theorem updBlk_rst (n : Nat) (f : Blk → Blk) (s : State) : (updBlk n f s).rst = s.rst := rfl
@[simp] theorem updBlk_safe (n : Nat) (f : Blk → Blk) (s : State) : (updBlk n f s).safe = s.safe := rfl
@[simp] theorem updBlk_time (n : Nat) (f : Blk → Blk) (s : State) : (updBlk n f s).time = s.time := rfl
@[simp] theorem updBlk_cyc (n : Nat) (f : Blk → Blk) (s : State) : (updBlk n f s).cyc = s.cyc := rfl
@[simp] theorem updBlk_brd (n : Nat) (f : Blk → Blk) (s : State) : (updBlk n f s).brd = s.brd := rfl
@[simp] theorem updBlk_mem (n : Nat) (f : Blk → Blk) (s : State) : (updBlk n f s).mem = s.mem := rfl
@[simp] theorem updBlk_dp (n : Nat) (f : Blk → Blk) (s : State) : (updBlk n f s).dp = s.dp := rfl
@[simp] theorem updBlk_sol (n : Nat) (f : Blk → Blk) (s : State) : (updBlk n f s).sol = s.sol := rfl
@[simp] theorem updBlk_fus (n : Nat) (f : Blk → Blk) (s : State) : (updBlk n f s).fus = s.fus := rfl
@[simp] theorem updBlk_loop (n : Nat) (f : Blk → Blk) (s : State) : (updBlk n f s).loop = s.loop := rfl
@[simp] theorem updBlk_filt (n : Nat) (f : Blk → Blk) (s : State) : (updBlk n f s).filt = s.filt := rfl
@[simp] theorem updBlk_ao (n : Nat) (f : Blk → Blk) (s : State) : (updBlk n f s).ao = s.ao := rfl
@[simp] theorem updBlk_bus (n : Nat) (f : Blk → Blk) (s : State) : (updBlk n f s).bus = s.bus := rfl
@[simp] theorem updBlk_link (n : Nat) (f : Blk → Blk) (s : State) : (updBlk n f s).link = s.link := rfl
@[simp] theorem updBlk_hif (n : Nat) (f : Blk → Blk) (s : State) : (updBlk n f s).hif = s.hif := rfl
@[simp] theorem updBlk_rcd (n : Nat) (f : Blk → Blk) (s : State) : (updBlk n f s).rcd = s.rcd := rfl
@[simp] theorem updBlk_arch (n : Nat) (f : Blk → Blk) (s : State) : (updBlk n f s).arch = { s.arch with blks := s.arch.blks.map fun b => if b.num = n then f b else b } := rfl
@[simp] theorem updBlk_memp (n : Nat) (f : Blk → Blk) (s : State) : (updBlk n f s).memp = s.memp := rfl
@[simp] theorem updBlk_tests (n : Nat) (f : Blk → Blk) (s : State) : (updBlk n f s).tests = s.tests := rfl

@[simp] theorem updRegion_pending (n : Nat) (f : Region → Region) (s : State) : (updRegion n f s).pending = s.pending := rfl
@[simp] theorem updRegion_free (n : Nat) (f : Region → Region) (s : State) : (updRegion n f s).free = s.free := rfl
@[simp] theorem updRegion_undo (n : Nat) (f : Region → Region) (s : State) : (updRegion n f s).undo = s.undo := rfl
@[simp] theorem updRegion_outs (n : Nat) (f : Region → Region) (s : State) : (updRegion n f s).outs = s.outs := rfl
@[simp] theorem updRegion_variant (n : Nat) (f : Region → Region) (s : State) : (updRegion n f s).variant = s.variant := rfl
@[simp] theorem updRegion_cfg (n : Nat) (f : Region → Region) (s : State) : (updRegion n f s).cfg = s.cfg := rfl
@[simp] theorem updRegion_cfgNext (n : Nat) (f : Region → Region) (s : State) : (updRegion n f s).cfgNext = s.cfgNext := rfl
@[simp] theorem updRegion_mram (n : Nat) (f : Region → Region) (s : State) : (updRegion n f s).mram = s.mram := rfl
@[simp] theorem updRegion_fw (n : Nat) (f : Region → Region) (s : State) : (updRegion n f s).fw = s.fw := rfl
@[simp] theorem updRegion_rst (n : Nat) (f : Region → Region) (s : State) : (updRegion n f s).rst = s.rst := rfl
@[simp] theorem updRegion_safe (n : Nat) (f : Region → Region) (s : State) : (updRegion n f s).safe = s.safe := rfl
@[simp] theorem updRegion_time (n : Nat) (f : Region → Region) (s : State) : (updRegion n f s).time = s.time := rfl
@[simp] theorem updRegion_cyc (n : Nat) (f : Region → Region) (s : State) : (updRegion n f s).cyc = s.cyc := rfl
@[simp] theorem updRegion_brd (n : Nat) (f : Region → Region) (s : State) : (updRegion n f s).brd = s.brd := rfl
@[simp] theorem updRegion_mem (n : Nat) (f : Region → Region) (s : State) : (updRegion n f s).mem = s.mem := rfl
@[simp] theorem updRegion_dp (n : Nat) (f : Region → Region) (s : State) : (updRegion n f s).dp = s.dp := rfl
@[simp] theorem updRegion_sol (n : Nat) (f : Region → Region) (s : State) : (updRegion n f s).sol = s.sol := rfl
@[simp] theorem updRegion_fus (n : Nat) (f : Region → Region) (s : State) : (updRegion n f s).fus = s.fus := rfl
@[simp] theorem updRegion_loop (n : Nat) (f : Region → Region) (s : State) : (updRegion n f s).loop = s.loop := rfl
@[simp] theorem updRegion_filt (n : Nat) (f : Region → Region) (s : State) : (updRegion n f s).filt = s.filt := rfl
@[simp] theorem updRegion_ao (n : Nat) (f : Region → Region) (s : State) : (updRegion n f s).ao = s.ao := rfl
@[simp] theorem updRegion_bus (n : Nat) (f : Region → Region) (s : State) : (updRegion n f s).bus = s.bus := rfl
@[simp] theorem updRegion_link (n : Nat) (f : Region → Region) (s : State) : (updRegion n f s).link = s.link := rfl
@[simp] theorem updRegion_hif (n : Nat) (f : Region → Region) (s : State) : (updRegion n f s).hif = s.hif := rfl
@[simp] theorem updRegion_rcd (n : Nat) (f : Region → Region) (s : State) : (updRegion n f s).rcd = s.rcd := rfl
@[simp] theorem updRegion_arch (n : Nat) (f : Region → Region) (s : State) : (updRegion n f s).arch = s.arch := rfl
@[simp] theorem updRegion_memp (n : Nat) (f : Region → Region) (s : State) : (updRegion n f s).memp = { s.memp with regions := upd s.memp.regions n f } := rfl
@[simp] theorem updRegion_tests (n : Nat) (f : Region → Region) (s : State) : (updRegion n f s).tests = s.tests := rfl

@[simp] theorem updRst_pending (f : Rst → Rst) (s : State) : (updRst f s).pending = s.pending := rfl
@[simp] theorem updRst_free (f : Rst → Rst) (s : State) : (updRst f s).free = s.free := rfl
@[simp] theorem updRst_undo (f : Rst → Rst) (s : State) : (updRst f s).undo = s.undo := rfl
@[simp] theorem updRst_outs (f : Rst → Rst) (s : State) : (updRst f s).outs = s.outs := rfl
@[simp] theorem updRst_variant (f : Rst → Rst) (s : State) : (updRst f s).variant = s.variant := rfl
@[simp] theorem updRst_cfg (f : Rst → Rst) (s : State) : (updRst f s).cfg = s.cfg := rfl
@[simp] theorem updRst_cfgNext (f : Rst → Rst) (s : State) : (updRst f s).cfgNext = s.cfgNext := rfl
@[simp] theorem updRst_mram (f : Rst → Rst) (s : State) : (updRst f s).mram = s.mram := rfl
@[simp] theorem updRst_fw (f : Rst → Rst) (s : State) : (updRst f s).fw = s.fw := rfl
@[simp] theorem updRst_rst (f : Rst → Rst) (s : State) : (updRst f s).rst = f s.rst := rfl
@[simp] theorem updRst_safe (f : Rst → Rst) (s : State) : (updRst f s).safe = s.safe := rfl
@[simp] theorem updRst_time (f : Rst → Rst) (s : State) : (updRst f s).time = s.time := rfl
@[simp] theorem updRst_cyc (f : Rst → Rst) (s : State) : (updRst f s).cyc = s.cyc := rfl
@[simp] theorem updRst_brd (f : Rst → Rst) (s : State) : (updRst f s).brd = s.brd := rfl
@[simp] theorem updRst_mem (f : Rst → Rst) (s : State) : (updRst f s).mem = s.mem := rfl
@[simp] theorem updRst_dp (f : Rst → Rst) (s : State) : (updRst f s).dp = s.dp := rfl
@[simp] theorem updRst_sol (f : Rst → Rst) (s : State) : (updRst f s).sol = s.sol := rfl
@[simp] theorem updRst_fus (f : Rst → Rst) (s : State) : (updRst f s).fus = s.fus := rfl
@[simp] theorem updRst_loop (f : Rst → Rst) (s : State) : (updRst f s).loop = s.loop := rfl
@[simp] theorem updRst_filt (f : Rst → Rst) (s : State) : (updRst f s).filt = s.filt := rfl
@[simp] theorem updRst_ao (f : Rst → Rst) (s : State) : (updRst f s).ao = s.ao := rfl
@[simp] theorem updRst_bus (f : Rst → Rst) (s : State) : (updRst f s).bus = s.bus := rfl
@[simp] theorem updRst_link (f : Rst → Rst) (s : State) : (updRst f s).link = s.link := rfl
@[simp] theorem updRst_hif (f : Rst → Rst) (s : State) : (updRst f s).hif = s.hif := rfl
@[simp] theorem updRst_rcd (f : Rst → Rst) (s : State) : (updRst f s).rcd = s.rcd := rfl
@[simp] theorem updRst_arch (f : Rst → Rst) (s : State) : (updRst f s).arch = s.arch := rfl
@[simp] theorem updRst_memp (f : Rst → Rst) (s : State) : (updRst f s).memp = s.memp := rfl
@[simp] theorem updRst_tests (f : Rst → Rst) (s : State) : (updRst f s).tests = s.tests := rfl

@[simp] theorem updTests_pending (f : Tests → Tests) (s : State) : (updTests f s).pending = s.pending := rfl
@[simp] theorem updTests_free (f : Tests → Tests) (s : State) : (updTests f s).free = s.free := rfl
@[simp] theorem updTests_undo (f : Tests → Tests) (s : State) : (updTests f s).undo = s.undo := rfl
@[simp] theorem updTests_outs (f : Tests → Tests) (s : State) : (updTests f s).outs = s.outs := rfl
@[simp] theorem updTests_variant (f : Tests → Tests) (s : State) : (updTests f s).variant = s.variant := rfl
@[simp] theorem updTests_cfg (f : Tests → Tests) (s : State) : (updTests f s).cfg = s.cfg := rfl
@[simp] theorem updTests_cfgNext (f : Tests → Tests) (s : State) : (updTests f s).cfgNext = s.cfgNext := rfl
@[simp] theorem updTests_mram (f : Tests → Tests) (s : State) : (updTests f s).mram = s.mram := rfl
@[simp] theorem updTests_fw (f : Tests → Tests) (s : State) : (updTests f s).fw = s.fw := rfl
@[simp] theorem updTests_rst (f : Tests → Tests) (s : State) : (updTests f s).rst = s.rst := rfl
@[simp] theorem updTests_safe (f : Tests → Tests) (s : State) : (updTests f s).safe = s.safe := rfl
@[simp] theorem updTests_time (f : Tests → Tests) (s : State) : (updTests f s).time = s.time := rfl
@[simp] theorem updTests_cyc (f : Tests → Tests) (s : State) : (updTests f s).cyc = s.cyc := rfl
@[simp] theorem updTests_brd (f : Tests → Tests) (s : State) : (updTests f s).brd = s.brd := rfl
@[simp] theorem updTests_mem (f : Tests → Tests) (s : State) : (updTests f s).mem = s.mem := rfl
@[simp] theorem updTests_dp (f : Tests → Tests) (s : State) : (updTests f s).dp = s.dp := rfl
@[simp] theorem updTests_sol (f : Tests → Tests) (s : State) : (updTests f s).sol = s.sol := rfl
@[simp] theorem updTests_fus (f : Tests → Tests) (s : State) : (updTests f s).fus = s.fus := rfl
@[simp] theorem updTests_loop (f : Tests → Tests) (s : State) : (updTests f s).loop = s.loop := rfl
@[simp] theorem updTests_filt (f : Tests → Tests) (s : State) : (updTests f s).filt = s.filt := rfl
@[simp] theorem updTests_ao (f : Tests → Tests) (s : State) : (updTests f s).ao = s.ao := rfl
@[simp] theorem updTests_bus (f : Tests → Tests) (s : State) : (updTests f s).bus = s.bus := rfl
@[simp] theorem updTests_link (f : Tests → Tests) (s : State) : (updTests f s).link = s.link := rfl
@[simp] theorem updTests_hif (f : Tests → Tests) (s : State) : (updTests f s).hif = s.hif := rfl
@[simp] theorem updTests_rcd (f : Tests → Tests) (s : State) : (updTests f s).rcd = s.rcd := rfl
@[simp] theorem updTests_arch (f : Tests → Tests) (s : State) : (updTests f s).arch = s.arch := rfl
@[simp] theorem updTests_memp (f : Tests → Tests) (s : State) : (updTests f s).memp = s.memp := rfl
@[simp] theorem updTests_tests (f : Tests → Tests) (s : State) : (updTests f s).tests = f s.tests := rfl

@[simp] theorem updFw_pending (f : Fw → Fw) (s : State) : (updFw f s).pending = s.pending := rfl
@[simp] theorem updFw_free (f : Fw → Fw) (s : State) : (updFw f s).free = s.free := rfl
@[simp] theorem updFw_undo (f : Fw → Fw) (s : State) : (updFw f s).undo = s.undo := rfl
@[simp] theorem updFw_outs (f : Fw → Fw) (s : State) : (updFw f s).outs = s.outs := rfl
@[simp] theorem updFw_variant (f : Fw → Fw) (s : State) : (updFw f s).variant = s.variant := rfl
@[simp] theorem updFw_cfg (f : Fw → Fw) (s : State) : (updFw f s).cfg = s.cfg := rfl
@[simp] theorem updFw_cfgNext (f : Fw → Fw) (s : State) : (updFw f s).cfgNext = s.cfgNext := rfl
@[simp] theorem updFw_mram (f : Fw → Fw) (s : State) : (updFw f s).mram = s.mram := rfl
@[simp] theorem updFw_fw (f : Fw → Fw) (s : State) : (updFw f s).fw = f s.fw := rfl
@[simp] theorem updFw_rst (f : Fw → Fw) (s : State) : (updFw f s).rst = s.rst := rfl
@[simp] theorem updFw_safe (f : Fw → Fw) (s : State) : (updFw f s).safe = s.safe := rfl
@[simp] theorem updFw_time (f : Fw → Fw) (s : State) : (updFw f s).time = s.time := rfl
@[simp] theorem updFw_cyc (f : Fw → Fw) (s : State) : (updFw f s).cyc = s.cyc := rfl
@[simp] theorem updFw_brd (f : Fw → Fw) (s : State) : (updFw f s).brd = s.brd := rfl
@[simp] theorem updFw_mem (f : Fw → Fw) (s : State) : (updFw f s).mem = s.mem := rfl
@[simp] theorem updFw_dp (f : Fw → Fw) (s : State) : (updFw f s).dp = s.dp := rfl
@[simp] theorem updFw_sol (f : Fw → Fw) (s : State) : (updFw f s).sol = s.sol := rfl
@[simp] theorem updFw_fus (f : Fw → Fw) (s : State) : (updFw f s).fus = s.fus := rfl
@[simp] theorem updFw_loop (f : Fw → Fw) (s : State) : (updFw f s).loop = s.loop := rfl
@[simp] theorem updFw_filt (f : Fw → Fw) (s : State) : (updFw f s).filt = s.filt := rfl
@[simp] theorem updFw_ao (f : Fw → Fw) (s : State) : (updFw f s).ao = s.ao := rfl
@[simp] theorem updFw_bus (f : Fw → Fw) (s : State) : (updFw f s).bus = s.bus := rfl
@[simp] theorem updFw_link (f : Fw → Fw) (s : State) : (updFw f s).link = s.link := rfl
@[simp] theorem updFw_hif (f : Fw → Fw) (s : State) : (updFw f s).hif = s.hif := rfl
@[simp] theorem updFw_rcd (f : Fw → Fw) (s : State) : (updFw f s).rcd = s.rcd := rfl
@[simp] theorem updFw_arch (f : Fw → Fw) (s : State) : (updFw f s).arch = s.arch := rfl
@[simp] theorem updFw_memp (f : Fw → Fw) (s : State) : (updFw f s).memp = s.memp := rfl
@[simp] theorem updFw_tests (f : Fw → Fw) (s : State) : (updFw f s).tests = s.tests := rfl

/-! ## One element after an update -/

theorem portOf_updPort (ix m : Nat) (f : Port → Port) (s : State) :
    portOf (updPort ix f s) m = if ix = m ∧ ix < s.link.ports.length then f (portOf s ix) else portOf s m := upd_getD _ _ _ _ _

theorem gloveOf_updGlove (ix m : Nat) (f : Glove → Glove) (s : State) :
    gloveOf (updGlove ix f s) m = if ix = m ∧ ix < s.safe.glove.length then f (gloveOf s ix) else gloveOf s m := upd_getD _ _ _ _ _

theorem stallOf_updStall (ix m : Nat) (f : Stall → Stall) (s : State) :
    stallOf (updStall ix f s) m = if ix = m ∧ ix < s.sol.stalls.length then f (stallOf s ix) else stallOf s m := upd_getD _ _ _ _ _

theorem rtOf_updRt (ix m : Nat) (f : StreamRt → StreamRt) (s : State) :
    rtOf (updRt ix f s) m = if ix = m ∧ ix < s.fus.streams.length then f (rtOf s ix) else rtOf s m := upd_getD _ _ _ _ _

theorem ctxOf_updCtx (ix m : Nat) (f : Ctx → Ctx) (s : State) :
    ctxOf (updCtx ix f s) m = if ix = m ∧ ix < s.loop.ctx.length then f (ctxOf s ix) else ctxOf s m := upd_getD _ _ _ _ _

theorem filtOf_updFilt (ix m : Nat) (f : Filt → Filt) (s : State) :
    filtOf (updFilt ix f s) m = if ix = m ∧ ix < s.filt.length then f (filtOf s ix) else filtOf s m := upd_getD _ _ _ _ _

theorem aoOf_updAo (ix m : Nat) (f : Ao → Ao) (s : State) :
    aoOf (updAo ix f s) m = if ix = m ∧ ix < s.ao.length then f (aoOf s ix) else aoOf s m := upd_getD _ _ _ _ _

theorem canOf_updCan (ix m : Nat) (f : Can → Can) (s : State) :
    canOf (updCan ix f s) m = if ix = m ∧ ix < s.bus.can.length then f (canOf s ix) else canOf s m := upd_getD _ _ _ _ _

theorem uartOf_updUart (ix m : Nat) (f : Uart → Uart) (s : State) :
    uartOf (updUart ix f s) m = if ix = m ∧ ix < s.bus.uart.length then f (uartOf s ix) else uartOf s m := upd_getD _ _ _ _ _

theorem regionOf_updRegion (ix m : Nat) (f : Region → Region) (s : State) :
    regionOf (updRegion ix f s) m = if ix = m ∧ ix < s.memp.regions.length then f (regionOf s ix) else regionOf s m := upd_getD _ _ _ _ _

end Sys2Proof.Machine
end

