-- ==== Sys2Proof/Tests/Slice0.lean ====
section
/-! SUPPORT. The model's own tests: ill-formed terms that WellFormed refuses, worked examples of the spec, and for each obligation
a state and operands that meet its hypotheses. -/

namespace Sys2Proof.Tests
open Sys2Proof.Machine

set_option maxRecDepth 20000
set_option linter.unusedVariables false
set_option Elab.async false

/-! ## WellFormed refuses each ill-formed term -/

theorem test_wf_payload_too_long : (Instr.identify { path := .slot 0, payload := List.replicate 241 0 }).wf = false := by decide +kernel
theorem test_wf_dma_length : (Instr.boardRead { path := .slot 0, dma := some { reqLen := 2 }, payload := [1] }).wf = false := by decide
theorem test_wf_dma_over_udp : (Instr.boardRead { path := .udp 0 1 2, dma := some { reqLen := 1 }, payload := [1] }).wf = false := by decide
theorem test_wf_doorbell_bit31 : (Instr.hifDoorbell 0x80000000).wf = false := by decide
theorem test_wf_beyond_bar0 : (Instr.bar0OtherWrite 0xFFFF [1, 2]).wf = false := by decide
theorem test_wf_datagram_too_long : (Instr.udpMailboxDatagram 0 1 2 3 true (List.replicate 1473 0)).wf = false := by decide +kernel
theorem test_wf_dma_read_too_long : (Instr.dmaReadDone true (List.replicate 4194305 0)).wf = false := by
  simp only [Instr.wf, List.length_replicate]; decide
theorem test_wf_boot_image_too_long : (Instr.pcieBootPoll (some (List.replicate 3145729 0))).wf = false := by
  simp only [Instr.wf, List.length_replicate]; decide
theorem test_wf_relay_headerless : (Instr.mbxRelayFrame 0 0 false [1]).wf = false ∧ (Instr.relayAnswer 0 0 [1]).wf = false := by decide
theorem test_wf_no_such_status : (Instr.copyConfirm 0 16 0).wf = false ∧ (Instr.sourceDevConfirm 0 16 0).wf = false := by decide
theorem test_wf_contribution_body : (Instr.boardContribFrame 0 0 [{ epoch := 0, kind := 1, src := 0, body := 2 ^ 64 }]).wf = false := by decide
theorem test_wf_image_sections : (Instr.boardImageInstall { epoch := 0, secs := [⟨1, 8, 0⟩, ⟨1, 8, 0⟩] }).wf = false ∧
    (Instr.boardImageInstall { epoch := 0, secs := [⟨1, 1, 256⟩] }).wf = false ∧ (Instr.boardImageInstall { epoch := 0, publisher := 3 }).wf = false := by decide
theorem test_wf_thruster_number : (Instr.cmdFrame 0 0 [{ thr := 25 }]).wf = false ∧ (Instr.cmdFrame 0 0 [{ thr := 0 }]).wf = false := by decide
theorem test_wf_member : (Instr.memberPresent false false { device := 64 }).wf = false ∧ (Instr.joinFrame false false { device := 1, subtype := 7 }).wf = false ∧
    (Instr.joinAnswerFrame { device := 1, portStates := [1] } none).wf = false ∧ (Instr.leaveFrame { device := 1, status := 256 }).wf = false ∧
    (Instr.silentFrame { device := 1, neighbours := [] }).wf = false ∧ (Instr.recoveryFrame { device := 1, portStates := [8, 1, 1, 1] }).wf = false := by decide
theorem test_wf_sync_hops : (Instr.syncFrame false false { type := 2, hops := 63 } [] 0 0).wf = false ∧ (Instr.syncFrame false false { type := 5 } [] 0 0).wf = false := by decide
theorem test_wf_header : (Instr.linkFrameHeader 0 { type := 256 }).wf = false ∧ (Instr.linkFrameEnd 0 0 { hdr := { type := 1, ver := 16 } } .intact).wf = false := by decide
theorem test_wf_nak : (Instr.nakFrame 0 0 { code := 1, port := 4 }).wf = false := by decide
theorem test_wf_frame_payload : (Instr.dataFrame 0 0 0 (List.replicate 1009 0)).wf = false := by decide +kernel
theorem test_wf_can_frame : (Instr.canFrameRx 0 { id := 2048 } ⟨0, .ok⟩).wf = false ∧ (Instr.canFrameRx 0 { id := 1, dlc := 2, data := [1] } ⟨0, .ok⟩).wf = false := by decide
theorem test_wf_sentence_characters : (Instr.uartSentence 0 0 0 [0x1F] false 0).wf = false := by decide
theorem test_wf_code_word : (Instr.scrubRead 0 0 (2 ^ 80) .none_).wf = false ∧ (Instr.scrubRead 1 0 (2 ^ 144) .none_).wf = false := by decide
theorem test_wf_merge_count : (Instr.mergeBufferEvict 0 0 0 true .none_).wf = false := by decide
theorem test_wf_mount : (Instr.archiveMountDone { pageChunks := 0 }).wf = false ∧ (Instr.archiveMountDone { badBlocks := [3] }).wf = false := by decide
theorem test_wf_patrol : (Instr.archivePatrol 0 73 0 0).wf = false ∧ (Instr.archivePatrol 0 0 5 0).wf = false := by decide
theorem test_wf_accepts : (Instr.identify { path := .slot 0, tag := 0x41, target := 3, notify := true }).wf = true := by decide


/-! ## Small states -/

/-- An ACTIVE manager in RUN. -/
def wM : State :=
  { variant := .MA
    rst := { life := .run, step := 7, asserted := 0, straps := 0x140, held := [], pllLocked := true }
    safe := { causes := 0, firstCause := 0 }
    mem := { role := .active }
    cyc := { holds := true, epoch := 100, dpCycle := 20, dpFirst := 100 }
    brd := { active := 0 } }
/-- A STANDBY manager in RUN. -/
def wS : State := { wM with mem := { wM.mem with role := .standby }, rst := { wM.rst with straps := 0x141 } }
/-- A worker in RUN. -/
def wK : State := { wM with variant := .WK, rst := { wM.rst with straps := 0x105 }, mem := { wM.mem with role := .worker } }
/-- A manager in READY without a role. -/
def wR : State := { wM with rst := { wM.rst with life := .ready }, mem := {}, cyc := {}, brd := {} }
/-- A request in slot 0 with this payload. -/
def rq (p : List Byte) : Req := { path := .slot 0, payload := p }
/-- `l` filled with zeros to `n` bytes. -/
def zf (n : Nat) (l : List Byte) : List Byte := (l ++ List.replicate n 0).take n
/-- A manager with a UDP host at 10.0.0.2 from 10.0.0.9. -/
def wU : State := { wM with cfg := { hostEntries := [BitVec.ofNat 64 (0x0A000002 * 2 ^ 32 + 24 * 2 ^ 8 + 0x10), BitVec.ofNat 64 (0x0A000000 * 2 ^ 32 + 24 * 2 ^ 8 + 0x30)] } }

/-- An image of epoch 98. -/
def im : Image := { epoch := 98 }
/-- Port states changed. -/
def wP (p : Port) (s : State) : State := { s with link := { s.link with ports := List.replicate 4 p } }
/-- A port that is UP. -/
def pU : Port := { state := 3, nb := 7 }
/-- A frame of flow 20. -/
def fr : Frame := { hdr := { type := 5, src := 7, dst := 0, flow := 20, hops := 1, epoch16 := 100, len := 2 }, payload := [1, 2] }
/-- A flow of device 7 to every device. -/
def fl20 : BitVec 128 := BitVec.ofNat 128 (100 * 2 ^ 80 + 64 * 2 ^ 64 + 3 * 2 ^ 54 + 2 ^ 48 + 0xFF * 2 ^ 40 + 7 * 2 ^ 32 + 20)
/-- The channel word at reset with EN set. -/
def cw : Nat := chCfgReset.toNat + 1
/-- Every filter channel enabled. -/
def wF (c : Filt) : State := { wM with cfg := { filters := List.replicate 16 (BitVec.ofNat 64 cw) }, filt := List.replicate 16 c }
/-- CAN channels enabled, in this state. -/
def wC (c : Can) : State := { wM with cfg := { can := List.replicate 8 (canReset ||| 0x81) }, bus := { can := List.replicate 8 c } }
/-- A pending buffer. -/
def pb : CanBuf := { header := BitVec.ofNat 64 (5 * 2 ^ 8), status := 1 }
/-- UARTs enabled. -/
def wT (u : Uart) : State := { wM with cfg := { uarts := List.replicate 8 (uartReset ||| 0x100) }, bus := { uart := List.replicate 8 u } }
/-- Sensor-LAN groups and streams configured. -/
def wL : State := { wM with cfg := { lan450 := [BitVec.ofNat 128 (0xEFC00001 * 2 ^ 96 + 60001 * 2 ^ 80 + 0x100)] ++ List.replicate 15 0 } }
/-- Stream 3: heading from a UDP port. -/
def str3 : List Byte :=
  [3, 4, 0, 1, 0, 17, 0, 0x11, 0, 0, 0, 0, 0, 0, 0, 0, 0, 0, 1, 0, 0, 4, 0, 0, 25, 4, 0xD0, 7, 100, 0, 0, 0] ++
    [0x60, 0xEA, 0, 0, 0, 0, 0, 0] ++ zf 32 [0, 0x11, 0, 0, 0, 0, 1, 0]
/-- Stream 3 configured. -/
def wX : State := { wM with cfg := { streams := (List.replicate 48 []).set 3 str3 } }
/-- A SCALE context at 1 kHz from filter channel 0. -/
def lc5 : Nat := 2 ^ 320 + 2 ^ 288 + 1000 * 2 ^ 256 + 0xFF * 2 ^ 128 + 10 * 2 ^ 80 + 5 * 2 ^ 8
/-- Every loop context defined and standing so. -/
def wG (c : Ctx) : State := { wM with cfg := { loops := List.replicate 128 (some { desc := BitVec.ofNat 384 lc5, coefs := List.replicate 10 (0, 0) }) }, loop := { ctx := List.replicate 128 c } }
/-- Safety outputs energised, the glove test of each standing so. -/
def wO (g : Glove) : State := { wM with safe := { wM.safe with outs := 0xFFFF, sofb := 0xFFFF, glove := List.replicate 16 g }, time := { wM.time with ns := 60500000000 } }
/-- The same with output 1 in group 2. -/
def wO2 (g : Glove) : State := { wO g with cfg := { so := [0x41, 0x60] ++ List.replicate 14 0x42 } }
/-- An open UNLOCK window. -/
def wN : State := { wM with safe := { wM.safe with unlockOpen := true, unlockMs := 1000 } }
/-- A block entry of a description: type, flags and stages (Table 7.5). -/
def bk (ty fl a b : Nat) : List Byte := leBytes 16 (b * 2 ^ 24 + a * 2 ^ 16 + ty * 2 ^ 8 + fl)
/-- The smallest description of stall 0: one stage, six variables. -/
def sdHead : List Byte := leBytes 28 (5 * 2 ^ 192 + 17 * 2 ^ 96 + 6 * 2 ^ 64 + 2 ^ 48 + 2 ^ 32)
/-- Its tables and values. -/
def sdRest : List Byte := [6, 6, 0, 0] ++ bk 1 5 1 1 ++ bk 2 4 1 1 ++ bk 3 4 0 0 ++ bk 4 4 0 0 ++ bk 9 4 0 0 ++
  ([5, 6, 7, 8, 0x10, 0x11, 0x12, 0x13, 0x14, 0x15, 0x16, 0x17].map fun t => bk t 4 1 1).flatten ++ List.replicate 68 0
/-- The description with its CRC. -/
def sd : List Byte := sdHead ++ leBytes 4 (crc32 (sdHead ++ [0, 0, 0, 0] ++ sdRest)) ++ sdRest
/-- A stall with this description, OPERATIONAL. -/
def st3 : Stall := { state := 3, desc := sd, mainDesc := sd, sig := 9, hasSol := true }
/-- Stalls standing so. -/
def wZ (x : Stall) : State := { wM with sol := { wM.sol with stalls := List.replicate 32 x } }
/-- The archive standing so. -/
def wA (a : Arch) : State := { wM with arch := a }
/-- A chunk that holds data of kind 2. -/
def ck : List Byte := zf 12 [9] ++ [2, 0, 0, 0]
/-- An image in which device 0 is ACTIVE and device 5 a worker. -/
def im7 : Image := { epoch := 98, publisher := 0, secs := [{ code := 7, bytes := 1040, val := 4 * 2 ^ 776 + 2 ^ 136 }] }
/-- A tunnel thruster T1 of device 5. -/
def thr1 : List Byte := leBytes 32 (2 * 2 ^ 204 + 100 * 2 ^ 128 + 100 * 2 ^ 112 + 2 ^ 24 + 5 * 2 ^ 16 + 2 ^ 8 + 1) ++
  leBytes 4 (2 ^ 32 - 100) ++ leBytes 4 10 ++ leBytes 8 0 ++ leBytes 4 100 ++ leBytes 4 10
/-- A power definition of one section. -/
def pow1 : List Byte := [0, 1, 0, 0] ++ zf 24 ([1, 5, 0, 0xFF, 0, 0, 0, 0] ++ leBytes 4 1000 ++ [0, 0, 0, 0, 0xFF, 0x7F, 0xFF])
/-- Device 1 is a STANDBY manager beside the ACTIVE manager 0. -/
def wJ : State := { wM with brd := { wM.brd with devices := [{ role := 1 }, { role := 2 }] ++ List.replicate 62 {} } }
/-- A copy job for manager 1. -/
def jb (c : Nat) (p : List Byte) : Job := { code := c, req := rq p, wait := [1], sig := 7 }
/-- Thruster records standing so. -/
def wE (r : ThrRec) : State := { wM with brd := { wM.brd with thr := List.replicate 24 r } }
/-- Power records standing so. -/
def wW (r : PowRec) : State := { wM with brd := { wM.brd with pow := List.replicate 6 r } }
/-- SAFE_CONFIG's payload of the reset configuration. -/
def sc0 : List Byte := leBytes 8 (1000 * 2 ^ 48 + 250 * 2 ^ 32) ++ [0x41, 0, 0x42, 0] ++ (List.replicate 14 [0x40, 0]).flatten ++ (List.replicate 8 [0x10, 5]).flatten
/-- The sub-records of a worker's safety image. -/
def si0 : List Byte := [1, 9, 56, 0] ++ sc0
/-- A resetting device, by asserted sources and step. -/
def wQ (a : BitVec 8) (st : Nat) : State := { State.reset with rst := { State.reset.rst with asserted := a, step := st, pllLocked := true } }
/-- A loading device at a step. -/
def wB (st : Nat) : State := { wQ 0 st with rst := { (wQ 0 st).rst with life := .loading, shadow := some {} } }
/-- A boot descriptor in slot 0 of an image of 8 bytes. -/
def bd : List Byte := leBytes 8 0x10000 ++ leBytes 4 8 ++ [7, 0xB0]
/-- Memory regions scrubbed up to word 7. -/
def wH (g : Region) : State := { wM with memp := { regions := List.replicate 9 g } }

/-- An open incident capture that ends at epoch 98. -/
def cap1 : Capture := { number := 1, code := 0x0910, subject := 1, sev := 4, trigger := 90, firstTrigger := 90, start := 80, end_ := 98, tail := [1, 2] }
/-- The request of chapter 14's worked example: PENDING, notify, TAG 0x0041, target D3, IDENTIFY, no payload. -/
def idq : List Byte := [1, 1, 0x41, 0, 3, 1, 0, 0, 0, 0, 0, 0, 0, 0]

/-! ## Worked examples of the spec -/

/-- Chapter 8, worked example: 900 kN through SCALE, plain and gated with FLR_FACTOR 0x4CCD. -/
theorem test_scale_gated :
    (runLaw { desc := BitVec.ofNat 384 lc5 } { coefs := [(0x40000000, 30), (0x4CCD0000, 31)] } (9000, false)).v = 9000 ∧
    (runLaw { desc := BitVec.ofNat 384 lc5 } { gated := true, coefs := [(0x40000000, 30), (0x4CCD0000, 31)] } (9000, false)).v = 5400 := by
  decide +kernel
/-- Chapter 3, worked example: the stamp 750,000 seen at TAI 1,803,886,268,614,000,000 lies 1,717,296 ns later. -/
theorem test_stamp_extension :
    extendStamp { wM with time := { wM.time with ns := 1803886268614000000 } } 750000 = 1803886268615717296 := by decide +kernel
/-- Table 9.8 t2: GLOVE as the first cause reads HIF_SAFE_STAT 0x0301_0004, and READBACK with it 0x0301_000C. -/
theorem test_glove_failure :
    (match exec (.gloveOffWindowEnd 1 ⟨true, false⟩) (wO { phase := 1, pulseUs := 250 }) with
     | .next t => (t.safeStat, t.safe.outs, match exec (.staticReadbackMismatch 1 false) t with | .next u => u.safeStat | _ => (0 : Word))
     | _ => ((0 : Word), (1 : BitVec 16), (0 : Word))) = ((0x03010004 : Word), (0 : BitVec 16), (0x0301000C : Word)) := by decide +kernel
/-- Table 9.8 t5: a press of 40 ms clears nothing; of 0.6 s it clears the cause. -/
theorem test_press_too_short :
    ([40, 600].map fun ms => match exec (.safeResetNRise ms) { wM with safe := { wM.safe with causes := 4, firstCause := 3, atFall := 4, pinLow := true } } with
     | .next t => t.safeStat | _ => 1) = [0x03010004, 0] := by decide +kernel
/-- Chapter 14, worked example: IDENTIFY for D3 in slot 0 is relayed, BUSY bit 0 set, TAG 0x0041 kept. -/
theorem test_relayed_identify :
    (match exec (.hifDoorbell 1) { wP { state := 3, nb := 3 } wM with
        mem := { wM.mem with heard := (List.replicate 64 none).set 3 (some { device := 3, portStates := [3, 3, 3, 3], neighbours := [0, 0, 0, 0] }) }
        cfg := { table := [(0, 1, 1), (3, 4, 3)] }, brd := { wM.brd with devices := [{ role := 1 }, {}, {}, { role := 4 }] ++ List.replicate 60 {} }
        hif := { ram := Memory.writeAll [] 0x2000 (idq ++ leBytes 2 (crc16 idq)) } } with
     | .next t => (t.hif.busy, t.hif.relays.map fun x => (x.target, x.code, x.req.tag.toNat, x.req.notify))
     | _ => (0, [])) = (1, [(3, 0x0101, 0x0041, true)]) := by decide +kernel
/-- R391's CRCs over their standard check string. -/
theorem test_crc_check_values :
    crc16 [0x31, 0x32, 0x33, 0x34, 0x35, 0x36, 0x37, 0x38, 0x39] = 0x29B1 ∧
    crc32 [0x31, 0x32, 0x33, 0x34, 0x35, 0x36, 0x37, 0x38, 0x39] = 0xCBF43926 := by decide +kernel
/-- Table 10.1: two of three managers alike are the majority, the third the minority. -/
theorem test_majority :
    (select 0 [0, 1, 2] fun n => some { thr := 1, mode := if n = 2 then 3 else 4 }) =
      { outcome := 1, cls := [0, 1], minority := [2], present := [0, 1, 2] } := by decide +kernel
/-- R506: data bit 8i + j fails row i and column j; two bits of one row cannot be corrected. -/
theorem test_parity_positions :
    parityDecode (2 ^ 79) = .fixed 79 ∧ parityDecode (2 ^ 9) = .fixed 9 ∧ parityDecode 0 = .clean ∧ parityDecode 3 = .bad 768 := by decide +kernel
/-- R84: the reset device answers nothing; the tick of a device in reset changes no epoch. -/
theorem test_reset_silent : (match exec (.hifDoorbell 1) State.reset with | .next t => t.hif.execNow | _ => some (0, rq [])) = none := by
  decide +kernel
/-- Idle from reset: nothing waits and nothing is taken. -/
theorem test_idle : step State.reset = .next State.reset := rfl
/-- Chapter 12, worked example: the header of the CMD frame of D0 on network A, byte for byte. -/
theorem test_cmd_header :
    headBytes { type := 3, src := 0, dst := 0xFF, flow := 2, epoch16 := 0x4245, seq := 0x1A2B, len := 144, prio := 3 } =
      [0x03, 0x31, 0x00, 0xFF, 0x02, 0x00, 0x45, 0x42, 0x2B, 0x1A, 0x90, 0x00, 0x18, 0x00] := by decide +kernel
/-- Chapter 5, worked example: at heading 30° GNSS 1's antenna lies 12.925 m south and 2.613 m west of the reference point. -/
theorem test_lever_arm :
    (mVec (attitude (piQ / 6) 0 0) [-25 / 2, 21 / 5, -48]).map (fun x => nearest (1000 * x)) = [-12925, -2613, -48000] := by decide +kernel
/-- Chapter 5, worked example: north of the combined measurement 0.326 m, its sigma 0.228 m. -/
theorem test_combined_measurement :
    (let w := weighted [(2 / 5, 49 / 100), (3 / 5, 49 / 100), (1 / 5, 9 / 100), (1 / 2, 1 / 4)]
     (nearest (1000 * w.1), nearest (1000 * sqrtQ w.2))) = (326, 228) := by decide +kernel

/-! ## Lemmas about hypotheses -/

/-- Takes as a check. -/
def takesB (code : Nat) (r : Req) (pay : List Byte) (s : State) : Bool :=
  !mailboxDown s && (decide (s.rst.life ≠ .cloakroom) || cloakServed code) && (isCopy code r s || decide (roleRefusal code s = none)) &&
  match r.dma with | none => true | some d => decide (pay.length ≤ d.rspMax)
theorem takes_of {code : Nat} {r : Req} {pay : List Byte} {s : State} (h : takesB code r pay s = true) : Takes code r pay s := by
  simp only [takesB, Bool.and_eq_true, Bool.or_eq_true, Bool.not_eq_true', decide_eq_true_eq] at h
  obtain ⟨⟨⟨h1, h2⟩, h3⟩, h4⟩ := h
  refine ⟨h1, fun hl => h2.resolve_left (fun h => h hl), h3, fun d hd => ?_⟩
  rw [hd] at h4
  simpa using h4
theorem all_false {α : Type} {p : α → Bool} {l : List α} (h : l.all (fun x => !p x) = true) : ∀ x ∈ l, p x = false := by
  simpa using h
theorem below {n : Nat} {P : Nat → Prop} (h : ∀ j ∈ List.range n, P j) : ∀ i < n, P i := fun i hi => h i (List.mem_range.mpr hi)
theorem two_of {a b : Nat} {P : Nat → Prop} (h : P a ∧ P b) : ∀ x ∈ [a, b], P x := by simpa using h

/-! ## Witnesses: each obligation's hypotheses are met -/

/-- A state and operands that meet the hypotheses of each clause of StepRunsFront. -/
theorem witness_StepRunsFront :
    (∃ s : State, s.pending = [] ∧ s.hif.execNow = none) ∧
    (∃ (s : State) (code : Nat) (r : Req) (i : Instr), s.pending = [] ∧ s.hif.execNow = some (code, r) ∧ instrOf code r = some i) :=
  ⟨⟨wM, by decide +kernel⟩,
    ⟨{ wM with hif := { wM.hif with execNow := some (0x0101, rq []) } }, 0x0101, rq [], .identify (rq []), rfl, rfl, rfl⟩⟩

/-- A state and operands that meet the hypotheses of each clause of StepKeepsSound. -/
theorem witness_StepKeepsSound :
    ∃ s t : State, Sound s ∧ step s = .next t :=
  ⟨wM, wM, ⟨(by decide +kernel : Memory.wf wM.hif.ram = true), fun h => absurd rfl h⟩, rfl⟩

/-- A state and operands that meet the hypotheses of each clause of ExecLeavesQueue. -/
theorem witness_ExecLeavesQueue :
    ∃ (i : Instr) (s t : State), exec i s = .next t :=
  ⟨.ppsInMissing, wM, _, rfl⟩

/-- A state and operands that meet the hypotheses of each clause of UnitPresence. -/
theorem witness_UnitPresence :
    ∃ (i : Instr) (s t : State), exec i s = .next t :=
  ⟨.ppsInMissing, wM, _, rfl⟩

/-- A state and operands that meet the hypotheses of each clause of CausesStayLatched. -/
theorem witness_CausesStayLatched :
    ∃ (i : Instr) (s t : State) (n : Nat), (∀ ms, i ≠ .safeResetNRise ms) ∧ i ≠ .powerOnReset ∧ i ≠ .brownOut ∧ exec i s = .next t ∧ s.safe.causes.getLsbD n = true :=
  ⟨.ppsInMissing, State.reset, _, 0, nofun, nofun, nofun, rfl, by decide⟩

/-- A state and operands that meet the hypotheses of each clause of StrapsAndBootChangeAtRelease. -/
theorem witness_StrapsAndBootChangeAtRelease :
    ∃ (i : Instr) (s t : State), (∀ p o, i ≠ .resetRelease p o) ∧ exec i s = .next t :=
  ⟨.ppsInMissing, wM, _, nofun, rfl⟩

/-- A state and operands that meet the hypotheses of each clause of SlotMemory. -/
theorem witness_SlotMemory :
    (∃ m : List Host.Cell, m ≠ [] ∧ Memory.wf m = true) ∧
    (∃ m n : List Host.Cell, Memory.wf m = true ∧ Memory.wf n = true ∧ ∀ a, Memory.read m a = Memory.read n a) :=
  ⟨⟨[(8192, 7), (8193, 9)], by decide +kernel⟩,
    ⟨[(8192, 7)], [(8192, 7)], by decide +kernel, by decide +kernel, fun _ => rfl⟩⟩

/-- A state and operands that meet the hypotheses of each clause of EventRecorded. -/
theorem witness_EventRecorded :
    ∃ (code : Nat) (s : State), s.supRuns = true ∧ (bucketOf s (BitVec.ofNat 16 code)).tokens > 0 ∧ (bucketOf s (BitVec.ofNat 16 code)).pending = 0 ∧ codeUnits (BitVec.ofNat 16 code) s = [] :=
  ⟨0x0910, { wM with rcd := { wM.rcd with buckets := [{ code := 0x0910, tokens := 3, sev := 4 }] } }, by decide +kernel⟩

/-- A state and operands that meet the hypotheses of each clause of SlotAnswer. -/
theorem witness_SlotAnswer :
    ∃ (n : Fin 31) (r : Req) (pay : List Byte) (s : State), r.path = .slot n ∧ r.dma = none ∧ pay.length ≤ 240 ∧ Memory.wf s.hif.ram = true :=
  ⟨30, { path := .slot 30 }, List.replicate 240 1, wM, by decide +kernel⟩

/-- A state and operands that meet the hypotheses of each clause of MailboxRefusals. -/
theorem witness_MailboxRefusals :
    (∃ (s : State), ((s.rst.life = .reset ∨ s.rst.life = .loading))) ∧
    (∃ (s : State), s.rst.life = .cloakroom) ∧
    (∃ (r : Req) (s : State), s.rst.life = .run ∧ s.isManager = true ∧ s.mem.role = .standby ∧ isCopy 0x1001 r s = false) ∧
    (∃ (s : State), s.rst.life = .run ∧ s.isManager = false) ∧
    (∃ (r : Req) (s : State), s.rst.life = .run ∧ r.payload.length ≠ 4) :=
  ⟨⟨State.reset, by decide +kernel⟩,
    ⟨{ wM with rst := { wM.rst with life := .cloakroom } }, by decide +kernel⟩,
    ⟨rq [], wS, by decide +kernel⟩,
    ⟨wK, by decide +kernel⟩,
    ⟨rq [], wM, by decide +kernel⟩⟩

/-- A state and operands that meet the hypotheses of each clause of DirectRegisters. -/
theorem witness_DirectRegisters :
    (∃ (s : State), s.variant ≠ .WK) ∧
    (∃ (s : State), s.variant ≠ .WK) ∧
    (∃ (s : State), s.variant ≠ .WK) ∧
    (∃ (s : State), s.variant ≠ .WK) ∧
    (∃ (off : Nat) (bytes : List Byte) (s : State), s.variant ≠ .WK ∧ bytes.length ∈ [1, 2, 4, 8] ∧ off % bytes.length = 0 ∧ ((0x2000 ≤ off ∧ off + bytes.length ≤ 0x4000 ∨ 0x1000 ≤ off ∧ off + bytes.length ≤ 0x1080))) ∧
    (∃ (off : Nat) (bytes : List Byte) (s : State), s.variant ≠ .WK ∧ bytes.length ∈ [1, 2, 4, 8] ∧ off % bytes.length = 0 ∧ ((0x2000 ≤ off ∧ off + bytes.length ≤ 0x4000 ∨ 0x1000 ≤ off ∧ off + bytes.length ≤ 0x1080)) ∧ Memory.wf s.hif.ram = true) ∧
    (∃ (s : State), s.variant ≠ .WK) :=
  ⟨⟨wM, by decide +kernel⟩,
    ⟨wM, by decide +kernel⟩,
    ⟨wM, by decide +kernel⟩,
    ⟨wM, by decide +kernel⟩,
    ⟨0x2010, [1, 2, 3, 4], wM, by decide +kernel⟩,
    ⟨0x3FF8, [1, 2, 3, 4, 5, 6, 7, 8], wM, by decide +kernel⟩,
    ⟨wM, by decide +kernel⟩⟩

/-- A state and operands that meet the hypotheses of each clause of RingOfOccupiedSlot. -/
theorem witness_RingOfOccupiedSlot :
    (∃ (n : Fin 31) (s : State), s.variant ≠ .WK ∧ mailboxDown s = false ∧ (.slot n, []) ∈ s.hif.waiting) ∧
    (∃ (n : Fin 31) (s : State), s.variant ≠ .WK ∧ mailboxDown s = false ∧ (∀ w ∈ s.hif.waiting, w.1 ≠ .slot n) ∧ ((s.hif.busy.getLsbD n = true ∨ s.hif.done.getLsbD n = true))) :=
  ⟨⟨1, { wM with hif := { wM.hif with waiting := [(.slot 1, [])] } }, by decide +kernel⟩,
    ⟨1, { wM with hif := { wM.hif with busy := 2 } }, by decide +kernel⟩⟩

/-- A state and operands that meet the hypotheses of each clause of RequestTaken. -/
theorem witness_RequestTaken :
    ∃ (n : Fin 31) (s : State), let b := Memory.readAll s.hif.ram (slotAddr n) 256; s.variant ≠ .WK ∧ mailboxDown s = false ∧ s.rst.life ≠ .cloakroom ∧ s.hif.waiting = [] ∧ s.hif.execNow = none ∧ s.hif.dmaWait = none ∧ s.hif.busy.getLsbD n = false ∧ s.hif.done.getLsbD n = false ∧ crc16 (b.take 14) = u16 b 14 ∧ u16 b 6 ≤ 240 ∧ bit (u8 b 5) 1 = false ∧ (served (u16 b 0)).isSome = true ∧ u8 b 4 = 0xFF :=
  ⟨1, { wM with hif := { wM.hif with ram := Memory.writeAll [] (slotAddr 1) ([1, 1, 7, 0, 0xFF, 1, 0, 0, 0, 0, 0, 0, 0, 0] ++ leBytes 2 (crc16 [1, 1, 7, 0, 0xFF, 1, 0, 0, 0, 0, 0, 0, 0, 0])) } }, by decide +kernel⟩

/-- A state and operands that meet the hypotheses of each clause of OtherMailboxPaths. -/
theorem witness_OtherMailboxPaths :
    (∃ (mac : Fin 2) (dst : Word) (src : Word) (port : BitVec 16) (b : List Byte) (s : State), mailboxDown s = false ∧ udpRejected s mac dst src true b = false ∧ udpBusy s < 16 ∧ (∀ h ∈ s.hif.udp, ¬ (h.src = src ∧ h.port = port ∧ h.tag = BitVec.ofNat 16 (u16 b 2)))) ∧
    (∃ (code : Nat) (r : Req) (s : State), s.hif.dmaWait = some (code, r) ∧ r.target = 0xFF) ∧
    (∃ (code : Nat) (r : Req) (s : State), s.hif.dmaWait = some (code, r)) ∧
    (∃ (code : Nat) (r : Req) (s : State), s.hif.dmaWait = some (code, r)) ∧
    (∃ (src : Fin 64) (s : State), mailboxDown s = false ∧ relaySource s = some src.val) ∧
    (∃ (x : Relay) (src : Fin 64) (s : State), s.hif.relays = [x] ∧ x.target = src ∧ x.req.dma = none) ∧
    (∃ (x : Relay) (s : State), s.hif.relays = [x] ∧ x.repeats < 2) ∧
    (∃ (x : Relay) (s : State), s.hif.relays = [x] ∧ 2 ≤ x.repeats ∧ x.req.dma = none) :=
  ⟨⟨0, 0x0A000002, 0x0A000009, 5000, [1, 1, 7, 0, 0xFF, 0, 0, 0, 0, 0, 0, 0, 0, 0, 0, 0], wU, by decide +kernel⟩,
    ⟨0x0101, { rq [] with dma := some { reqLen := 2, rspMax := 100 } }, { wM with hif := { wM.hif with dmaWait := some (0x0101, { rq [] with dma := some { reqLen := 2, rspMax := 100 } }) } }, by decide +kernel⟩,
    ⟨0x0101, rq [], { wM with hif := { wM.hif with dmaWait := some (0x0101, rq []) } }, by decide +kernel⟩,
    ⟨0x0101, rq [], { wM with hif := { wM.hif with dmaWait := some (0x0101, rq []) } }, by decide +kernel⟩,
    ⟨0, { wK with brd := { wK.brd with images := [im] } }, by decide +kernel⟩,
    ⟨{ code := 0x0101, req := rq [], target := 5, seq := 9 }, 5, { wM with hif := { wM.hif with relays := [{ code := 0x0101, req := rq [], target := 5, seq := 9 }] } }, by decide +kernel⟩,
    ⟨{ code := 0x0101, req := rq [], target := 5, seq := 9 }, { wM with hif := { wM.hif with relays := [{ code := 0x0101, req := rq [], target := 5, seq := 9 }] } }, by decide +kernel⟩,
    ⟨{ code := 0x0101, req := rq [], target := 5, seq := 9, repeats := 2 }, { wM with hif := { wM.hif with relays := [{ code := 0x0101, req := rq [], target := 5, seq := 9, repeats := 2 }] } }, by decide +kernel⟩⟩

/-- A state and operands that meet the hypotheses of each clause of EndpointNotificationWatchdog. -/
theorem witness_EndpointNotificationWatchdog :
    (∃ (s : State), s.variant ≠ .WK) ∧
    (∃ (no num : Nat) (x : EvRec) (rest : List (Nat × EvRec × Nat)) (s : State), s.variant ≠ .WK ∧ mailboxDown s = false ∧ s.hif.done.getLsbD 31 = false ∧ s.hif.noteBusy = false ∧ s.hif.notes = (no, x, num) :: rest ∧ noteDests s = []) ∧
    (∃ (path : Watch) (w : WatchSt) (s : State), s.hif.watches = [w] ∧ w.path = path ∧ w.timeout ≠ 0 ∧ w.lost = false) :=
  ⟨⟨{ wM with hif := { wM.hif with busy := 3, irqEn := 2 } }, by decide +kernel⟩,
    ⟨1, 7, { code := 0x0910, sev := 4 }, [], { wM with hif := { wM.hif with notes := [(1, { code := 0x0910, sev := 4 }, 7)] } }, by decide +kernel⟩,
    ⟨.pcie, { path := .pcie, timeout := 100 }, { wM with hif := { wM.hif with watches := [{ path := .pcie, timeout := 100 }] } }, by decide +kernel⟩⟩

/-- A state and operands that meet the hypotheses of each clause of HostCommands. -/
theorem witness_HostCommands :
    (∃ (r : Req) (pay : List Byte) (s : State), Takes 0x0101 r pay s ∧ r.payload = []) ∧
    (∃ (r : Req) (mac : Fin 2) (src : Word) (port : BitVec 16) (s : State), Takes 0x0102 r [] s ∧ r.path = .udp mac src port ∧ r.payload.length = 4 ∧ s.hif.watches = []) ∧
    (∃ (r : Req) (s : State), let n := bits (u8 r.payload 0) 0 5; let es := (List.range n).map (hostEntry r.payload); Takes 0x0103 r [] s ∧ (∀ e ∈ es, hostEntryBad e = false) ∧ s.variant ≠ .WK ∧ n ≤ 16 ∧ r.payload.length = 8 + 8 * n ∧ u8 r.payload 1 ≤ 5 ∧ (es.filter fun e => fld e 4 4 = 1).length ≤ 1 ∧ (es.filter fun e => fld e 4 4 = 2).length ≤ 1) ∧
    (∃ (r : Req) (s : State), Takes 0x0104 r (s.hif.counts.flatMap (leBytes 4)) s ∧ r.payload.length = 1) :=
  ⟨⟨rq [], [1], wM, takes_of (by decide +kernel), rfl⟩,
    ⟨{ path := .udp 0 5 6, payload := [3, 0, 100, 0] }, 0, 5, 6, wM, takes_of (by decide +kernel), by decide +kernel⟩,
    ⟨rq ([1, 4, 0, 0, 0, 0, 0, 0] ++ leBytes 8 (0x0A000002 * 2 ^ 32 + 24 * 2 ^ 8 + 0x10)), wM, takes_of (by decide +kernel), all_false (by decide +kernel), by decide +kernel⟩,
    ⟨rq [1], { wM with hif := { wM.hif with counts := List.replicate 13 2 } }, takes_of (by decide +kernel), by decide +kernel⟩⟩

/-- A state and operands that meet the hypotheses of each clause of FramesAndChecks. -/
theorem witness_FramesAndChecks :
    (∃ h : Hdr, h.hops ≠ 0) ∧
    (∃ (port : Fin 4) (h : Hdr) (s : State), s.link.ports.length = 4 ∧ (portOf s port).state = 3 ∧ violation s port h = none) ∧
    (∃ (port : Fin 4) (s : State), s.link.ports.length = 4 ∧ (portOf s port).state = 3 ∧ (portOf s port).missing = [] ∧ (portOf s port).unacked = 0 ∧ (portOf s port).cut = none) ∧
    (∃ (port : Fin 4) (s : State), s.link.ports.length = 4 ∧ (portOf s port).state = 3 ∧ (portOf s port).missing = [] ∧ (portOf s port).cut = none) ∧
    (∃ (port : Fin 4) (s : State), (portOf s port).state = 5) ∧
    (∃ (port : Fin 4) (s : State), portTalks s port = true) ∧
    (∃ (src : Fin 64) (flow : BitVec 8) (d : BitVec 128) (s : State), look s.cfg.flows flow.toNat = some d ∧ flowBound s flow.toNat = true ∧ fld d 32 8 = src ∧ forMe s (fld d 40 8) = true ∧ (∀ w ∈ s.link.windows, ¬ (w.src = src ∧ w.flow = flow.toNat))) ∧
    (∃ (src : Fin 64) (flow : BitVec 8) (seq : BitVec 16) (d : BitVec 128) (w : Window) (s : State), look s.cfg.flows flow.toNat = some d ∧ flowBound s flow.toNat = true ∧ fld d 32 8 = src ∧ forMe s (fld d 40 8) = true ∧ s.link.windows = [w] ∧ w.src = src ∧ w.flow = flow.toNat ∧ (seq - w.newest).toInt ≤ 0) ∧
    (∃ (dev : Fin 64) (s : State), s.mem.heard.length = 64 ∧ (s.mem.heard.getD dev none).isSome = true ∧ 3 ≤ s.mem.quietA.getD dev 0 ∧ 3 ≤ s.mem.quietB.getD dev 0) :=
  ⟨⟨{ type := 5, hops := 1 }, by decide⟩,
    ⟨1, fr.hdr, wP pU wM, by decide +kernel⟩,
    ⟨1, wP pU wM, by decide +kernel⟩,
    ⟨1, wP pU wM, by decide +kernel⟩,
    ⟨1, wP { pU with state := 5 } wM, by decide +kernel⟩,
    ⟨1, wP pU wM, by decide +kernel⟩,
    ⟨7, 20, fl20, { wM with cfg := { flows := [(20, fl20)] }, brd := { wM.brd with devices := List.replicate 64 { role := 4 } } }, by decide +kernel⟩,
    ⟨7, 20, 4, fl20, { src := 7, flow := 20, newest := 5 }, { wM with cfg := { flows := [(20, fl20)] }, brd := { wM.brd with devices := List.replicate 64 { role := 4 } }, link := { wM.link with windows := [{ src := 7, flow := 20, newest := 5 }] } }, by decide +kernel⟩,
    ⟨7, { wM with mem := { wM.mem with heard := (List.replicate 64 none).set 7 (some { device := 7 }) } }, by decide +kernel⟩⟩

/-- A state and operands that meet the hypotheses of each clause of PortsAndHops. -/
theorem witness_PortsAndHops :
    (∃ (s : State), linkRuns s = true) ∧
    (∃ (port : Fin 4) (s : State), linkRuns s = true ∧ s.link.ports.length = 4 ∧ ((portOf s port).state = 1 ∨ (portOf s port).state = 2) ∧ (portOf s port).hellos ≥ 15) ∧
    (∃ (port : Fin 4) (s : State), linkRuns s = true ∧ s.link.ports.length = 4 ∧ ((portOf s port).state = 1 ∨ (portOf s port).state = 2)) ∧
    (∃ (port : Fin 4) (s : State), linkRuns s = true ∧ s.link.ports.length = 4 ∧ (portOf s port).state = 3) ∧
    (∃ (port : Fin 4) (hseq : BitVec 8) (s : State), s.link.ports.length = 4 ∧ (portOf s port).queue = [] ∧ (∃ h ∈ (portOf s port).held, h.hseq = hseq)) ∧
    (∃ (port : Fin 4) (s : State), (portOf s port).unacked ≠ 0 ∧ portTalks s port = true) ∧
    (∃ (port : Fin 4) (h : HeldFrame) (s : State), (portOf s port).held = [h] ∧ portTalks s port = true ∧ h.whole = true ∧ h.resent < 3) ∧
    (∃ (port : Fin 4) (h : HeldFrame) (s : State), s.link.ports.length = 4 ∧ (portOf s port).state = 3 ∧ (portOf s port).held = [h] ∧ h.whole = true ∧ 3 ≤ h.resent) ∧
    (∃ (port : Fin 4) (s : State), (portOf s port).state = 4 ∧ (portOf s port).degradedErr = false) :=
  ⟨⟨wP pU wM, by decide +kernel⟩,
    ⟨2, wP { state := 2, hellos := 15 } wM, by decide +kernel⟩,
    ⟨2, wP { state := 2, hellos := 15 } wM, by decide +kernel⟩,
    ⟨1, wP { pU with queue := [{ f := fr }] } wM, by decide +kernel⟩,
    ⟨1, 2, wP { pU with held := [{ hseq := 1, f := fr }, { hseq := 2, f := fr }, { hseq := 3, f := fr }] } wM, by decide +kernel⟩,
    ⟨1, wP { pU with unacked := 2, rxNext := 3 } wM, by decide +kernel⟩,
    ⟨1, { hseq := 1, f := fr }, wP { pU with held := [{ hseq := 1, f := fr }] } wM, by decide +kernel⟩,
    ⟨1, { hseq := 1, f := fr, resent := 3 }, wP { pU with held := [{ hseq := 1, f := fr, resent := 3 }] } wM, by decide +kernel⟩,
    ⟨1, wP { pU with state := 4 } wM, by decide +kernel⟩⟩

/-- A state and operands that meet the hypotheses of each clause of LinkCommands. -/
theorem witness_LinkCommands :
    (∃ (r : Req) (s : State), let d : BitVec 128 := BitVec.ofNat 128 (ule r.payload 0 16); Takes 0x0B01 r [] s ∧ r.payload.length = 16 ∧ 16 ≤ fld d 0 8 ∧ inTable s (fld d 32 8) = true ∧ 0xFE ≤ fld d 40 8 ∧ fld d 54 2 ≠ 0 ∧ 1 ≤ fld d 64 16 ∧ fld d 64 16 ≤ 1008 ∧ 1 ≤ fld d 80 16 ∧ fld d 80 16 ≤ 10000 ∧ s.cfg.flows = [] ∧ s.link.flowsNew = [] ∧ flowBudget d ≤ flowRoom s ∧ flowUsed s (fld d 0 8) = false) ∧
    (∃ (r : Req) (s : State), Takes 0x0B02 r (linkSummary s) s ∧ r.dma = none ∧ r.payload.length = 4 ∧ u8 r.payload 0 = 0) ∧
    (∃ (r : Req) (s : State), let ix := u8 r.payload 0; let u := setPort ix 1 s; Takes 0x0B03 r (leBytes 1 (portOf u ix).state) s ∧ r.payload.length = 2 ∧ ix < 4 ∧ u8 r.payload 1 = 1 ∧ (portOf s ix).state = 0) ∧
    (∃ (ix : Nat) (s : State), s.link.ports.length = 4 ∧ ix < 4) :=
  ⟨⟨rq (leBytes 16 fl20.toNat), { wM with cfg := { table := [(7, 4, 3)] } }, takes_of (by decide +kernel), by decide +kernel⟩,
    ⟨rq [0, 1, 0, 0], wM, takes_of (by decide +kernel), by decide +kernel⟩,
    ⟨rq [1, 1], wP { state := 0 } wM, takes_of (by decide +kernel), by decide +kernel⟩,
    ⟨1, wM, by decide +kernel⟩⟩

/-- A state and operands that meet the hypotheses of each clause of TimeInputs. -/
theorem witness_TimeInputs :
    (∃ (c : Nat) (s : State), s.isActive = true ∧ s.time.source ≠ 0 ∧ (s.cfg.sources.filter fun c => c ≠ s.time.source && c ≠ 0 && c ≠ 0xFF).find? (sourceUsable s) = some c) ∧
    (∃ (s : State), s.isActive = true ∧ s.time.source ≠ 0 ∧ s.time.state = 1 ∧ (∀ c ∈ s.cfg.sources, sourceUsable s c = false)) ∧
    (∃ (mac : Fin 2) (m : PtpMsg) (s : State), macFld s mac 0 8 ≠ 0 ∧ ((mac = 0 ∨ s.variant ≠ .WK)) ∧ m.supported = false) ∧
    (∃ (mac : Fin 2) (m : PtpMsg) (s : State), macFld s mac 0 8 ≠ 0 ∧ ((mac = 0 ∨ s.variant ≠ .WK)) ∧ m.supported = true ∧ m.kind = 0 ∧ m.domain = macFld s mac 32 8 ∧ m.transport = macFld s mac 16 8 ∧ m.offset = none) ∧
    (∃ (mac : Fin 2) (fast : Bool) (kind : Fin 16) (oneStep : Bool) (raw : Nat) (s : State), let st := raw - 8 + macFld s mac (if fast then 112 else 80) 16; let ins := oneStep && macFld s mac 24 8 = 1 && (kind.val = 0 || (kind.val = 3 && macFld s mac 8 8 = 1)); ((mac = 0 ∨ s.variant ≠ .WK)) ∧ kind.val ≤ 3) ∧
    (∃ (stamp : Nat) (s : State), s.time.everPtp = false ∧ stamp % 1000000000 < 500000000) ∧
    (∃ (hz : Nat) (s : State), s.time.ref10Sel = true ∧ s.time.ref10Lost = false ∧ ((hz < 9800000 ∨ 10200000 < hz))) ∧
    (∃ (hz : Nat) (s : State), s.time.ref10Sel = true ∧ 9800000 ≤ hz ∧ hz ≤ 10200000) :=
  ⟨⟨2, { wM with time := { wM.time with source := 1, state := 1, mac := [{}, { portState := 9 }] } }, by decide +kernel⟩,
    ⟨{ wM with time := { wM.time with source := 1, state := 1 } }, by decide +kernel⟩,
    ⟨0, { kind := 0, supported := false }, { wM with cfg := { macBlocks := [macBlockReset ||| 1, macBlockReset] } }, by decide +kernel⟩,
    ⟨0, { kind := 0, raw := 5000 }, { wM with cfg := { macBlocks := [macBlockReset ||| 1, macBlockReset] } }, by decide +kernel⟩,
    ⟨1, true, 3, true, 5000, { wM with cfg := { macBlocks := [macBlockReset, macBlockReset ||| 0x01000100] } }, by decide +kernel⟩,
    ⟨3000000100, wM, by decide +kernel⟩,
    ⟨9000000, { wM with time := { wM.time with ref10Sel := true } }, by decide +kernel⟩,
    ⟨10000000, { wM with time := { wM.time with ref10Sel := true, ref10Lost := true } }, by decide +kernel⟩⟩

/-- A state and operands that meet the hypotheses of each clause of LinkTime. -/
theorem witness_LinkTime :
    (∃ (s : State), s.isActive = true ∧ s.inRun = true) ∧
    (∃ (net : Bool) (port : Bool) (h : Hdr) (s : State), portTalks s (portIx net port) = true ∧ h.src ≠ s.dev ∧ h.dst ≠ s.dev ∧ s.inRun = false) ∧
    (∃ (port : Fin 4) (s : State), portUp s port = true) ∧
    (∃ (s : State), s.inRun = true ∧ s.isActive = false ∧ s.time.state = 1) :=
  ⟨⟨wM, by decide +kernel⟩,
    ⟨true, true, { type := 2, src := 7, dst := 0xFF, hops := 1 }, wP pU wR, by decide +kernel⟩,
    ⟨1, wP pU wM, by decide +kernel⟩,
    ⟨{ wK with time := { wK.time with state := 1 } }, by decide +kernel⟩⟩

/-- A state and operands that meet the hypotheses of each clause of TimeCommands. -/
theorem witness_TimeCommands :
    (∃ (r : Req) (s : State), let p := r.payload; let b0 : BitVec 128 := BitVec.ofNat 128 (ule p 16 16); let b1 : BitVec 128 := BitVec.ofNat 128 (ule p 32 16); Takes 0x0801 r [] s ∧ passedOn r s = false ∧ p.length = 48 ∧ s.variant ≠ .WK ∧ s.isActive = true ∧ macBlockBad b0 = false ∧ macBlockBad b1 = false ∧ ((∀ c ∈ (p.take 3).map BitVec.toNat, c ≤ 3 ∨ c = 0xFF)) ∧ 1 ≤ u32 p 4 ∧ u32 p 4 ≤ 1000000 ∧ 1 ≤ u16 p 8 ∧ u16 p 8 ≤ 500) ∧
    (∃ (r : Req) (s : State), let pay := leBytes 4 (wi (offsetUs s.time.offset)).toNat; Takes 0x0802 r pay s ∧ r.payload.length = 1 ∧ u8 r.payload 0 = 1 ∧ s.time.refused = true ∧ s.time.srcPresent = true ∧ -1000000000 ≤ s.time.offset ∧ s.time.offset ≤ 1000000000) ∧
    (∃ (r : Req) (s : State), let pay := leBytes 4 (wi (offsetUs s.time.offset)).toNat; Takes 0x0802 r pay s ∧ r.payload.length = 1 ∧ u8 r.payload 0 = 0 ∧ s.time.refused = true ∧ s.time.srcPresent = true) ∧
    (∃ (r : Req) (pay : List Byte) (s : State), Takes 0x0803 r pay s ∧ r.payload = []) :=
  ⟨⟨rq ([1, 2, 0xFF, 1] ++ leBytes 4 100 ++ leBytes 4 100 ++ leBytes 4 0 ++ leBytes 16 macBlockReset.toNat ++ leBytes 16 macBlockReset.toNat), wM, takes_of (by decide +kernel), by decide +kernel⟩,
    ⟨rq [1], { wM with time := { wM.time with refused := true, srcPresent := true, offset := 5000 } }, takes_of (by decide +kernel), by decide +kernel⟩,
    ⟨rq [0], { wM with time := { wM.time with refused := true, srcPresent := true, offset := 5000000000 } }, takes_of (by decide +kernel), by decide +kernel⟩,
    ⟨rq [], [1], wM, takes_of (by decide +kernel), rfl⟩⟩

/-- A state and operands that meet the hypotheses of each clause of EnabledFilterChannel. -/
theorem witness_EnabledFilterChannel :
    (∃ (r : Req) (s : State), let ch := u8 r.payload 0; let w := chMask (BitVec.ofNat 64 (ule r.payload 8 8)); Takes 0x0601 r [] s ∧ r.payload.length = 16 ∧ ch < 16 ∧ chRange w = false ∧ fld (chSet s ch) 0 1 = 1 ∧ w &&& 0x000001FFFFF30000#64 ≠ chSet s ch &&& 0x000001FFFFF30000#64) ∧
    (∃ (r : Req) (s : State), let ch := u8 r.payload 0; let w := chMask (BitVec.ofNat 64 (ule r.payload 8 8)); Takes 0x0601 r [] s ∧ r.payload.length = 16 ∧ ch < 16 ∧ s.filt.length = 16 ∧ s.cfg.filters.length = 16 ∧ chRange w = false ∧ fld (chSet s ch) 0 1 = 1 ∧ fld w 0 1 = 1 ∧ w &&& 0x000001FFFFF30000#64 = chSet s ch &&& 0x000001FFFFF30000#64) ∧
    (∃ (ch : Fin 16) (s : State), s.filt.length = 16 ∧ chRuns s ch = true ∧ (filtOf s ch).ending = none) :=
  ⟨⟨rq (zf 8 [1] ++ leBytes 8 (cw + 2 ^ 16)), wF {}, takes_of (by decide +kernel), by decide +kernel⟩,
    ⟨rq (zf 8 [1] ++ leBytes 8 (cw + 2 ^ 48 + 2 ^ 19)), wF {}, takes_of (by decide +kernel), by decide +kernel⟩,
    ⟨1, wF { inForce := some (BitVec.ofNat 64 cw) }, by decide +kernel⟩⟩

/-- A state and operands that meet the hypotheses of each clause of FilterChain. -/
theorem witness_FilterChain :
    (∃ (ch : Fin 16) (stream : Nat) (s : State), let w := chWord s ch; let x := cicRun (chD1 w) (chRF w * chD3 w) stream (filtOf s ch); s.filt.length = 16 ∧ chRuns s ch = true ∧ (filtOf s ch).ending = none ∧ (filtOf s ch).swapPending = false ∧ (chDcb (chSet s ch) = chDcb (chWord s ch))) ∧
    (∃ (ch : Fin 16) (s : State), let c := filtOf s ch; s.filt.length = 16 ∧ chRuns s ch = true) ∧
    (∃ (ch : Fin 16) (s : State), s.filt.length = 16 ∧ chRuns s ch = true) ∧
    (∃ (ch : Fin 16) (s : State), s.filt.length = 16 ∧ (filtOf s ch).rangeOn = true ∧ (filtOf s ch).rangeDone = false) ∧
    (∃ (r : Req) (s : State), let ch := u8 r.payload 0; let w := chMask (BitVec.ofNat 64 (ule r.payload 8 8)); Takes 0x0601 r [] s ∧ r.payload.length = 16 ∧ ch < 16 ∧ chRange w = false ∧ fld (chSet s ch) 0 1 = 0 ∧ fld w 0 1 = 1) ∧
    (∃ (r : Req) (s : State), let ch := u8 r.payload 0; let h := (List.range 32).map fun i => i32 r.payload (4 + 4 * i); let pay := leBytes 2 (bankCrc h) ++ leBytes 1 (!(filtOf s ch).active).toNat; Takes 0x0602 r pay s ∧ r.payload.length = 132 ∧ ch < 16 ∧ 2 ^ 29 ≤ 2 * h.sum ∧ 2 * h.sum ≤ 3 * 2 ^ 29 ∧ (filtOf s ch).swapPending = false) ∧
    (∃ (r : Req) (s : State), let ch := u8 r.payload 0; Takes 0x0603 r [1] s ∧ r.payload.length = 1 ∧ ch < 16 ∧ (filtOf s ch).swapPending = false ∧ fld (chSet s ch) 0 1 = 1) ∧
    (∃ (r : Req) (s : State), let ch := u8 r.payload 0; Takes 0x0603 r [0] s ∧ r.payload.length = 1 ∧ ch < 16 ∧ (filtOf s ch).swapPending = false ∧ fld (chSet s ch) 0 1 = 0) ∧
    (∃ (r : Req) (s : State), let ch := u8 r.payload 0; Takes 0x0604 r [] s ∧ r.payload.length = 2 ∧ ch < 16 ∧ u8 r.payload 1 = 1 ∧ chDcb (chSet s ch) = true ∧ (filtOf s ch).frozen = false) ∧
    (∃ (r : Req) (s : State), let ch := u8 r.payload 0; Takes 0x0604 r [] s ∧ r.payload.length = 2 ∧ ch < 16 ∧ u8 r.payload 1 = 0 ∧ chDcb (chSet s ch) = true ∧ (filtOf s ch).frozen = true) ∧
    (∃ (r : Req) (s : State), let ch := u8 r.payload 0; let pay := leBytes 8 (filterWord s ch) ++ words (filtOf s ch).counts; Takes 0x0605 r pay s ∧ r.payload.length = 3 ∧ ch < 16 ∧ u8 r.payload 1 = 1) :=
  ⟨⟨1, 1, wF { settle := 3 }, by decide +kernel⟩,
    ⟨1, wF {}, by decide +kernel⟩,
    ⟨1, wF {}, by decide +kernel⟩,
    ⟨1, wF { rangeOn := true, flags := 0x100 }, by decide +kernel⟩,
    ⟨rq (zf 8 [1] ++ leBytes 8 cw), wM, takes_of (by decide +kernel), by decide +kernel⟩,
    ⟨rq (zf 4 [1] ++ leBytes 4 (2 ^ 29) ++ List.replicate 124 0), wM, takes_of (by decide +kernel), by decide +kernel⟩,
    ⟨rq [1], wF {}, takes_of (by decide +kernel), by decide +kernel⟩,
    ⟨rq [1], wM, takes_of (by decide +kernel), by decide +kernel⟩,
    ⟨rq [1, 1], { wM with cfg := { filters := List.replicate 16 (BitVec.ofNat 64 (cw + 2 ^ 19)) } }, takes_of (by decide +kernel), by decide +kernel⟩,
    ⟨rq [1, 0], { wM with cfg := { filters := List.replicate 16 (BitVec.ofNat 64 (cw + 2 ^ 19)) }, filt := List.replicate 16 { frozen := true } }, takes_of (by decide +kernel), by decide +kernel⟩,
    ⟨rq [1, 1, 1], wF { counts := [1, 2, 3, 4, 5] }, takes_of (by decide +kernel), by decide +kernel⟩⟩

/-- A state and operands that meet the hypotheses of each clause of AnalogOutputs. -/
theorem witness_AnalogOutputs :
    (∃ (r : Req) (s : State), let p := r.payload; let o := u8 p 0; let pay := leBytes 2 0 ++ leBytes 2 (intBits 16 (aoOf s o).readback); Takes 0x0606 r pay s ∧ p.length = 16 ∧ o < 8 ∧ s.ao.length = 8 ∧ s.cfg.ao.length = 8 ∧ u8 p 1 = 1 ∧ 10 ≤ u16 p 10 ∧ u16 p 10 ≤ 1000 ∧ 1 ≤ u8 p 12 ∧ u8 p 12 ≤ 100 ∧ u8 p 13 ≤ 2 ∧ (aoCfg s o).en = false ∧ (aoOf s o).test = false ∧ s.safe.railBad.getLsbD 8 = false) ∧
    (∃ (out : Fin 8) (mv : Int) (s : State), s.ao.length = 8 ∧ (aoOf s out).powered = true ∧ inBand (aoCfg s out) ((aoOf s out).code :: (aoOf s out).recent.take 20) mv = false) ∧
    (∃ (out : Fin 8) (s : State), s.ao.length = 8 ∧ (aoOf s out).powered = true ∧ (aoOf s out).mismatch = false ∧ (aoCfg s out).time ≤ (aoOf s out).outMs ∧ (aoCfg s out).action = 1 ∧ s.safe.causes = 0) :=
  ⟨⟨rq ([1, 1, 0, 0] ++ leBytes 4 0x10000000 ++ [0, 0] ++ leBytes 2 100 ++ [20, 1, 0, 0]), wM, takes_of (by decide +kernel), by decide +kernel⟩,
    ⟨1, 9000, { wM with ao := List.replicate 8 { powered := true } }, by decide +kernel⟩,
    ⟨1, { wM with ao := List.replicate 8 { powered := true, outMs := 20, code := 5 } }, by decide +kernel⟩⟩

/-- A state and operands that meet the hypotheses of each clause of CanOverrun. -/
theorem witness_CanOverrun :
    (∃ (ch : Fin 8) (s : State), s.bus.can.length = 8 ∧ ch.val < s.variant.cans ∧ fld (canWord s ch) 0 1 = 1) ∧
    (∃ (ch : Fin 8) (f : CanFrame) (s : State), s.bus.can.length = 8 ∧ ch.val < s.variant.cans ∧ f.self = false ∧ (canOf s ch).auto = none ∧ fld (canWord s ch) 0 1 = 1) ∧
    (∃ (ch : Fin 8) (f : CanFrame) (s : State), s.bus.can.length = 8 ∧ ch.val < s.variant.cans ∧ f.self = false ∧ (canOf s ch).auto = none ∧ fld (canWord s ch) 0 1 = 1 ∧ ((canOf s ch).state = 1 ∨ (canOf s ch).state = 2) ∧ (canOf s ch).tec < 256) :=
  ⟨⟨1, wC { state := 1 }, by decide +kernel⟩,
    ⟨1, { id := 5, data := [1], dlc := 1 }, wC { state := 1 }, by decide +kernel⟩,
    ⟨1, { id := 5 }, wC { state := 1 }, by decide +kernel⟩⟩

/-- A state and operands that meet the hypotheses of each clause of CanAttempts. -/
theorem witness_CanAttempts :
    (∃ (ch : Fin 8) (b : Nat) (s : State), s.bus.can.length = 8 ∧ fld (canWord s ch) 0 1 = 1 ∧ (canOf s ch).state = 1 ∧ (canOf s ch).onBus = none ∧ (canOf s ch).bufs.length = 32 ∧ winner (canOf s ch).bufs = some b ∧ b < 32) ∧
    (∃ (ch : Fin 8) (b : Fin 32) (s : State), s.bus.can.length = 8 ∧ (canOf s ch).bufs.length = 32 ∧ (canOf s ch).onBus = some b ∧ (bufOf s ch b).cancel = false ∧ (bufOf s ch b).held = none ∧ (canOf s ch).state = 1 ∧ (canOf s ch).tec < 128 ∧ (canOf s ch).rec_ < 128) ∧
    (∃ (ch : Fin 8) (b : Fin 32) (s : State), s.bus.can.length = 8 ∧ (canOf s ch).bufs.length = 32 ∧ (canOf s ch).onBus = some b ∧ (bufOf s ch b).cancel = false ∧ (bufOf s ch b).held = none ∧ fld (canWord s ch) 0 1 = 1) ∧
    (∃ (ch : Fin 8) (b : Fin 32) (s : State), s.bus.can.length = 8 ∧ (canOf s ch).bufs.length = 32 ∧ (canOf s ch).onBus = some b ∧ (canOf s ch).counts.length = 13 ∧ (canOf s ch).state = 1 ∧ (canOf s ch).tec < 120 ∧ (canOf s ch).rec_ < 128) ∧
    (∃ (ch : Fin 8) (s : State), s.bus.can.length = 8 ∧ (canOf s ch).state = 3 ∧ fld (canWord s ch) 7 1 = 1) ∧
    (∃ (ch : Fin 8) (a : Autobaud) (s : State), s.bus.can.length = 8 ∧ (canOf s ch).auto = some a ∧ a.nominal = none ∧ a.cand = 3 ∧ a.passes ≤ a.pass + 1) ∧
    (∃ (ch : Fin 8) (a : Autobaud) (s : State), (canOf s ch).auto = some a ∧ a.nominal = none ∧ a.cand < 3) :=
  ⟨⟨1, 3, wC { state := 1, bufs := (List.replicate 32 {}).set 3 pb }, by decide +kernel⟩,
    ⟨1, 3, wC { state := 1, tec := 5, onBus := some 3, bufs := (List.replicate 32 {}).set 3 { pb with status := 2 } }, by decide +kernel⟩,
    ⟨1, 3, wC { state := 1, onBus := some 3, bufs := (List.replicate 32 {}).set 3 { pb with status := 2, retryLeft := 2 } }, by decide +kernel⟩,
    ⟨1, 3, wC { state := 1, onBus := some 3, bufs := (List.replicate 32 {}).set 3 { pb with status := 2, retryLeft := 2 } }, by decide +kernel⟩,
    ⟨1, wC { state := 3 }, by decide +kernel⟩,
    ⟨1, { cand := 3, pass := 2 }, wC { state := 5, auto := some { cand := 3, pass := 2 } }, by decide +kernel⟩,
    ⟨1, { cand := 1, good := 1 }, wC { state := 5, auto := some { cand := 1, good := 1 } }, by decide +kernel⟩⟩

/-- A state and operands that meet the hypotheses of each clause of CanCommands. -/
theorem witness_CanCommands :
    (∃ (r : Req) (s : State), let w := canMask (BitVec.ofNat 96 (ule r.payload 0 12)); let ch := fld w 1 3; Takes 0x0701 r [] s ∧ r.payload.length = 12 ∧ ch < s.variant.cans ∧ canRange w = false ∧ fld (canWord s ch) 0 1 = 0 ∧ fld w 0 1 = 1) ∧
    (∃ (r : Req) (s : State), let ch := u8 r.payload 0; Takes 0x0702 r [] s ∧ r.payload.length = 5 ∧ ch < s.variant.cans ∧ u8 r.payload 1 = 1 ∧ 100 ≤ u16 r.payload 2 ∧ u16 r.payload 2 ≤ 10000 ∧ 1 ≤ u8 r.payload 4 ∧ u8 r.payload 4 ≤ 15 ∧ fld (canWord s ch) 0 1 = 0 ∧ (canOf s ch).auto = none ∧ (canOf s ch).onBus = none) ∧
    (∃ (r : Req) (s : State), let h : BitVec 64 := BitVec.ofNat 64 (ule r.payload 0 8); let ch := fld h 5 3; let b := fld h 0 5; Takes 0x0703 r [1] s ∧ fld h 51 1 = 0 ∧ fld h 52 1 = 0 ∧ fld h 56 4 ≤ 8 ∧ r.payload.length = 8 + fld h 56 4 ∧ ch < s.variant.cans ∧ (canOf s ch).state = 1 ∧ (bufOf s ch b).bound = false ∧ (bufOf s ch b).status ≠ 2) ∧
    (∃ (r : Req) (s : State), let ch := u8 r.payload 0; let b := u8 r.payload 1; Takes 0x0704 r [5] s ∧ r.payload.length = 2 ∧ ch < s.variant.cans ∧ b < 32 ∧ s.bus.can.length = 8 ∧ (canOf s ch).bufs.length = 32 ∧ (bufOf s ch b).status = 1) ∧
    (∃ (r : Req) (s : State), let ch := u8 r.payload 0; let c := canOf s ch; let pay := leBytes 4 (pack [(8, c.state), (8, c.dataUnknown.toNat), (8, min 255 c.tec), (8, min 255 c.rec_)]) ++ words c.counts; Takes 0x0705 r pay s ∧ r.payload.length = 4 ∧ ch < s.variant.cans ∧ u8 r.payload 2 ≤ 32 ∧ u8 r.payload 3 = 0) ∧
    (∃ (r : Req) (x : CanRec) (s : State), let ch := u8 r.payload 0; let pay := leBytes 2 ((canOf s ch).seq - 1).toNat ++ leBytes 6 1 ++ canRecBytes x; Takes 0x0706 r pay s ∧ r.payload.length = 4 ∧ ch < s.variant.cans ∧ (canOf s ch).ring = [x] ∧ u16 r.payload 2 = x.seq.toNat) ∧
    (∃ (r : Req) (s : State), let w := (BitVec.ofNat 128 (ule r.payload 0 16)) &&& 0xFFFFFFF8FFFFFFFFFFFFFFF1000000FF#128; let n := fld w 0 8; Takes 0x0707 r [] s ∧ r.payload.length = 16 ∧ n ≤ 63 ∧ fld w 40 2 ≠ 3 ∧ 1 ≤ fld w 48 16 ∧ fld w 48 16 ≤ 10000 ∧ fld w 64 3 < s.variant.cans ∧ routeBound s n = false) :=
  ⟨⟨rq (leBytes 12 (canReset.toNat + 3)), wM, takes_of (by decide +kernel), by decide +kernel⟩,
    ⟨rq ([1, 1] ++ leBytes 2 1000 ++ [3]), wM, takes_of (by decide +kernel), by decide +kernel⟩,
    ⟨rq (leBytes 8 (2 * 2 ^ 60 + 2 ^ 56 + 5 * 2 ^ 8 + 2 ^ 5 + 3) ++ [7]), wC { state := 1 }, takes_of (by decide +kernel), by decide +kernel⟩,
    ⟨rq [1, 3], wC { state := 1, bufs := (List.replicate 32 {}).set 3 pb }, takes_of (by decide +kernel), by decide +kernel⟩,
    ⟨rq [1, 1, 32, 0], wC { state := 1, tec := 5, counts := List.replicate 13 4 }, takes_of (by decide +kernel), by decide +kernel⟩,
    ⟨rq [1, 0, 4, 0], { f := { id := 5 }, seq := 4 }, wC { state := 1, seq := 5, ring := [{ f := { id := 5 }, seq := 4 }] }, takes_of (by decide +kernel), by decide +kernel⟩,
    ⟨rq (leBytes 16 (routeReset.toNat + 2 * 2 ^ 64 + 9)), wM, takes_of (by decide +kernel), by decide +kernel⟩⟩

/-- A state and operands that meet the hypotheses of each clause of SerialPorts. -/
theorem witness_SerialPorts :
    (∃ (r : Req) (s : State), let w := (BitVec.ofNat 64 (ule r.payload 0 8)) &&& 0xFFFFFFFFFF000707#64; let u := fld w 0 3; Takes 0x0708 r [] s ∧ r.payload.length = 8 ∧ 4800 ≤ fld w 40 24 ∧ fld w 40 24 ≤ 921600 ∧ fld w 24 16 ≤ 10000 ∧ fld (uartWord s u) 8 1 = 0) ∧
    (∃ (r : Req) (s : State), let i := u8 r.payload 0; let pay := leBytes 4 (pack [(8, fld (uartWord s i) 8 1), (8, 8 - (uartOf s i).tx.length)]) ++ words (uartOf s i).counts; Takes 0x0709 r pay s ∧ r.payload.length = 2 ∧ i < 8) ∧
    (∃ (r : Req) (x : SentRec) (s : State), let i := u8 r.payload 0; let pay := leBytes 2 ((uartOf s i).seq - 1).toNat ++ leBytes 6 1 ++ sentRecBytes x; Takes 0x070A r pay s ∧ r.payload.length = 4 ∧ i < 8 ∧ (uartOf s i).ring = [x] ∧ u16 r.payload 2 = x.seq.toNat) ∧
    (∃ (r : Req) (u : Fin 8) (s : State), let line := uartLine (uartWord s u) (r.payload.drop 4); Takes 0x070B r (leBytes 1 7) s ∧ u8 r.payload 0 = u ∧ 1 ≤ u8 r.payload 1 ∧ u8 r.payload 1 ≤ 79 ∧ r.payload.length = 4 + u8 r.payload 1 ∧ line.length ≤ 82 ∧ fld (uartWord s u) 8 1 = 1 ∧ (uartOf s u).tx = []) ∧
    (∃ (r : Req) (s : State), let w := (BitVec.ofNat 128 (ule r.payload 0 16)) &&& 0xFFFFFFFFFFFFFFFFFFFFFFFF0000010F#128; Takes 0x070C r [] s ∧ r.payload.length = 16 ∧ fld w 3 1 < s.variant.lans) ∧
    (∃ (u : Fin 8) (a : List Byte) (b : List Byte) (rest : List (List Byte)) (s : State), (uartOf s u).tx = a :: b :: rest) ∧
    (∃ (u : Fin 8) (s : State), s.bus.uart.length = 8 ∧ fld (uartWord s u) 8 1 = 1) ∧
    (∃ (mac : Fin 2) (group : Word) (port : BitVec 16) (s : State), s.bus.lan.length = 2 ∧ mac.val < s.variant.lans ∧ groupEntries s mac group port ≠ []) ∧
    (∃ (mac : Fin 2) (group : Word) (port : BitVec 16) (s : State), s.bus.lan.length = 2 ∧ mac.val < s.variant.lans ∧ groupEntries s mac group port ≠ [] ∧ (s.bus.lan.getD mac {}).ring.length < 256) ∧
    (∃ (mac : Fin 2) (fast : Bool) (src : Word) (port : BitVec 16) (bytes : List Byte) (raw : Nat) (n : Nat) (stamp : Nat) (vs : List Int) (s : State), mac.val < s.variant.lans ∧ s.inRun = true ∧ ((strFrom s [1 + mac.val]).filter fun k => strFld s k 40 8 = 17 && u16 (strArgs s k) 0 = port.toNat && (u32 (strArgs s k) 4 = 0 || u32 (strArgs s k) 4 = src.toNat)) = [n] ∧ (specField (strArgs s n) 32 bytes).isSome = true ∧ sampleStamp s n (rxStamp s mac fast raw) (specTime s (strArgs s n) bytes) = some stamp ∧ specValues (strKind s n) (strArgs s n) bytes = some vs) :=
  ⟨⟨rq (leBytes 8 (uartReset.toNat + 0x101)), wM, takes_of (by decide +kernel), by decide +kernel⟩,
    ⟨rq [1, 1], wT { counts := List.replicate 6 4 }, takes_of (by decide +kernel), by decide +kernel⟩,
    ⟨rq [1, 0, 4, 0], { text := [1], seq := 4 }, wT { seq := 5, ring := [{ text := [1], seq := 4 }] }, takes_of (by decide +kernel), by decide +kernel⟩,
    ⟨rq [1, 3, 0, 0, 0x24, 0x41, 0x42], 1, wT {}, takes_of (by decide +kernel), by decide +kernel⟩,
    ⟨rq (leBytes 16 (0xEFC00001 * 2 ^ 32 + 0x100)), wM, takes_of (by decide +kernel), by decide +kernel⟩,
    ⟨1, [1], [2], [[3]], wT { tx := [[1], [2], [3]] }, by decide +kernel⟩,
    ⟨1, wT {}, by decide +kernel⟩,
    ⟨0, 0xEFC00001, 60001, wL, by decide +kernel⟩,
    ⟨0, 0xEFC00001, 60001, wL, by decide +kernel⟩,
    ⟨0, true, 9, 60000, [7, 0], 100000, 3, 100000 - 8, [7 * 2 ^ 16, 0, 0], wX, by decide +kernel⟩⟩

/-- A state and operands that meet the hypotheses of each clause of SafeRequestLatches. -/
theorem witness_SafeRequestLatches :
    (∃ (r : Req) (s : State), s.rst.life ≠ .reset ∧ s.rst.life ≠ .loading ∧ s.rst.life ≠ .cloakroom ∧ r.payload = []) ∧
    (∃ (i : Instr) (code : Nat) (r : Req) (s : State), (i, code) ∈ [(.safeStatus r, 0x0902), (.changelogRead r, 0x0904), (.safeRequest r, 0x0905)] ∧ mailboxDown s = false) :=
  ⟨⟨rq [], wM, by decide +kernel⟩,
    ⟨.safeRequest (rq []), 0x0905, rq [], wM, by decide +kernel⟩⟩

/-- A state and operands that meet the hypotheses of each clause of CauseLatched. -/
theorem witness_CauseLatched :
    (∃ (n : Nat) (s : State), n < 16 ∧ s.safe.causes = 0 ∧ s.loop.ctx.length = 128) ∧
    (∃ (n : Nat) (s : State), n < 16 ∧ s.safe.causes ≠ 0) :=
  ⟨⟨4, { wG { armed := true } with ao := List.replicate 8 { powered := true, code := 5 } }, by decide +kernel⟩,
    ⟨4, { wM with safe := { wM.safe with causes := 2, firstCause := 2 } }, by decide +kernel⟩⟩

/-- A state and operands that meet the hypotheses of each clause of LoopLaws. -/
theorem witness_LoopLaws :
    (∃ (l : LoopCfg), sfld l.desc 224 32 ≤ sfld l.desc 256 32) ∧
    (∃ (l : LoopCfg) (c : Ctx) (k : Int) (sh : Nat), l.law = 5 ∧ c.gated = false ∧ c.coefs.getD 0 (0, 0) = (k, sh + 1)) ∧
    (∃ (l : LoopCfg) (c : Ctx) (x : Int), let m := fun i y => (mulQ (c.coefs.getD i (0, 0)) (y, false)).1; let w := sat32 (m 6 c.r - x); let p := m 0 (sat32 (m 1 c.r - x)); let d := sat32 (m 5 c.d + m 4 (sat32 (w - c.w1))); let v := sat32 (sat32 (p + c.i) + d); l.law = 1) :=
  ⟨⟨{ desc := BitVec.ofNat 384 lc5 }, by decide +kernel⟩,
    ⟨{ desc := BitVec.ofNat 384 lc5 }, { coefs := [(7, 2)] }, 7, 1, by decide +kernel⟩,
    ⟨{ desc := BitVec.ofNat 384 (lc5 - 4 * 2 ^ 8) }, { coefs := List.replicate 7 (3, 1), r := 20 }, 1, by decide +kernel⟩⟩

/-- A state and operands that meet the hypotheses of each clause of LoopEvents. -/
theorem witness_LoopEvents :
    (∃ (s : State), linkRuns s = true ∧ s.cyc.gridNs % 100000 = 0 ∧ s.cyc.gridNs ≤ s.time.ns ∧ s.time.ns ≤ s.cyc.gridNs + 100000) ∧
    (∃ (n : Fin 128) (s : State), s.loop.ctx.length = 128 ∧ ctxDefined s n = true ∧ (s.cfg.loopOf n).inType ≤ 2 ∧ (ctxOf s n).state = 2) ∧
    (∃ (n : Fin 128) (s : State), s.loop.ctx.length = 128 ∧ (ctxOf s n).state = 4 ∧ (ctxOf s n).u ≠ parkValue s n) ∧
    (∃ (n : Fin 128) (s : State), s.loop.ctx.length = 128 ∧ (ctxOf s n).state = 4 ∧ (ctxOf s n).u = parkValue s n ∧ (ctxOf s n).writes = [] ∧ (s.cfg.loopOf n).cmdPath = false) :=
  ⟨⟨{ wM with cyc := { wM.cyc with gridNs := 200000 }, time := { wM.time with ns := 250000 } }, by decide +kernel⟩,
    ⟨1, wG { state := 2, u := 5 }, by decide +kernel⟩,
    ⟨1, wG { state := 4, u := 5 }, by decide +kernel⟩,
    ⟨1, wG { state := 4 }, by decide +kernel⟩⟩

/-- A state and operands that meet the hypotheses of each clause of LoopCommands. -/
theorem witness_LoopCommands :
    (∃ (r : Req) (s : State), let l : LoopCfg := { desc := BitVec.ofNat 384 (ule r.payload 0 48), coefs := List.replicate 10 (0, 0) }; let n := l.f 0 8; Takes 0x0501 r [] s ∧ r.payload.length = 48 ∧ s.loop.ctx.length = 128 ∧ s.cfg.loops.length = 128 ∧ (ctxOf s n).state = 0 ∧ loopRange l = false ∧ l.outType = 0 ∧ l.gate = 0 ∧ loopNoSource s n l = false ∧ loopFull s n l = false) ∧
    (∃ (r : Req) (s : State), let n := u8 r.payload 0; let l := s.cfg.loopOf n; let gen := (ctxOf s n).gen + BitVec.ofNat 16 ((ctxOf s n).writes.length + 1); Takes 0x0502 r (leBytes 2 gen.toNat) s ∧ r.payload.length = 8 ∧ n ≤ 127 ∧ (ctxOf s n).state ≠ 0 ∧ u8 r.payload 1 < lawCoefs l.law ∧ u8 r.payload 2 ≤ 47 ∧ l.law ≠ 4 ∧ l.gate = 0) ∧
    (∃ (r : Req) (s : State), let n := u8 r.payload 0; let u := driveOutputs (enableCtx n 0 s); Takes 0x0503 r (leBytes 1 (ctxOf u n).state) s ∧ r.payload.length = 8 ∧ n ≤ 127 ∧ u8 r.payload 1 = 1 ∧ s.loop.ctx.length = 128 ∧ (ctxOf s n).state = 1 ∧ (s.cfg.loopOf n).cmdPath = false) ∧
    (∃ (r : Req) (s : State), let n := u8 r.payload 0; let u := driveOutputs (updCtx n (fun c => { c with target := i32 r.payload 4, restart := true }) s); Takes 0x0503 r (leBytes 1 (ctxOf u n).state) s ∧ r.payload.length = 8 ∧ n ≤ 127 ∧ u8 r.payload 1 = 2 ∧ (ctxOf s n).state ≠ 0 ∧ (s.cfg.loopOf n).f 128 8 = 0xFF) ∧
    (∃ (r : Req) (s : State), let n := u8 r.payload 0; let pay := leBytes 8 (ctxWord s n) ++ words (ctxOf s n).counts; Takes 0x0506 r pay s ∧ r.payload.length = 3 ∧ n ≤ 127 ∧ u8 r.payload 1 = 1) ∧
    (∃ (r : Req) (s : State), let w : BitVec 128 := BitVec.ofNat 128 (ule r.payload 0 16); let u := fld w 0 8; Takes 0x0504 r [1] s ∧ r.payload.length = 16 ∧ u ≤ 7 ∧ s.loop.trace.length = 8 ∧ fld w 24 8 = 0 ∧ fld w 32 8 ≤ 127 ∧ fld w 40 8 ≤ 10 ∧ fld w 48 8 ≤ 4 ∧ fld w 56 8 ≠ 0 ∧ fld w 16 8 = 0 ∧ (s.loop.trace.getD u {}).state = 0 ∧ (ctxOf s (fld w 32 8)).state ≠ 0) ∧
    (∃ (r : Req) (s : State), let t := s.loop.trace.getD (u8 r.payload 0) {}; let first := u16 r.payload 2; let n := u8 r.payload 4; let pay := traceHeader t first n ++ ((t.buf.reverse.drop first).take n).flatMap fun w => leBytes 4 w.toNat; Takes 0x0505 r pay s ∧ r.dma = none ∧ r.payload.length = 5 ∧ u8 r.payload 0 ≤ 7 ∧ t.state = 3 ∧ 1 ≤ n ∧ n ≤ 56 ∧ first + n ≤ t.buf.length) :=
  ⟨⟨rq (leBytes 48 (lc5 + 1)), wM, takes_of (by decide +kernel), by decide +kernel⟩,
    ⟨rq ([1, 0, 3, 0] ++ leBytes 4 7), wG { state := 1 }, takes_of (by decide +kernel), by decide +kernel⟩,
    ⟨rq (zf 8 [1, 1]), wG { state := 1 }, takes_of (by decide +kernel), by decide +kernel⟩,
    ⟨rq ([1, 2, 0, 0] ++ leBytes 4 7), wG { state := 2 }, takes_of (by decide +kernel), by decide +kernel⟩,
    ⟨rq [1, 1, 1], wG { state := 2, counts := List.replicate 7 4 }, takes_of (by decide +kernel), by decide +kernel⟩,
    ⟨rq (leBytes 16 (10 * 2 ^ 64 + 2 ^ 56 + 2 ^ 32 + 1)), wG { state := 2 }, takes_of (by decide +kernel), by decide +kernel⟩,
    ⟨rq [1, 0, 0, 0, 1], { wM with loop := { trace := List.replicate 8 { state := 3, buf := [1, 2] } } }, takes_of (by decide +kernel), by decide +kernel⟩⟩

/-- A state and operands that meet the hypotheses of each clause of SafetyPins. -/
theorem witness_SafetyPins :
    (∃ (out : Fin 16) (t : Nat) (s : State), s.safe.outs.getLsbD out = true ∧ fld (soWord s out) 6 1 = 1 ∧ pulseInstant s out = some t ∧ (gloveOf s out).onSince + 10000000 ≤ t ∧ s.safe.gloveWait = false ∧ s.safe.gloveFrom ≤ t ∧ (gloveOf s out).phase = 0 ∧ (gloveOf s out).pulseAt ≠ some t) ∧
    (∃ (out : Fin 16) (low : Bool) (high : Bool) (s : State), (gloveOf s out).phase = 1 ∧ 150 ≤ (gloveOf s out).pulseUs ∧ ((low && !readsOn s out false) || (high && !readsOn s out true)) = true) ∧
    (∃ (out : Fin 16) (low : Bool) (high : Bool) (s : State), (gloveOf s out).phase = 1 ∧ 150 ≤ (gloveOf s out).pulseUs ∧ soGroup s out = 0 ∧ ((low && !readsOn s out false) || (high && !readsOn s out true)) = false) ∧
    (∃ (out : Fin 16) (low : Bool) (high : Bool) (s : State), (gloveOf s out).phase = 1 ∧ 150 ≤ (gloveOf s out).pulseUs ∧ soGroup s out ≠ 0 ∧ ((low && !readsOn s out false) || (high && !readsOn s out true)) = false) ∧
    (∃ (out : Fin 16) (s : State), (gloveOf s out).phase = 2 ∧ 150 ≤ (gloveOf s out).pulseUs) ∧
    (∃ (out : Fin 16) (high : Bool) (s : State), (gloveOf s out).phase = 4 ∧ s.safe.gloveWait = false ∧ readsOn s out high = true) ∧
    (∃ (out : Fin 16) (high : Bool) (s : State), (gloveOf s out).phase = 0 ∧ s.safe.outs.getLsbD out = true ∧ soGroup s out = 0 ∧ readsOn s out high = false) ∧
    (∃ (n : Fin 8) (s : State), s.safe.pairs.length = 8 ∧ pairState s n = 1 ∧ s.safe.siLevels.getLsbD (2 * n) = false ∧ s.safe.siLevels.getLsbD (2 * n + 1) = true) ∧
    (∃ (n : Fin 8) (s : State), s.safe.pairs.length = 8 ∧ pairState s n = 1 ∧ s.safe.siLevels.getLsbD (2 * n) ≠ s.safe.siLevels.getLsbD (2 * n + 1)) :=
  ⟨⟨1, 60500000000, wO {}, by decide +kernel⟩,
    ⟨1, true, true, wO { phase := 1, pulseUs := 250 }, by decide +kernel⟩,
    ⟨1, true, false, wO { phase := 1, pulseUs := 250 }, by decide +kernel⟩,
    ⟨1, true, false, wO2 { phase := 1, pulseUs := 250 }, by decide +kernel⟩,
    ⟨1, wO { phase := 2, pulseUs := 250 }, by decide +kernel⟩,
    ⟨1, false, wO { phase := 4 }, by decide +kernel⟩,
    ⟨1, true, wO {}, by decide +kernel⟩,
    ⟨1, { wM with safe := { wM.safe with pairs := List.replicate 8 1, siLevels := 8 } }, by decide +kernel⟩,
    ⟨1, { wM with cfg := { si := List.replicate 8 0x0510 }, safe := { wM.safe with pairs := List.replicate 8 1, siLevels := 8 } }, by decide +kernel⟩⟩

/-- A state and operands that meet the hypotheses of each clause of Monitors. -/
theorem witness_Monitors :
    (∃ (d : Fin 17) (s : State), (s.variant = .WK → d.val ∉ [2, 3, 9, 11, 15])) ∧
    (∃ (d : Fin 17) (s : State), (s.variant = .WK → d.val ∉ [2, 3, 9, 11, 15])) ∧
    (∃ (d : Fin 17) (s : State), s.variant = .WK ∧ d.val ∈ [2, 3, 9, 11, 15]) ∧
    (∃ (d : Fin 9) (s : State), ((d ≠ 8 ∨ s.ao.any (·.powered) = true))) ∧
    (∃ (s : State), s.ao.any (·.powered) = false) ∧
    (∃ (c : Int), 150 < c) ∧
    (∃ (c : Int), c ≤ 150) ∧
    (∃ (s : State), s.safe.counters.getLsbD 0 = true) ∧
    (∃ (s : State), s.safe.counters.getLsbD 1 = true) ∧
    (∃ (s : State), s.safe.counters.getLsbD 2 = true ∧ 1 ≤ s.safe.compareEpochs ∧ s.safe.compareLatched = false) ∧
    (∃ (s : State), s.safe.counters.getLsbD 3 = true ∧ 2 ≤ s.safe.takeoverEpochs) ∧
    (∃ (path : Fin 4) (s : State), s.safe.counters.getLsbD path = false) :=
  ⟨⟨1, wM, by decide +kernel⟩,
    ⟨1, { wM with safe := { wM.safe with clockBad := 2 } }, by decide +kernel⟩,
    ⟨15, wK, by decide +kernel⟩,
    ⟨1, wM, by decide +kernel⟩,
    ⟨wM, by decide +kernel⟩,
    ⟨151, by decide +kernel⟩,
    ⟨150, by decide +kernel⟩,
    ⟨{ wO {} with safe := { (wO {}).safe with counters := 1 } }, by decide +kernel⟩,
    ⟨{ wO {} with safe := { (wO {}).safe with counters := 2, gloveBad := 2 } }, by decide +kernel⟩,
    ⟨{ wO {} with safe := { (wO {}).safe with counters := 4, compareEpochs := 1 } }, by decide +kernel⟩,
    ⟨{ wO {} with safe := { (wO {}).safe with counters := 8, takeoverEpochs := 2 } }, by decide +kernel⟩,
    ⟨3, wM, by decide +kernel⟩⟩

/-- A state and operands that meet the hypotheses of each clause of SafeResetPin. -/
theorem witness_SafeResetPin :
    (∃ (s : State), s.safe.pinLow = false) ∧
    (∃ (ms : Nat) (s : State), s.safe.pinLow = true ∧ 50 ≤ ms ∧ ms ≤ 5000) ∧
    (∃ (ms : Nat) (s : State), s.safe.pinLow = true ∧ ((ms < 50 ∨ 5000 < ms))) ∧
    (∃ (s : State), s.safe.pinLow = true ∧ s.safe.resetStuck = false) ∧
    (∃ (pins : BitVec 12) (s : State), (pins ^^^ s.rst.straps) &&& ~~~s.rst.strapDiff ≠ 0) :=
  ⟨⟨wM, by decide +kernel⟩,
    ⟨50, { wM with safe := { wM.safe with causes := 0x31, firstCause := 5, atFall := 0x30, pinLow := true } }, by decide +kernel⟩,
    ⟨49, { wM with safe := { wM.safe with causes := 0x31, firstCause := 5, atFall := 0x30, pinLow := true } }, by decide +kernel⟩,
    ⟨{ wM with safe := { wM.safe with pinLow := true } }, by decide +kernel⟩,
    ⟨0x145, wM, by decide +kernel⟩⟩

/-- A state and operands that meet the hypotheses of each clause of Protection. -/
theorem witness_Protection :
    (∃ (r : Req) (s : State), Takes 0x0901 r [] s ∧ r.payload.length = 56 ∧ s.strap 7 = true) ∧
    (∃ (r : Req) (s : State), Takes 0x0901 r [] s ∧ r.payload.length = 56 ∧ s.strap 7 = false ∧ s.strap 8 = true ∧ s.safe.unlockOpen = true ∧ safeRange r.payload = false ∧ s.safe.outs = 0) ∧
    (∃ (r : Req) (pay : List Byte) (s : State), Takes 0x0902 r pay s ∧ r.payload = []) ∧
    (∃ (r : Req) (s : State), let pw := (r.payload.drop 2).take (u8 r.payload 1); let pay := leBytes 2 (s.safe.session + 1).toNat ++ leBytes 2 600; Takes 0x0903 r pay s ∧ r.payload.length = 18 ∧ s.strap 7 = false ∧ s.strap 8 = true ∧ u8 r.payload 0 = 0 ∧ s.mram.lockoutMs = 0 ∧ passOk (u8 r.payload 1) pw = true ∧ s.mram.passDigest = none ∧ s.safe.unlockOpen = false) ∧
    (∃ (s : State), s.safe.unlockOpen = true) ∧
    (∃ (r : Req) (e : LogEntry) (s : State), let pay := leBytes 2 (s.mram.logSeq - 1).toNat ++ leBytes 6 1 ++ logBytes e; Takes 0x0904 r pay s ∧ r.payload.length = 3 ∧ 1 ≤ u8 r.payload 2 ∧ u8 r.payload 2 ≤ 7 ∧ s.mram.log = [e] ∧ s.mram.logBad = [] ∧ u16 r.payload 0 = e.seq.toNat) :=
  ⟨⟨rq (zf 56 []), { wM with rst := { wM.rst with straps := 0xC0 } }, takes_of (by decide +kernel), by decide +kernel⟩,
    ⟨rq (leBytes 8 (1000 * 2 ^ 48 + 250 * 2 ^ 32) ++ [0x41, 0, 0x42, 0] ++ (List.replicate 14 [0x40, 0]).flatten ++ (List.replicate 8 [0x10, 5]).flatten), wN, takes_of (by decide +kernel), by decide +kernel⟩,
    ⟨rq [], [1], wM, takes_of (by decide +kernel), rfl⟩,
    ⟨rq (zf 18 [0, 8, 0x41, 0x42, 0x43, 0x44, 0x45, 0x46, 0x47, 0x48]), wM, takes_of (by decide +kernel), by decide +kernel⟩,
    ⟨wN, by decide +kernel⟩,
    ⟨rq [4, 0, 1], { command := 0x0901, field := 1, seq := 4 }, { wM with mram := { wM.mram with log := [{ command := 0x0901, field := 1, seq := 4 }], logSeq := 5 } }, takes_of (by decide +kernel), by decide +kernel⟩⟩

/-- A state and operands that meet the hypotheses of each clause of Recorder. -/
theorem witness_Recorder :
    (∃ (r : Req) (s : State), let c := w32 r.payload 4; let pay := leBytes 12 (pack [(32, c.toNat), (32, (s.mram.head - 1).toNat), (32, (oldestRec s).toNat)]); Takes 0x0A01 r pay s ∧ r.payload.length = 8 ∧ u8 r.payload 0 = 0 ∧ 0 ≤ epochDiff c (oldestRec s)) ∧
    (∃ (r : Req) (num : Word) (e : EvRec) (s : State), let pay := leBytes 4 num.toNat ++ leBytes 4 1 ++ ringBytes s num e; Takes 0x0A02 r pay s ∧ r.payload.length = 3 ∧ 1 ≤ u8 r.payload 0 ∧ u8 r.payload 0 ≤ 7 ∧ bit (u8 r.payload 1) 0 = true ∧ u8 r.payload 2 ≤ e.sev ∧ s.mram.ring = [(num, e)] ∧ s.mram.head = num + 1 ∧ s.rcd.cursors = []) ∧
    (∃ (r : Req) (s : State), let q := u8 r.payload 0; Takes 0x0A03 r (histoBytes s q) s ∧ r.payload.length = 2 ∧ q ≤ 63 ∧ bit (u8 r.payload 1) 0 = false) ∧
    (∃ (r : Req) (s : State), let p := r.payload; Takes 0x0A05 r [] s ∧ p.length = 20 ∧ u8 p 0 ≤ 63 ∧ u8 p 2 ≤ 9 ∧ 1 ≤ u8 p 6 ∧ u8 p 6 ≤ 32 ∧ u32 p 12 ≠ 0 ∧ bits (u8 p 3) 0 2 ≠ 3) ∧
    (∃ (r : Req) (s : State), let n := u8 r.payload 2; Takes 0x0A04 r [] s ∧ r.payload.length = 8 ∧ codeDefined (u16 r.payload 0) = true ∧ n ≠ 0 ∧ 10 ≤ u32 r.payload 4 ∧ u32 r.payload 4 ≤ 3600000) ∧
    (∃ (code : BitVec 16) (s : State), s.supRuns = true ∧ (bucketOf s code).tokens + 1 < (quotaOf s code).1) ∧
    (∃ (e : EvRec) (s : State), s.supRuns = true ∧ s.isManager = true ∧ s.brd.images = [] ∧ e.code ≠ 0x0A11) :=
  ⟨⟨rq (zf 4 [] ++ leBytes 4 3), { wM with mram := { wM.mram with head := 5, ring := [(4, { code := 0x0910, sev := 4 }), (3, { code := 0x0910, sev := 4 })] } }, takes_of (by decide +kernel), by decide +kernel⟩,
    ⟨rq [1, 1, 2], 4, { code := 0x0910, sev := 4 }, { wM with mram := { wM.mram with head := 5, ring := [(4, { code := 0x0910, sev := 4 })] } }, takes_of (by decide +kernel), by decide +kernel⟩,
    ⟨rq [5, 0], wM, takes_of (by decide +kernel), by decide +kernel⟩,
    ⟨rq ([5, 0, 1, 0, 0, 0, 8, 0] ++ leBytes 4 0 ++ leBytes 4 10 ++ leBytes 4 0), wM, takes_of (by decide +kernel), by decide +kernel⟩,
    ⟨rq ([0x10, 9, 4, 0] ++ leBytes 4 100), { wM with rcd := { buckets := [{ code := 0x0910, tokens := 7 }] } }, takes_of (by decide +kernel), by decide +kernel⟩,
    ⟨0x0910, { wM with rcd := { buckets := [{ code := 0x0910, tokens := 3 }] } }, by decide +kernel⟩,
    ⟨{ code := 0x0910, sev := 4, supp := 2 }, wM, by decide +kernel⟩⟩

/-- A state and operands that meet the hypotheses of each clause of Archive. -/
theorem witness_Archive :
    (∃ (m : Mount) (s : State), s.arch.state = 1 ∧ m.qualified = true ∧ m.tableOk = true ∧ m.timedOut = false) ∧
    (∃ (m : Mount) (s : State), s.arch.state = 1 ∧ ((m.qualified = false ∨ m.tableOk = false ∨ m.timedOut = true))) ∧
    (∃ (b : Nat) (s : State), s.arch.openBlk = some b ∧ s.arch.page ≠ []) ∧
    (∃ (b : Nat) (s : State), s.arch.openBlk = some b ∧ s.arch.page ≠ []) ∧
    (∃ (b : Nat) (s : State), b ∈ s.arch.erasing) ∧
    (∃ (b : Nat) (s : State), b ∈ s.arch.erasing) ∧
    (∃ (b : Nat) (x : Blk) (s : State), ((s.arch.state = 2 ∨ s.arch.state = 3)) ∧ s.arch.blks.find? (·.num = b) = some x ∧ x.chunks ≠ []) ∧
    (∃ (s : State), s.isManager = true) ∧
    (∃ (s : State), s.isManager = false) ∧
    (∃ (c : Capture) (i : Image) (s : State), openCapture s = some c ∧ s.newest = some i ∧ 0 ≤ epochDiff i.epoch c.end_) ∧
    (∃ (s : State), let l := (takeStaged s.arch.pageChunks s.arch.staging).1; s.variant ≠ .WK ∧ s.arch.pfail = none ∧ s.arch.page ≠ []) ∧
    (∃ (b : Nat) (s : State), s.variant ≠ .WK ∧ s.arch.pfail = none ∧ s.arch.page = [] ∧ s.arch.staging ≠ [] ∧ s.arch.writeProtect = false ∧ s.arch.state = 2 ∧ s.arch.openBlk = some b ∧ 1 ≤ s.arch.pageChunks ∧ (∀ x ∈ s.arch.staging, x.1 ≤ 8)) ∧
    (∃ (s : State), s.variant ≠ .WK ∧ s.arch.pfail = none ∧ s.arch.staging = [] ∧ s.arch.page = [] ∧ s.arch.writeProtect = false) ∧
    (∃ (s : State), s.arch.resuming = true) ∧
    (∃ (s : State), s.arch.resuming = false) ∧
    (∃ (r : Req) (s : State), let a := s.arch; let held := a.chunks.filter fun c => u8 c.2 12 ≠ 0; let good := goodBlks s; let pay := leBytes 1 a.state ++ leBytes 3 0 ++ words [good.length, badBlks s, ((leastWorn good).map (·.erases)).getD 0, ((mostWorn good).map (·.erases)).getD 0, a.refresh.length, (held.head?.map fun c => u32 c.2 24).getD 0, (held.getLast?.map fun c => u32 c.2 28).getD 0, a.rereads, a.crcFails, a.replays, a.nCaptures]; Takes 0x0A06 r pay s ∧ r.payload.length = 1) ∧
    (∃ (r : Req) (d : Dma) (c : List Byte) (s : State), let n := w32 r.payload 0; let pay := leBytes 8 n.toNat ++ c; Takes 0x0A07 r pay s ∧ r.payload.length = 4 ∧ r.dma = some d ∧ n ≠ 0xFFFFFFFF ∧ look s.arch.chunks n = some c ∧ (∀ b ∈ s.arch.blks, n ∈ b.chunks → b.retries = 0)) ∧
    (∃ (r : Req) (d : Dma) (c : List Byte) (b : Blk) (s : State), let n := w32 r.payload 0; let pay := leBytes 4 n.toNat ++ leBytes 4 1 ++ c; Takes 0x0A07 r pay s ∧ r.payload.length = 4 ∧ r.dma = some d ∧ n ≠ 0xFFFFFFFF ∧ look s.arch.chunks n = some c ∧ s.arch.blks.find? (·.chunks.contains n) = some b ∧ 1 ≤ b.retries ∧ b.retries ≤ 3) ∧
    (∃ (r : Req) (s : State), Takes 0x0A07 r [] s ∧ r.payload.length = 4 ∧ r.dma = none) ∧
    (∃ (r : Req) (d : Dma) (s : State), Takes 0x0A07 r [] s ∧ r.payload.length = 4 ∧ r.dma = some d ∧ w32 r.payload 0 ≠ 0xFFFFFFFF ∧ look s.arch.chunks (w32 r.payload 0) = none) :=
  ⟨⟨{ blocks := 10, badBlocks := [2, 5] }, wA { state := 1, journal := 3 }, by decide +kernel⟩,
    ⟨{ timedOut := true }, wA { state := 1 }, by decide +kernel⟩,
    ⟨3, wA { state := 2, openBlk := some 3, page := [(6, ck)], blks := [{ num := 3 }], blockPages := 4 }, by decide +kernel⟩,
    ⟨3, wA { state := 2, openBlk := some 3, page := [(6, ck)], blks := [{ num := 3 }], blockPages := 4 }, by decide +kernel⟩,
    ⟨3, wA { state := 2, erasing := [3], blks := [{ num := 3, erases := 4, pages := 2 }] }, by decide +kernel⟩,
    ⟨3, wA { state := 2, erasing := [3], blks := [{ num := 3, erases := 4, pages := 2 }] }, by decide +kernel⟩,
    ⟨3, { num := 3, chunks := [1], retries := 2 }, wA { state := 2, blks := [{ num := 3, chunks := [1], retries := 2 }] }, by decide +kernel⟩,
    ⟨wM, by decide +kernel⟩,
    ⟨wK, by decide +kernel⟩,
    ⟨cap1, im, { wA { state := 2, captures := [cap1] } with brd := { wM.brd with images := [im] } }, by decide +kernel⟩,
    ⟨wA { state := 2, page := [(6, ck)], staging := [(5, ck), (4, [1, 2])], pageChunks := 3 }, by decide +kernel⟩,
    ⟨3, wA { state := 2, openBlk := some 3, staging := [(5, ck), (4, [1, 2])], pageChunks := 3, blks := [{ num := 3 }] }, by decide +kernel⟩,
    ⟨wA { state := 3 }, by decide +kernel⟩,
    ⟨wA { state := 2, pfail := some (0, 0), resuming := true }, by decide +kernel⟩,
    ⟨wM, by decide +kernel⟩,
    ⟨rq [1], wA { state := 2, rereads := 5 }, takes_of (by decide +kernel), by decide +kernel⟩,
    ⟨{ rq [9, 0, 0, 0] with dma := some { reqLen := 4, rspMax := 5000 } }, { reqLen := 4, rspMax := 5000 }, ck, wA { state := 3, chunks := [(9, ck)], blks := [{ num := 3, chunks := [9] }, { num := 4, retries := 2 }] }, takes_of (by decide +kernel), by decide +kernel⟩,
    ⟨{ rq [9, 0, 0, 0] with dma := some { reqLen := 4, rspMax := 5000 } }, { reqLen := 4, rspMax := 5000 }, ck, { num := 3, chunks := [9], retries := 2 }, wA { state := 3, chunks := [(9, ck)], blks := [{ num := 3, chunks := [9], retries := 2 }] }, takes_of (by decide +kernel), by decide +kernel⟩,
    ⟨rq [9, 0, 0, 0], wM, takes_of (by decide +kernel), by decide +kernel⟩,
    ⟨{ rq [9, 0, 0, 0] with dma := some { reqLen := 4, rspMax := 5000 } }, { reqLen := 4, rspMax := 5000 }, wM, takes_of (by decide +kernel), by decide +kernel⟩⟩

/-- A state and operands that meet the hypotheses of each clause of SolverEvents. -/
theorem witness_SolverEvents :
    (∃ (n : Fin 16) (s : State), n.val < s.variant.scens ∧ (stallOf s (firstScen s + n)).state = 7 ∧ (stallOf s (firstScen s + n)).desc = [] ∧ (stallOf s 0).mainDesc ≠ [] ∧ s.sol.stalls.length = 32 ∧ firstScen s + n < 32) ∧
    (∃ (n : Fin 32) (p : Nat) (s : State), ((List.range 4).find? fun p => s.sol.pairs.getD p none = some n.val) = some p ∧ s.sol.queue = [] ∧ s.sol.stalls.length = 32) ∧
    (∃ s : State, s.sol.running = true ∧ s.isMgrRole = true) ∧
    (∃ (c : Int) (s : State), s.variant ≠ .WK ∧ s.sol.throttle = 0 ∧ 146 ≤ c) :=
  ⟨⟨2, { wM with sol := { wM.sol with stalls := st3 :: List.replicate 31 { state := 7 } } }, by decide +kernel⟩,
    ⟨4, 2, { wM with sol := { wM.sol with pairs := [none, none, some 4, none] } }, by decide +kernel⟩,
    ⟨{ wM with sol := { wM.sol with running := true } }, by decide +kernel⟩,
    ⟨146, wM, by decide +kernel⟩⟩

/-- A state and operands that meet the hypotheses of each clause of StallCommands. -/
theorem witness_StallCommands :
    (∃ (r : Req) (s : State), let p := r.payload; let pay := leBytes 8 (signature p).toNat; Takes 0x0401 r pay s ∧ 32 ≤ p.length ∧ loadCheck s p = none ∧ s.hif.copyJob = none ∧ standbysInRun s = []) ∧
    (∃ (r : Req) (s : State), let n := u8 r.payload 0; let x := stallOf s n; let a := applyRecords x.desc n s.cyc.dpCycle.toNat (r.payload.drop 16) 1 0 { data := x.next }; let pay := leBytes 8 (pack [(16, a.applied), (16, a.range), (16, a.pattern)]); Takes 0x0402 r pay s ∧ r.payload.length = 24 ∧ n < s.variant.stalls ∧ s.dp.mode = 0 ∧ x.pending = false ∧ x.desc ≠ [] ∧ w32 r.payload 8 = x.sig ∧ u16 r.payload 12 = x.batchSeq ∧ u16 r.payload 2 = 1) ∧
    (∃ (r : Req) (s : State), let n := u8 r.payload 0; let w : BitVec 64 := BitVec.ofNat 64 (ule r.payload 8 8); Takes 0x0403 r [] s ∧ (∀ lo ∈ [56, 48], -24 ≤ sfld w lo 8 ∧ sfld w lo 8 ≤ -4) ∧ r.payload.length = 16 ∧ n < s.variant.stalls ∧ fld w 0 1 = 1 ∧ -8 ≤ sfld w 40 8 ∧ sfld w 40 8 ≤ 8 ∧ -28 ≤ sfld w 32 8 ∧ sfld w 32 8 ≤ -8 ∧ fld w 24 8 ≠ 0 ∧ fld w 16 8 ≠ 0 ∧ s.sol.queue = [] ∧ standbysInRun s = []) ∧
    (∃ (r : Req) (s : State), let n := u8 r.payload 0; let u := endSolve n (startSolve n { s with sol := { s.sol with cycle := s.cyc.dpCycle } }); Takes 0x0404 r (leBytes 8 (stallWord u n)) s ∧ r.payload.length = 1 ∧ n < s.variant.stalls ∧ s.dp.mode = 0 ∧ (stallOf s n).desc ≠ [] ∧ (stallOf s n).state = 3) ∧
    (∃ (r : Req) (s : State), let f := u8 r.payload 0; Takes 0x0405 r (stallBytes s f) s ∧ r.payload.length = 3 ∧ u8 r.payload 1 = 1 ∧ f < s.variant.stalls ∧ bit (u8 r.payload 2) 0 = false) ∧
    (∃ (r : Req) (s : State), let n := u8 r.payload 0; let pay := readBlock s n (u8 r.payload 1) 0x10 (u16 r.payload 4) 56; Takes 0x0406 r pay s ∧ r.dma = none ∧ r.payload.length = 6 ∧ n < s.variant.stalls ∧ u8 r.payload 2 = 0x10 ∧ ((stallOf s n).hasSol = true ∨ (stallOf s n).cand ≠ []) ∧ 1 ≤ u8 r.payload 1 ∧ u8 r.payload 1 ≤ (stageTable (stallOf s n).desc).length ∧ u16 r.payload 4 < (solBlock (readSol (stallOf s n)) (u8 r.payload 1) 0x10).length) :=
  ⟨⟨rq sd, { wM with cfg := { horizon := 1 } }, takes_of (by decide +kernel), by decide +kernel⟩,
    ⟨rq ([4, 0, 1, 0, 0, 0, 0, 0] ++ leBytes 4 9 ++ [0, 0, 0, 0] ++ List.replicate 8 0), wZ st3, takes_of (by decide +kernel), by decide +kernel⟩,
    ⟨rq (zf 8 [4] ++ leBytes 8 (stallCfgReset.toNat ||| 1)), wM, takes_of (by decide +kernel), two_of (by decide +kernel), by decide +kernel⟩,
    ⟨rq [4], wZ st3, takes_of (by decide +kernel), by decide +kernel⟩,
    ⟨rq [4, 1, 0], wM, takes_of (by decide +kernel), by decide +kernel⟩,
    ⟨rq [4, 1, 0x10, 0, 0, 0], wZ { st3 with sol := [{ z := [1, 2, 3, 4, 5, 6] }] }, takes_of (by decide +kernel), by decide +kernel⟩⟩

/-- A state and operands that meet the hypotheses of each clause of FusionStreams. -/
theorem witness_FusionStreams :
    (∃ (r : Req) (s : State), Takes 0x0301 r [] s ∧ lenStreamDefine r.payload = none ∧ checkStreamDefine r s = none ∧ s.hif.srcJob = none ∧ descFld r.payload 16 8 = s.dev) ∧
    (∃ (r : Req) (s : State), let d := descFld r.payload 16 8; Takes 0x0301 r [] s ∧ lenStreamDefine r.payload = none ∧ checkStreamDefine r s = none ∧ s.hif.srcJob = none ∧ isCopy 0x0301 r s = false ∧ d ≠ s.dev) ∧
    (∃ (d : Fin 64) (j : Job) (s : State), s.hif.srcJob = some j ∧ j.wait = [d.val] ∧ j.code = 0x0301 ∧ standbysInRun s = []) ∧
    (∃ (d : Fin 64) (j : Job) (s : State), s.hif.srcJob = some j ∧ j.wait = [d.val] ∧ j.code = 0x0306 ∧ bit (u8 j.req.payload 1) 0 = false) ∧
    (∃ (j : Job) (s : State), s.hif.srcJob = some j ∧ j.code = 0x0301) ∧
    (∃ (r : Req) (s : State), let pay := s.cfg.streams.getD (u8 r.payload 0) []; Takes 0x0302 r pay s ∧ r.payload.length = 1 ∧ u8 r.payload 0 ≤ 47 ∧ pay ≠ []) ∧
    (∃ (r : Req) (s : State), let f := u8 r.payload 0; Takes 0x0303 r [] s ∧ r.payload.length = 56 ∧ u8 r.payload 1 = 1 ∧ f ≤ 63 ∧ rotationOk (transformAt r.payload 0) = true) ∧
    (∃ (r : Req) (s : State), let n := u8 r.payload 0; Takes 0x0304 r [] s ∧ r.payload.length = 1 ∧ n < s.fus.streams.length ∧ (rtOf s n).held = true ∧ standbysInRun s = []) ∧
    (∃ (r : Req) (s : State), let w : BitVec 384 := BitVec.ofNat 384 (ule r.payload 0 48); Takes 0x0305 r [] s ∧ r.payload.length = 48 ∧ observerRangeOk w = true) ∧
    (∃ (r : Req) (s : State), let n := u8 r.payload 0; let pay := streamStatusBytes s n (rtOf s n).rejected; Takes 0x0306 r pay s ∧ r.payload.length = 2 ∧ n ≤ 47 ∧ strFld s n 16 8 = s.dev ∧ bit (u8 r.payload 1) 0 = false) ∧
    (∃ (s : State), let sec := s.fus.drPosEpochs * s.cyc.e / 1000; s.isMgrRole = true ∧ s.fus.drPos = true ∧ s.fus.posLost = false ∧ fld s.fus.cfg.observer 80 16 ≤ sec) ∧
    (∃ (s : State), let sec := s.fus.drHdgEpochs * s.cyc.e / 1000; s.isMgrRole = true ∧ s.fus.drHdg = true ∧ s.fus.hdgLost = false ∧ fld s.fus.cfg.observer 96 8 ≤ sec) ∧
    (∃ (s : State), s.fus.preferred.isSome = true ∧ s.fus.streams.length = 48) :=
  ⟨⟨rq str3, { wM with cfg := { table := [(0, 1, 1)] } }, takes_of (by decide +kernel), by decide +kernel⟩,
    ⟨rq (str3.set 2 5), { wM with cfg := { table := [(5, 4, 3)] } }, takes_of (by decide +kernel), by decide +kernel⟩,
    ⟨5, { code := 0x0301, req := rq str3, wait := [5] }, { wM with hif := { wM.hif with srcJob := some { code := 0x0301, req := rq str3, wait := [5] } } }, by decide +kernel⟩,
    ⟨5, { code := 0x0306, req := rq [3, 0], wait := [5] }, { wM with hif := { wM.hif with srcJob := some { code := 0x0306, req := rq [3, 0], wait := [5] } } }, by decide +kernel⟩,
    ⟨{ code := 0x0301, req := rq str3, wait := [5] }, { wM with hif := { wM.hif with srcJob := some { code := 0x0301, req := rq str3, wait := [5] } } }, by decide +kernel⟩,
    ⟨rq [3], wX, takes_of (by decide +kernel), by decide +kernel⟩,
    ⟨rq (zf 8 [4, 1] ++ leBytes 48 transformReset.toNat), wM, takes_of (by decide +kernel), by decide +kernel⟩,
    ⟨rq [3], { wX with fus := { wX.fus with streams := List.replicate 48 { held := true } } }, takes_of (by decide +kernel), by decide +kernel⟩,
    ⟨rq (leBytes 48 (observerReset.toNat + 5 * 2 ^ 128)), wM, takes_of (by decide +kernel), by decide +kernel⟩,
    ⟨rq [3, 0], wX, takes_of (by decide +kernel), by decide +kernel⟩,
    ⟨{ wM with fus := { wM.fus with drPos := true, drPosEpochs := 3000 } }, by decide +kernel⟩,
    ⟨{ wM with fus := { wM.fus with drHdg := true, drHdgEpochs := 500 } }, by decide +kernel⟩,
    ⟨{ wM with fus := { wM.fus with preferred := some 3, streams := List.replicate 24 { held := true, agreeRun := 30000 } ++ List.replicate 24 { held := true } } }, by decide +kernel⟩⟩

/-- A state and operands that meet the hypotheses of each clause of DpCommands. -/
theorem witness_DpCommands :
    (∃ (r : Req) (s : State), let pay := leBytes 4 (effectCycle s).toNat; Takes 0x1001 r pay s ∧ isCopy 0x1001 r s = false ∧ s.hif.copyJob = none ∧ standbys s = [] ∧ r.payload.length = 2 ∧ ((u8 r.payload 0 = 1 ∧ s.dp.mode ≠ 1 ∧ (s.dp.mode = 0 → (stallOf s 0).desc ≠ []) ∨ u8 r.payload 0 = 0 ∧ s.dp.mode = 1))) ∧
    (∃ (r : Req) (s : State), Takes 0x1001 r [] s ∧ r.payload.length = 2 ∧ s.dp.mode = 0 ∧ 2 ≤ u8 r.payload 0 ∧ u8 r.payload 0 ≤ 6) ∧
    (∃ (r : Req) (s : State), let p := r.payload; let pay := leBytes 4 (effectCycle s).toNat; Takes 0x1002 r pay s ∧ isCopy 0x1002 r s = false ∧ s.hif.copyJob = none ∧ standbys s = [] ∧ p.length = 32 ∧ 4 ≤ s.dp.mode ∧ s.dp.mode ≤ 6 ∧ u8 p 0 = 2 ∧ (i32 p 4).natAbs ≤ 30000 * 65536 ∧ (i32 p 8).natAbs ≤ 30000 * 65536 ∧ u16 p 16 = 0 ∧ u16 p 18 = 0 ∧ u16 p 20 = 0 ∧ u16 p 22 = 0) ∧
    (∃ (r : Req) (s : State), Takes 0x1002 r [] s ∧ r.payload.length = 32 ∧ ((s.dp.mode < 3 ∨ 6 < s.dp.mode))) ∧
    (∃ (r : Req) (s : State), let p := r.payload; let pay := leBytes 4 (effectCycle s).toNat; Takes 0x1003 r pay s ∧ isCopy 0x1003 r s = false ∧ s.hif.copyJob = none ∧ standbys s = [] ∧ lenThrusterDefine p = none ∧ ((thrProtectedWrite r s = false ∨ protection s = none)) ∧ checkThrusterDefine r s = none) ∧
    (∃ (r : Req) (s : State), let pay := leBytes 4 (effectCycle s).toNat; Takes 0x1004 r pay s ∧ isCopy 0x1004 r s = false ∧ s.hif.copyJob = none ∧ standbys s = [] ∧ lenPowerDefine r.payload = none ∧ ((powProtectedWrite r s = false ∨ protection s = none)) ∧ checkPowerDefine r s = none) ∧
    (∃ (r : Req) (s : State), let p := r.payload; let pay := leBytes 4 (effectCycle s).toNat; Takes 0x1005 r pay s ∧ isCopy 0x1005 r s = false ∧ s.hif.copyJob = none ∧ standbys s = [] ∧ p.length = 20 ∧ u8 p 2 = 1 ∧ u8 p 0 ≤ s.variant.scens ∧ u8 p 1 + 1 = u8 p 0 ∧ conseqRecOk (conseqRec p 0) = true ∧ u8 (conseqRec p 0) 0 = u8 p 1 ∧ (cfgAhead s).scens.length = 16 ∧ s.sol.pairs = [none, none, none, none] ∧ s.sol.queue = []) ∧
    (∃ (r : Req) (s : State), let p := r.payload; let pay := leBytes 4 (effectCycle s).toNat; Takes 0x1006 r pay s ∧ isCopy 0x1006 r s = false ∧ s.hif.copyJob = none ∧ standbys s = [] ∧ p.length = 48 ∧ u16 p 44 = 0 ∧ u8 p 1 = 2 ∧ 2 ≤ u8 p 0 ∧ u8 p 0 ≤ 7 ∧ (∀ w ∈ weightRanges, w.2.1 ≤ u32 p w.1 ∧ u32 p w.1 ≤ w.2.2)) ∧
    (∃ (r : Req) (s : State), let p := r.payload; Takes 0x1007 r [] s ∧ isCopy 0x1007 r s = false ∧ s.hif.copyJob = none ∧ standbys s = [] ∧ p.length = 44 ∧ s.dp.mode ≤ 1 ∧ u8 p 0 = 1) ∧
    (∃ (r : Req) (pay : List Byte) (s : State), Takes 0x1008 r pay s ∧ r.payload = []) ∧
    (∃ (r : Req) (s : State), let p := r.payload; Takes 0x1009 r [] s ∧ isCopy 0x1009 r s = false ∧ s.hif.copyJob = none ∧ standbys s = [] ∧ p.length = 16) ∧
    (∃ (r : Req) (s : State), let p := r.payload; Takes 0x100A r [] s ∧ isCopy 0x100A r s = false ∧ s.hif.copyJob = none ∧ standbys s = [] ∧ p.length = 16 ∧ u8 p 0 = 1 ∧ s.dp.mode ≠ 5 ∧ 50 ≤ u16 p 12 ∧ u16 p 12 ≤ 3000) :=
  ⟨⟨rq [1, 1], wZ st3, takes_of (by decide +kernel), by decide +kernel⟩,
    ⟨rq [2, 0], wM, takes_of (by decide +kernel), by decide +kernel⟩,
    ⟨rq (zf 32 [2, 0, 0, 0, 5, 0, 0, 0, 7]), { wM with dp := { wM.dp with mode := 4 } }, takes_of (by decide +kernel), by decide +kernel⟩,
    ⟨rq (zf 32 [2]), wM, takes_of (by decide +kernel), by decide +kernel⟩,
    ⟨rq thr1, wN, takes_of (by decide +kernel), by decide +kernel⟩,
    ⟨rq pow1, wN, takes_of (by decide +kernel), by decide +kernel⟩,
    ⟨rq ([1, 0, 1, 0] ++ zf 16 [0, 20, 100, 0, 100, 0, 3]), wM, takes_of (by decide +kernel), by decide +kernel⟩,
    ⟨rq (zf 8 [2, 2] ++ (([1000, 400000, 2000, 800000, 500, 200, 1000, 0, 10000].map (leBytes 4)).flatten) ++ [0, 0, 0, 0]), wM, takes_of (by decide +kernel), by decide +kernel⟩,
    ⟨rq (zf 44 [1, 0, 0, 0, 0, 0, 0, 0, 5]), wM, takes_of (by decide +kernel), by decide +kernel⟩,
    ⟨rq [], [1], wM, takes_of (by decide +kernel), rfl⟩,
    ⟨rq (zf 16 [1, 0, 0, 0, 5]), wM, takes_of (by decide +kernel), by decide +kernel⟩,
    ⟨rq (zf 12 [1, 0, 0, 0, 5] ++ [100, 0, 0, 0]), wM, takes_of (by decide +kernel), by decide +kernel⟩⟩

/-- A state and operands that meet the hypotheses of each clause of DpCopies. -/
theorem witness_DpCopies :
    (∃ (r : Req) (s : State), Takes 0x1009 r [] s ∧ isCopy 0x1009 r s = false ∧ s.hif.copyJob = none ∧ standbys s ≠ [] ∧ r.payload.length = 16) ∧
    (∃ (m : Fin 3) (j : Job) (s : State), s.hif.copyJob = some j ∧ j.wait = [m.val] ∧ j.code = 0x1009 ∧ j.differs = none) ∧
    (∃ (m : Fin 3) (j : Job) (s : State), s.hif.copyJob = some j ∧ m.val ∈ j.wait ∧ j.code = 0x1009) ∧
    (∃ (m : Fin 3) (j : Job) (s : State), s.hif.copyJob = some j ∧ j.wait = [m.val] ∧ j.code = 0x0401 ∧ j.differs = none) ∧
    (∃ (m : Fin 3) (x : Word) (j : Job) (s : State), s.hif.copyJob = some j ∧ j.wait = [m.val] ∧ j.code = 0x0401 ∧ j.differs = none ∧ x ≠ j.sig ∧ (isLoadedSig x s && s.mem.uncounted.any (·.1 = m.val)) = false) ∧
    (∃ (j : Job) (s : State), s.hif.copyJob = some j ∧ j.code ≠ 0x0401 ∧ j.differs = none) ∧
    (∃ (s : State), s.dp.mode = 2 ∧ s.dp.joyLost = false ∧ s.isMgrRole = true) :=
  ⟨⟨rq (zf 16 [1, 0, 0, 0, 5]), wJ, takes_of (by decide +kernel), by decide +kernel⟩,
    ⟨1, jb 0x1009 (zf 16 [1, 0, 0, 0, 5]), { wJ with hif := { wJ.hif with copyJob := some (jb 0x1009 (zf 16 [1, 0, 0, 0, 5])) } }, by decide +kernel⟩,
    ⟨1, jb 0x1009 (zf 16 [1, 0, 0, 0, 5]), { wJ with hif := { wJ.hif with copyJob := some (jb 0x1009 (zf 16 [1, 0, 0, 0, 5])) } }, by decide +kernel⟩,
    ⟨1, jb 0x0401 sd, { wJ with hif := { wJ.hif with copyJob := some (jb 0x0401 sd) } }, by decide +kernel⟩,
    ⟨1, 8, jb 0x0401 sd, { wJ with hif := { wJ.hif with copyJob := some (jb 0x0401 sd) } }, by decide +kernel⟩,
    ⟨jb 0x1009 (zf 16 [1, 0, 0, 0, 5]), { wJ with hif := { wJ.hif with copyJob := some (jb 0x1009 (zf 16 [1, 0, 0, 0, 5])) } }, by decide +kernel⟩,
    ⟨{ wM with dp := { wM.dp with mode := 2, joy := [1, 2, 3] } }, by decide +kernel⟩⟩

/-- A state and operands that meet the hypotheses of each clause of BoardCommands. -/
theorem witness_BoardCommands :
    (∃ (r : Req) (i : Image) (x : Sec) (rest : List Image) (s : State), let p := r.payload; let pay := leBytes 16 (pack [(32, i.epoch.toNat), (16, i.presence.toNat), (16, u16 p 6), (8, u8 p 8)]) ++ ((secBytes x).drop (u16 p 6)).take (u8 p 8); Takes 0x0201 r pay s ∧ r.dma = none ∧ p.length = 12 ∧ bit (u8 p 5) 0 = true ∧ s.brd.images = i :: rest ∧ s.brd.damaged.contains i.epoch = false ∧ u8 p 4 ≠ 0xFF ∧ imgSec i (u8 p 4) = some x ∧ 1 ≤ u8 p 8 ∧ u8 p 8 ≤ 224 ∧ u16 p 6 + u8 p 8 ≤ x.bytes) ∧
    (∃ (r : Req) (s : State), Takes 0x0201 r [] s ∧ r.payload.length = 12 ∧ s.brd.images = []) ∧
    (∃ (n : Fin 31) (r : Req) (s : State), let p := r.payload; Takes 0x0202 r [] s ∧ r.path = .slot n ∧ p.length = 24 ∧ ule p 0 8 % 4096 = 0 ∧ u32 p 8 = 16 ∧ s.brd.stream.on = false) ∧
    (∃ (r : Req) (s : State), let pay := leBytes 4 s.brd.stream.written; Takes 0x0203 r pay s ∧ r.payload = [] ∧ s.brd.stream.on = true) ∧
    (∃ (c : Word) (i : Image) (q : List Image) (s : State), let st := s.brd.stream; st.queue = i :: q ∧ st.on = true ∧ (wd st.written - c).toNat ≠ st.slots) ∧
    (∃ (c : Word) (i : Image) (q : List Image) (s : State), let st := s.brd.stream; st.queue = i :: q ∧ st.on = true ∧ (wd st.written - c).toNat = st.slots) ∧
    (∃ (r : Req) (s : State), let pay := words s.brd.counts; Takes 0x0204 r pay s ∧ r.payload.length = 1 ∧ s.mem.role ≠ .worker) ∧
    (∃ (r : Req) (s : State), let d := u8 r.payload 0; Takes 0x0205 r [] s ∧ r.payload.length = 2 ∧ d ≤ 63 ∧ d ∈ s.mem.pendingJoin.map (·.1) ∧ bit (u8 r.payload 1) 0 = false) ∧
    (∃ (r : Req) (s : State), let d := u8 r.payload 0; let pay := leBytes 4 (nextClose s).toNat; Takes 0x0206 r pay s ∧ r.payload.length = 1 ∧ d ≠ s.dev ∧ (s.brd.devices.getD d {}).member = true ∧ s.quorum ≤ membersAfter d s ∧ s.mem.leaving = []) ∧
    (∃ (r : Req) (s : State), let p := r.payload; Takes 0x0207 r [] s ∧ p.length = 8 ∧ 100 ≤ u16 p 2 ∧ u16 p 2 ≤ 5000 ∧ bit (u8 p 0) 1 = false) ∧
    (∃ (r : Req) (s : State), let p := r.payload; Takes 0x0207 r [] s ∧ p.length = 8 ∧ 100 ≤ u16 p 2 ∧ u16 p 2 ≤ 5000 ∧ bit (u8 p 0) 1 = true ∧ 5 ≤ u8 p 4 ∧ u8 p 4 ≤ 100 ∧ 2 ≤ u8 p 5 ∧ u8 p 5 ≤ 25 ∧ 20 ≤ u16 p 6 ∧ u16 p 6 ≤ 5 * u8 p 4 ∧ anyRun s = false) ∧
    (∃ (r : Req) (s : State), let p := r.payload; let pay := leBytes 4 (s.cfg.tableGen + 1).toNat; Takes 0x0208 r pay s ∧ p.length = 6 ∧ u8 p 0 = 1 ∧ u8 p 4 ≤ 63 ∧ ((u8 p 5 = 0x11 ∨ u8 p 5 = 0x43)) ∧ s.inRun = false ∧ s.mem.tableNext = none) :=
  ⟨⟨rq ([0, 0, 0, 0, 7, 1, 0, 0, 16, 0, 0, 0]), im7, { code := 7, bytes := 1040, val := 4 * 2 ^ 776 + 2 ^ 136 }, [], { wM with brd := { wM.brd with images := [im7] } }, takes_of (by decide +kernel), by decide +kernel⟩,
    ⟨rq (zf 12 []), wM, takes_of (by decide +kernel), by decide +kernel⟩,
    ⟨0, rq (leBytes 8 0x10000 ++ leBytes 4 16 ++ leBytes 8 0x8000 ++ zf 4 []), wM, takes_of (by decide +kernel), by decide +kernel⟩,
    ⟨rq [], { wM with brd := { wM.brd with stream := { on := true, slots := 16, written := 3 } } }, takes_of (by decide +kernel), by decide +kernel⟩,
    ⟨2, im7, [im], { wM with brd := { wM.brd with stream := { on := true, slots := 16, written := 3, base := 0x10000, queue := [im7, im] } } }, by decide +kernel⟩,
    ⟨3, im7, [im], { wM with brd := { wM.brd with stream := { on := true, slots := 16, written := 19, base := 0x10000, queue := [im7, im] } } }, by decide +kernel⟩,
    ⟨rq [1], { wM with brd := { wM.brd with counts := List.replicate 10 3 } }, takes_of (by decide +kernel), by decide +kernel⟩,
    ⟨rq [7, 0], { wM with mem := { wM.mem with pendingJoin := [7] } }, takes_of (by decide +kernel), by decide +kernel⟩,
    ⟨rq [7], { wM with cfg := { table := [(0, 1, 1), (7, 4, 3)] }, brd := { wM.brd with devices := (List.replicate 64 {}).set 7 { role := 4 } |>.set 0 { role := 1 } |>.set 8 { role := 4 } } }, takes_of (by decide +kernel), by decide +kernel⟩,
    ⟨rq (zf 2 [1] ++ leBytes 2 100 ++ zf 4 []), wM, takes_of (by decide +kernel), by decide +kernel⟩,
    ⟨rq (zf 2 [3] ++ leBytes 2 100 ++ [20, 5] ++ leBytes 2 60), wR, takes_of (by decide +kernel), by decide +kernel⟩,
    ⟨rq [1, 0, 0, 0, 5, 0x43], { wR with mem := { wR.mem with role := .active } }, takes_of (by decide +kernel), by decide +kernel⟩⟩

/-- A state and operands that meet the hypotheses of each clause of BoardEvents. -/
theorem witness_BoardEvents :
    (∃ (d : Fin 64) (s : State), s.isManager = true ∧ s.inRun = true ∧ d.val ≠ s.dev) ∧
    (∃ (d : Fin 64) (i : Image) (s : State), s.brd.open_ = some i ∧ s.isActive = true ∧ (s.brd.devices.getD d {}).member = true ∧ 3 ≤ (s.brd.devices.getD d {}).missed ∧ d.val ≠ s.dev ∧ s.brd.devices.length = 64 ∧ s.brd.thr.length = 24) ∧
    (∃ (e : Word) (s : State), s.inRun = true ∧ s.mem.role = .standby ∧ s.brd.images = [] ∧ 2 ≤ epochDiff s.cyc.epoch e) ∧
    (∃ (e : Word) (s : State), s.inRun = true ∧ s.mem.role = .worker ∧ s.brd.images = [] ∧ 2 ≤ epochDiff s.cyc.epoch e) ∧
    (∃ (i : Image) (s : State), s.inRun = true ∧ s.mem.role = .worker ∧ s.isManager = false ∧ i.publisher ≠ s.dev ∧ s.brd.images = [] ∧ (imgDev i s.dev).role = 4) :=
  ⟨⟨5, wM, by decide +kernel⟩,
    ⟨5, { epoch := 100 }, { wM with brd := { wM.brd with open_ := some { epoch := 100 }, devices := (List.replicate 64 {}).set 5 { role := 4, missed := 3 }, thr := (List.replicate 24 {}).set 2 { number := 3, dev := 5 } } }, by decide +kernel⟩,
    ⟨97, wS, by decide +kernel⟩,
    ⟨97, wK, by decide +kernel⟩,
    ⟨im7, wK, by decide +kernel⟩⟩

/-- A state and operands that meet the hypotheses of each clause of Selection. -/
theorem witness_Selection :
    ∃ (ms : List Nat) (rec_ : Nat → Option CmdRec) (m : Nat), m ∈ ms ∧ (rec_ m).isSome = true ∧ ms.length < 2 * (ms.countP fun n => rec_ n = rec_ m) :=
  ⟨[0, 1, 2], fun n => if n = 2 then none else some { thr := 1 }, 0, by decide +kernel⟩

/-- A state and operands that meet the hypotheses of each clause of CommandsAndRoles. -/
theorem witness_CommandsAndRoles :
    (∃ (m : Fin 3) (e : BitVec 16) (s : State), appliesCommands s = true ∧ m.val ≠ s.dev ∧ 0 < (e - s.cyc.epoch.setWidth 16).toInt) ∧
    (∃ (m : Fin 3) (e : BitVec 16) (s : State), appliesCommands s = true ∧ m.val ≠ s.dev ∧ (e - s.cyc.epoch.setWidth 16).toInt < 0) ∧
    (∃ (s : State), appliesCommands s = true ∧ s.loop.cmdDone = false ∧ s.cyc.holds = true ∧ cmdsHeld s = true) ∧
    (∃ (e : Word) (n : Nat) (q : CmdRec) (s : State), let x := select (shownActive s) (shownMgrs s) (cmdRec s (e.setWidth 16) (n + 1)); n < 24 ∧ s.loop.applied.length = 24 ∧ (x.cls.head?).bind (cmdRec s (e.setWidth 16) (n + 1)) = some q) ∧
    (∃ (r : Req) (pay : List Byte) (s : State), Takes 0x0C01 r pay s ∧ r.payload = []) ∧
    (∃ (r : Req) (s : State), let m := u8 r.payload 0; let pay := leBytes 4 (nextClose s + 2).toNat; Takes 0x0C02 r pay s ∧ r.payload.length = 1 ∧ m ∈ standbys s ∧ (s.sol.outcomes.getD m none).isSome = true ∧ s.brd.swapOn = false) ∧
    (∃ (r : Req) (s : State), let m := u8 r.payload 0; let pay := leBytes 4 (s.cyc.epoch + 1).toNat; Takes 0x0C03 r pay s ∧ r.payload.length = 1 ∧ m ∈ s.countedMgrs ∧ 2 ≤ s.countedMgrs.length) ∧
    (∃ (r : Req) (s : State), let w : BitVec 64 := BitVec.ofNat 64 (ule r.payload 0 8); let v : BitVec 64 := w &&& 0x0000FFFF00FFFFFF; Takes 0x0C04 r [] s ∧ r.payload.length = 8 ∧ 100 ≤ fld w 0 16 ∧ fld w 0 16 ≤ 5000 ∧ fld w 0 16 < 100 * s.cyc.c ∧ 1 ≤ fld w 16 8 ∧ fld w 16 8 ≤ 10 ∧ 1 ≤ fld w 32 16 ∧ fld w 32 16 ≤ 1000 ∧ standbysInRun s = []) :=
  ⟨⟨1, 101, wK, by decide +kernel⟩,
    ⟨1, 99, wK, by decide +kernel⟩,
    ⟨{ wK with brd := { wK.brd with images := [im7] }, loop := { wK.loop with cmds := [some (100, [{ thr := 3 }]), none, none] } }, by decide +kernel⟩,
    ⟨100, 2, { thr := 3 }, { wK with brd := { wK.brd with images := [im7] }, loop := { wK.loop with cmds := [some (100, [{ thr := 3 }]), none, none] } }, by decide +kernel⟩,
    ⟨rq [], [1], wM, takes_of (by decide +kernel), rfl⟩,
    ⟨rq [1], { wJ with sol := { wJ.sol with outcomes := [none, some 3, none] } }, takes_of (by decide +kernel), by decide +kernel⟩,
    ⟨rq [1], wJ, takes_of (by decide +kernel), by decide +kernel⟩,
    ⟨rq (leBytes 8 (10 * 2 ^ 32 + 3 * 2 ^ 16 + 1000)), wM, takes_of (by decide +kernel), by decide +kernel⟩⟩

/-- A state and operands that meet the hypotheses of each clause of MembershipFrames. -/
theorem witness_MembershipFrames :
    (∃ (net : Bool) (port : Bool) (m : Member) (s : State), linkRuns s = true ∧ portTalks s (portIx net port) = true ∧ m.device ≠ s.dev) ∧
    (∃ (net : Bool) (port : Bool) (m : Member) (s : State), s.rst.life = .ready ∧ portTalks s (portIx net port) = true ∧ m.device = s.dev) ∧
    (∃ (net : Bool) (port : Bool) (m : Member) (s : State), linkRuns s = true ∧ portTalks s (portIx net port) = true ∧ m.device ≠ s.dev ∧ s.isActive = true ∧ 2 < m.device ∧ m.device < 64 ∧ (s.brd.devices.getD m.device {}).role = 0 ∧ (s.cfg.table.any fun e => e.1 = m.device) = true ∧ s.cfg.autoJoin = true ∧ s.noRole = false) ∧
    (∃ (m : Member) (h : Handshake) (s : State), s.rst.life = .ready ∧ m.device ≠ s.dev ∧ m.addressee = s.dev ∧ m.status = 0 ∧ s.noRole = false ∧ s.safe.causes.getLsbD 12 = false ∧ refusesHandshake h s = false) ∧
    (∃ (m : Member) (s : State), s.rst.life = .ready ∧ m.device ≠ s.dev ∧ ((s.noRole = true ∨ s.safe.causes.getLsbD 12 = true))) ∧
    (∃ (m : Member) (s : State), s.rst.life = .cloakroom ∧ m.device ≠ s.dev ∧ m.addressee = s.dev) ∧
    (∃ (m : Member) (s : State), linkRuns s = true ∧ m.device ≠ s.dev ∧ s.isActive = true ∧ (s.brd.devices.getD m.device {}).member = true ∧ s.mem.leaving = []) ∧
    (∃ (m : Member) (s : State), linkRuns s = true ∧ m.device ≠ s.dev ∧ s.isActive = true ∧ m.subtype = 6) ∧
    (∃ (m : Member) (s : State), s.inRun = true ∧ m.device ≠ s.dev ∧ m.device < 3 ∧ s.mem.role = .worker ∧ s.brd.active ≠ m.device) ∧
    (∃ (s : State), s.rst.life = .ready ∧ s.noRole = false ∧ s.safe.causes.getLsbD 12 = false) ∧
    (∃ (s : State), s.rst.life = .cloakroom) ∧
    (∃ (s : State), s.isManager = true ∧ s.rst.life = .ready ∧ s.mem.role = .none ∧ s.safe.testsBad = [] ∧ s.safe.causes.getLsbD 12 = false ∧ activeHeard s = false ∧ hasQuorum s = true ∧ lowerHeard s = false ∧ s.brd.devices.length = 64 ∧ s.safe.causes &&& 0xFFFE = 0) ∧
    (∃ (s : State), s.isManager = true ∧ s.rst.life = .ready ∧ s.mem.role = .none ∧ s.safe.testsBad = [] ∧ s.safe.causes.getLsbD 12 = false ∧ activeHeard s = false ∧ hasQuorum s = false ∧ s.mem.noQuorum = false) ∧
    (∃ (i : Image) (rest : List Image) (s : State), s.inRun = true ∧ s.mem.role = .standby ∧ s.brd.active = 0 ∧ s.mem.silentSeen = 0 ∧ s.brd.images = i :: rest ∧ 1 + (lowerStandbys s : Int) < epochDiff s.cyc.epoch i.epoch ∧ s.mem.takeover = none ∧ hasQuorum s = true ∧ s.safe.causes = 0) :=
  ⟨⟨true, true, { device := 7 }, wP pU wM, by decide +kernel⟩,
    ⟨true, true, { device := 0 }, wP pU wR, by decide +kernel⟩,
    ⟨true, true, { device := 7, subtype := 2 }, wP pU { wM with cfg := { table := [(7, 4, 3)], autoJoin := true } }, by decide +kernel⟩,
    ⟨{ device := 1, addressee := 0, subtype := 3 }, { epochLen := 40, cycleLen := 4, closeOff := 100, epoch := 77, dpCycle := 9, active := 1, timeNs := 5000000, power := pow1, thrusters := [thr1] }, wR, by decide +kernel⟩,
    ⟨{ device := 1, addressee := 0, subtype := 3 }, { wR with safe := { wR.safe with causes := 0x1000, firstCause := 13 } }, by decide +kernel⟩,
    ⟨{ device := 1, addressee := 0, subtype := 3 }, { wM with rst := { wM.rst with life := .cloakroom } }, by decide +kernel⟩,
    ⟨{ device := 7, subtype := 4 }, { wM with brd := { wM.brd with devices := (List.replicate 64 {}).set 7 { role := 4 } } }, by decide +kernel⟩,
    ⟨{ device := 7, subtype := 6 }, wM, by decide +kernel⟩,
    ⟨{ device := 1, subtype := 5 }, wK, by decide +kernel⟩,
    ⟨wR, by decide +kernel⟩,
    ⟨{ wM with rst := { wM.rst with life := .cloakroom } }, by decide +kernel⟩,
    ⟨{ wR with cfg := { table := [(0, 1, 1)] } }, by decide +kernel⟩,
    ⟨{ wR with cfg := { table := [(0, 1, 1), (1, 1, 1), (5, 4, 3)] } }, by decide +kernel⟩,
    ⟨im7, [], { wS with cfg := { table := [(1, 1, 1)] }, brd := { wS.brd with images := [im7] }, cyc := { wS.cyc with epoch := 101 } }, by decide +kernel⟩⟩

/-- A state and operands that meet the hypotheses of each clause of EpochClock. -/
theorem witness_EpochClock :
    (∃ (s : State), s.rst.life ≠ .reset) ∧
    (∃ (s : State), s.cyc.holds = true ∧ s.brd.swapOn = false) ∧
    (∃ (s : State), s.cyc.holds = false ∧ s.isActive = true ∧ s.brd.swapOn = false) ∧
    (∃ (s : State), s.isActive = true ∧ s.cyc.holds = true ∧ s.cyc.closed ≠ some s.cyc.epoch ∧ closeTooSoon s = false) ∧
    (∃ (o : Image) (s : State), s.isActive = true ∧ s.brd.open_ = some o) ∧
    (∃ (o : Image) (s : State), s.isActive = true ∧ s.brd.open_ = some o ∧ ((∀ x ∈ o.secs, x.code = 0 ∨ x.code = 10))) :=
  ⟨⟨wM, by decide +kernel⟩,
    ⟨wM, by decide +kernel⟩,
    ⟨{ wM with cyc := {} }, by decide +kernel⟩,
    ⟨{ wM with brd := { wM.brd with held := [{ rec_ := { epoch := 100, kind := 1, src := 5 } }, { pos := 1, rec_ := { epoch := 99, kind := 1, src := 5 } }, { pos := 2, rec_ := { epoch := 101, kind := 1, src := 5 } }] } }, by decide +kernel⟩,
    ⟨{ epoch := 100 }, { wM with brd := { wM.brd with open_ := some { epoch := 100 } } }, by decide +kernel⟩,
    ⟨{ epoch := 100 }, { wM with brd := { wM.brd with open_ := some { epoch := 100 } } }, by decide +kernel⟩⟩

/-- A state and operands that meet the hypotheses of each clause of BatchedRules. -/
theorem witness_BatchedRules :
    (∃ (n : Fin 24) (s : State), let r := s.brd.thr.getD n {}; s.isMgrRole = true ∧ r.number ≠ 0 ∧ 3 ≤ r.quiet ∧ r.reason ≠ 6 ∧ r.reason ≠ 1 ∧ r.reason ≠ 4) ∧
    (∃ (n : Fin 6) (s : State), let r := s.brd.pow.getD n {}; s.isMgrRole = true ∧ r.number ≠ 0 ∧ r.alarm = false ∧ 3 ≤ r.overRun) ∧
    (∃ (n : Fin 6) (s : State), let r := s.brd.pow.getD n {}; s.isMgrRole = true ∧ r.number ≠ 0 ∧ r.alarm = true ∧ 3 ≤ r.okRun ∧ (s.brd.pow.set n { r with alarm := false }).all (fun x => !x.alarm) = true) ∧
    (∃ (m : Fin 3) (s : State), m.val = s.dev ∧ s.isMgrRole = true ∧ fld s.cfg.redundancy 16 8 ≤ s.mem.minority.getD m 0 ∧ s.safe.causes.getLsbD 15 = false) ∧
    (∃ (s : State), s.mem.splitOn = true ∧ s.mem.splitLeft = 0) ∧
    (∃ (c : BitVec 16) (j : BitVec 8) (a : Alarm) (s : State), s.isActive = true ∧ s.brd.alarms = [a] ∧ a.code = c ∧ a.subject = j.toNat ∧ alarmOver s a = true) ∧
    (∃ (n : Fin 16) (s : State), s.isMgrRole = true ∧ s.dp.conseqFailed.getLsbD n = false ∧ 3 ≤ (scenOf s n).getD 1 0) ∧
    (∃ (n : Fin 16) (s : State), s.isMgrRole = true ∧ s.dp.conseqStale.getLsbD n = false ∧ 50 ≤ (scenOf s n).getD 2 0) ∧
    (∃ (s : State), s.isMgrRole = true ∧ s.dp.degradedPlan = false ∧ 5 ≤ s.dp.shiftRun) ∧
    (∃ (s : State), s.isMgrRole = true ∧ 20 ≤ s.dp.shiftRun ∧ 2 ≤ s.dp.mode ∧ s.dp.mode ≤ 6) ∧
    (∃ (s : State), s.isActive = true ∧ 3 ≤ s.mem.quorumRuns) ∧
    (∃ (m : BitVec 24) (s : State), s.dp.building = some m ∧ s.dp.derived = none ∧ s.isMgrRole = true) :=
  ⟨⟨1, wE { number := 1, quiet := 3 }, by decide +kernel⟩,
    ⟨1, wW { number := 1, overRun := 3 }, by decide +kernel⟩,
    ⟨1, { wM with brd := { wM.brd with pow := (List.replicate 6 {}).set 1 { number := 1, alarm := true, okRun := 3 } } }, by decide +kernel⟩,
    ⟨0, { wM with mem := { wM.mem with minority := [3, 0, 0] } }, by decide +kernel⟩,
    ⟨{ wM with mem := { wM.mem with splitOn := true } }, by decide +kernel⟩,
    ⟨0x0910, 5, { code := 0x0910, subject := 5, quiet := 3 }, { wM with brd := { wM.brd with alarms := [{ code := 0x0910, subject := 5, quiet := 3 }] } }, by decide +kernel⟩,
    ⟨1, { wM with dp := { wM.dp with scen := List.replicate 16 [0, 3, 50, 0, 0, 0, 0, 0] } }, by decide +kernel⟩,
    ⟨1, { wM with dp := { wM.dp with scen := List.replicate 16 [0, 3, 50, 0, 0, 0, 0, 0] } }, by decide +kernel⟩,
    ⟨{ wM with dp := { wM.dp with shiftRun := 5 } }, by decide +kernel⟩,
    ⟨{ wM with dp := { wM.dp with shiftRun := 20, mode := 4 } }, by decide +kernel⟩,
    ⟨{ wM with mem := { wM.mem with quorumRuns := 3 } }, by decide +kernel⟩,
    ⟨3, { wM with dp := { wM.dp with building := some 3 } }, by decide +kernel⟩⟩

/-- A state and operands that meet the hypotheses of each clause of SingleErrorsCorrected. -/
theorem witness_SingleErrorsCorrected :
    ∃ (w : Nat) (p : Nat), w < 2 ^ 80 ∧ p < 80 ∧ parityDecode w = .clean :=
  ⟨0, 79, by decide +kernel⟩

/-- A state and operands that meet the hypotheses of each clause of MemoryProtection. -/
theorem witness_MemoryProtection :
    (∃ (n : Fin 9) (a : Nat) (w : Nat) (s : State), scrubRuns s n = true ∧ (regionOf s n).scrubAt = a ∧ 0 < a ∧ (regionWords n).all (a < ·) = true ∧ eccOf n w = .clean) ∧
    (∃ (n : Fin 9) (a : Nat) (w : Nat) (p : Nat) (s : State), scrubRuns s n = true ∧ (regionOf s n).scrubAt = a ∧ 0 < a ∧ (regionWords n).all (a < ·) = true ∧ eccOf n w = .fixed p ∧ s.memp.regions.length = 9) ∧
    (∃ (a : Nat) (w : Nat) (y : Nat) (s : State), scrubRuns s 2 = true ∧ (regionOf s 2).scrubAt = a ∧ 0 < a ∧ a < 2 ^ 19 ∧ eccOf 2 w = .bad y) ∧
    (∃ (a : Nat) (w : Nat) (y : Nat) (s : State), scrubRuns s 3 = true ∧ (regionOf s 3).scrubAt = a ∧ 0 < a ∧ a < 2 ^ 18 ∧ eccOf 3 w = .bad y) ∧
    (∃ (n : Fin 9) (a : Nat) (w : Nat) (y : Nat) (s : State), n.val ≠ 2 ∧ n.val ≠ 3 ∧ scrubRuns s n = true ∧ (regionOf s n).scrubAt = a ∧ 0 < a ∧ (regionWords n).all (a < ·) = true ∧ eccOf n w = .bad y) ∧
    (∃ (n : Fin 9) (k : Nat) (w : Nat) (s : State), scrubRuns s n = true ∧ s.memp.regions.length = 9 ∧ (regionOf s n).scrubAt = k ∧ 0 < k ∧ ((n.val = 8 ∨ regionWords n = some k)) ∧ eccOf n w = .clean) ∧
    (∃ (n : Fin 9) (s : State), scrubRuns s n = false) ∧
    (∃ (n : Fin 9) (a : Nat) (s : State), s.memp.regions.length = 9 ∧ a ∈ (regionOf s n).writeBacks) ∧
    (∃ (n : Fin 9) (s : State), regionHere s n = true ∧ ((s.rst.life = .run ∨ s.rst.life = .ready))) ∧
    (∃ (s : State), ((s.rst.life = .run ∨ s.rst.life = .ready)) ∧ s.memp.regions.length = 9) ∧
    (∃ (r : Req) (s : State), let n := u8 r.payload 0; let g := regionOf s n; let pay := leBytes 4 (pack [(8, n), (8, (symbolCoded n).toNat)]) ++ words [g.corrected, g.uncorrectable, (s.mram.hardSites.getD n []).length, g.passes, g.lastPassMs, g.rmw, g.merge] ++ leBytes 8 g.lastAddr; Takes 0x0D01 r pay s ∧ r.payload.length = 2 ∧ n ≤ 8 ∧ regionHere s n = true) ∧
    (∃ (r : Req) (s : State), let m := u16 r.payload 0; Takes 0x0D02 r [] s ∧ r.payload.length = 2 ∧ s.variant ≠ .WK ∧ 30 ≤ m ∧ m ≤ 4320) ∧
    (∃ (r : Req) (s : State), Takes 0x0D02 r [] s ∧ r.payload.length = 2 ∧ s.variant ≠ .WK ∧ ((u16 r.payload 0 < 30 ∨ 4320 < u16 r.payload 0))) :=
  ⟨⟨2, 7, 0, wH { scrubAt := 7 }, by decide +kernel⟩,
    ⟨7, 7, 2 ^ 79, 79, wH { scrubAt := 7 }, by decide +kernel⟩,
    ⟨2 ^ 19 - 1, 2 ^ 64 + 2 ^ 65, 3, wH { scrubAt := 2 ^ 19 - 1 }, by decide +kernel⟩,
    ⟨2 ^ 18 - 1, 2 ^ 64 + 2 ^ 65, 3, wH { scrubAt := 2 ^ 18 - 1 }, by decide +kernel⟩,
    ⟨0, 7, 2 ^ 64 + 2 ^ 65, 3, wH { scrubAt := 7 }, by decide +kernel⟩,
    ⟨0, 2 ^ 20, 0, wH { scrubAt := 2 ^ 20, sites := [(7, 79, true)] }, by decide +kernel⟩,
    ⟨0, wK, by decide +kernel⟩,
    ⟨2, 5, wH { writeBacks := [5], sites := [(5, 3, false)] }, by decide +kernel⟩,
    ⟨2, wM, by decide +kernel⟩,
    ⟨wH {}, by decide +kernel⟩,
    ⟨rq [2, 1], wM, takes_of (by decide +kernel), by decide +kernel⟩,
    ⟨rq (leBytes 2 4320), wM, takes_of (by decide +kernel), by decide +kernel⟩,
    ⟨rq (leBytes 2 4321), wM, takes_of (by decide +kernel), by decide +kernel⟩⟩

/-- A state and operands that meet the hypotheses of each clause of ResetSources. -/
theorem witness_ResetSources :
    (∃ (s : State), ((s.rst.life = .selftest ∨ s.rst.life = .ready ∨ s.rst.life = .run)) ∧ s.rst.delayed = some 4) ∧
    (∃ (s : State), s.rst.asserted = 0 ∧ s.rst.life = .loading) ∧
    (∃ (s : State), s.safe.causes = 0 ∧ s.rst.life = .run) ∧
    (∃ (s : State), s.safe.causes = 0 ∧ s.rst.life = .run ∧ s.safe.mittenMask = 0) :=
  ⟨⟨{ wM with rst := { wM.rst with delayed := some 4 }, safe := { wM.safe with causes := 4, firstCause := 3 } }, by decide +kernel⟩,
    ⟨wB 3, by decide +kernel⟩,
    ⟨wM, by decide +kernel⟩,
    ⟨wM, by decide +kernel⟩⟩

/-- A state and operands that meet the hypotheses of each clause of ReleaseOrder. -/
theorem witness_ReleaseOrder :
    (∃ (s : State), s.rst.life = .reset ∧ s.rst.asserted.getLsbD 0 = true ∧ s.safe.refOk = true) ∧
    (∃ (s : State), s.rst.life = .reset ∧ s.rst.asserted = 4 ∧ s.safe.refOk = true) ∧
    (∃ (s : State), s.rst.life = .reset ∧ s.rst.step = 2) ∧
    (∃ (s : State), s.rst.life = .reset ∧ s.rst.asserted = 0 ∧ s.safe.refOk = true ∧ s.rst.step = 1) ∧
    (∃ (s : State), s.rst.life = .reset ∧ s.rst.asserted = 0 ∧ s.safe.refOk = true ∧ s.rst.step = 2 ∧ s.rst.pllLocked = true ∧ s.rst.trimOk = true ∧ s.mram.failCount < 3) ∧
    (∃ (s : State), s.rst.life = .reset ∧ s.rst.asserted = 0 ∧ s.safe.refOk = true ∧ s.rst.step = 2 ∧ s.rst.pllLocked = true ∧ s.rst.trimOk = true ∧ 3 ≤ s.mram.failCount) ∧
    (∃ (s : State), s.rst.life = .loading ∧ s.rst.step = 5 ∧ s.safe.railBad.getLsbD 0 = false) ∧
    (∃ (s : State), s.rst.life = .loading ∧ s.rst.step = 4) ∧
    (∃ (s : State), s.rst.life = .loading ∧ s.rst.step = 3 ∧ s.strap 10 = false ∧ s.fw.prefB = false) ∧
    (∃ (f : List Byte) (s : State), let d := Memory.readAll s.hif.ram (slotAddr 0) 16; s.rst.life = .loading ∧ s.rst.step = 3 ∧ s.variant ≠ .WK ∧ s.strap 10 = true ∧ u16 d 12 = 0xB007 ∧ crc16 (d.take 14) = u16 d 14 ∧ d ≠ s.rst.badDesc ∧ u32 d 8 ≠ 0 ∧ u32 d 8 ≤ 3145728 ∧ ule d 0 8 % 8 = 0 ∧ f.length = u32 d 8) ∧
    (∃ (s : State), s.inRun = true ∧ s.mram.failCount ≠ 0) :=
  ⟨⟨wQ 1 1, by decide +kernel⟩,
    ⟨wQ 4 1, by decide +kernel⟩,
    ⟨wQ 0 2, by decide +kernel⟩,
    ⟨wQ 0 1, by decide +kernel⟩,
    ⟨wQ 0 2, by decide +kernel⟩,
    ⟨{ wQ 0 2 with mram := { failCount := 3 } }, by decide +kernel⟩,
    ⟨wB 5, by decide +kernel⟩,
    ⟨wB 4, by decide +kernel⟩,
    ⟨{ wB 3 with fw := { validA := true, imgA := [1, 2] } }, by decide +kernel⟩,
    ⟨[1, 2, 3, 4, 5, 6, 7, 8], { wB 3 with rst := { (wB 3).rst with straps := 0x440 }, hif := { ram := Memory.writeAll [] (slotAddr 0) (bd ++ leBytes 2 (crc16 bd)) } }, by decide +kernel⟩,
    ⟨{ wM with mram := { failCount := 2 } }, by decide +kernel⟩⟩

/-- A state and operands that meet the hypotheses of each clause of SelftestAndFirmware. -/
theorem witness_SelftestAndFirmware :
    (∃ (x : TestResult) (s : State), s.rst.life = .selftest ∧ s.tests.startup = [x.code] ∧ s.tests.running = none ∧ x.code ≠ 0x11 ∧ x.passed = true) ∧
    (∃ (x : TestResult) (s : State), s.tests.running = some x.code ∧ x.code ≠ 0x11 ∧ x.passed = false) ∧
    (∃ (x : TestResult) (s : State), s.rst.life = .run ∧ ((x.code = 1 ∨ x.code = 3)) ∧ x.passed = false) ∧
    (∃ (r : Req) (s : State), Takes 0x0E01 r [] s ∧ r.payload.length = 4 ∧ ((u8 r.payload 0 = 1 ∨ u8 r.payload 0 = 3)) ∧ s.tests.running = none ∧ s.tests.waiting = none) ∧
    (∃ (r : Req) (s : State), Takes 0x0E01 r [] s ∧ r.payload.length = 4 ∧ u8 r.payload 0 = 0x13 ∧ s.rst.life = .ready ∧ s.tests.running = none ∧ s.tests.waiting = none) ∧
    (∃ (r : Req) (pay : List Byte) (s : State), Takes 0x0E02 r pay s ∧ r.payload = []) ∧
    (∃ (n : Fin 31) (r : Req) (s : State), Takes 0x0F01 r [] s ∧ r.path = .slot n ∧ r.payload = [0, 0xA5] ∧ s.mem.role = .none ∧ s.rst.delayed = none) ∧
    (∃ (r : Req) (s : State), let p := r.payload; let pay := leBytes 8 0; Takes 0x0F02 r pay s ∧ p.length = 12 ∧ u8 p 0 = 0 ∧ u8 p 1 = 0 ∧ s.fw.source ≠ 0 ∧ 1 ≤ u32 p 8 ∧ u32 p 8 ≤ 8388608) ∧
    (∃ (r : Req) (n : Nat) (s : State), let p := r.payload; let u := { s with fw := { s.fw with chunks := [(0, p.drop 12)] } }; Takes 0x0F02 r (loadAnswer u) s ∧ u8 p 0 = 1 ∧ u8 p 1 = 0 ∧ s.fw.source ≠ 0 ∧ s.fw.load = some (0, n) ∧ s.fw.chunks = [] ∧ u32 p 4 = 0 ∧ 12 < p.length ∧ p.length ≤ 236 ∧ p.length - 12 ≤ n) ∧
    (∃ (r : Req) (s : State), let pay := leBytes 1 s.mram.failCount; Takes 0x0F03 r pay s ∧ r.payload = []) ∧
    (∃ (r : Req) (l : List (Nat × List Byte)) (c : Cfg) (s : State), let p := r.payload; let base := match newerBank s.mram with | some x => x.2.body | none => s.cfg; Takes 0x0F04 r (leBytes 4 (u32 p 0)) s ∧ s.strap 7 = false ∧ s.inRun = false ∧ 16 ≤ p.length ∧ u32 p 4 = (p.drop 16).length ∧ u32 p 8 = crc32 (p.drop 16) ∧ subRecords ((p.drop 16).length / 4) (p.drop 16) = some l ∧ composed s.isManager l = true ∧ checkRecords l (if s.isManager then { base with thrusters := List.replicate 24 [], power := [] } else base) = .ok c) :=
  ⟨⟨{ code := 2, passed := true }, { wR with rst := { wR.rst with life := .selftest }, tests := { startup := [2] } }, by decide +kernel⟩,
    ⟨{ code := 3, passed := false }, { wM with tests := { running := some 3 } }, by decide +kernel⟩,
    ⟨{ code := 3, passed := false }, wM, by decide +kernel⟩,
    ⟨rq [1, 0, 7, 0], wM, takes_of (by decide +kernel), by decide +kernel⟩,
    ⟨rq [0x13, 0, 7, 0], wR, takes_of (by decide +kernel), by decide +kernel⟩,
    ⟨rq [], [1], wM, takes_of (by decide +kernel), rfl⟩,
    ⟨0, rq [0, 0xA5], wR, takes_of (by decide +kernel), by decide +kernel⟩,
    ⟨rq (zf 8 [] ++ leBytes 4 100), { wM with fw := { source := 1, imgA := [1], validA := true } }, takes_of (by decide +kernel), by decide +kernel⟩,
    ⟨rq (zf 12 [1] ++ [1, 2, 3]), 100, { wM with fw := { source := 1, load := some (0, 100) } }, takes_of (by decide +kernel), by decide +kernel⟩,
    ⟨rq [], { wM with mram := { failCount := 2 } }, takes_of (by decide +kernel), by decide +kernel⟩,
    ⟨rq (leBytes 4 7 ++ leBytes 4 60 ++ leBytes 4 (crc32 si0) ++ zf 4 [] ++ si0), [(0x0901, sc0)], { (wM.cfg) with safeGlobal := safeGlob sc0, so := safeSo sc0, si := safeSi sc0 }, { wR with rst := { wR.rst with straps := 0x105 } }, takes_of (by decide +kernel), by decide +kernel⟩⟩

end Sys2Proof.Tests
end

section
/-! SUPPORT. What every command and event keeps: `Keeps` at the level of `exec`, and the queue and the variant also through the resets
of scope FULL and the release sequences; with the unit-presence word (R3) that follows. -/

namespace Sys2Proof.Machine

/-- The commands and events that may change what `Keeps` names: the resets of scope FULL, the release of a reset and the release
sequence on SAFE_RESET_N (R301, R544, R545). -/
def resetsOrReleases : Instr → Bool
  | .powerOnReset | .brownOut | .resetRelease _ _ | .safeResetNRise _ => true
  | _ => false

/-- Row by row of the dispatch table. -/
theorem resKeeps_exec (s : State) : ∀ i : Instr, resetsOrReleases i = false → ResKeeps s (exec i s)
  | .identify r, _ => keeps_execIdentify r s (keeps_refl s)
  | .heartbeat r, _ => keeps_execHeartbeat r s (keeps_refl s)
  | .hostConfig r, _ => keeps_execHostConfig r s (keeps_refl s)
  | .hostStatus r, _ => keeps_execHostStatus r s (keeps_refl s)
  | .boardRead r, _ => keeps_execBoardRead r s (keeps_refl s)
  | .boardStreamStart r, _ => keeps_execBoardStreamStart r s (keeps_refl s)
  | .boardStreamStop r, _ => keeps_execBoardStreamStop r s (keeps_refl s)
  | .boardStatus r, _ => keeps_execBoardStatus r s (keeps_refl s)
  | .joinPermit r, _ => keeps_execJoinPermit r s (keeps_refl s)
  | .leave r, _ => keeps_execLeave r s (keeps_refl s)
  | .memberConfig r, _ => keeps_execMemberConfig r s (keeps_refl s)
  | .installTable r, _ => keeps_execInstallTable r s (keeps_refl s)
  | .streamDefine r, _ => keeps_execStreamDefine r s (keeps_refl s)
  | .streamRead r, _ => keeps_execStreamRead r s (keeps_refl s)
  | .transformLoad r, _ => keeps_execTransformLoad r s (keeps_refl s)
  | .refPrefer r, _ => keeps_execRefPrefer r s (keeps_refl s)
  | .observerConfig r, _ => keeps_execObserverConfig r s (keeps_refl s)
  | .streamStatus r, _ => keeps_execStreamStatus r s (keeps_refl s)
  | .stallLoadStructure r, _ => keeps_execStallLoadStructure r s (keeps_refl s)
  | .stallDelta r, _ => keeps_execStallDelta r s (keeps_refl s)
  | .stallConfig r, _ => keeps_execStallConfig r s (keeps_refl s)
  | .stallSolve r, _ => keeps_execStallSolve r s (keeps_refl s)
  | .stallStatus r, _ => keeps_execStallStatus r s (keeps_refl s)
  | .stallRead r, _ => keeps_execStallRead r s (keeps_refl s)
  | .loopDefine r, _ => keeps_execLoopDefine r s (keeps_refl s)
  | .loopCoefWrite r, _ => keeps_execLoopCoefWrite r s (keeps_refl s)
  | .loopControl r, _ => keeps_execLoopControl r s (keeps_refl s)
  | .traceArm r, _ => keeps_execTraceArm r s (keeps_refl s)
  | .traceRead r, _ => keeps_execTraceRead r s (keeps_refl s)
  | .loopStatus r, _ => keeps_execLoopStatus r s (keeps_refl s)
  | .filterConfig r, _ => keeps_execFilterConfig r s (keeps_refl s)
  | .filterBankLoad r, _ => keeps_execFilterBankLoad r s (keeps_refl s)
  | .filterBankSwap r, _ => keeps_execFilterBankSwap r s (keeps_refl s)
  | .dcbFreeze r, _ => keeps_execDcbFreeze r s (keeps_refl s)
  | .filterStatus r, _ => keeps_execFilterStatus r s (keeps_refl s)
  | .aoConfig r, _ => keeps_execAoConfig r s (keeps_refl s)
  | .canConfig r, _ => keeps_execCanConfig r s (keeps_refl s)
  | .canAutobaud r, _ => keeps_execCanAutobaud r s (keeps_refl s)
  | .canTx r, _ => keeps_execCanTx r s (keeps_refl s)
  | .canCancel r, _ => keeps_execCanCancel r s (keeps_refl s)
  | .canStatus r, _ => keeps_execCanStatus r s (keeps_refl s)
  | .canRxRead r, _ => keeps_execCanRxRead r s (keeps_refl s)
  | .canRouteDefine r, _ => keeps_execCanRouteDefine r s (keeps_refl s)
  | .uartConfig r, _ => keeps_execUartConfig r s (keeps_refl s)
  | .uartStatus r, _ => keeps_execUartStatus r s (keeps_refl s)
  | .uartRxRead r, _ => keeps_execUartRxRead r s (keeps_refl s)
  | .uartTx r, _ => keeps_execUartTx r s (keeps_refl s)
  | .lan61162Config r, _ => keeps_execLan61162Config r s (keeps_refl s)
  | .timeConfig r, _ => keeps_execTimeConfig r s (keeps_refl s)
  | .timeAcceptStep r, _ => keeps_execTimeAcceptStep r s (keeps_refl s)
  | .timeStatus r, _ => keeps_execTimeStatus r s (keeps_refl s)
  | .safeConfig r, _ => keeps_execSafeConfig r s (keeps_refl s)
  | .safeStatus r, _ => keeps_execSafeStatus r s (keeps_refl s)
  | .unlock r, _ => keeps_execUnlock r s (keeps_refl s)
  | .changelogRead r, _ => keeps_execChangelogRead r s (keeps_refl s)
  | .safeRequest r, _ => keeps_execSafeRequest r s (keeps_refl s)
  | .recordCursorSet r, _ => keeps_execRecordCursorSet r s (keeps_refl s)
  | .recordWindowRead r, _ => keeps_execRecordWindowRead r s (keeps_refl s)
  | .histoRead r, _ => keeps_execHistoRead r s (keeps_refl s)
  | .quotaSet r, _ => keeps_execQuotaSet r s (keeps_refl s)
  | .histoConfig r, _ => keeps_execHistoConfig r s (keeps_refl s)
  | .archiveStatus r, _ => keeps_execArchiveStatus r s (keeps_refl s)
  | .archiveRead r, _ => keeps_execArchiveRead r s (keeps_refl s)
  | .flowDefine r, _ => keeps_execFlowDefine r s (keeps_refl s)
  | .linkStatus r, _ => keeps_execLinkStatus r s (keeps_refl s)
  | .linkPortControl r, _ => keeps_execLinkPortControl r s (keeps_refl s)
  | .roleStatus r, _ => keeps_execRoleStatus r s (keeps_refl s)
  | .roleSwap r, _ => keeps_execRoleSwap r s (keeps_refl s)
  | .mgrSilence r, _ => keeps_execMgrSilence r s (keeps_refl s)
  | .redundancyConfig r, _ => keeps_execRedundancyConfig r s (keeps_refl s)
  | .memStatus r, _ => keeps_execMemStatus r s (keeps_refl s)
  | .scrubConfig r, _ => keeps_execScrubConfig r s (keeps_refl s)
  | .selftestRun r, _ => keeps_execSelftestRun r s (keeps_refl s)
  | .selftestStatus r, _ => keeps_execSelftestStatus r s (keeps_refl s)
  | .deviceReset r, _ => keeps_execDeviceReset r s (keeps_refl s)
  | .fwLoad r, _ => keeps_execFwLoad r s (keeps_refl s)
  | .failcountClear r, _ => keeps_execFailcountClear r s (keeps_refl s)
  | .safeImageLoad r, _ => keeps_execSafeImageLoad r s (keeps_refl s)
  | .dpModeSet r, _ => keeps_execDpModeSet r s (keeps_refl s)
  | .setpointSet r, _ => keeps_execSetpointSet r s (keeps_refl s)
  | .thrusterDefine r, _ => keeps_execThrusterDefine r s (keeps_refl s)
  | .powerDefine r, _ => keeps_execPowerDefine r s (keeps_refl s)
  | .conseqConfig r, _ => keeps_execConseqConfig r s (keeps_refl s)
  | .dpWeights r, _ => keeps_execDpWeights r s (keeps_refl s)
  | .fallbackLoad r, _ => keeps_execFallbackLoad r s (keeps_refl s)
  | .dpStatus r, _ => keeps_execDpStatus r s (keeps_refl s)
  | .joystickDemand r, _ => keeps_execJoystickDemand r s (keeps_refl s)
  | .trackLoad r, _ => keeps_execTrackLoad r s (keeps_refl s)
  | .hifDoorbell v, _ => keeps_execHifDoorbell v s (keeps_refl s)
  | .hifMbxDone v, _ => keeps_execHifMbxDone v s (keeps_refl s)
  | .hifIrqStat v, _ => keeps_execHifIrqStat v s (keeps_refl s)
  | .hifIrqEn v, _ => keeps_execHifIrqEn v s (keeps_refl s)
  | .hifHeartbeat v, _ => keeps_execHifHeartbeat v s (keeps_refl s)
  | .bar0OtherWrite off bytes, _ => keeps_execBar0OtherWrite off bytes s (keeps_refl s)
  | .udpMailboxDatagram mac dst src port checksumOk bytes, _ => keeps_execUdpMailboxDatagram mac dst src port checksumOk bytes s (keeps_refl s)
  | .udpResponseExpiry src port tag, _ => keeps_execUdpResponseExpiry src port tag s (keeps_refl s)
  | .notification, _ => keeps_execNotification s (keeps_refl s)
  | .endpointReset kind, _ => keeps_execEndpointReset kind s (keeps_refl s)
  | .dmaReadDone ok bytes, _ => keeps_execDmaReadDone ok bytes s (keeps_refl s)
  | .dmaReadTimeout, _ => keeps_execDmaReadTimeout s (keeps_refl s)
  | .mbxRelayFrame src seq replay bytes, _ => keeps_execMbxRelayFrame src seq replay bytes s (keeps_refl s)
  | .relayAnswer src seq bytes, _ => keeps_execRelayAnswer src seq bytes s (keeps_refl s)
  | .relayResend seq, _ => keeps_execRelayResend seq s (keeps_refl s)
  | .deviceResetDelay, _ => keeps_execDeviceResetDelay s (keeps_refl s)
  | .hostLost path, _ => keeps_execHostLost path s (keeps_refl s)
  | .copyConfirm mgr status signature, _ => keeps_execCopyConfirm mgr status signature s (keeps_refl s)
  | .copyConfirmTimeout, _ => keeps_execCopyConfirmTimeout s (keeps_refl s)
  | .sourceDevConfirmTimeout, _ => keeps_execSourceDevConfirmTimeout s (keeps_refl s)
  | .sysrstN, _ => keeps_execSysrstN s (keeps_refl s)
  | .supWatchdog, _ => keeps_execSupWatchdog s (keeps_refl s)
  | .startTimeout, _ => keeps_execStartTimeout s (keeps_refl s)
  | .releaseGapExpiry, _ => keeps_execReleaseGapExpiry s (keeps_refl s)
  | .pllLock, _ => keeps_execPllLock s (keeps_refl s)
  | .bootRomDone, _ => keeps_execBootRomDone s (keeps_refl s)
  | .pcieBootPoll fetched, _ => keeps_execPcieBootPoll fetched s (keeps_refl s)
  | .ddr4TrainingDone, _ => keeps_execDdr4TrainingDone s (keeps_refl s)
  | .failedStartClearTimer, _ => keeps_execFailedStartClearTimer s (keeps_refl s)
  | .selftestComplete r, _ => keeps_execSelftestComplete r s (keeps_refl s)
  | .periodicSelftest r, _ => keeps_execPeriodicSelftest r s (keeps_refl s)
  | .mittenMismatch pair, _ => keeps_execMittenMismatch pair s (keeps_refl s)
  | .clockFault domain inRange, _ => keeps_execClockFault domain inRange s (keeps_refl s)
  | .refCrystalFault, _ => keeps_execRefCrystalFault s (keeps_refl s)
  | .supplyFault rail level, _ => keeps_execSupplyFault rail level s (keeps_refl s)
  | .overtemp celsius, _ => keeps_execOvertemp celsius s (keeps_refl s)
  | .scDisagree agree, _ => keeps_execScDisagree agree s (keeps_refl s)
  | .faultReactionCounter path, _ => keeps_execFaultReactionCounter path s (keeps_refl s)
  | .glovePulseStart out, _ => keeps_execGlovePulseStart out s (keeps_refl s)
  | .gloveOffWindowEnd out seen, _ => keeps_execGloveOffWindowEnd out seen s (keeps_refl s)
  | .glovePulseEnd out, _ => keeps_execGlovePulseEnd out s (keeps_refl s)
  | .gloveReturnWindowEnd out high, _ => keeps_execGloveReturnWindowEnd out high s (keeps_refl s)
  | .staticReadbackMismatch out high, _ => keeps_execStaticReadbackMismatch out high s (keeps_refl s)
  | .siChannelChange ch high, _ => keeps_execSiChannelChange ch high s (keeps_refl s)
  | .siDiscrepancy pair, _ => keeps_execSiDiscrepancy pair s (keeps_refl s)
  | .safeResetNFall, _ => keeps_execSafeResetNFall s (keeps_refl s)
  | .resetStuck, _ => keeps_execResetStuck s (keeps_refl s)
  | .strapSample pins, _ => keeps_execStrapSample pins s (keeps_refl s)
  | .unlockExpiry, _ => keeps_execUnlockExpiry s (keeps_refl s)
  | .lockoutEnd, _ => keeps_execLockoutEnd s (keeps_refl s)
  | .tick, _ => keeps_execTick s (keeps_refl s)
  | .epochInstant, _ => keeps_execEpochInstant s (keeps_refl s)
  | .epochClose, _ => keeps_execEpochClose s (keeps_refl s)
  | .fusionResultReady, _ => keeps_execFusionResultReady s (keeps_refl s)
  | .publicationDeadline, _ => keeps_execPublicationDeadline s (keeps_refl s)
  | .posLost heading, _ => keeps_execPosLost heading s (keeps_refl s)
  | .preferenceRelease, _ => keeps_execPreferenceRelease s (keeps_refl s)
  | .boardContribFrame src seq recs, _ => keeps_execBoardContribFrame src seq recs s (keeps_refl s)
  | .boardImageInstall img, _ => keeps_execBoardImageInstall img s (keeps_refl s)
  | .pubIncomplete epoch missing, _ => keeps_execPubIncomplete epoch missing s (keeps_refl s)
  | .boardStreamSlot consumed, _ => keeps_execBoardStreamSlot consumed s (keeps_refl s)
  | .missedEpochs dev, _ => keeps_execMissedEpochs dev s (keeps_refl s)
  | .feedbackLost thr, _ => keeps_execFeedbackLost thr s (keeps_refl s)
  | .quorumLost, _ => keeps_execQuorumLost s (keeps_refl s)
  | .powerReserve group, _ => keeps_execPowerReserve group s (keeps_refl s)
  | .minorityLimit mgr, _ => keeps_execMinorityLimit mgr s (keeps_refl s)
  | .splitClear, _ => keeps_execSplitClear s (keeps_refl s)
  | .alarmEntryClear code subject, _ => keeps_execAlarmEntryClear code subject s (keeps_refl s)
  | .conseqFail scen, _ => keeps_execConseqFail scen s (keeps_refl s)
  | .conseqStale scen, _ => keeps_execConseqStale scen s (keeps_refl s)
  | .degradedPlan, _ => keeps_execDegradedPlan s (keeps_refl s)
  | .solverStale, _ => keeps_execSolverStale s (keeps_refl s)
  | .formationWindowEnd, _ => keeps_execFormationWindowEnd s (keeps_refl s)
  | .joinRequestTimer, _ => keeps_execJoinRequestTimer s (keeps_refl s)
  | .takeoverDecision, _ => keeps_execTakeoverDecision s (keeps_refl s)
  | .outcomeInstant, _ => keeps_execOutcomeInstant s (keeps_refl s)
  | .solveDone stall, _ => keeps_execSolveDone stall s (keeps_refl s)
  | .derivedBuildComplete, _ => keeps_execDerivedBuildComplete s (keeps_refl s)
  | .scenarioBuildComplete scen, _ => keeps_execScenarioBuildComplete scen s (keeps_refl s)
  | .throttleSample celsius, _ => keeps_execThrottleSample celsius s (keeps_refl s)
  | .joyTimeout, _ => keeps_execJoyTimeout s (keeps_refl s)
  | .cmdFrame mgr epoch16 recs, _ => keeps_execCmdFrame mgr epoch16 recs s (keeps_refl s)
  | .cmdWaitExpiry, _ => keeps_execCmdWaitExpiry s (keeps_refl s)
  | .memberPresent net port m, _ => keeps_execMemberPresent net port m s (keeps_refl s)
  | .joinFrame net port m, _ => keeps_execJoinFrame net port m s (keeps_refl s)
  | .joinAnswerFrame m hs, _ => keeps_execJoinAnswerFrame m hs s (keeps_refl s)
  | .leaveFrame m, _ => keeps_execLeaveFrame m s (keeps_refl s)
  | .silentFrame m, _ => keeps_execSilentFrame m s (keeps_refl s)
  | .recoveryFrame m, _ => keeps_execRecoveryFrame m s (keeps_refl s)
  | .mapExpiry dev, _ => keeps_execMapExpiry dev s (keeps_refl s)
  | .syncSend, _ => keeps_execSyncSend s (keeps_refl s)
  | .syncFrame net port h rest corr offset, _ => keeps_execSyncFrame net port h rest corr offset s (keeps_refl s)
  | .linkDelayExchange port ns, _ => keeps_execLinkDelayExchange port ns s (keeps_refl s)
  | .syncLoss, _ => keeps_execSyncLoss s (keeps_refl s)
  | .ptpMessage mac m, _ => keeps_execPtpMessage mac m s (keeps_refl s)
  | .macTxDone mac fast event oneStep status raw, _ => keeps_execMacTxDone mac fast event oneStep status raw s (keeps_refl s)
  | .ppsInEdge stamp, _ => keeps_execPpsInEdge stamp s (keeps_refl s)
  | .ppsInMissing, _ => keeps_execPpsInMissing s (keeps_refl s)
  | .ppsOutRise, _ => keeps_execPpsOutRise s (keeps_refl s)
  | .ppsOutFall, _ => keeps_execPpsOutFall s (keeps_refl s)
  | .ref10Lost hz, _ => keeps_execRef10Lost hz s (keeps_refl s)
  | .helloSend, _ => keeps_execHelloSend s (keeps_refl s)
  | .helloReceive port dev net pnum nbState errorFree, _ => keeps_execHelloReceive port dev net pnum nbState errorFree s (keeps_refl s)
  | .portDown port, _ => keeps_execPortDown port s (keeps_refl s)
  | .linkFrameHeader port h, _ => keeps_execLinkFrameHeader port h s (keeps_refl s)
  | .linkFrameEnd port hseq f outcome, _ => keeps_execLinkFrameEnd port hseq f outcome s (keeps_refl s)
  | .ackReceive port hseq, _ => keeps_execAckReceive port hseq s (keeps_refl s)
  | .ackTimer port, _ => keeps_execAckTimer port s (keeps_refl s)
  | .resendReceive port hseq, _ => keeps_execResendReceive port hseq s (keeps_refl s)
  | .resendTimeout port hseq, _ => keeps_execResendTimeout port hseq s (keeps_refl s)
  | .quarantineEnd port, _ => keeps_execQuarantineEnd port s (keeps_refl s)
  | .degradedRestore port, _ => keeps_execDegradedRestore port s (keeps_refl s)
  | .nakFrame port src n, _ => keeps_execNakFrame port src n s (keeps_refl s)
  | .dataFrame src flow seq bytes, _ => keeps_execDataFrame src flow seq bytes s (keeps_refl s)
  | .recordFrame src recs, _ => keeps_execRecordFrame src recs s (keeps_refl s)
  | .traceFrame src words, _ => keeps_execTraceFrame src words s (keeps_refl s)
  | .tokenRefill code, _ => keeps_execTokenRefill code s (keeps_refl s)
  | .canFrameRx ch f rx, _ => keeps_execCanFrameRx ch f rx s (keeps_refl s)
  | .canAttemptStart ch stamp, _ => keeps_execCanAttemptStart ch stamp s (keeps_refl s)
  | .canAttemptEnd ch e, _ => keeps_execCanAttemptEnd ch e s (keeps_refl s)
  | .busOffRecovery ch, _ => keeps_execBusOffRecovery ch s (keeps_refl s)
  | .canRxOverrun ch lost, _ => keeps_execCanRxOverrun ch lost s (keeps_refl s)
  | .autobaudDwellEnd ch onError, _ => keeps_execAutobaudDwellEnd ch onError s (keeps_refl s)
  | .uartSentence u noise restarts chars framing stamp, _ => keeps_execUartSentence u noise restarts chars framing stamp s (keeps_refl s)
  | .uartTxSentenceDone u, _ => keeps_execUartTxSentenceDone u s (keeps_refl s)
  | .lan61162Datagram mac fast group port headerOk sentences raw, _ => keeps_execLan61162Datagram mac fast group port headerOk sentences raw s (keeps_refl s)
  | .sensorDatagram mac fast src port bytes raw, _ => keeps_execSensorDatagram mac fast src port bytes raw s (keeps_refl s)
  | .filterOutputSample ch cic done spacing, _ => keeps_execFilterOutputSample ch cic done spacing s (keeps_refl s)
  | .modulatorReset ch, _ => keeps_execModulatorReset ch s (keeps_refl s)
  | .afeFifoOverrun ch lost, _ => keeps_execAfeFifoOverrun ch lost s (keeps_refl s)
  | .loopRangePersist ch, _ => keeps_execLoopRangePersist ch s (keeps_refl s)
  | .aoReadbackSample out mv, _ => keeps_execAoReadbackSample out mv s (keeps_refl s)
  | .aoMismatch out, _ => keeps_execAoMismatch out s (keeps_refl s)
  | .loopGridInstant, _ => keeps_execLoopGridInstant s (keeps_refl s)
  | .inputCeased ctx, _ => keeps_execInputCeased ctx s (keeps_refl s)
  | .holdExpiry ctx, _ => keeps_execHoldExpiry ctx s (keeps_refl s)
  | .scrubRead region addr word use, _ => keeps_execScrubRead region addr word use s (keeps_refl s)
  | .writeBack region addr overtaken, _ => keeps_execWriteBack region addr overtaken s (keeps_refl s)
  | .mergeBufferEvict region addr writes parityOk use, _ => keeps_execMergeBufferEvict region addr writes parityOk use s (keeps_refl s)
  | .nandProgramDone ok, _ => keeps_execNandProgramDone ok s (keeps_refl s)
  | .archiveMountDone m, _ => keeps_execArchiveMountDone m s (keeps_refl s)
  | .archivePatrol block bits retries ageDays, _ => keeps_execArchivePatrol block bits retries ageDays s (keeps_refl s)
  | .histoHourlySnapshot, _ => keeps_execHistoHourlySnapshot s (keeps_refl s)
  | .incidentCaptureClose, _ => keeps_execIncidentCaptureClose s (keeps_refl s)
  | .powerFailNFall, _ => keeps_execPowerFailNFall s (keeps_refl s)
  | .powerFailNRise, _ => keeps_execPowerFailNRise s (keeps_refl s)
  | .archiveResume, _ => keeps_execArchiveResume s (keeps_refl s)
  | .timeSourceLost, _ => keeps_execTimeSourceLost s (keeps_refl s)
  | .sourceDevConfirm dev status rejected, _ => keeps_execSourceDevConfirm dev status rejected s (keeps_refl s)
  | .nandEraseDone block ok, _ => keeps_execNandEraseDone block ok s (keeps_refl s)

/-- The queue and the variant of `s` are those of `t`. -/
structure KeepsUnit (s t : State) : Prop where
  pending : t.pending = s.pending
  variant : t.variant = s.variant

theorem Keeps.keepsUnit {s t : State} (k : Keeps s t) : KeepsUnit s t := ⟨k.pending, k.variant⟩

theorem KeepsUnit.trans {s t u : State} (h : KeepsUnit s t) (k : KeepsUnit t u) : KeepsUnit s u :=
  ⟨k.pending.trans h.pending, k.variant.trans h.variant⟩

/-- A reset of either scope (R544). -/
theorem keepsUnit_resetDevice (code : Nat) (s : State) : KeepsUnit s (resetDevice code s) := by
  unfold resetDevice
  extract_lets fw t t1
  have h0 : KeepsUnit s t := ⟨rfl, rfl⟩
  have h1 : Keeps t t1 := keeps_ite (keeps_raiseAlarm _ _ _ _ t (keeps_refl t)) (keeps_refl t)
  exact h0.trans (keeps_foldl (fun u n => keeps_ite (keeps_raiseAlarm _ _ _ _ u (keeps_refl u)) (keeps_refl u)) h1).keepsUnit

theorem keepsUnit_updSafe (f : Safe → Safe) (s : State) : KeepsUnit s (updSafe f s) := ⟨rfl, rfl⟩

/-- A release sequence writes the safety controller and the contexts; the rest of it is interrupts, events and outputs. -/
theorem keepsUnit_release (lowMs : Nat) (s : State) : KeepsUnit s (release lowMs s) := by
  unfold release
  extract_lets old clr left trips s1 loop s2 s3 s4 s5
  have h1 : KeepsUnit s s1 := keepsUnit_updSafe _ s
  have h2 : Keeps s1 s2 := keeps_ite (keeps_mk (keeps_refl s1) rfl rfl rfl (ramKeeps_refl _) (safeKeeps_refl _)) (keeps_refl s1)
  have h3 : Keeps s1 s3 := keeps_irqChange s s2 h2
  have h4 : Keeps s1 s4 := keeps_ite (keeps_event _ _ _ s3 h3) h3
  have h5 : Keeps s1 s5 := keeps_ite (keeps_event _ _ _ s4 h4) h4
  exact h1.trans (keeps_driveOutputs s5 h5).keepsUnit

theorem keepsUnit_execSafeResetNRise {lowMs : Nat} {s t : State} (h : execSafeResetNRise lowMs s = .next t) : KeepsUnit s t := by
  unfold execSafeResetNRise at h
  extract_lets s1 s2 at h
  have h2 : KeepsUnit s s2 := by
    refine (keepsUnit_updSafe _ s : KeepsUnit s s1).trans (Keeps.keepsUnit ?_)
    exact keeps_ite (keeps_clearAlarm _ _ s1 (keeps_refl s1)) (keeps_refl s1)
  split at h
  · cases h
    exact (keeps_refl s).keepsUnit
  · cases h
    refine h2.trans ?_
    split
    · exact (keeps_event _ _ _ s2 (keeps_refl s2)).keepsUnit
    · split
      · exact (keeps_event _ _ _ s2 (keeps_refl s2)).keepsUnit
      · exact keepsUnit_release lowMs s2

theorem keepsUnit_execResetRelease {straps : BitVec 12} {trimOk : Bool} {s t : State}
    (h : execResetRelease straps trimOk s = .next t) : KeepsUnit s t := by
  unfold execResetRelease at h
  split at h <;> cases h <;> exact ⟨rfl, rfl⟩

theorem ResKeeps.keeps {s t : State} {o : Res} (k : ResKeeps s o) (h : o = .next t) : Keeps s t := by
  subst h
  exact k

/-- No command or event touches the queue or the variant. -/
theorem keepsUnit_exec {i : Instr} {s t : State} (h : exec i s = .next t) : KeepsUnit s t := by
  cases i with
  | powerOnReset => exact Host.Outcome.next.inj h ▸ keepsUnit_resetDevice 0 s
  | brownOut => exact Host.Outcome.next.inj h ▸ keepsUnit_resetDevice 1 s
  | resetRelease => exact keepsUnit_execResetRelease h
  | safeResetNRise => exact keepsUnit_execSafeResetNRise h
  | _ => exact ((resKeeps_exec s _ rfl).keeps h).keepsUnit

/-- Settles O6: each word is the table's, and it depends on the variant alone, which `exec` keeps. -/
theorem unitPresence : Obligations.UnitPresence := by
  unfold Obligations.UnitPresence
  refine ⟨rfl, rfl, rfl, fun i s t h => ?_⟩
  rw [(keepsUnit_exec h).variant]

end Sys2Proof.Machine
end

section
/-! SUPPORT. FILTER_CONFIG on an enabled channel, and the boundary after an output sample (R107): what each does to the word
that a channel holds and to the word in force. -/

namespace Sys2Proof.Machine

/-! ## A command that completes -/

/-- A command that the mailbox takes completes with the status that its body gives. -/
theorem mbx_done {code : Nat} {len : List Byte → Option Status} {body : Req → State → Ans} {r : Req} {st : Status} {pay : List Byte}
    {s u : State} (h : Takes code r pay s) (hl : len r.payload = none) (hb : body r s = .done st pay u) :
    mbx code len body r s = .next (finish code r st pay u) := by
  obtain ⟨hup, hcloak, hserved, hfits⟩ := h
  have hrole : (if isCopy code r s then none else roleRefusal code s) = none := by
    rcases hserved with h | h <;> simp [h]
  have hlife : (decide (s.rst.life = .cloakroom) && !cloakServed code) = false := by
    by_cases hc : s.rst.life = .cloakroom
    · simp [hcloak hc]
    · simp [hc]
  unfold mbx
  rw [hup, hlife, hrole, hl, hb]
  cases hd : r.dma with
  | none => rfl
  | some d => simp [Nat.not_lt.mpr (hfits d hd)]

theorem exactly_of_length {n : Nat} {p : List Byte} (h : p.length = n) : exactly n p = none := if_pos h

/-! ## Storing a configuration -/

@[simp] theorem storeCfg_cfg (f : Cfg → Cfg) (s : State) : (storeCfg f s).cfg = s.cfg := by
  unfold storeCfg
  split <;> rfl

@[simp] theorem storeCfg_filt (f : Cfg → Cfg) (s : State) : (storeCfg f s).filt = s.filt := by
  unfold storeCfg
  split <;> rfl

@[simp] theorem setCfg_cfg (f : Cfg → Cfg) (s : State) : (setCfg f s).cfg = f s.cfg := storeCfg_cfg _ _
@[simp] theorem setCfg_filt (f : Cfg → Cfg) (s : State) : (setCfg f s).filt = s.filt := storeCfg_filt _ _

/-! ## The written word and the word in force -/

theorem chSet_congr {s t : State} (h : t.cfg = s.cfg) (ch : Nat) : chSet t ch = chSet s ch := by simp only [chSet, h]
theorem filtOf_congr {s t : State} (h : t.filt = s.filt) (ch : Nat) : filtOf t ch = filtOf s ch := by simp only [filtOf, h]

theorem chEn_iff (w : BitVec 64) : chEn w = true ↔ fld w 0 1 = 1 := decide_eq_true_iff

/-- The written word after channel `ch` was given the word `w`. -/
theorem chSet_of_filters_set {ch : Nat} {w : BitVec 64} {s t : State} (h : t.cfg.filters = s.cfg.filters.set ch w)
    (hch : ch < s.cfg.filters.length) : chSet t ch = w := by
  simp [chSet, h, List.getD_eq_getElem?_getD, hch]

theorem chWord_of_inForce_none {ch : Nat} {s : State} (h : (filtOf s ch).inForce = none) : chWord s ch = chSet s ch := by
  simp [chWord, h]

theorem chWord_of_inForce_some {ch : Nat} {w : BitVec 64} {s : State} (h : (filtOf s ch).inForce = some w) : chWord s ch = w := by
  simp [chWord, h]

/-! ## FILTER_CONFIG on an enabled channel (R107) -/

/-- A new word written to channel `ch`, whose word in force stays until its next output-sample boundary. -/
def writeHeldWord (ch : Nat) (w : BitVec 64) (s : State) : State :=
  updFilt ch (fun c => { c with inForce := some (chWord s ch) })
    (setCfg (fun c => { c with filters := c.filters.set ch w }) s)

section
variable {r : Req} {s : State} {ch : Nat} {w : BitVec 64} (hc : u8 r.payload 0 = ch)
  (hw : chMask (BitVec.ofNat 64 (ule r.payload 8 8)) = w) (hch : ch < 16) (hrange : chRange w = false)
  (hen : chEn (chSet s ch) = true)
include hc hw hch hrange hen

theorem bodyFilterConfig_of_fixed_changed (hfixed : chFixed w ≠ chFixed (chSet s ch)) :
    bodyFilterConfig r s = .done .state [] s := by
  simp [bodyFilterConfig, no, hc, hw, Nat.not_le.mpr hch, hrange, hen, hfixed]

theorem bodyFilterConfig_of_fixed_same (hnew : chEn w = true) (hfixed : chFixed w = chFixed (chSet s ch)) :
    bodyFilterConfig r s = .done .ok [] (writeHeldWord ch w s) := by
  simp [bodyFilterConfig, okay, writeHeldWord, hc, hw, Nat.not_le.mpr hch, hrange, hen, hnew, hfixed]

end

theorem chSet_writeHeldWord {ch : Nat} {s : State} (w : BitVec 64) (h : ch < s.cfg.filters.length) :
    chSet (writeHeldWord ch w s) ch = w :=
  chSet_of_filters_set (s := s) (by simp [writeHeldWord]) h

theorem filtOf_writeHeldWord (ch j : Nat) (w : BitVec 64) (s : State) :
    filtOf (writeHeldWord ch w s) j =
      if ch = j ∧ ch < s.filt.length then { filtOf s ch with inForce := some (chWord s ch) } else filtOf s j := by
  rw [writeHeldWord, filtOf_updFilt, setCfg_filt, filtOf_congr (setCfg_filt _ s), filtOf_congr (setCfg_filt _ s)]

theorem chWord_writeHeldWord {ch : Nat} {s : State} (w : BitVec 64) (h : ch < s.filt.length) :
    chWord (writeHeldWord ch w s) ch = chWord s ch :=
  chWord_of_inForce_some (by rw [filtOf_writeHeldWord, if_pos ⟨rfl, h⟩])

/-! ## The output sample and its boundary (R107, R112, R144) -/

/-- A sample offered to the sensor streams leaves the configuration and the channels. -/
theorem contribute_cfg_filt (n : Nat) (stamp : Option Nat) (v : Option (List Int)) (s : State) :
    (contribute n stamp v s).cfg = s.cfg ∧ (contribute n stamp v s).filt = s.filt := by
  unfold contribute
  split
  · split <;> exact ⟨rfl, rfl⟩
  · exact ⟨rfl, rfl⟩

theorem offerFilter_cfg_filt (ch : Nat) (s : State) : (offerFilter ch s).cfg = s.cfg ∧ (offerFilter ch s).filt = s.filt := by
  unfold offerFilter
  refine List.foldlRecOn (motive := fun (t : State) => t.cfg = s.cfg ∧ t.filt = s.filt) _ _ ⟨rfl, rfl⟩ fun t ⟨hcfg, hfilt⟩ n _ => ?_
  obtain ⟨hc, hf⟩ := contribute_cfg_filt n _ _ t
  exact ⟨hc.trans hcfg, hf.trans hfilt⟩

@[simp] theorem offerFilter_cfg (ch : Nat) (s : State) : (offerFilter ch s).cfg = s.cfg := (offerFilter_cfg_filt ch s).1
@[simp] theorem offerFilter_filt (ch : Nat) (s : State) : (offerFilter ch s).filt = s.filt := (offerFilter_cfg_filt ch s).2
@[simp] theorem inputBack_cfg (p : LoopCfg → Bool) (s : State) : (inputBack p s).cfg = s.cfg := rfl
@[simp] theorem inputBack_filt (p : LoopCfg → Bool) (s : State) : (inputBack p s).filt = s.filt := rfl
@[simp] theorem event_cfg (code sev : Nat) (ps : List Nat) (s : State) : (event code sev ps s).cfg = s.cfg := (quiet_event code sev ps s).cfg
@[simp] theorem event_filt (code sev : Nat) (ps : List Nat) (s : State) : (event code sev ps s).filt = s.filt :=
  (quiet_event code sev ps s).filt

@[simp] theorem swapBank_cfg (ch : Nat) (w : BitVec 64) (s : State) : (swapBank ch w s).cfg = s.cfg := by simp [swapBank]
@[simp] theorem swapBank_filt_length (ch : Nat) (w : BitVec 64) (s : State) : (swapBank ch w s).filt.length = s.filt.length := by
  simp [swapBank]

/-- What the boundary does: a change of the channel that takes its waiting word into force, after a pending swap if any. -/
theorem boundary_cases (ch : Nat) (s : State) :
    ∃ (f : Filt → Filt) (u : State), boundary ch s = updFilt ch f u ∧ (∀ c, (f c).inForce = none) ∧
      u.cfg = s.cfg ∧ u.filt.length = s.filt.length := by
  unfold boundary
  extract_lets c old new s1
  split
  · exact ⟨_, s, rfl, fun _ => rfl, rfl, rfl⟩
  · refine ⟨_, s1, rfl, fun c => ?_, ?_, ?_⟩
    · dsimp only
      split <;> rfl
    · simp only [s1]
      split <;> simp
    · simp only [s1]
      split <;> simp

/-- At a boundary the written word comes into force. -/
theorem chWord_boundary {ch : Nat} {s : State} (h : ch < s.filt.length) : chWord (boundary ch s) ch = chSet s ch := by
  obtain ⟨f, u, hb, hf, hcfg, hlen⟩ := boundary_cases ch s
  have hforce : (filtOf (updFilt ch f u) ch).inForce = none := by
    rw [filtOf_updFilt, if_pos ⟨rfl, hlen ▸ h⟩]
    exact hf _
  rw [hb, chWord_of_inForce_none hforce, chSet_congr ((updFilt_cfg ch f u).trans hcfg)]

/-- An output sample of a running channel ends at its boundary, reached with the configuration as it was. -/
theorem exec_filterOutputSample_boundary (ch : Fin 16) (stream done spacing : Nat) {s : State} (h : chRuns s ch = true) :
    ∃ u, exec (.filterOutputSample ch stream done spacing) s = .next (boundary ch u) ∧ u.cfg = s.cfg ∧
      u.filt.length = s.filt.length := by
  change ∃ u, execFilterOutputSample ch stream done spacing s = _ ∧ _
  unfold execFilterOutputSample
  extract_lets w c bank x cic blk v clip satd lf flags stamp cnt range go s1 s2
  rw [h]
  refine ⟨_, rfl, ?_, ?_⟩
  · simp only [inputBack_cfg, offerFilter_cfg, s2]
    split <;> simp [s1]
  · simp only [inputBack_filt, offerFilter_filt, s2]
    split <;> simp [s1]

/-- Settles O26: the body's two branches on an enabled channel, and the boundary that takes the written word into force. -/
theorem enabledFilterChannel : Obligations.EnabledFilterChannel := by
  unfold Obligations.EnabledFilterChannel
  refine ⟨?_, ?_, fun ch stream done spacing s hfilt hruns _ => ?_⟩
  · intro r s ch w htakes hlen hch hrange hen hfixed
    exact mbx_done htakes (exactly_of_length hlen)
      (bodyFilterConfig_of_fixed_changed rfl rfl hch hrange ((chEn_iff _).mpr hen) hfixed)
  · intro r s ch w htakes hlen hch hfilt hcfg hrange hen hnew hfixed
    refine ⟨writeHeldWord ch w s, ?_, chSet_writeHeldWord w (by omega), chWord_writeHeldWord w (by omega), fun j hj => ?_⟩
    · exact mbx_done htakes (exactly_of_length hlen)
        (bodyFilterConfig_of_fixed_same rfl rfl hch hrange ((chEn_iff _).mpr hen) ((chEn_iff _).mpr hnew) hfixed)
    · rw [filtOf_writeHeldWord, if_neg fun h => hj h.1.symm]
  · obtain ⟨u, hexec, hcfg, hlen⟩ := exec_filterOutputSample_boundary ch stream done spacing hruns
    refine ⟨boundary ch u, hexec, ?_⟩
    rw [chWord_boundary (by omega), chSet_congr hcfg]

end Sys2Proof.Machine
end

section
/-! SUPPORT. The commands that protection never refuses (R328): how a command of every device that answers by itself ends, and the
latching of a cause. -/

namespace Sys2Proof.Machine

/-! ## A command that every device serves -/

/-- A status that does not name protection. -/
def NotProtection (st : Status) : Prop := st ≠ .sealed_ ∧ st ≠ .locked

/-- A body that ends at once, and not with a status that names protection. -/
def EndsUnprotected (a : Ans) : Prop := ∃ st pay u, a = .done st pay u ∧ NotProtection st

/-- The device answers the command, and not with a status that names protection. -/
def AnswersUnprotected (code : Nat) (r : Req) (o : Res) : Prop :=
  ∃ st pay u, o = .next (finish code r st pay u) ∧ NotProtection st

/-- A command of every device is refused for no role (R479). -/
theorem roleRefusal_of_served_D {code : Nat} (h : served code = some .D) (s : State) : roleRefusal code s = none := by
  simp only [roleRefusal, h]

theorem exactly_notProtection {n : Nat} {p : List Byte} (st : Status) (h : exactly n p = some st) : NotProtection st := by
  unfold exactly at h
  split at h <;> cases h
  exact ⟨nofun, nofun⟩

/-- What stands before a command's body (life state, role, length) and after it (RSP_MAX) names no protection: such a command of
every device is refused for protection by its body alone. -/
theorem mbx_answersUnprotected {code : Nat} {len : List Byte → Option Status} {body : Req → State → Ans} {r : Req} {s : State}
    (hup : mailboxDown s = false) (hserved : served code = some .D)
    (hlen : ∀ st, len r.payload = some st → NotProtection st) (hbody : EndsUnprotected (body r s)) :
    AnswersUnprotected code r (mbx code len body r s) := by
  obtain ⟨st, pay, u, hends, hst⟩ := hbody
  have hanswer : AnswersUnprotected code r (.next (finish code r st pay u)) := ⟨st, pay, u, rfl, hst⟩
  unfold mbx
  rw [if_neg (Bool.eq_false_iff.mp hup), roleRefusal_of_served_D hserved, ite_self, hends]
  split
  case isTrue => exact ⟨.state, [], s, rfl, nofun, nofun⟩
  dsimp only
  split
  next st' hrefused => exact ⟨st', [], s, rfl, hlen st' hrefused⟩
  split
  next =>
    split
    · exact ⟨.full, [], s, rfl, nofun, nofun⟩
    · exact hanswer
  · exact hanswer

theorem bodySafeStatus_endsUnprotected (r : Req) (s : State) : EndsUnprotected (bodySafeStatus r s) :=
  ⟨.ok, _, s, rfl, nofun, nofun⟩

/-- CHANGELOG_READ ends as RANGE, STALE or OK (R327). -/
theorem bodyChangelogRead_endsUnprotected (r : Req) (s : State) : EndsUnprotected (bodyChangelogRead r s) := by
  unfold bodyChangelogRead
  extract_lets n
  split
  · exact ⟨.range, [], s, rfl, nofun, nofun⟩
  split
  · exact ⟨.stale, _, s, rfl, nofun, nofun⟩
  · exact ⟨.ok, _, s, rfl, nofun, nofun⟩

/-! ## A cause latched (R301) -/

theorem getLsbD_or_two_pow {n : Nat} (hn : n < 16) (a : BitVec 16) : (a ||| BitVec.ofNat 16 (2 ^ n)).getLsbD n = true := by
  rw [BitVec.getLsbD_or, BitVec.getLsbD_ofNat, Nat.testBit_two_pow_self, decide_eq_true hn, Bool.true_and, Bool.or_true]

/-- A latched cause stands: entering the safe state, the interrupts, the event and the silence keep what was latched. -/
theorem latchCause_latches {n : Nat} (hn : n < 16) (s : State) : (latchCause n s).safe.causes.getLsbD n = true := by
  unfold latchCause
  split
  · assumption
  · extract_lets safe s1 s2 s3 s4
    have h1 : s1.safe.causes.getLsbD n = true := getLsbD_or_two_pow hn _
    have k2 : Keeps s1 s2 := keeps_ite (keeps_enterSafe s1 (keeps_refl s1)) (keeps_refl s1)
    have k3 : Keeps s1 s3 := keeps_irqChange s s2 k2
    have k4 : Keeps s1 s4 := keeps_ite (keeps_event _ _ _ _ k3) k3
    have k5 : Keeps s1 (if n ≠ 0 then goSilent (if n = 15 then s.safe.silentCause else 0) s4 else s4) :=
      keeps_ite (keeps_goSilent _ s4 k4) k4
    exact k5.safe.causes n h1

/-! ## SAFE_REQUEST (R328) -/

theorem bodySafeRequest_eq (r : Req) (s : State) : bodySafeRequest r s = .done .ok [] (latchCause 5 s) := rfl

theorem bodySafeRequest_endsUnprotected (r : Req) (s : State) : EndsUnprotected (bodySafeRequest r s) :=
  ⟨.ok, [], latchCause 5 s, bodySafeRequest_eq r s, nofun, nofun⟩

/-- A command of every device with an empty answer is taken in every life state but RESET, LOADING and CLOAKROOM. -/
theorem takes_of_served_D {code : Nat} {s : State} (r : Req) (hserved : served code = some .D) (hreset : s.rst.life ≠ .reset)
    (hloading : s.rst.life ≠ .loading) (hcloak : s.rst.life ≠ .cloakroom) : Takes code r [] s where
  up := by simp [mailboxDown, hreset, hloading]
  cloak h := absurd h hcloak
  served := .inr (roleRefusal_of_served_D hserved s)
  fits _ _ := Nat.zero_le _

/-- Settles O33: the three commands are of every device and no body of theirs answers SEALED or LOCKED; SAFE_REQUEST's body latches
HOST_REQUEST. -/
theorem safeRequestLatches : Obligations.SafeRequestLatches := by
  unfold Obligations.SafeRequestLatches
  refine ⟨fun r s hreset hloading hcloak hempty => ⟨?_, latchCause_latches (by decide) s⟩, fun i code r s hmem hup => ?_⟩
  · exact mbx_done (takes_of_served_D r rfl hreset hloading hcloak) (exactly_of_length (by rw [hempty, List.length_nil]))
      (bodySafeRequest_eq r s)
  · simp only [List.mem_cons, Prod.mk.injEq, List.not_mem_nil, or_false] at hmem
    obtain ⟨rfl, rfl⟩ | ⟨rfl, rfl⟩ | ⟨rfl, rfl⟩ := hmem
    · exact mbx_answersUnprotected hup rfl exactly_notProtection (bodySafeStatus_endsUnprotected r s)
    · exact mbx_answersUnprotected hup rfl exactly_notProtection (bodyChangelogRead_endsUnprotected r s)
    · exact mbx_answersUnprotected hup rfl exactly_notProtection (bodySafeRequest_endsUnprotected r s)

end Sys2Proof.Machine
end

section
/-! SUPPORT. CAN reception and its overrun (R418, R421): what each part of receiving a frame writes of a channel, and what of the
fieldbus it leaves. -/

namespace Sys2Proof.Machine

variable {s t : State} {ch : Nat}

/-! ## One channel after an update -/

theorem canOf_congr (h : t.bus = s.bus) : canOf t ch = canOf s ch := by simp only [canOf, h]

theorem canOf_updCan_same (f : Can → Can) (h : ch < s.bus.can.length) : canOf (updCan ch f s) ch = f (canOf s ch) := by
  rw [canOf_updCan, if_pos ⟨rfl, h⟩]

theorem canOf_updCan_other {j : Nat} (f : Can → Can) (h : ch ≠ j) : canOf (updCan ch f s) j = canOf s j := by
  rw [canOf_updCan, if_neg fun hj => h hj.1]

theorem updCan_updCan (f g : Can → Can) : updCan ch g (updCan ch f s) = updCan ch (g ∘ f) s := by
  simp [updCan, upd, List.modify_modify_eq]

theorem updCan_id : updCan ch id s = s := by
  simp only [updCan, upd, List.modify_id]

theorem canEn_iff (w : BitVec 96) : canEn w = true ↔ fld w 0 1 = 1 := decide_eq_true_iff

/-! ## What leaves the fieldbus alone -/

@[simp] theorem event_bus (code sev : Nat) (ps : List Nat) (s : State) : (event code sev ps s).bus = s.bus :=
  (quiet_event code sev ps s).bus

@[simp] theorem contribute_bus (n : Nat) (stamp : Option Nat) (v : Option (List Int)) (s : State) :
    (contribute n stamp v s).bus = s.bus := by
  unfold contribute
  split
  · split <;> rfl
  · rfl

@[simp] theorem offerCan_bus (ch : Nat) (f : CanFrame) (stamp : Nat) (s : State) : (offerCan ch f stamp s).bus = s.bus :=
  List.foldlRecOn (motive := fun (t : State) => t.bus = s.bus) _ _ rfl fun t ht n _ =>
    (contribute_bus n _ _ t).trans ht

@[simp] theorem flrTrigger_bus (k n : Nat) (on : Bool) (s : State) : (flrTrigger k n on s).bus = s.bus := by
  unfold flrTrigger
  extract_lets f rise f1 f2 loop s1 s2
  split
  · rfl
  · change s2.bus = s1.bus
    unfold s2
    split
    · exact event_bus _ _ _ _
    · rfl

@[simp] theorem flrCan_bus (ch : Nat) (f : CanFrame) (s : State) : (flrCan ch f s).bus = s.bus := by
  unfold flrCan
  split
  · rfl
  · exact List.foldlRecOn (motive := fun (t : State) => t.bus = s.bus) _ _ rfl fun t ht n _ => (flrTrigger_bus 1 n _ t).trans ht

/-! ## What leaves a channel's reception alone -/

/-- `d` has the ring of `c`, its next SEQ and its LOST for the next record. -/
structure SameReception (c d : Can) : Prop where
  ring : d.ring = c.ring
  seq : d.seq = c.seq
  lostNext : d.lostNext = c.lostNext

theorem SameReception.refl (c : Can) : SameReception c c := ⟨rfl, rfl, rfl⟩

theorem SameReception.trans {c d e : Can} (h : SameReception c d) (k : SameReception d e) : SameReception c e :=
  ⟨k.ring.trans h.ring, k.seq.trans h.seq, k.lostNext.trans h.lostNext⟩

theorem sameReception_of_bus (h : t.bus = s.bus) (j : Nat) : SameReception (canOf s j) (canOf t j) := by
  rw [canOf_congr h]
  exact .refl _

theorem sameReception_updCan {f : Can → Can} (hf : ∀ c, SameReception c (f c)) (s : State) (ch j : Nat) :
    SameReception (canOf s j) (canOf (updCan ch f s) j) := by
  rw [canOf_updCan]
  split
  next h => exact h.1 ▸ hf _
  next => exact .refl _

/-- A route that takes a frame writes its value or a counter (R424). -/
theorem sameReception_takeRoute (ch : Nat) (f : CanFrame) (n : Nat) (s : State) (j : Nat) :
    SameReception (canOf s j) (canOf (takeRoute ch f n s) j) := by
  unfold takeRoute
  split
  · exact sameReception_updCan (f := fun c => { c with counts := addAt c.counts 12 1 }) (fun _ => ⟨rfl, rfl, rfl⟩) s ch j
  · exact .refl _

/-! ## Error counters (R417) -/

theorem canErrState_eq_three_iff (tec rec_ : Nat) : canErrState tec rec_ = 3 ↔ 256 ≤ tec := by
  unfold canErrState
  split
  next h => simpa using h
  next h => split <;> simpa using h

/-- An event after two changes of a channel: one change, quietly recorded. -/
theorem quiet_event_updCan_updCan (code sev : Nat) (ps : List Nat) (f g : Can → Can) (ch : Nat) (s : State) :
    Quiet (updCan ch (g ∘ f) s) (event code sev ps (updCan ch g (updCan ch f s))) := by
  rw [← updCan_updCan]
  exact quiet_event code sev ps _

theorem quiet_busOff (ch : Nat) (s : State) : ∃ g, Quiet (updCan ch g s) (busOff ch s) ∧ ∀ c, SameReception c (g c) :=
  ⟨_, quiet_event _ _ _ (updCan ch _ s), fun _ => ⟨rfl, rfl, rfl⟩⟩

/-- The error counters set, with what follows of it: one change of the channel, quietly recorded, that leaves its reception; short
of bus-off a channel that takes part in the bus holds the new receive error counter. -/
theorem setErr_updCan (ch tec rec_ : Nat) (s : State) :
    ∃ f, Quiet (updCan ch f s) (setErr ch tec rec_ s) ∧ (∀ c, SameReception c (f c)) ∧
      ((canOf s ch).state = 1 ∨ (canOf s ch).state = 2 → tec < 256 → ∀ c, (f c).rec_ = rec_) := by
  unfold setErr
  extract_lets c st s1
  split
  next hout =>
    have hno : ¬ (c.state = 1 ∨ c.state = 2) := by simpa using hout
    exact ⟨id, by rw [updCan_id]; exact Quiet.refl s, SameReception.refl, fun hin => absurd hin hno⟩
  split
  next hoff =>
    have htec : 256 ≤ tec := (canErrState_eq_three_iff tec rec_).mp hoff
    obtain ⟨g, hquiet, hg⟩ := quiet_busOff ch s1
    rw [updCan_updCan] at hquiet
    exact ⟨_, hquiet, fun _ => ⟨(hg _).ring, (hg _).seq, (hg _).lostNext⟩, fun _ hlt => absurd htec (Nat.not_le.mpr hlt)⟩
  split
  · exact ⟨_, quiet_event_updCan_updCan _ _ _ _ _ ch s, fun _ => ⟨rfl, rfl, rfl⟩, fun _ _ _ => rfl⟩
  · exact ⟨_, Quiet.refl s1, fun _ => ⟨rfl, rfl, rfl⟩, fun _ _ _ => rfl⟩

/-- The error counters leave every channel's reception, and the number of channels. -/
theorem setErr_sameReception (ch tec rec_ : Nat) (s : State) (j : Nat) :
    SameReception (canOf s j) (canOf (setErr ch tec rec_ s) j) ∧ (setErr ch tec rec_ s).bus.can.length = s.bus.can.length := by
  obtain ⟨f, hquiet, hf, -⟩ := setErr_updCan ch tec rec_ s
  refine ⟨(sameReception_updCan hf s ch j).trans (sameReception_of_bus hquiet.bus j), ?_⟩
  rw [hquiet.bus, updCan_bus, upd_length]

theorem rxGood_sameReception (ch : Nat) (s : State) (j : Nat) :
    SameReception (canOf s j) (canOf (rxGood ch s) j) ∧ (rxGood ch s).bus.can.length = s.bus.can.length := by
  unfold rxGood
  extract_lets c
  split
  · exact setErr_sameReception ch _ _ (stepFree s) j
  · exact setErr_sameReception ch _ _ s j

/-- A frame that ends in an error frame counts 8 or 1, below bus-off, and leaves ring, routes, positioning and configuration. -/
theorem rxError_counts {kind : Nat} (primary : Bool) (hch : ch < s.bus.can.length)
    (hstate : (canOf s ch).state = 1 ∨ (canOf s ch).state = 2) (htec : (canOf s ch).tec < 256) :
    (canOf (rxError ch kind primary s) ch).rec_ = (canOf s ch).rec_ + (if primary then 8 else 1) ∧
      (canOf (rxError ch kind primary s) ch).ring = (canOf s ch).ring ∧ (rxError ch kind primary s).bus.routes = s.bus.routes ∧
      (rxError ch kind primary s).dp = s.dp ∧ (rxError ch kind primary s).cfg = s.cfg := by
  unfold rxError
  extract_lets c
  generalize hu : canCount ch 7 1 (canCount ch (2 + kind) 1 s) = u
  have hcounted : u = updCan ch _ s := hu.symm.trans (updCan_updCan _ _)
  have hc : canOf u ch = _ := hcounted ▸ canOf_updCan_same _ hch
  have hlen : ch < u.bus.can.length := by rw [hcounted, updCan_bus, upd_length]; exact hch
  obtain ⟨f, hquiet, hf, hrec⟩ := setErr_updCan ch c.tec (c.rec_ + if primary then 8 else 1) u
  have hcan := (canOf_congr hquiet.bus).trans (canOf_updCan_same f hlen)
  refine ⟨?_, ?_, ?_, ?_, ?_⟩
  · rw [hcan]
    exact hrec (hc ▸ hstate) htec _
  · rw [hcan, (hf _).ring, hc]
    rfl
  · rw [hquiet.bus, hcounted]
    rfl
  · rw [hquiet.dp, hcounted]
    rfl
  · rw [hquiet.cfg, hcounted]
    rfl

/-! ## A frame enters the ring (R418, R421) -/

/-- The record of Table 13.4 that a frame enters with. -/
def nextRec (c : Can) (f : CanFrame) (w epoch : Word) : CanRec :=
  { f := f, lost := c.lostNext, seq := c.seq, epoch := epoch, stamp := w }

/-- The reduction triggers, the routes and the streams leave what the entry of the frame wrote. -/
theorem ringEnter_reception (f : CanFrame) (w epoch : Word) (stamp : Nat) (hch : ch < s.bus.can.length) :
    (canOf (ringEnter ch f w epoch stamp s) ch).ring = (nextRec (canOf s ch) f w epoch :: (canOf s ch).ring).take 512 ∧
      (canOf (ringEnter ch f w epoch stamp s) ch).seq = (canOf s ch).seq + 1 ∧
      (canOf (ringEnter ch f w epoch stamp s) ch).lostNext = false := by
  unfold ringEnter
  extract_lets go s1 s2
  have h1 : canOf s1 ch = go (canOf s ch) := canOf_updCan_same go hch
  have h2 : s2.bus = s1.bus := by
    unfold s2
    split
    · rfl
    · exact flrCan_bus ch f s1
  have hroutes : SameReception (canOf s2 ch)
      (canOf (((List.range 64).filter (routeMatches s2 ch f)).foldl (fun t n => takeRoute ch f n t) s2) ch) :=
    List.foldlRecOn (motive := fun (t : State) => SameReception (canOf s2 ch) (canOf t ch)) _ _ (.refl _) fun t ht n _ =>
      ht.trans (sameReception_takeRoute ch f n t ch)
  obtain ⟨hring, hseq, hlost⟩ := hroutes.trans (sameReception_of_bus (offerCan_bus ch f stamp _) ch)
  rw [canOf_congr h2, h1] at hring hseq hlost
  exact ⟨hring, hseq, hlost⟩

/-! ## The two events on an enabled channel (R418, R421) -/

section
variable {ch : Fin 8} (hvariant : ch.val < s.variant.cans) (hen : fld (canWord s ch) 0 1 = 1)
include hvariant hen

theorem exec_canRxOverrun_enabled (lost : Nat) : exec (.canRxOverrun ch lost) s = .next (event 0x0712 3 [ch, lost]
    (updCan ch (fun c => { c with seq := c.seq + BitVec.ofNat 16 lost, lostNext := true, counts := addAt c.counts 10 lost }) s)) := by
  change execCanRxOverrun ch lost s = _
  simp [execCanRxOverrun, Nat.not_le.mpr hvariant, (canEn_iff _).mpr hen]

variable {f : CanFrame} (hself : f.self = false)
include hself

theorem exec_canFrameRx_ok (hauto : (canOf s ch).auto = none) (stamp : Nat) : exec (.canFrameRx ch f ⟨stamp, .ok⟩) s =
    .next (ringEnter ch f (wd (canStamp s ch stamp)) (epochOf s (canStamp s ch stamp)) (canStamp s ch stamp) (rxGood ch s)) := by
  change execCanFrameRx ch f ⟨stamp, .ok⟩ s = _
  simp [execCanFrameRx, rxFrame, Nat.not_le.mpr hvariant, hself, hauto, (canEn_iff _).mpr hen]

theorem exec_canFrameRx_error (stamp : Nat) (kind : Fin 5) (primary : Bool) :
    exec (.canFrameRx ch f ⟨stamp, .error kind primary⟩) s = .next (rxError ch kind primary s) := by
  change execCanFrameRx ch f ⟨stamp, .error kind primary⟩ s = _
  simp [execCanFrameRx, Nat.not_le.mpr hvariant, hself, (canEn_iff _).mpr hen]

end

/-- Settles O29: the overrun is one change of the channel and its event, a good frame enters the ring after its error counter falls,
and an error frame sets the error counters alone. -/
theorem canOverrun : Obligations.CanOverrun := by
  unfold Obligations.CanOverrun
  refine ⟨fun ch lost s hlen hvariant hen => ?_, fun ch f stamp s hlen hvariant hself hauto hen => ?_,
    fun ch f stamp kind primary s hlen hvariant hself hauto hen hstate htec => ?_⟩
  all_goals have hch : ch.val < s.bus.can.length := by omega
  · refine ⟨_, exec_canRxOverrun_enabled hvariant hen lost, ?_⟩
    rw [event_bus, canOf_congr (event_bus _ _ _ _), canOf_updCan_same _ hch]
    refine ⟨rfl, rfl, rfl, rfl, rfl, rfl, fun j hj => ?_⟩
    rw [canOf_congr (event_bus _ _ _ _), canOf_updCan_other _ fun h => hj (Fin.ext h.symm)]
  · obtain ⟨⟨hring, hseq, hlost⟩, hcans⟩ := rxGood_sameReception ch s ch
    obtain ⟨hring', hseq', hlost'⟩ := ringEnter_reception f (wd (canStamp s ch stamp)) (epochOf s (canStamp s ch stamp))
      (canStamp s ch stamp) (hcans ▸ hch)
    refine ⟨_, _, exec_canFrameRx_ok hvariant hen hself hauto stamp, hring ▸ hring', rfl, hlost, hseq, rfl, hseq ▸ hseq', hlost'⟩
  · exact ⟨_, exec_canFrameRx_error hvariant hen hself stamp kind primary, rxError_counts primary hch hstate htec⟩

end Sys2Proof.Machine
end

section
/-! SUPPORT. A ring of one slot through HIF_DOORBELL (R453, R454): the doorbell word with one bit names one slot, and what its ring
does to a pending and to an occupied slot. -/

namespace Sys2Proof.Machine

/-! ## The slot that a doorbell word with one bit names (R453) -/

theorem getLsbD_wd_two_pow (n m : Fin 31) : (wd (2 ^ n.val)).getLsbD m.val = decide (m = n) := by
  have hm : m.val < 32 := by omega
  rw [wd, BitVec.getLsbD_ofNat, Nat.testBit_two_pow, decide_eq_true hm, Bool.true_and]
  exact decide_eq_decide.mpr (eq_comm.trans Fin.ext_iff.symm)

theorem slotsRung_two_pow (n : Fin 31) :
    (List.finRange 31).filter (fun m : Fin 31 => (wd (2 ^ n.val)).getLsbD m.val) = [n] := by
  simp only [getLsbD_wd_two_pow]
  rw [List.filter_eq, List.count_eq_one_of_mem (List.nodup_finRange 31) (List.mem_finRange n), List.replicate_one]

/-- A doorbell write with one bit rings that slot alone, and the mailbox server goes on (R453, R471). -/
theorem exec_hifDoorbell_two_pow (n : Fin 31) {s : State} (hvariant : s.variant ≠ .WK) (hup : mailboxDown s = false) :
    exec (.hifDoorbell (wd (2 ^ n.val))) s = .next (serve (ringSlot s n)) := by
  change execHifDoorbell (wd (2 ^ n.val)) s = _
  have hpcie : hasPcie s = true := decide_eq_true hvariant
  unfold execHifDoorbell
  rw [slotsRung_two_pow, hpcie, hup]
  rfl

/-! ## The ring of one slot (R454) -/

theorem ringSlot_of_pending {n : Fin 31} {s : State} (hpending : (.slot n, []) ∈ s.hif.waiting) :
    ringSlot s n = hifCount 0 s := by
  have hany : (s.hif.waiting.any fun w => w.1 = .slot n) = true := List.any_eq_true.mpr ⟨_, hpending, decide_eq_true rfl⟩
  exact if_pos hany

theorem ringSlot_of_occupied {n : Fin 31} {s : State} (hpending : ∀ w ∈ s.hif.waiting, w.1 ≠ .slot n)
    (hoccupied : s.hif.busy.getLsbD n = true ∨ s.hif.done.getLsbD n = true) :
    ringSlot s n = event 0x0113 2 [n, (s.hif.busy.getLsbD n).toNat, (s.hif.done.getLsbD n).toNat]
      (raiseIrq 7 (hifCount 2 (hifCount 0 s))) := by
  have hany : ¬ (s.hif.waiting.any fun w => w.1 = .slot n) = true := by
    rw [List.any_eq_true]
    rintro ⟨w, hw, hslot⟩
    exact hpending w hw (of_decide_eq_true hslot)
  exact (if_neg hany).trans (if_pos (Bool.or_eq_true_iff.mpr hoccupied))

/-- Settles O15: the ring of a pending slot is counted and nothing else; that of an occupied slot sets DOORBELL_ERR, is counted as
such and recorded. -/
theorem ringOfOccupiedSlot : Obligations.RingOfOccupiedSlot := by
  unfold Obligations.RingOfOccupiedSlot
  refine ⟨fun n s hvariant hup hpending => ?_, fun n s hvariant hup hpending hoccupied => ?_⟩
  · rw [exec_hifDoorbell_two_pow n hvariant hup, ringSlot_of_pending hpending]
    rfl
  · rw [exec_hifDoorbell_two_pow n hvariant hup, ringSlot_of_occupied hpending hoccupied]
    rfl

end Sys2Proof.Machine
end

section
/-! SUPPORT. Steps and resets: how a step runs the front of the queue, what a reset of either scope writes, what a release sequence on
SAFE_RESET_N writes, and the invariants of every step that follow. -/

namespace Sys2Proof.Machine

/-! ## One step (R455) -/

theorem step_cons (i : Instr) (rest : List Instr) (s : State) : step { s with pending := i :: rest } = exec i { s with pending := rest } := rfl

theorem step_nil {s : State} (h : s.pending = []) : step s = idle s := by
  unfold step
  rw [h]

/-- A step idles, or executes a command on the state, or on the state with the queue's rest. -/
theorem step_cases {s t : State} (h : step s = .next t) :
    t = s ∨ (∃ i, exec i s = .next t) ∨ ∃ i rest, exec i { s with pending := rest } = .next t := by
  cases hp : s.pending with
  | cons i rest =>
    unfold step at h
    rw [hp] at h
    exact .inr (.inr ⟨i, rest, h⟩)
  | nil =>
    rw [step_nil hp] at h
    unfold idle at h
    split at h
    · exact .inl (Host.Outcome.next.inj h).symm
    · split at h
      · exact .inr (.inl ⟨_, h⟩)
      · exact .inl (Host.Outcome.next.inj h).symm

/-- Settles O1: the equations of one step on a queue with a front, and on an empty queue with and without a taken command. -/
theorem stepRunsFront : Obligations.StepRunsFront := by
  unfold Obligations.StepRunsFront
  refine ⟨fun c s => step_cons c s.pending s, fun s hp hn => ?_, fun s code r i hp hn hi => ?_⟩
  · rw [step_nil hp, idle, hn]
  · rw [step_nil hp, idle, hn]
    dsimp only
    rw [hi]

/-! ## The reset state -/

/-- Settles O2: each field of the reset state is read off its definition. -/
theorem resetState : Obligations.ResetState := by
  unfold Obligations.ResetState
  decide +kernel

/-- Settles O3: nothing is written in the slots, and no output is energised. -/
theorem resetSound : Obligations.ResetSound := ⟨rfl, fun _ => rfl⟩

/-! ## Resets (R544, R549) -/

theorem raiseAlarm_mem (code subj sev detail : Nat) (s : State) :
    ∃ m, raiseAlarm code subj sev detail s = { s with mem := m } := by
  unfold raiseAlarm
  split
  · exact ⟨s.mem, rfl⟩
  · exact ⟨_, rfl⟩

/-- What a reset holds before the alarms that outlast it are raised again. -/
def resetBase (code : Nat) (s : State) : State :=
  { pending := s.pending, free := s.free, outs := s.outs, variant := s.variant, mram := s.mram
    fw := { s.fw with version := 0, source := 0, load := none, chunks := [] }
    rst := resetRst code s, safe := resetSafe code s, arch := resetArch s, memp := resetMemp code s }

/-- A reset is its base with the alarms raised again. -/
theorem resetDevice_eq (code : Nat) (s : State) : ∃ m, resetDevice code s = { resetBase code s with mem := m } := by
  unfold resetDevice
  extract_lets fw t t1
  refine List.foldlRecOn (motive := fun (u : State) => ∃ m, u = { resetBase code s with mem := m }) _ _ ?_ ?_
  · show ∃ m, t1 = _
    simp only [t1]
    split
    · exact raiseAlarm_mem _ _ _ _ _
    · exact ⟨_, rfl⟩
  · rintro _ ⟨m, rfl⟩ n _
    split
    · exact raiseAlarm_mem _ _ _ _ _
    · exact ⟨m, rfl⟩

@[simp] theorem resetDevice_safe (code : Nat) (s : State) : (resetDevice code s).safe = resetSafe code s := by
  obtain ⟨m, h⟩ := resetDevice_eq code s; rw [h]; rfl
@[simp] theorem resetDevice_rst (code : Nat) (s : State) : (resetDevice code s).rst = resetRst code s := by
  obtain ⟨m, h⟩ := resetDevice_eq code s; rw [h]; rfl
@[simp] theorem resetDevice_mram (code : Nat) (s : State) : (resetDevice code s).mram = s.mram := by
  obtain ⟨m, h⟩ := resetDevice_eq code s; rw [h]; rfl
@[simp] theorem resetDevice_hif (code : Nat) (s : State) : (resetDevice code s).hif = {} := by
  obtain ⟨m, h⟩ := resetDevice_eq code s; rw [h]; rfl
@[simp] theorem resetDevice_cfg (code : Nat) (s : State) : (resetDevice code s).cfg = {} := by
  obtain ⟨m, h⟩ := resetDevice_eq code s; rw [h]; rfl
@[simp] theorem resetDevice_dp (code : Nat) (s : State) : (resetDevice code s).dp = {} := by
  obtain ⟨m, h⟩ := resetDevice_eq code s; rw [h]; rfl
@[simp] theorem resetDevice_variant (code : Nat) (s : State) : (resetDevice code s).variant = s.variant := (keepsUnit_resetDevice code s).variant
@[simp] theorem resetDevice_pending (code : Nat) (s : State) : (resetDevice code s).pending = s.pending := (keepsUnit_resetDevice code s).pending

theorem sound_resetDevice (code : Nat) (s : State) : Sound (resetDevice code s) := by
  refine ⟨?_, fun _ => ?_⟩
  · show Memory.wf (resetDevice code s).hif.ram = true
    rw [resetDevice_hif]
    rfl
  · rw [resetDevice_safe]
    rfl

/-! ## The release sequence (R319, R320) -/

theorem and_not_zero (a : BitVec 16) : a &&& ~~~0 = a := BitVec.and_allOnes

/-- A release clears causes of the safety controller and then keeps what `Keeps` names. -/
theorem release_keeps (lowMs : Nat) (s : State) : ∃ (f : Safe → Safe) (clr : BitVec 16), Keeps (updSafe f s) (release lowMs s) ∧
    (f s.safe).causes = s.safe.causes &&& ~~~clr ∧ (f s.safe).outs = s.safe.outs := by
  unfold release
  extract_lets old clr left trips s1 loop s2 s3 s4 s5
  have h2 : Keeps s1 s2 := keeps_ite (keeps_mk (keeps_refl s1) rfl rfl rfl (ramKeeps_refl _) (safeKeeps_refl _)) (keeps_refl s1)
  have h3 : Keeps s1 s3 := keeps_irqChange s s2 h2
  have h4 : Keeps s1 s4 := keeps_ite (keeps_event _ _ _ s3 h3) h3
  have h5 : Keeps s1 s5 := keeps_ite (keeps_event _ _ _ s4 h4) h4
  exact ⟨_, clr, keeps_driveOutputs s5 h5, rfl, rfl⟩

/-- A rise of SAFE_RESET_N clears causes of the safety controller, if anything, and then keeps what `Keeps` names. -/
theorem execSafeResetNRise_keeps {lowMs : Nat} {s t : State} (h : execSafeResetNRise lowMs s = .next t) :
    ∃ (f : Safe → Safe) (clr : BitVec 16), Keeps (updSafe f s) t ∧ (f s.safe).causes = s.safe.causes &&& ~~~clr ∧
      (f s.safe).outs = s.safe.outs := by
  unfold execSafeResetNRise at h
  extract_lets s1 s2 at h
  have h2 : Keeps s1 s2 := keeps_ite (keeps_clearAlarm _ _ s1 (keeps_refl s1)) (keeps_refl s1)
  have hsafe : s2.safe = s1.safe := by simp only [s2]; split <;> rfl
  split at h <;> cases h
  · exact ⟨id, 0, keeps_refl s, (and_not_zero _).symm, rfl⟩
  · split
    · exact ⟨_, 0, keeps_event _ _ _ s2 h2, (and_not_zero _).symm, rfl⟩
    · split
      · exact ⟨_, 0, keeps_event _ _ _ s2 h2, (and_not_zero _).symm, rfl⟩
      · obtain ⟨f, clr, hk, hc, ho⟩ := release_keeps lowMs s2
        refine ⟨fun x => f { x with pinLow := false, resetStuck := false }, clr, keeps_trans ?_ hk, ?_, ?_⟩
        · exact ⟨h2.pending, h2.variant, h2.straps, h2.cause, h2.boot, h2.ram, safeKeeps_of_eq (by rw [updSafe_safe, updSafe_safe, hsafe]; rfl) (by rw [updSafe_safe, updSafe_safe, hsafe]; rfl)⟩
        · rw [hsafe] at hc; exact hc
        · rw [hsafe] at ho; exact ho

/-! ## What every step keeps (R300, R301, R322) -/

theorem sound_of_keeps {s t : State} (k : Keeps s t) (h : Sound s) : Sound t :=
  ⟨k.ram h.1, k.safe.off h.2⟩

/-- Clearing causes of a sound state leaves it sound: outputs that are off stay off. -/
theorem sound_updSafe_clear {f : Safe → Safe} {clr : BitVec 16} {s : State} (hc : (f s.safe).causes = s.safe.causes &&& ~~~clr)
    (ho : (f s.safe).outs = s.safe.outs) (h : Sound s) : Sound (updSafe f s) := by
  refine ⟨h.1, fun hleft => ho.trans (h.2 fun h0 => hleft ?_)⟩
  rw [updSafe_safe, hc, h0]
  exact BitVec.zero_and

theorem sound_execResetRelease {straps : BitVec 12} {trimOk : Bool} {s t : State} (h : execResetRelease straps trimOk s = .next t)
    (hs : Sound s) : Sound t := by
  unfold execResetRelease at h
  split at h <;> cases h <;> exact hs

theorem sound_exec {i : Instr} {s t : State} (h : exec i s = .next t) (hs : Sound s) : Sound t := by
  cases i with
  | powerOnReset => exact Host.Outcome.next.inj h ▸ sound_resetDevice 0 s
  | brownOut => exact Host.Outcome.next.inj h ▸ sound_resetDevice 1 s
  | resetRelease => exact sound_execResetRelease h hs
  | safeResetNRise =>
    obtain ⟨f, clr, hk, hc, ho⟩ := execSafeResetNRise_keeps h
    exact sound_of_keeps hk (sound_updSafe_clear hc ho hs)
  | _ => exact sound_of_keeps ((resKeeps_exec s _ rfl).keeps h) hs

/-- Settles O4: each case of a step is an execution, on a state that differs from the given one in its queue alone. -/
theorem stepKeepsSound : Obligations.StepKeepsSound := by
  unfold Obligations.StepKeepsSound
  intro s t hs h
  obtain rfl | ⟨i, hi⟩ | ⟨i, rest, hi⟩ := step_cases h
  · exact hs
  · exact sound_exec hi hs
  · exact sound_exec hi hs

/-- Settles O5: the queue is part of what every command and event keeps. -/
theorem execLeavesQueue : Obligations.ExecLeavesQueue := fun _ _ _ h => (keepsUnit_exec h).pending

theorem safe_execResetRelease {straps : BitVec 12} {trimOk : Bool} {s t : State} (h : execResetRelease straps trimOk s = .next t) :
    t.safe = s.safe := by
  unfold execResetRelease at h
  split at h <;> cases h <;> rfl

/-- Settles O7: but for the exempt events a command keeps the latched causes; a reset release leaves the safety controller alone. -/
theorem causesStayLatched : Obligations.CausesStayLatched := by
  unfold Obligations.CausesStayLatched
  intro i s t hrise hpor hbrown h n hn
  cases i with
  | powerOnReset => exact absurd rfl hpor
  | brownOut => exact absurd rfl hbrown
  | safeResetNRise ms => exact absurd rfl (hrise ms)
  | resetRelease => rw [safe_execResetRelease h]; exact hn
  | _ => exact ((resKeeps_exec s _ rfl).keeps h).safe.causes n hn

/-- Settles O8: a FULL reset and a release sequence leave the latch and BOOT as they are, and so does all that keeps `Keeps`. -/
theorem strapsAndBootChangeAtRelease : Obligations.StrapsAndBootChangeAtRelease := by
  unfold Obligations.StrapsAndBootChangeAtRelease
  intro i s t hrel h
  cases i with
  | powerOnReset => rw [← (Host.Outcome.next.inj h : resetDevice 0 s = t), resetDevice_rst, resetDevice_mram]; exact ⟨rfl, rfl⟩
  | brownOut => rw [← (Host.Outcome.next.inj h : resetDevice 1 s = t), resetDevice_rst, resetDevice_mram]; exact ⟨rfl, rfl⟩
  | resetRelease p o => exact absurd rfl (hrel p o)
  | safeResetNRise =>
    obtain ⟨f, clr, hk, -, -⟩ := execSafeResetNRise_keeps h
    exact ⟨hk.straps, hk.boot⟩
  | _ =>
    have hk : Keeps s t := (resKeeps_exec s _ rfl).keeps h
    exact ⟨hk.straps, hk.boot⟩

end Sys2Proof.Machine
end

section
/-! SUPPORT. What sending and recording write of the ports and of the host link; BAR0 memory, recording and answering in full. -/

namespace Sys2Proof.Machine

/-! ## Sending and recording write queues, held frames, counters and notifications (R392, R395, R458, R524) -/

/-- A port without its transmit queue, its held frames and its counters. -/
def Port.fixed (p : Port) : Port := { p with queue := [], arrived := 0, held := [], hseq := 0, counts := [] }

/-- `t` differs from `s`, in the outputs' log, the host link and the link's ports, only in queues, counters and notifications. -/
structure QueuesOnly (s t : State) : Prop where
  outs : t.outs = s.outs
  undo : t.undo = s.undo
  hif : { t.hif with noteNo := s.hif.noteNo, notes := s.hif.notes, counts := s.hif.counts } = s.hif
  ports : t.link.ports.map Port.fixed = s.link.ports.map Port.fixed
  link : { t.link with ports := s.link.ports, txSeq := s.link.txSeq, counts := s.link.counts } = s.link

theorem QueuesOnly.refl (s : State) : QueuesOnly s s := by constructor <;> rfl

theorem QueuesOnly.trans {a b c : State} (h : QueuesOnly a b) (k : QueuesOnly b c) : QueuesOnly a c := by
  obtain ⟨ho, hu, hh, hp, hl⟩ := h
  obtain ⟨ho', hu', hh', hp', hl'⟩ := k
  refine ⟨ho'.trans ho, hu'.trans hu, ?_, hp'.trans hp, ?_⟩
  · rw [← hh, ← hh']
  · rw [← hl, ← hl']

theorem QueuesOnly.foldl {α : Type} {f : State → α → State} (hf : ∀ s x, QueuesOnly s (f s x)) (l : List α) (s : State) :
    QueuesOnly s (l.foldl f s) :=
  List.foldlRecOn (motive := QueuesOnly s) l f (.refl s) fun t ht x _ => ht.trans (hf t x)

theorem QueuesOnly.ite {c : Prop} [Decidable c] {s t u : State} (h : QueuesOnly s t) (k : QueuesOnly s u) :
    QueuesOnly s (if c then t else u) := by
  split <;> assumption

theorem map_fixed_upd {f : Port → Port} (hf : ∀ p, (f p).fixed = p.fixed) (l : List Port) (n : Nat) :
    (upd l n f).map Port.fixed = l.map Port.fixed := by
  refine List.ext_getElem (by simp [upd]) fun i h1 h2 => ?_
  simp only [upd, List.getElem_map, List.getElem_modify]
  split
  · exact hf _
  · rfl

theorem pumpPort_fixed (n : Nat) (p : Port) : (pumpPort n p).fixed = p.fixed := by
  induction n generalizing p with
  | zero => rfl
  | succ n ih =>
    unfold pumpPort
    split
    · rfl
    · split
      · exact ih _
      · rfl

theorem queuesOnly_enqueue (ix : Nat) (f : Frame) (s : State) : QueuesOnly s (enqueue ix f s) := by
  refine ⟨rfl, rfl, rfl, map_fixed_upd (fun p => ?_) _ _, rfl⟩
  dsimp only
  split <;> rfl

theorem queuesOnly_pump (s : State) : QueuesOnly s (pump s) := by
  refine ⟨rfl, rfl, rfl, ?_, rfl⟩
  show (s.link.ports.map (pumpPort 16)).map Port.fixed = _
  rw [List.map_map]
  exact List.map_congr_left fun p _ => pumpPort_fixed 16 p

theorem queuesOnly_sendNet (f : Frame) (net : Bool) (s : State) : QueuesOnly s (sendNet f net s) := by
  unfold sendNet
  extract_lets hdr g t
  have ht : QueuesOnly s t := .ite (queuesOnly_enqueue _ _ _) (.refl s)
  split
  · exact .ite (ht.trans (queuesOnly_enqueue _ _ _)) ht
  · split
    · exact queuesOnly_enqueue _ _ _
    · constructor <;> rfl

theorem queuesOnly_sendFrame (type flow prio : Nat) (both : Bool) (dst : Nat) (epoch16 : BitVec 16) (payload : List Byte)
    (flags : Hdr → Hdr) (s : State) : QueuesOnly s (sendFrame type flow prio both dst epoch16 payload flags s) := by
  unfold sendFrame
  extract_lets q h link s1
  have h1 : QueuesOnly s s1 := by constructor <;> rfl
  exact (h1.trans (.foldl (fun t n => queuesOnly_sendNet _ _ _) _ _)).trans (queuesOnly_pump _)

theorem queuesOnly_sendSys (type dst : Nat) (epoch : Word) (payload : List Byte) (s : State) :
    QueuesOnly s (sendSys type dst epoch payload s) := queuesOnly_sendFrame _ _ _ _ _ _ _ _ _

theorem queuesOnly_sendMember (subtype : Nat) (s : State) : QueuesOnly s (sendMember subtype s) := queuesOnly_sendSys _ _ _ _ _

theorem queuesOnly_notify (num : Word) (r : EvRec) (s : State) : QueuesOnly s (notify num r s) := by
  unfold notify
  extract_lets no
  split
  · exact .refl s
  · split <;> constructor <;> rfl

theorem queuesOnly_storeRec (r : EvRec) (own : Bool) (s : State) : QueuesOnly s (storeRec r own s) := by
  unfold storeRec
  extract_lets num s1
  have h0 : QueuesOnly s (ringAppend r s) := by constructor <;> rfl
  have h1 : QueuesOnly s s1 := h0.trans (queuesOnly_notify num r _)
  exact .ite (h1.trans (queuesOnly_sendSys _ _ _ _ _)) h1

theorem queuesOnly_setBucket (b : Bucket) (s : State) : QueuesOnly s (setBucket b s) := by constructor <;> rfl

theorem queuesOnly_offer (r : EvRec) (k : Nat) (own : Bool) (s : State) : QueuesOnly s (offer r k own s) := by
  unfold offer
  extract_lets b0 b b1 s1
  have h1 : QueuesOnly s s1 := .ite (queuesOnly_storeRec _ _ _) (.refl s)
  exact .ite ((h1.trans (queuesOnly_setBucket _ _)).trans (queuesOnly_storeRec _ _ _)) (queuesOnly_setBucket _ _)

theorem queuesOnly_fireTraces (n code : Nat) (s : State) : QueuesOnly s (fireTraces n code s) := by
  induction n generalizing code s with
  | zero => exact .refl s
  | succ n ih =>
    unfold fireTraces
    extract_lets us loop s1 note
    have h1 : QueuesOnly s s1 := by constructor <;> rfl
    split
    · exact .refl s
    · exact (h1.trans (.foldl (fun t u => queuesOnly_offer _ _ _ _) _ _)).trans (ih _ _)

theorem queuesOnly_event (code sev : Nat) (ps : List Nat) (s : State) : QueuesOnly s (event code sev ps s) := by
  unfold event
  split
  · exact (queuesOnly_offer _ _ _ _).trans (queuesOnly_fireTraces _ _ _)
  · constructor <;> rfl

/-! ## Fields after an event -/

section
variable (code sev : Nat) (ps : List Nat) (s : State)

@[simp] theorem event_pending : (event code sev ps s).pending = s.pending := (quiet_event code sev ps s).pending
@[simp] theorem event_free : (event code sev ps s).free = s.free := (quiet_event code sev ps s).free
@[simp] theorem event_variant : (event code sev ps s).variant = s.variant := (quiet_event code sev ps s).variant
@[simp] theorem event_cfgNext : (event code sev ps s).cfgNext = s.cfgNext := (quiet_event code sev ps s).cfgNext
@[simp] theorem event_fw : (event code sev ps s).fw = s.fw := (quiet_event code sev ps s).fw
@[simp] theorem event_safe : (event code sev ps s).safe = s.safe := (quiet_event code sev ps s).safe
@[simp] theorem event_time : (event code sev ps s).time = s.time := (quiet_event code sev ps s).time
@[simp] theorem event_cyc : (event code sev ps s).cyc = s.cyc := (quiet_event code sev ps s).cyc
@[simp] theorem event_brd : (event code sev ps s).brd = s.brd := (quiet_event code sev ps s).brd
@[simp] theorem event_mem : (event code sev ps s).mem = s.mem := (quiet_event code sev ps s).mem
@[simp] theorem event_dp : (event code sev ps s).dp = s.dp := (quiet_event code sev ps s).dp
@[simp] theorem event_sol : (event code sev ps s).sol = s.sol := (quiet_event code sev ps s).sol
@[simp] theorem event_fus : (event code sev ps s).fus = s.fus := (quiet_event code sev ps s).fus
@[simp] theorem event_ao : (event code sev ps s).ao = s.ao := (quiet_event code sev ps s).ao
@[simp] theorem event_arch : (event code sev ps s).arch = s.arch := (quiet_event code sev ps s).arch
@[simp] theorem event_memp : (event code sev ps s).memp = s.memp := (quiet_event code sev ps s).memp
@[simp] theorem event_tests : (event code sev ps s).tests = s.tests := (quiet_event code sev ps s).tests
@[simp] theorem event_outs : (event code sev ps s).outs = s.outs := (queuesOnly_event code sev ps s).outs
@[simp] theorem event_undo : (event code sev ps s).undo = s.undo := (queuesOnly_event code sev ps s).undo
@[simp] theorem event_ram : (event code sev ps s).hif.ram = s.hif.ram := by
  have h := congrArg Hif.ram (queuesOnly_event code sev ps s).hif; exact h
@[simp] theorem event_ctx : (event code sev ps s).loop.ctx = s.loop.ctx := by
  have h := congrArg Loop.ctx (quiet_event code sev ps s).loop; exact h
@[simp] theorem event_life : (event code sev ps s).rst.life = s.rst.life := by
  have h := congrArg Rst.life (quiet_event code sev ps s).rst; exact h

end

/-! ## BAR0 memory (R447, R449) -/

/-- Below the first cell of a canonical list every byte reads as an unwritten one. -/
theorem memory_read_below {m : List Host.Cell} {a : Nat} (hw : Memory.wf m = true) (h : ∀ c ∈ m.head?, a < c.1) :
    Memory.read m a = ramDefault := by
  induction m with
  | nil => rfl
  | cons c m ih =>
    obtain ⟨k, b⟩ := c
    obtain ⟨-, hhead, htail⟩ := (memory_wf_cons k b m).1 hw
    have hk : a < k := h _ rfl
    rw [Memory.read, if_neg (by omega)]
    exact ih htail fun c hc => Nat.lt_trans hk (hhead c hc)

theorem memory_read_cons_self (k : Nat) (b : Byte) (m : List Host.Cell) : Memory.read ((k, b) :: m) k = b := if_pos rfl

theorem memory_read_cons_ne {k a : Nat} (b : Byte) (m : List Host.Cell) (h : k ≠ a) : Memory.read ((k, b) :: m) a = Memory.read m a :=
  if_neg h

/-- The first cell of a canonical list lies below no cell that reads otherwise in another canonical list. -/
theorem memory_head_le {k k' : Nat} {b b' : Byte} {m n : List Host.Cell} (hm : Memory.wf ((k, b) :: m) = true)
    (hn : Memory.wf ((k', b') :: n) = true) (h : ∀ a, Memory.read ((k, b) :: m) a = Memory.read ((k', b') :: n) a) : k' ≤ k := by
  by_contra hlt
  have hb : b = ramDefault := by
    rw [← memory_read_cons_self k b m, h k]
    exact memory_read_below hn fun c hc => by cases hc; omega
  exact ((memory_wf_cons k b m).1 hm).1 hb

/-- Equal contents are equal canonical lists. -/
theorem memory_ext {m n : List Host.Cell} (hm : Memory.wf m = true) (hn : Memory.wf n = true)
    (h : ∀ a, Memory.read m a = Memory.read n a) : m = n := by
  induction m generalizing n with
  | nil =>
    cases n with
    | nil => rfl
    | cons c n =>
      obtain ⟨k, b⟩ := c
      have hb := h k
      rw [memory_read_cons_self] at hb
      exact absurd hb.symm ((memory_wf_cons k b n).1 hn).1
  | cons c m ih =>
    obtain ⟨k, b⟩ := c
    obtain ⟨hb, hhead, htail⟩ := (memory_wf_cons k b m).1 hm
    cases n with
    | nil =>
      have hk := h k
      rw [memory_read_cons_self] at hk
      exact absurd hk hb
    | cons c' n =>
      obtain ⟨k', b'⟩ := c'
      obtain ⟨hb', hhead', htail'⟩ := (memory_wf_cons k' b' n).1 hn
      obtain rfl : k = k' := Nat.le_antisymm (memory_head_le hn hm fun a => (h a).symm) (memory_head_le hm hn h)
      obtain rfl : b = b' := by rw [← memory_read_cons_self k b m, h k, memory_read_cons_self]
      rw [ih htail htail' fun a => ?_]
      by_cases ha : k = a
      · subst ha
        rw [memory_read_below htail hhead, memory_read_below htail' hhead']
      · rw [← memory_read_cons_ne b m ha, h a, memory_read_cons_ne b n ha]

/-- A run written at rising addresses, as R449 reads it back. -/
theorem memory_read_writeAll_getD (m : List Host.Cell) (a b : Nat) (vs : List Byte) (h : Memory.wf m = true) :
    Memory.read (Memory.writeAll m a vs) b = if a ≤ b ∧ b < a + vs.length then vs.getD (b - a) 0 else Memory.read m b := by
  rw [memory_read_writeAll vs m a b h]
  by_cases hin : a ≤ b ∧ b < a + vs.length
  · rw [dif_pos ⟨hin.1, by omega⟩, if_pos hin, List.getD_eq_getElem _ _ (by omega)]
  · rw [dif_neg (by omega), if_neg hin]

/-- Settles O9: reading after one write and after a run, the canonical form, and its extensionality. -/
theorem slotMemory : Obligations.SlotMemory := by
  unfold Obligations.SlotMemory
  exact ⟨fun m a b v h => memory_read_write m a b v h, memory_read_writeAll_getD, fun m a vs h => memory_wf_writeAll vs m a h,
    fun m n hm hn h => memory_ext hm hn h⟩

/-! ## Recording (R522, R524, R526) -/

theorem sendSys_link (type dst : Nat) (epoch : Word) (payload : List Byte) (s : State) :
    ∃ l, sendSys type dst epoch payload s = { s with link := l } := by
  unfold sendSys sendFrame
  extract_lets f q h link s1
  have hfold : ∃ l, (netsOf s f.2.2 dst).foldl (fun t n => sendNet { hdr := h, payload := payload } n t) s1 = { s with link := l } := by
    refine List.foldlRecOn (motive := fun (u : State) => ∃ l, u = { s with link := l }) _ _ ⟨_, rfl⟩ ?_
    rintro _ ⟨l, rfl⟩ n -
    unfold sendNet
    dsimp only
    split
    · split <;> split <;> exact ⟨_, rfl⟩
    · split <;> exact ⟨_, rfl⟩
  obtain ⟨l, hl⟩ := hfold
  exact ⟨_, by rw [hl]; rfl⟩

theorem notify_hif (num : Word) (r : EvRec) (s : State) : ∃ h, notify num r s = { s with hif := h } := by
  unfold notify
  extract_lets no
  split
  · exact ⟨_, rfl⟩
  · split <;> exact ⟨_, rfl⟩

/-- A stored record stands at the head of the ring; beside it recording writes the host link and the Station Link alone. -/
theorem storeRec_eq (r : EvRec) (own : Bool) (s : State) :
    ∃ h l, storeRec r own s = { ringAppend r s with hif := h, link := l } := by
  unfold storeRec
  extract_lets num s1
  obtain ⟨h, hs1⟩ : ∃ h, s1 = { ringAppend r s with hif := h } := notify_hif num r (ringAppend r s)
  split
  · obtain ⟨l, hl⟩ := sendSys_link 7 0xFE s.epochHeld (leBytes 4 num.toNat ++ recBytes num r) s1
    exact ⟨h, l, by rw [hl, hs1]⟩
  · exact ⟨h, _, hs1⟩

theorem storeRec_mram (r : EvRec) (own : Bool) (s : State) : (storeRec r own s).mram = (ringAppend r s).mram := by
  obtain ⟨h, l, hs⟩ := storeRec_eq r own s; rw [hs]

theorem storeRec_loop (r : EvRec) (own : Bool) (s : State) : (storeRec r own s).loop = s.loop := by
  obtain ⟨h, l, hs⟩ := storeRec_eq r own s; rw [hs]; rfl

theorem codeUnits_congr {s t : State} (code : BitVec 16) (h : t.loop = s.loop) : codeUnits code t = codeUnits code s := by
  unfold codeUnits; rw [h]

/-- An occurrence with a token in its bucket and nothing suppressed is stored. -/
theorem offer_of_token {r : EvRec} (own : Bool) {s : State} (htok : (bucketOf s r.code).tokens > 0)
    (hpend : (bucketOf s r.code).pending = 0) :
    offer r 0 own s = storeRec { r with supp := 0 } own
      (setBucket { bucketOf s r.code with sev := r.sev, tokens := (bucketOf s r.code).tokens - 1, pending := 0 } s) := by
  unfold offer
  extract_lets b0 b b1 s1
  have hb1 : b1 = b := if_pos rfl
  have hs1 : s1 = s := if_neg (by rw [hb1]; show ¬ (bucketOf s r.code).pending > 31; omega)
  rw [if_pos (by rw [hb1]; exact htok), hs1, hb1]
  show storeRec { r with supp := min (bucketOf s r.code).pending 31 } own _ = _
  rw [hpend]
  rfl

theorem fireTraces_of_none {code : Nat} {s : State} (n : Nat) (h : codeUnits (BitVec.ofNat 16 code) s = []) :
    fireTraces n code s = s := by
  cases n with
  | zero => rfl
  | succ n => rw [fireTraces, h]; rfl

/-- Settles O10: recording is quiet and leaves BAR0 memory; an accepted event is `storeRec` of its record, with no trace unit to fire. -/
theorem eventRecorded : Obligations.EventRecorded := by
  unfold Obligations.EventRecorded
  refine ⟨fun code sev ps s => ⟨quiet_event code sev ps s, event_ram code sev ps s⟩, ?_⟩
  intro code sev ps s hrun htok hpend hunits
  rw [event, if_pos hrun, offer_of_token (r := mkEvent code sev ps s) true htok hpend,
    fireTraces_of_none 9 (by rw [codeUnits_congr _ (storeRec_loop _ _ _)]; exact hunits), storeRec_mram]
  exact ⟨rfl, rfl⟩

/-! ## Answering (R449, R452, R453) -/

/-- Settles O11: answering is quiet. -/
theorem finishFrame : Obligations.FinishFrame := quiet_finish

theorem header_length (code tag target flags len status seq : Nat) : (header code tag target flags len status seq).length = 16 := rfl

@[simp] theorem raiseIrq_ram (b : Nat) (s : State) : (raiseIrq b s).hif.ram = s.hif.ram := by
  unfold raiseIrq; dsimp only; split <;> rfl
@[simp] theorem raiseIrq_seq (b : Nat) (s : State) : (raiseIrq b s).hif.seq = s.hif.seq := by
  unfold raiseIrq; dsimp only; split <;> rfl
@[simp] theorem raiseIrq_done (b : Nat) (s : State) : (raiseIrq b s).hif.done = s.hif.done := by
  unfold raiseIrq; dsimp only; split <;> rfl
@[simp] theorem raiseIrq_busy (b : Nat) (s : State) : (raiseIrq b s).hif.busy = s.hif.busy := by
  unfold raiseIrq; dsimp only; split <;> rfl

/-- The host link after the answer to a slot's request without DMA: count, header with payload, DONE and BUSY; the interrupt apart. -/
theorem respond_slot {n : Fin 31} {r : Req} (code st : Nat) (pay : List Byte) (s : State) (hpath : r.path = .slot n) (hdma : r.dma = none) :
    let t := respond code r st pay s
    t.hif.seq = s.hif.seq + 1 ∧ t.hif.done = s.hif.done ||| wd (2 ^ n.val) ∧ t.hif.busy = s.hif.busy &&& ~~~(wd (2 ^ n.val)) ∧
      t.hif.ram = Memory.writeAll s.hif.ram (slotAddr n)
        (header code r.tag.toNat r.target.toNat (reqFlags r) pay.length st (s.hif.seq + 1).toNat ++ pay) := by
  intro t
  have ht : t = respondWith (reqFlags r) code r st pay s := rfl
  rw [ht, respondWith, hpath]
  dsimp only
  rw [hdma]
  cases r.notify <;> simp [writeSlot]

theorem getLsbD_wd_two_pow_or (x : Word) (n m : Fin 31) : (x ||| wd (2 ^ n.val)).getLsbD m = (x.getLsbD m || decide (m = n)) := by
  rw [BitVec.getLsbD_or, getLsbD_wd_two_pow]

theorem getLsbD_wd_two_pow_clear (x : Word) (n m : Fin 31) : (x &&& ~~~(wd (2 ^ n.val))).getLsbD m = (x.getLsbD m && decide (m ≠ n)) := by
  rw [BitVec.getLsbD_and, BitVec.getLsbD_not, getLsbD_wd_two_pow]
  simp [show m.val < 32 by omega]

/-- Settles O12: the bytes written are one run of header and payload, and DONE and BUSY change in the slot's bit. -/
theorem slotAnswer : Obligations.SlotAnswer := by
  unfold Obligations.SlotAnswer
  intro n code st r pay s hpath hdma hlen hwf h t
  obtain ⟨hseq, hdone, hbusy, hram⟩ := respond_slot code st pay s hpath hdma
  have hh : h.length = 16 := header_length _ _ _ _ _ _ _
  have hread : ∀ a, Memory.read t.hif.ram a = if slotAddr n ≤ a ∧ a < slotAddr n + (h ++ pay).length
      then (h ++ pay).getD (a - slotAddr n) 0 else Memory.read s.hif.ram a := fun a => by
    rw [hram, memory_read_writeAll_getD _ _ _ _ hwf]
  have htotal : (h ++ pay).length = 16 + pay.length := by rw [List.length_append, hh]
  refine ⟨hseq, ?_, ?_, fun k hk => ?_, fun k hk => ?_, fun a ha => ?_, fun m hm => ⟨?_, ?_⟩⟩
  · rw [hdone, getLsbD_wd_two_pow_or]; simp
  · rw [hbusy, getLsbD_wd_two_pow_clear]; simp
  · rw [hread, if_pos (by omega), Nat.add_sub_cancel_left, List.getD_append _ _ _ _ (by omega)]
  · rw [hread, if_pos (by omega), List.getD_append_right _ _ _ _ (by omega)]
    congr 1
    omega
  · rw [hread, if_neg (by omega)]
  · rw [hdone, getLsbD_wd_two_pow_or]; simp [hm]
  · rw [hbusy, getLsbD_wd_two_pow_clear]; simp [hm]

end Sys2Proof.Machine
end

section
/-! SUPPORT. Alarms, direct registers, the ring of a free slot and the commands of class 0x01. -/

namespace Sys2Proof.Machine

/-! ## Alarms (R356) -/

theorem clearAlarm_mem (code subj : Nat) (s : State) : ∃ m, clearAlarm code subj s = { s with mem := m } := ⟨_, rfl⟩

section
variable (code subj sev detail : Nat) (s : State)

@[simp] theorem raiseAlarm_pending : (raiseAlarm code subj sev detail s).pending = s.pending := by obtain ⟨m, h⟩ := raiseAlarm_mem code subj sev detail s; rw [h]
@[simp] theorem raiseAlarm_free : (raiseAlarm code subj sev detail s).free = s.free := by obtain ⟨m, h⟩ := raiseAlarm_mem code subj sev detail s; rw [h]
@[simp] theorem raiseAlarm_undo : (raiseAlarm code subj sev detail s).undo = s.undo := by obtain ⟨m, h⟩ := raiseAlarm_mem code subj sev detail s; rw [h]
@[simp] theorem raiseAlarm_outs : (raiseAlarm code subj sev detail s).outs = s.outs := by obtain ⟨m, h⟩ := raiseAlarm_mem code subj sev detail s; rw [h]
@[simp] theorem raiseAlarm_variant : (raiseAlarm code subj sev detail s).variant = s.variant := by obtain ⟨m, h⟩ := raiseAlarm_mem code subj sev detail s; rw [h]
@[simp] theorem raiseAlarm_cfg : (raiseAlarm code subj sev detail s).cfg = s.cfg := by obtain ⟨m, h⟩ := raiseAlarm_mem code subj sev detail s; rw [h]
@[simp] theorem raiseAlarm_cfgNext : (raiseAlarm code subj sev detail s).cfgNext = s.cfgNext := by obtain ⟨m, h⟩ := raiseAlarm_mem code subj sev detail s; rw [h]
@[simp] theorem raiseAlarm_mram : (raiseAlarm code subj sev detail s).mram = s.mram := by obtain ⟨m, h⟩ := raiseAlarm_mem code subj sev detail s; rw [h]
@[simp] theorem raiseAlarm_fw : (raiseAlarm code subj sev detail s).fw = s.fw := by obtain ⟨m, h⟩ := raiseAlarm_mem code subj sev detail s; rw [h]
@[simp] theorem raiseAlarm_rst : (raiseAlarm code subj sev detail s).rst = s.rst := by obtain ⟨m, h⟩ := raiseAlarm_mem code subj sev detail s; rw [h]
@[simp] theorem raiseAlarm_safe : (raiseAlarm code subj sev detail s).safe = s.safe := by obtain ⟨m, h⟩ := raiseAlarm_mem code subj sev detail s; rw [h]
@[simp] theorem raiseAlarm_time : (raiseAlarm code subj sev detail s).time = s.time := by obtain ⟨m, h⟩ := raiseAlarm_mem code subj sev detail s; rw [h]
@[simp] theorem raiseAlarm_cyc : (raiseAlarm code subj sev detail s).cyc = s.cyc := by obtain ⟨m, h⟩ := raiseAlarm_mem code subj sev detail s; rw [h]
@[simp] theorem raiseAlarm_brd : (raiseAlarm code subj sev detail s).brd = s.brd := by obtain ⟨m, h⟩ := raiseAlarm_mem code subj sev detail s; rw [h]
@[simp] theorem raiseAlarm_dp : (raiseAlarm code subj sev detail s).dp = s.dp := by obtain ⟨m, h⟩ := raiseAlarm_mem code subj sev detail s; rw [h]
@[simp] theorem raiseAlarm_sol : (raiseAlarm code subj sev detail s).sol = s.sol := by obtain ⟨m, h⟩ := raiseAlarm_mem code subj sev detail s; rw [h]
@[simp] theorem raiseAlarm_fus : (raiseAlarm code subj sev detail s).fus = s.fus := by obtain ⟨m, h⟩ := raiseAlarm_mem code subj sev detail s; rw [h]
@[simp] theorem raiseAlarm_loop : (raiseAlarm code subj sev detail s).loop = s.loop := by obtain ⟨m, h⟩ := raiseAlarm_mem code subj sev detail s; rw [h]
@[simp] theorem raiseAlarm_filt : (raiseAlarm code subj sev detail s).filt = s.filt := by obtain ⟨m, h⟩ := raiseAlarm_mem code subj sev detail s; rw [h]
@[simp] theorem raiseAlarm_ao : (raiseAlarm code subj sev detail s).ao = s.ao := by obtain ⟨m, h⟩ := raiseAlarm_mem code subj sev detail s; rw [h]
@[simp] theorem raiseAlarm_bus : (raiseAlarm code subj sev detail s).bus = s.bus := by obtain ⟨m, h⟩ := raiseAlarm_mem code subj sev detail s; rw [h]
@[simp] theorem raiseAlarm_link : (raiseAlarm code subj sev detail s).link = s.link := by obtain ⟨m, h⟩ := raiseAlarm_mem code subj sev detail s; rw [h]
@[simp] theorem raiseAlarm_hif : (raiseAlarm code subj sev detail s).hif = s.hif := by obtain ⟨m, h⟩ := raiseAlarm_mem code subj sev detail s; rw [h]
@[simp] theorem raiseAlarm_rcd : (raiseAlarm code subj sev detail s).rcd = s.rcd := by obtain ⟨m, h⟩ := raiseAlarm_mem code subj sev detail s; rw [h]
@[simp] theorem raiseAlarm_arch : (raiseAlarm code subj sev detail s).arch = s.arch := by obtain ⟨m, h⟩ := raiseAlarm_mem code subj sev detail s; rw [h]
@[simp] theorem raiseAlarm_memp : (raiseAlarm code subj sev detail s).memp = s.memp := by obtain ⟨m, h⟩ := raiseAlarm_mem code subj sev detail s; rw [h]
@[simp] theorem raiseAlarm_tests : (raiseAlarm code subj sev detail s).tests = s.tests := by obtain ⟨m, h⟩ := raiseAlarm_mem code subj sev detail s; rw [h]
@[simp] theorem clearAlarm_pending : (clearAlarm code subj s).pending = s.pending := rfl
@[simp] theorem clearAlarm_free : (clearAlarm code subj s).free = s.free := rfl
@[simp] theorem clearAlarm_undo : (clearAlarm code subj s).undo = s.undo := rfl
@[simp] theorem clearAlarm_outs : (clearAlarm code subj s).outs = s.outs := rfl
@[simp] theorem clearAlarm_variant : (clearAlarm code subj s).variant = s.variant := rfl
@[simp] theorem clearAlarm_cfg : (clearAlarm code subj s).cfg = s.cfg := rfl
@[simp] theorem clearAlarm_cfgNext : (clearAlarm code subj s).cfgNext = s.cfgNext := rfl
@[simp] theorem clearAlarm_mram : (clearAlarm code subj s).mram = s.mram := rfl
@[simp] theorem clearAlarm_fw : (clearAlarm code subj s).fw = s.fw := rfl
@[simp] theorem clearAlarm_rst : (clearAlarm code subj s).rst = s.rst := rfl
@[simp] theorem clearAlarm_safe : (clearAlarm code subj s).safe = s.safe := rfl
@[simp] theorem clearAlarm_time : (clearAlarm code subj s).time = s.time := rfl
@[simp] theorem clearAlarm_cyc : (clearAlarm code subj s).cyc = s.cyc := rfl
@[simp] theorem clearAlarm_brd : (clearAlarm code subj s).brd = s.brd := rfl
@[simp] theorem clearAlarm_dp : (clearAlarm code subj s).dp = s.dp := rfl
@[simp] theorem clearAlarm_sol : (clearAlarm code subj s).sol = s.sol := rfl
@[simp] theorem clearAlarm_fus : (clearAlarm code subj s).fus = s.fus := rfl
@[simp] theorem clearAlarm_loop : (clearAlarm code subj s).loop = s.loop := rfl
@[simp] theorem clearAlarm_filt : (clearAlarm code subj s).filt = s.filt := rfl
@[simp] theorem clearAlarm_ao : (clearAlarm code subj s).ao = s.ao := rfl
@[simp] theorem clearAlarm_bus : (clearAlarm code subj s).bus = s.bus := rfl
@[simp] theorem clearAlarm_link : (clearAlarm code subj s).link = s.link := rfl
@[simp] theorem clearAlarm_hif : (clearAlarm code subj s).hif = s.hif := rfl
@[simp] theorem clearAlarm_rcd : (clearAlarm code subj s).rcd = s.rcd := rfl
@[simp] theorem clearAlarm_arch : (clearAlarm code subj s).arch = s.arch := rfl
@[simp] theorem clearAlarm_memp : (clearAlarm code subj s).memp = s.memp := rfl
@[simp] theorem clearAlarm_tests : (clearAlarm code subj s).tests = s.tests := rfl

@[simp] theorem alarmOn_raiseAlarm : alarmOn (raiseAlarm code subj sev detail s) code subj = true := by
  unfold raiseAlarm
  split
  next h => exact h
  next => simp [alarmOn]

@[simp] theorem alarmOn_clearAlarm : alarmOn (clearAlarm code subj s) code subj = false := by
  simp only [alarmOn, clearAlarm, List.any_eq_false, List.mem_filter]
  grind

theorem alarmOn_congr {s t : State} (h : t.mem.standing = s.mem.standing) (code subj : Nat) : alarmOn t code subj = alarmOn s code subj := by
  unfold alarmOn
  rw [h]

@[simp] theorem alarmOn_event (c v : Nat) (ps : List Nat) : alarmOn (event c v ps s) code subj = alarmOn s code subj :=
  alarmOn_congr (congrArg Mem.standing (event_mem c v ps s)) code subj

end

/-! ## The host link after an event -/

section
variable (code sev : Nat) (ps : List Nat) (s : State)

@[simp] theorem event_heartbeat : (event code sev ps s).hif.heartbeat = s.hif.heartbeat := by
  have h := congrArg Hif.heartbeat (queuesOnly_event code sev ps s).hif; exact h
@[simp] theorem event_watches : (event code sev ps s).hif.watches = s.hif.watches := by
  have h := congrArg Hif.watches (queuesOnly_event code sev ps s).hif; exact h

end

/-! ## Direct registers (R447, R448, R457) -/

theorem hasPcie_of_not_WK {s : State} (h : s.variant ≠ .WK) : hasPcie s = true := decide_eq_true h

theorem foldl_emit {α : Type} (f : α → Out) (l : List α) (s : State) :
    l.foldl (fun t b => emit (f b) t) s = { s with outs := s.outs ++ l.map f } := by
  induction l generalizing s with
  | nil => simp
  | cons b l ih => rw [List.foldl_cons, ih]; simp [emit]

section
variable {s : State} (hpcie : s.variant ≠ .WK)
include hpcie

theorem exec_hifMbxDone (v : Word) : exec (.hifMbxDone v) s = .next { s with hif := { s.hif with done := s.hif.done &&& ~~~v } } :=
  if_pos (hasPcie_of_not_WK hpcie)

theorem exec_hifIrqStat (v : Word) :
    exec (.hifIrqStat v) s = .next { s with hif := { s.hif with irqStat := s.hif.irqStat &&& ~~~v } } :=
  if_pos (hasPcie_of_not_WK hpcie)

theorem exec_hifIrqEn (v : Word) :
    exec (.hifIrqEn v) s = .next { s with
      hif := { s.hif with irqEn := v &&& 0xFF }
      outs := s.outs ++ ((List.range 8).filter fun b => v.getLsbD b && !s.hif.irqEn.getLsbD b && s.hif.irqStat.getLsbD b).map
        fun b => Out.msix (irqVector b) } := by
  show execHifIrqEn v s = _
  simp only [execHifIrqEn, hasPcie_of_not_WK hpcie, foldl_emit]
  rfl

theorem exec_hifHeartbeat (v : Word) : exec (.hifHeartbeat v) s =
    .next (beat .pcie (beatTimeout (fld v 16 16)) (v.setWidth 16) { s with hif := { s.hif with heartbeat := v } }) := by
  show execHifHeartbeat v s = _
  rw [execHifHeartbeat, hasPcie_of_not_WK hpcie]
  rfl

theorem exec_bar0OtherWrite {off : Nat} {bytes : List Byte} (hsize : bytes.length ∈ [1, 2, 4, 8]) (halign : off % bytes.length = 0)
    (hplace : 0x2000 ≤ off ∧ off + bytes.length ≤ 0x4000 ∨ 0x1000 ≤ off ∧ off + bytes.length ≤ 0x1080) :
    exec (.bar0OtherWrite off bytes) s = .next { s with hif := { s.hif with ram := Memory.writeAll s.hif.ram off bytes } } := by
  show execBar0OtherWrite off bytes s = _
  unfold execBar0OtherWrite
  extract_lets n ok place
  have hok : ok = true := by simpa [ok, n, or_assoc] using And.intro hsize halign
  have hpl : place = true := by simpa [place, n] using hplace
  rw [hasPcie_of_not_WK hpcie, hok, hpl]
  rfl

end

/-! ## The watchdog's paths (R459, R460) -/

theorem hostAlarm_mem (s : State) : ∃ m, hostAlarm s = { s with mem := m } := by
  unfold hostAlarm
  split
  · exact raiseAlarm_mem _ _ _ _ s
  · exact clearAlarm_mem _ _ s

section
variable (p : Watch) (timeout : Nat) (count : BitVec 16) (s : State)

/-- A heartbeat keeps COUNT and TIMEOUT of its path; an event apart, it writes the watches and the standing alarm. -/
theorem beat_keeps : ∃ w u, w.path = p ∧ w.count = count ∧ w.timeout = timeout ∧ Quiet s u ∧ u.hif.ram = s.hif.ram ∧
    u.hif.heartbeat = s.hif.heartbeat ∧ u.hif.watches = s.hif.watches.filter (·.path ≠ p) ++ [w] ∧
    ∃ m, beat p timeout count s = { u with mem := m } := by
  unfold beat
  extract_lets old isBeat w hif s1 s2
  have hpath : old.path = p := by
    unfold old
    cases hfind : s.hif.watches.find? (·.path = p) with
    | none => rfl
    | some x => simpa using List.find?_some hfind
  refine ⟨w, s2, hpath, rfl, rfl, ?_, ?_, ?_, ?_, hostAlarm_mem s2⟩
  · exact .ite ((quiet_hif s _).trans (quiet_event _ _ _ s1)) (quiet_hif s _)
  · unfold s2; split <;> simp [s1, hif]
  · unfold s2; split <;> simp [s1, hif]
  · unfold s2; split <;> simp [s1, hif]

end

/-! ## Reading BAR0 back (R447) -/

theorem memory_readAll_writeAll {m : List Host.Cell} (off : Nat) (bytes : List Byte) (h : Memory.wf m = true) :
    Memory.readAll (Memory.writeAll m off bytes) off bytes.length = bytes := by
  refine List.ext_getElem (by simp [Memory.readAll]) fun i h1 h2 => ?_
  simp only [Memory.readAll, List.getElem_map, List.getElem_range]
  rw [memory_read_writeAll_getD _ _ _ _ h, if_pos (by omega), Nat.add_sub_cancel_left, List.getD_eq_getElem _ _ h2]

theorem bar0Read_ram {s : State} {off n : Nat} (hsize : n ∈ [1, 2, 4, 8]) (halign : off % n = 0)
    (hplace : 0x2000 ≤ off ∧ off + n ≤ 0x4000 ∨ 0x1000 ≤ off ∧ off + n ≤ 0x1080) :
    bar0Read s off n = Memory.readAll s.hif.ram off n := by
  have hal : ((n = 1 || n = 2 || n = 4 || n = 8) && off % n = 0) = true := by simpa [or_assoc] using And.intro hsize halign
  have hpl : ((0x2000 ≤ off && off + n ≤ 0x4000) || off + n ≤ 0x1080) = true := by
    simp only [Bool.or_eq_true, Bool.and_eq_true, decide_eq_true_eq]
    omega
  unfold bar0Read
  dsimp only
  rw [if_neg (by omega), hal, hpl]
  rfl

/-- Settles O14: the equation of each register write, and what a read returns after it. -/
theorem directRegisters : Obligations.DirectRegisters := by
  unfold Obligations.DirectRegisters
  refine ⟨fun v s h => exec_hifMbxDone h v, fun v s h => exec_hifIrqStat h v, fun v s h => exec_hifIrqEn h v, fun v s h => ?_,
    fun off bytes s h hsize halign hplace => exec_bar0OtherWrite h hsize halign hplace,
    fun off bytes s h hsize halign hplace hwf => ⟨_, exec_bar0OtherWrite h hsize halign hplace, ?_⟩, fun v s h => ?_⟩
  · obtain ⟨w, u, hpath, hcount, htimeout, hq, hram, hbeat, hwatches, m, hu⟩ :=
      beat_keeps .pcie (beatTimeout (fld v 16 16)) (v.setWidth 16) { s with hif := { s.hif with heartbeat := v } }
    refine ⟨_, exec_hifHeartbeat h v, ?_⟩
    rw [hu]
    exact ⟨hbeat, hram, hq.dp, hq.cfg, hq.safe, w, by rw [hwatches]; simp, hpath, hcount, htimeout⟩
  · rw [bar0Read_ram hsize halign hplace]
    exact memory_readAll_writeAll off bytes hwf
  · obtain ⟨w, u, -, -, -, -, -, hbeat, -, m, hu⟩ :=
      beat_keeps .pcie (beatTimeout (fld v 16 16)) (v.setWidth 16) { s with hif := { s.hif with heartbeat := v } }
    refine ⟨_, exec_hifHeartbeat h v, ?_⟩
    rw [hu]
    show leBytes 4 u.hif.heartbeat.toNat = _
    rw [hbeat]

/-! ## A ring of a free slot (R450, R453) -/

theorem ringSlot_of_free {n : Fin 31} {s : State} (hwaiting : s.hif.waiting = []) (hbusy : s.hif.busy.getLsbD n = false)
    (hdone : s.hif.done.getLsbD n = false) :
    ringSlot s n = { s with hif := { s.hif with counts := addAt s.hif.counts 0 1, waiting := [(.slot n, [])] } } := by
  unfold ringSlot
  simp [hwaiting, hbusy, hdone, hifCount]

/-- A request in a slot for this device, without DMA, that passes the checks of R450 is the command to execute. -/
theorem check_slot_local {n : Fin 31} {b : List Byte} {s : State} (hup : mailboxDown s = false) (hcloak : s.rst.life ≠ .cloakroom)
    (hcrc : crc16 (b.take 14) = u16 b 14) (hlen : u16 b 6 ≤ 240) (hdma : bit (u8 b 5) 1 = false) (hserved : (served (u16 b 0)).isSome = true)
    (htarget : u8 b 4 = 0xFF) : check (.slot n) b s = .local_ (parseReq (.slot n) b) := by
  have hnone : (served (u16 b 0)).isNone = false := by cases h : served (u16 b 0) <;> simp_all
  unfold check
  simp [hup, hcloak, hcrc, Nat.not_lt.mpr hlen, hdma, hnone, parseReq, htarget]

/-- Settles O16: the ring waits, and the free server takes it as the command in execution. -/
theorem requestTaken : Obligations.RequestTaken := by
  unfold Obligations.RequestTaken
  intro n s hvariant hup hcloak hwaiting hexec hwait hbusy hdone b hcrc hlen hdma hserved htarget
  rw [exec_hifDoorbell_two_pow n hvariant hup, ringSlot_of_free hwaiting hbusy hdone]
  have hfree : serverBusy { s with hif := { s.hif with counts := addAt s.hif.counts 0 1, waiting := [(.slot n, [])] } } = false := by
    simp [serverBusy, hexec, hwait]
  rw [serve, takeNext, hfree]
  dsimp only
  rw [check_slot_local (s := { s with hif := { s.hif with
    counts := addAt s.hif.counts 0 1, waiting := [], busy := s.hif.busy ||| wd (2 ^ n.val) } }) hup hcloak hcrc hlen hdma hserved htarget]
  simp [parseReq, htarget, hwaiting]
  rfl

/-! ## Class 0x01 (R459, R462, R473, R481) -/

theorem identify_length (s : State) : ∃ pay, pay.length = 48 ∧
    pay.take 8 = leBytes 4 s.hifId.toNat ++ leBytes 4 s.variant.units.toNat ∧ ∀ r, bodyIdentify r s = give pay s :=
  ⟨_, by simp [leBytes], by simp [leBytes], fun _ => rfl⟩

theorem bodyHeartbeat_of_no_watch {r : Req} {mac : Fin 2} {src : Word} {port : BitVec 16} {s : State} (hpath : r.path = .udp mac src port)
    (hwatches : s.hif.watches = []) : bodyHeartbeat r s = .done .ok [] (beat (.udp src)
      (beatTimeout (u16 r.payload 2)) (BitVec.ofNat 16 (u16 r.payload 0)) s) := by
  simp [bodyHeartbeat, hpath, hwatches, okay]

/-- The entries of a HOST_CONFIG. -/
def hostEntries (p : List Byte) : List (BitVec 64) := (List.range (bits (u8 p 0) 0 5)).map (hostEntry p)

theorem bodyHostConfig_ok {r : Req} {s : State} (hvariant : s.variant ≠ .WK) (hsev : u8 r.payload 1 ≤ 5)
    (hgood : ∀ e ∈ hostEntries r.payload, hostEntryBad e = false)
    (h1 : ((hostEntries r.payload).filter fun e => fld e 4 4 = 1).length ≤ 1)
    (h2 : ((hostEntries r.payload).filter fun e => fld e 4 4 = 2).length ≤ 1) :
    bodyHostConfig r s = .done .ok [] (setCfg (fun c => { c with notifySev := u8 r.payload 1, hostEntries := hostEntries r.payload }) s) := by
  have hany : (hostEntries r.payload).any hostEntryBad = false := List.any_eq_false.mpr fun e he => by simp [hgood e he]
  unfold bodyHostConfig
  extract_lets p es sev
  have hes : es = hostEntries r.payload := rfl
  rw [hes, hany]
  simp [hvariant, Nat.not_lt.mpr hsev, Nat.not_lt.mpr h1, Nat.not_lt.mpr h2, okay, sev, p]

/-- Settles O19: the body of each command, taken by the mailbox. -/
theorem hostCommands : Obligations.HostCommands := by
  unfold Obligations.HostCommands
  refine ⟨fun r s => ?_, fun r mac src port s hpath htakes hlen hwatches => ?_,
    ?_, ?_⟩
  · obtain ⟨pay, hpay, htake, hbody⟩ := identify_length s
    exact ⟨pay, hpay, htake, fun htakes hlen => mbx_answers htakes (by rw [hlen]; rfl) (hbody r)⟩
  · exact mbx_answers htakes (exactly_of_length hlen) (bodyHeartbeat_of_no_watch hpath hwatches)
  · intro r s n es htakes hvariant hn hlen hsev hgood h1 h2
    refine mbx_answers htakes ?_ (bodyHostConfig_ok hvariant hsev hgood h1 h2)
    simp [lenHostConfig, hlen, Nat.not_lt.mpr hn, n]
  · intro r s htakes hlen
    exact mbx_answers (body := bodyHostStatus) htakes (exactly_of_length hlen) rfl

end Sys2Proof.Machine
end

section
/-! SUPPORT. Port states, held frames and the commands of class 0x0B. -/

namespace Sys2Proof.Machine

/-! ## Quiet but for the membership state: alarms, reports and the ring map (R356, R402) -/

/-- `t` differs from `s` at most in what recording and answering write and in the membership state. -/
def QuietMem (s t : State) : Prop := Quiet { s with mem := t.mem } t

theorem QuietMem.trans {s t u : State} (h : QuietMem s t) (k : QuietMem t u) : QuietMem s u where
  pending := k.pending.trans h.pending
  free := k.free.trans h.free
  variant := k.variant.trans h.variant
  cfg := k.cfg.trans h.cfg
  cfgNext := k.cfgNext.trans h.cfgNext
  mram := by have h1 := h.mram; have k1 := k.mram; dsimp only at h1 k1 ⊢; rw [← h1, ← k1]
  fw := k.fw.trans h.fw
  rst := by have h1 := h.rst; have k1 := k.rst; dsimp only at h1 k1 ⊢; rw [← h1, ← k1]
  safe := k.safe.trans h.safe
  time := k.time.trans h.time
  cyc := k.cyc.trans h.cyc
  brd := k.brd.trans h.brd
  mem := rfl
  dp := k.dp.trans h.dp
  sol := k.sol.trans h.sol
  fus := k.fus.trans h.fus
  loop := by have h1 := h.loop; have k1 := k.loop; dsimp only at h1 k1 ⊢; rw [← h1, ← k1]
  filt := k.filt.trans h.filt
  ao := k.ao.trans h.ao
  bus := k.bus.trans h.bus
  arch := k.arch.trans h.arch
  memp := k.memp.trans h.memp
  tests := k.tests.trans h.tests

theorem QuietMem.of_quiet {s t : State} (h : Quiet s t) : QuietMem s t := by
  unfold QuietMem
  rw [h.mem]
  exact h

theorem QuietMem.refl (s : State) : QuietMem s s := .of_quiet (.refl s)

theorem QuietMem.ite {c : Prop} [Decidable c] {s t u : State} (h : QuietMem s t) (k : QuietMem s u) :
    QuietMem s (if c then t else u) := by
  split <;> assumption

theorem QuietMem.event {s t : State} (code sev : Nat) (ps : List Nat) (h : QuietMem s t) : QuietMem s (event code sev ps t) :=
  h.trans (.of_quiet (quiet_event code sev ps t))

theorem QuietMem.mem {s : State} (m : Mem) : QuietMem s { s with mem := m } := Quiet.refl _

theorem QuietMem.frame {s t : State} (h : QuietMem s t) : t.dp = s.dp ∧ t.safe = s.safe ∧ t.cfg = s.cfg := ⟨h.dp, h.safe, h.cfg⟩

theorem quietMem_raiseAlarm (code subj sev detail : Nat) (s : State) : QuietMem s (raiseAlarm code subj sev detail s) := by
  obtain ⟨m, h⟩ := raiseAlarm_mem code subj sev detail s
  rw [h]
  exact .mem m

theorem quietMem_report (code sev subj detail : Nat) (s : State) : QuietMem s (report code sev subj detail s) := .mem _

theorem quietMem_updateRings (s : State) : QuietMem s (updateRings s) := by
  unfold updateRings
  extract_lets a b m s1 s2
  have h2 : QuietMem s s2 := .ite (.event _ _ _ (.mem _)) (.mem _)
  exact .ite (.event _ _ _ h2) h2

/-! ## A port's state (R400, R404) -/

theorem QueuesOnly.portOf {s t : State} (h : QueuesOnly s t) (m : Nat) : (portOf t m).fixed = (portOf s m).fixed := by
  have hm := congrArg (List.getD · m ({} : Port).fixed) h.ports
  simp only [List.getD_map] at hm
  exact hm

theorem queuesOnly_report (code sev subj detail : Nat) (s : State) : QueuesOnly s (report code sev subj detail s) := by
  constructor <;> rfl

theorem queuesOnly_updateRings (s : State) : QueuesOnly s (updateRings s) := by
  unfold updateRings
  extract_lets a b m s1 s2
  have h1 : QueuesOnly s s1 := by constructor <;> rfl
  have h2 : QueuesOnly s s2 := .ite (h1.trans (queuesOnly_event _ _ _ _)) h1
  exact .ite (h2.trans (queuesOnly_event _ _ _ _)) h2

theorem upd_eq_self {α : Type} {l : List α} {n : Nat} {f : α → α} (h : ∀ x, l[n]? = some x → f x = x) : upd l n f = l := by
  refine List.ext_getElem? fun m => ?_
  rw [upd, List.getElem?_modify]
  by_cases hm : n = m
  · subst hm
    cases hx : l[n]? with
    | none => simp
    | some x => simp [h x hx]
  · simp [hm]

theorem updPort_state_self {ix st : Nat} {s : State} (h : (portOf s ix).state = st) : updPort ix (fun q => { q with state := st }) s = s := by
  have hs : upd s.link.ports ix (fun q => { q with state := st }) = s.link.ports := upd_eq_self fun x hx => by
    simp only [portOf, List.getD_eq_getElem?_getD, hx, Option.getD_some] at h
    rw [← h]
  unfold updPort
  rw [hs]

theorem queuesOnly_setPort (ix st : Nat) (s : State) : QueuesOnly (updPort ix (fun q => { q with state := st }) s) (setPort ix st s) := by
  unfold setPort
  extract_lets p s1
  split
  next h => rw [updPort_state_self h]; exact .refl s
  next =>
    have h1 : QueuesOnly (updPort ix (fun q => { q with state := st }) s) s1 := queuesOnly_event _ _ _ _
    exact (QueuesOnly.ite (h1.trans (queuesOnly_sendMember _ _)) h1).trans (queuesOnly_updateRings _)

theorem quietMem_updPort (ix : Nat) (f : Port → Port) (s : State) : QuietMem s (updPort ix f s) := .of_quiet (quiet_link _ _)

theorem quietMem_setPort (ix st : Nat) (s : State) : QuietMem s (setPort ix st s) := by
  unfold setPort
  extract_lets p s1
  have h1 : QuietMem s s1 := .event _ _ _ (quietMem_updPort _ _ _)
  exact .ite (.refl s) ((QuietMem.ite (h1.trans (.of_quiet (quiet_sendMember _ _))) h1).trans (quietMem_updateRings _))

theorem setPort_length (ix st : Nat) (s : State) : (setPort ix st s).link.ports.length = s.link.ports.length := by
  have h := congrArg List.length (queuesOnly_setPort ix st s).ports
  simpa using h

/-- A port after another has had its state set, or it itself: apart from queue, held frames and counters only STATE. -/
theorem portOf_setPort_fixed {ix : Nat} (st m : Nat) {s : State} (hix : ix < s.link.ports.length) :
    (portOf (setPort ix st s) m).fixed = if ix = m then { (portOf s ix).fixed with state := st } else (portOf s m).fixed := by
  rw [(queuesOnly_setPort ix st s).portOf, portOf_updPort]
  by_cases h : ix = m
  · simp [h ▸ hix, h]; rfl
  · simp [h]

theorem portOf_setPort_state {ix st : Nat} {s : State} (hix : ix < s.link.ports.length) : (portOf (setPort ix st s) ix).state = st := by
  have h := portOf_setPort_fixed st ix hix
  rw [if_pos rfl] at h
  have h := congrArg Port.state h
  exact h

theorem portOf_setPort_nb {ix st : Nat} {s : State} (hix : ix < s.link.ports.length) :
    (portOf (setPort ix st s) ix).nb = (portOf s ix).nb := by
  have h := portOf_setPort_fixed st ix hix
  rw [if_pos rfl] at h
  have h := congrArg Port.nb h
  exact h

/-! ## Held and queued frames of one port (R392, R393) -/

theorem pumpPort_of_queue_nil {p : Port} (n : Nat) (h : p.queue = []) : pumpPort n p = p := by
  cases n with
  | zero => rfl
  | succ n => unfold pumpPort; rw [h]

theorem portOf_pump (s : State) (m : Nat) : portOf (pump s) m = pumpPort 16 (portOf s m) := by
  have h := List.getD_map (n := m) s.link.ports {} (pumpPort 16)
  rwa [pumpPort_of_queue_nil 16 rfl] at h

theorem portOf_enqueue_of_ne {ix m : Nat} (f : Frame) (s : State) (h : ix ≠ m) : portOf (enqueue ix f s) m = portOf s m := by
  unfold enqueue
  show (upd _ _ _).getD _ _ = _
  rw [upd_getD, if_neg (by omega)]
  rfl

theorem other_ne (ix : Nat) : other ix ≠ ix := by
  unfold other
  split <;> omega

theorem quietMem_releaseHeld (ix : Nat) (s : State) : QuietMem s (releaseHeld ix s) := by
  unfold releaseHeld
  extract_lets p fs uni s1
  exact .of_quiet ((Quiet.trans (quiet_link _ _) (Quiet.foldl (fun t f => quiet_enqueue _ f t) _ _)).trans (quiet_pump _))

/-- A port that stops keeps no frame held or queued (R393). -/
theorem portOf_releaseHeld {ix : Nat} {s : State} (hix : ix < s.link.ports.length) :
    portOf (releaseHeld ix s) ix = { portOf s ix with held := [], queue := [], counts := (portOf (releaseHeld ix s) ix).counts } := by
  unfold releaseHeld
  extract_lets p fs uni s1
  have hs1 : portOf s1 ix = { portOf s ix with
      held := [], queue := [], counts := addAt (portOf s ix).counts 13 (fs.length - uni.length) } := by
    rw [portOf_updPort, if_pos ⟨rfl, hix⟩]
  have hfold : portOf (uni.foldl (fun t f => enqueue (other ix) f t) s1) ix = portOf s1 ix :=
    List.foldlRecOn (motive := fun t => portOf t ix = portOf s1 ix) uni _ rfl fun t ht f _ => by
      rw [portOf_enqueue_of_ne _ _ (other_ne ix), ht]
  rw [portOf_pump, hfold, pumpPort_of_queue_nil _ (by rw [hs1]), hs1]

theorem updPort_updPort (ix : Nat) (f g : Port → Port) (s : State) : updPort ix f (updPort ix g s) = updPort ix (f ∘ g) s := by
  simp [updPort, upd, List.modify_modify_eq]

theorem updPort_congr {ix : Nat} {f g : Port → Port} {s : State} (h : f (portOf s ix) = g (portOf s ix)) : updPort ix f s = updPort ix g s := by
  have hu : upd s.link.ports ix f = upd s.link.ports ix g := by
    refine List.ext_getElem (by simp) fun m h1 h2 => ?_
    simp only [upd, List.getElem_modify]
    split
    next hm =>
      subst hm
      have hlt : ix < s.link.ports.length := by simpa using h1
      have hget : portOf s ix = s.link.ports[ix] := List.getD_eq_getElem _ _ hlt
      rwa [hget] at h
    next => rfl
  unfold updPort
  rw [hu]

/-! ## Ordered sets (R389, R404) -/

section
variable {port : Fin 4} {s : State}

theorem exec_helloSend (hruns : linkRuns s = true) : exec .helloSend s = .next { s with
    outs := s.outs ++ ([0, 1, 2, 3] : List (Fin 4)).map (fun ix => Out.ordered ix 6
      (pack [(8, s.dev), (4, (portOf s ix).state), (2, 0), (1, ix % 2), (1, ix / 2)])) } := by
  show execHelloSend s = _
  unfold execHelloSend
  rw [hruns]
  simp [emit, State.dev, portOf]

/-- A HELLO without error of the port's own network and of the other port number, on a port that is DOWN or TRAINING. -/
theorem exec_helloReceive_right {dev : Fin 64} {far : Fin 8} (hruns : linkRuns s = true)
    (hstate : (portOf s port).state = 1 ∨ (portOf s port).state = 2) (hhellos : (portOf s port).hellos ≥ 15) :
    exec (.helloReceive port dev (decide (port.val / 2 = 1)) (decide (port.val % 2 = 0)) far true) s =
      .next (setPort port 3 (updPort port (fun q => { q with hellos := (portOf s port).hellos + 1 })
        (updPort port (fun q => { q with nb := dev, nbPort := decide (port.val % 2 = 0), nbState := far }) s))) := by
  have hnet : (decide (port.val / 2 = 1)).toNat = port.val / 2 := by fin_cases port <;> rfl
  have hpnum : (decide (port.val % 2 = 0)).toNat ≠ port.val % 2 := by fin_cases port <;> decide
  have hn : (portOf s port).hellos + 1 ≥ 16 := by omega
  show execHelloReceive port dev _ _ far true s = _
  unfold execHelloReceive
  extract_lets p wrong s1 s2 n s3
  have hlive : (!linkRuns s || decide (p.state = 0) || decide (p.state = 7)) = false := by
    rcases hstate with h | h <;> simp [hruns, p, h]
  have hwrong : wrong = false := by simp [wrong, hnet, hpnum]
  have htrain : (decide (p.state = 1) || decide (p.state = 2) || decide (p.state = 6)) = true := by
    rcases hstate with h | h <;> simp [p, h]
  rw [hlive, hwrong, htrain]
  simp only [Bool.false_eq_true, if_false, if_true, Bool.not_true, if_pos hn, n, p]
  rfl

/-- A HELLO without error of the other network, on a port that is DOWN or TRAINING. -/
theorem exec_helloReceive_wrong {dev : Fin 64} {pnum : Bool} {far : Fin 8} (hruns : linkRuns s = true)
    (hstate : (portOf s port).state = 1 ∨ (portOf s port).state = 2) :
    exec (.helloReceive port dev (decide (port.val / 2 = 0)) pnum far true) s = .next (event 0x0B16 3
      [port, dev, 2 * (decide (port.val / 2 = 0)).toNat + pnum.toNat]
      (report 0x0B16 3 dev port (setPort port 6 (updPort port (fun q => { q with hellos := 0 })
        (updPort port (fun q => { q with nb := dev, nbPort := pnum, nbState := far }) s))))) := by
  have hnet : (decide (port.val / 2 = 0)).toNat ≠ port.val / 2 := by fin_cases port <;> decide
  show execHelloReceive port dev _ pnum far true s = _
  unfold execHelloReceive
  extract_lets p wrong s1 s2 n s3
  have hlive : (!linkRuns s || decide (p.state = 0) || decide (p.state = 7)) = false := by
    rcases hstate with h | h <;> simp [hruns, p, h]
  have hwrong : wrong = true := by rw [Bool.or_eq_true]; exact .inl (decide_eq_true hnet)
  have hp6 : ¬ p.state = 6 := by rcases hstate with h | h <;> simp [p, h]
  rw [hlive, hwrong, if_neg hp6]
  rfl

theorem quietMem_endCopies (ix : Fin 4) (s : State) : QuietMem s (endCopies ix s) := by
  unfold endCopies
  extract_lets o s1
  have h1 : QuietMem s s1 := by
    unfold s1
    split
    · exact .ite (.of_quiet (quiet_emit _ _)) (.refl s)
    · exact .refl s
  exact (h1.trans (quietMem_updPort _ _ _)).trans (quietMem_updPort _ _ _)

theorem endCopies_length (ix : Fin 4) (s : State) : (endCopies ix s).link.ports.length = s.link.ports.length := by
  unfold endCopies
  extract_lets o s1
  have h1 : s1.link = s.link := by
    unfold s1
    split
    · split <;> rfl
    · rfl
  simp [h1]

/-- A port DOWN from UP: the copies of its frames end, its state is DOWN, it keeps no frame and forgets its neighbour. -/
theorem exec_portDown (hruns : linkRuns s = true) (hstate : (portOf s port).state = 3) :
    ∃ u, QuietMem s u ∧ u.link.ports.length = s.link.ports.length ∧ exec (.portDown port) s =
      .next (releaseHeld port (updPort port (fun q => { q with nb := 0xFF }) (setPort port 1 u))) := by
  show ∃ u, _ ∧ _ ∧ execPortDown port s = _
  unfold execPortDown
  extract_lets p toward s1 s2
  have hlive : (!linkRuns s || decide (p.state = 0) || decide (p.state = 1) || decide (p.state = 7)) = false := by simp [hruns, p, hstate]
  rw [hlive]
  refine ⟨_, ?_, ?_, rfl⟩
  · exact ((QuietMem.ite (.of_quiet (quiet_emit _ _)) (.refl s)).trans (quietMem_endCopies _ _)).trans (quietMem_updPort _ _ _)
  · rw [updPort_link, upd_length, endCopies_length]
    split <;> rfl

/-! ## The hop layer (R392, R393) -/

theorem exec_ackReceive_of_held {hseq : BitVec 8} (hheld : ∃ h ∈ (portOf s port).held, h.hseq = hseq) : exec (.ackReceive port hseq) s =
    .next (pump (updPort port (fun q => { q with held := (q.held.dropWhile (·.hseq ≠ hseq)).drop 1 }) s)) := by
  have hany : (portOf s port).held.any (·.hseq = hseq) = true := by simpa using hheld
  exact if_pos hany

theorem exec_ackTimer (hunacked : (portOf s port).unacked ≠ 0) (htalks : portTalks s port = true) : exec (.ackTimer port) s =
    .next (emit (.ordered port 4 (ackPoint (portOf s port)).toNat) (updPort port (fun p => { p with unacked := 0 }) s)) := by
  show execAckTimer port s = _
  unfold execAckTimer
  rw [htalks, decide_eq_false hunacked]
  rfl

section
variable {h : HeldFrame} (hheld : (portOf s port).held = [h]) (htalks : portTalks s port = true) (hwhole : h.whole = true)
include hheld htalks hwhole

theorem resend_of_lt (hresent : h.resent < 3) : resend port h.hseq s =
    updPort port (fun p => { p with held := [{ h with resent := h.resent + 1 }], counts := addAt (addAt p.counts 5 1) 1 1 }) s := by
  unfold resend
  rw [hheld, List.find?_cons_of_pos (by simp)]
  simp only [htalks, hwhole, Bool.not_true, Bool.or_false, Bool.false_eq_true, if_false, if_neg (Nat.not_le.mpr hresent)]
  rw [portCount, portCount, updPort_updPort, updPort_updPort]
  exact updPort_congr (by simp [hheld, hwhole])

theorem resend_of_ge (hresent : 3 ≤ h.resent) : resend port h.hseq s = degrade port h.hseq s := by
  unfold resend
  rw [hheld, List.find?_cons_of_pos (by simp)]
  simp [htalks, hwhole, hresent]

end

/-- A hop that becomes DEGRADED keeps no frame (R393). -/
theorem degrade_facts (hseq : BitVec 8) (hlen : port.val < s.link.ports.length) :
    (portOf (degrade port hseq s) port).state = 4 ∧ (portOf (degrade port hseq s) port).held = [] ∧ QuietMem s (degrade port hseq s) := by
  unfold degrade
  extract_lets p s1
  have hs1 : (portOf s1 port).state = 4 := portOf_setPort_state (by simpa using hlen)
  have hq : QueuesOnly s1 (event 0x0B11 3 [port, p.nb, hseq.toNat, p.counts.getD 5 0] (report 0x0B11 3 p.nb port s1)) :=
    (queuesOnly_report _ _ _ _ _).trans (queuesOnly_event _ _ _ _)
  have hl : port.val < (event 0x0B11 3 [port, p.nb, hseq.toNat, p.counts.getD 5 0] (report 0x0B11 3 p.nb port s1)).link.ports.length := by
    have h := congrArg List.length hq.ports
    simp only [List.length_map] at h
    rw [h, setPort_length]
    simpa using hlen
  have hstate := congrArg Port.state (hq.portOf port)
  refine ⟨?_, ?_, ?_⟩
  · rw [portOf_releaseHeld hl]
    exact hstate.trans hs1
  · rw [portOf_releaseHeld hl]
  · exact (((quietMem_updPort _ _ _).trans (quietMem_setPort _ _ _)).trans ((quietMem_report _ _ _ _ _).event _ _ _)).trans
      (quietMem_releaseHeld _ _)

theorem exec_degradedRestore (hstate : (portOf s port).state = 4) (herr : (portOf s port).degradedErr = false) :
    exec (.degradedRestore port) s = .next (setPort port 3 s) := by
  show execDegradedRestore port s = _
  simp [execDegradedRestore, hstate, herr]

end

theorem portOf_updPort_same {ix : Nat} {s : State} (f : Port → Port) (hix : ix < s.link.ports.length) :
    portOf (updPort ix f s) ix = f (portOf s ix) := by
  rw [portOf_updPort, if_pos ⟨rfl, hix⟩]

/-- Settles O21: one equation per event, and what a port is after its state is set and after its frames are released. -/
theorem portsAndHops : Obligations.PortsAndHops := by
  unfold Obligations.PortsAndHops
  refine ⟨fun s h => ⟨_, exec_helloSend h, rfl, rfl⟩, fun port dev far s hruns hlen hstate hhellos => ?_,
    fun port dev pnum far s hruns hlen hstate => ?_, fun port s hruns hlen hstate => ?_, fun port hseq s hlen hqueue hheld => ?_,
    fun port s hunacked htalks => exec_ackTimer hunacked htalks,
    fun port h s hheld htalks hwhole hresent => ?_, fun port h s hlen hstate hheld hwhole hresent => ?_,
    fun port s hstate herr => exec_degradedRestore hstate herr⟩
  · refine ⟨_, exec_helloReceive_right hruns hstate hhellos, portOf_setPort_state (by simp [hlen]), ?_, QuietMem.frame ?_⟩
    · rw [portOf_setPort_nb (by simp [hlen]), portOf_updPort_same _ (by simp [hlen]), portOf_updPort_same _ (by simp [hlen])]
    · exact ((quietMem_updPort _ _ _).trans (quietMem_updPort _ _ _)).trans (quietMem_setPort _ _ _)
  · have hp := fun t : State => ((queuesOnly_report 0x0B16 3 dev port t).trans
      (queuesOnly_event 0x0B16 3 [port, dev, 2 * (decide (port.val / 2 = 0)).toNat + pnum.toNat] _)).portOf port
    refine ⟨_, exec_helloReceive_wrong hruns hstate, ?_, ?_, QuietMem.frame ?_⟩
    · exact (congrArg Port.state (hp _)).trans (portOf_setPort_state (by simp [hlen]))
    · refine (congrArg Port.nb (hp _)).trans ((portOf_setPort_nb (by simp [hlen])).trans ?_)
      rw [portOf_updPort_same _ (by simp [hlen]), portOf_updPort_same _ (by simp [hlen])]
    · exact (((quietMem_updPort _ _ _).trans (quietMem_updPort _ _ _)).trans (quietMem_setPort _ _ _)).trans
        ((quietMem_report _ _ _ _ _).event _ _ _)
  · obtain ⟨u, hu, hulen, hexec⟩ := exec_portDown hruns hstate
    have hport : port.val < u.link.ports.length := by rw [hulen, hlen]; exact port.isLt
    have hport' : port.val < (setPort port 1 u).link.ports.length := by rwa [setPort_length]
    have hrel := portOf_releaseHeld (ix := port) (s := updPort port (fun q => { q with nb := 0xFF }) (setPort port 1 u)) (by simpa using hport')
    rw [portOf_updPort_same _ hport'] at hrel
    have hst : (portOf (setPort port 1 u) port).state = 1 := portOf_setPort_state hport
    refine ⟨_, hexec, ?_, ?_, ?_, ?_, QuietMem.frame ?_⟩
    · rw [hrel, hst]
    · rw [hrel]
    · rw [hrel]
    · rw [hrel]
    · exact ((hu.trans (quietMem_setPort _ _ _)).trans (quietMem_updPort _ _ _)).trans (quietMem_releaseHeld _ _)
  · refine ⟨_, exec_ackReceive_of_held hheld, ?_, rfl⟩
    rw [portOf_pump, portOf_updPort_same _ (by simp [hlen])]
    rw [pumpPort_of_queue_nil 16]
    exact hqueue
  · have hr := resend_of_lt hheld htalks hwhole hresent
    exact ⟨congrArg Host.Outcome.next hr, congrArg Host.Outcome.next hr⟩
  · have htalks : portTalks s port = true := by simp [portTalks, hstate]
    obtain ⟨h4, hnil, hq⟩ := degrade_facts (port := port) h.hseq (by rw [hlen]; exact port.isLt)
    refine ⟨_, congrArg Host.Outcome.next (resend_of_ge hheld htalks hwhole hresent), h4, hnil, hq.frame⟩

/-! ## Class 0x0B (R401, R410, R411) -/

theorem bodyFlowDefine_fits {r : Req} {s : State} {d : BitVec 128} (hd : d = BitVec.ofNat 128 (ule r.payload 0 16))
    (hflow : 16 ≤ fld d 0 8) (hsrc : inTable s (fld d 32 8) = true) (hdst : 0xFE ≤ fld d 40 8) (hnets : fld d 54 2 ≠ 0)
    (hsize : 1 ≤ fld d 64 16) (hsize' : fld d 64 16 ≤ 1008) (hrate : 1 ≤ fld d 80 16) (hrate' : fld d 80 16 ≤ 10000)
    (hflows : s.cfg.flows = []) (hnew : s.link.flowsNew = []) (hroom : flowBudget d ≤ flowRoom s) (hused : flowUsed s (fld d 0 8) = false) :
    bodyFlowDefine r s = .done .ok [] { s with link := { s.link with flowsNew := put s.link.flowsNew (fld d 0 8) d } } := by
  subst hd
  unfold bodyFlowDefine
  extract_lets d flow src dst flows old rest
  have hrest : rest = [] := by simp [rest, flows, hflows, hnew]
  have h1 : ¬ flow < 16 := Nat.not_lt.mpr hflow
  have h2 : (!inTable s src || !(decide (dst ≥ 0xFE) || inTable s dst)) = false := by simp [src, dst, d, hsrc, hdst]
  have h3 : (decide (fld d 54 2 = 0) || decide (fld d 64 16 = 0) || decide (fld d 64 16 > 1008) || decide (fld d 80 16 = 0) ||
      decide (fld d 80 16 > 10000)) = false := by
    simp only [Bool.or_eq_false_iff, decide_eq_false_iff_not, d]
    omega
  have h4 : ¬ flowBudget d > flowRoom s := Nat.not_lt.mpr hroom
  rw [if_neg h1, h2, h3, show flowUsed s flow = false from hused, hrest]
  simp only [Bool.false_and, Bool.false_eq_true, if_false, List.map_nil, List.sum_nil, Nat.zero_add, if_neg h4]
  rfl

theorem linkClear_summary (s : State) : (linkClear 0 false [] s).link.counts = List.replicate 5 0 ∧
    linkClear 0 false [] s = { s with link := { s.link with
      counts := (linkClear 0 false [] s).link.counts, ports := (linkClear 0 false [] s).link.ports } } := by
  constructor
  · rfl
  · simp [linkClear]

theorem bodyLinkStatus_summary {r : Req} {s : State} (hdma : r.dma = none) (hpart : u8 r.payload 0 = 0) :
    bodyLinkStatus r s = .done .ok (linkSummary s) (if bit (u8 r.payload 1) 0 then linkClear 0 false [] s else s) := by
  simp [bodyLinkStatus, hdma, hpart, give, clears]

theorem bodyLinkPortControl_enable {r : Req} {s : State} (hix : u8 r.payload 0 < 4) (hop : u8 r.payload 1 = 1)
    (hstate : (portOf s (u8 r.payload 0)).state = 0) : bodyLinkPortControl r s =
      .done .ok (leBytes 1 (portOf (setPort (u8 r.payload 0) 1 s) (u8 r.payload 0)).state) (setPort (u8 r.payload 0) 1 s) := by
  have h3 : ¬ u8 r.payload 0 > 3 := by omega
  simp [bodyLinkPortControl, hop, hstate, h3, give]

/-- Settles O22: the body of each command, taken by the mailbox. -/
theorem linkCommands : Obligations.LinkCommands := by
  unfold Obligations.LinkCommands
  refine ⟨?_, fun r s htakes hdma hlen hpart => ?_, ?_, fun ix st s hlen hix => portOf_setPort_state (by omega)⟩
  · intro r s d htakes hlen hflow hsrc hdst hnets hsize hsize' hrate hrate' hflows hnew hroom hused
    exact mbx_answers htakes (exactly_of_length hlen)
      (bodyFlowDefine_fits rfl hflow hsrc hdst hnets hsize hsize' hrate hrate' hflows hnew hroom hused)
  · refine ⟨_, mbx_answers htakes (exactly_of_length hlen) (bodyLinkStatus_summary hdma hpart), ?_⟩
    obtain ⟨hcounts, hrest⟩ := linkClear_summary s
    split
    · exact ⟨hcounts, hrest⟩
    · exact ⟨rfl, rfl⟩
  · intro r s ix u htakes hlen hix hop hstate
    exact mbx_answers htakes (exactly_of_length hlen) (bodyLinkPortControl_enable hix hop hstate)

end Sys2Proof.Machine
end

section
/-! SUPPORT. The stored configuration and the commands of class 0x08. -/

namespace Sys2Proof.Machine

/-! ## Storing the configuration writes MRAM alone (R553) -/

section
variable (f : Cfg → Cfg) (s : State)

theorem storeCfg_mram : ∃ m, storeCfg f s = { s with mram := m } := by
  unfold storeCfg
  split <;> exact ⟨_, rfl⟩

@[simp] theorem storeCfg_cfgNext : (storeCfg f s).cfgNext = s.cfgNext := by obtain ⟨m, h⟩ := storeCfg_mram f s; rw [h]
@[simp] theorem setCfg_cfgNext : (setCfg f s).cfgNext = s.cfgNext.map f := storeCfg_cfgNext _ _
@[simp] theorem pendCfg_cfg : (pendCfg f s).cfg = s.cfg := storeCfg_cfg _ _
@[simp] theorem pendCfg_cfgNext : (pendCfg f s).cfgNext = some (f (s.cfgNext.getD s.cfg)) := storeCfg_cfgNext _ _
@[simp] theorem storeCfg_pending : (storeCfg f s).pending = s.pending := by obtain ⟨m, h⟩ := storeCfg_mram f s; rw [h]
@[simp] theorem setCfg_pending : (setCfg f s).pending = s.pending := storeCfg_pending _ _
@[simp] theorem pendCfg_pending : (pendCfg f s).pending = s.pending := storeCfg_pending _ _
@[simp] theorem storeCfg_free : (storeCfg f s).free = s.free := by obtain ⟨m, h⟩ := storeCfg_mram f s; rw [h]
@[simp] theorem setCfg_free : (setCfg f s).free = s.free := storeCfg_free _ _
@[simp] theorem pendCfg_free : (pendCfg f s).free = s.free := storeCfg_free _ _
@[simp] theorem storeCfg_undo : (storeCfg f s).undo = s.undo := by obtain ⟨m, h⟩ := storeCfg_mram f s; rw [h]
@[simp] theorem setCfg_undo : (setCfg f s).undo = s.undo := storeCfg_undo _ _
@[simp] theorem pendCfg_undo : (pendCfg f s).undo = s.undo := storeCfg_undo _ _
@[simp] theorem storeCfg_outs : (storeCfg f s).outs = s.outs := by obtain ⟨m, h⟩ := storeCfg_mram f s; rw [h]
@[simp] theorem setCfg_outs : (setCfg f s).outs = s.outs := storeCfg_outs _ _
@[simp] theorem pendCfg_outs : (pendCfg f s).outs = s.outs := storeCfg_outs _ _
@[simp] theorem storeCfg_variant : (storeCfg f s).variant = s.variant := by obtain ⟨m, h⟩ := storeCfg_mram f s; rw [h]
@[simp] theorem setCfg_variant : (setCfg f s).variant = s.variant := storeCfg_variant _ _
@[simp] theorem pendCfg_variant : (pendCfg f s).variant = s.variant := storeCfg_variant _ _
@[simp] theorem storeCfg_fw : (storeCfg f s).fw = s.fw := by obtain ⟨m, h⟩ := storeCfg_mram f s; rw [h]
@[simp] theorem setCfg_fw : (setCfg f s).fw = s.fw := storeCfg_fw _ _
@[simp] theorem pendCfg_fw : (pendCfg f s).fw = s.fw := storeCfg_fw _ _
@[simp] theorem storeCfg_rst : (storeCfg f s).rst = s.rst := by obtain ⟨m, h⟩ := storeCfg_mram f s; rw [h]
@[simp] theorem setCfg_rst : (setCfg f s).rst = s.rst := storeCfg_rst _ _
@[simp] theorem pendCfg_rst : (pendCfg f s).rst = s.rst := storeCfg_rst _ _
@[simp] theorem storeCfg_safe : (storeCfg f s).safe = s.safe := by obtain ⟨m, h⟩ := storeCfg_mram f s; rw [h]
@[simp] theorem setCfg_safe : (setCfg f s).safe = s.safe := storeCfg_safe _ _
@[simp] theorem pendCfg_safe : (pendCfg f s).safe = s.safe := storeCfg_safe _ _
@[simp] theorem storeCfg_time : (storeCfg f s).time = s.time := by obtain ⟨m, h⟩ := storeCfg_mram f s; rw [h]
@[simp] theorem setCfg_time : (setCfg f s).time = s.time := storeCfg_time _ _
@[simp] theorem pendCfg_time : (pendCfg f s).time = s.time := storeCfg_time _ _
@[simp] theorem storeCfg_cyc : (storeCfg f s).cyc = s.cyc := by obtain ⟨m, h⟩ := storeCfg_mram f s; rw [h]
@[simp] theorem setCfg_cyc : (setCfg f s).cyc = s.cyc := storeCfg_cyc _ _
@[simp] theorem pendCfg_cyc : (pendCfg f s).cyc = s.cyc := storeCfg_cyc _ _
@[simp] theorem storeCfg_brd : (storeCfg f s).brd = s.brd := by obtain ⟨m, h⟩ := storeCfg_mram f s; rw [h]
@[simp] theorem setCfg_brd : (setCfg f s).brd = s.brd := storeCfg_brd _ _
@[simp] theorem pendCfg_brd : (pendCfg f s).brd = s.brd := storeCfg_brd _ _
@[simp] theorem storeCfg_mem : (storeCfg f s).mem = s.mem := by obtain ⟨m, h⟩ := storeCfg_mram f s; rw [h]
@[simp] theorem setCfg_mem : (setCfg f s).mem = s.mem := storeCfg_mem _ _
@[simp] theorem pendCfg_mem : (pendCfg f s).mem = s.mem := storeCfg_mem _ _
@[simp] theorem storeCfg_dp : (storeCfg f s).dp = s.dp := by obtain ⟨m, h⟩ := storeCfg_mram f s; rw [h]
@[simp] theorem setCfg_dp : (setCfg f s).dp = s.dp := storeCfg_dp _ _
@[simp] theorem pendCfg_dp : (pendCfg f s).dp = s.dp := storeCfg_dp _ _
@[simp] theorem storeCfg_sol : (storeCfg f s).sol = s.sol := by obtain ⟨m, h⟩ := storeCfg_mram f s; rw [h]
@[simp] theorem setCfg_sol : (setCfg f s).sol = s.sol := storeCfg_sol _ _
@[simp] theorem pendCfg_sol : (pendCfg f s).sol = s.sol := storeCfg_sol _ _
@[simp] theorem storeCfg_fus : (storeCfg f s).fus = s.fus := by obtain ⟨m, h⟩ := storeCfg_mram f s; rw [h]
@[simp] theorem setCfg_fus : (setCfg f s).fus = s.fus := storeCfg_fus _ _
@[simp] theorem pendCfg_fus : (pendCfg f s).fus = s.fus := storeCfg_fus _ _
@[simp] theorem storeCfg_loop : (storeCfg f s).loop = s.loop := by obtain ⟨m, h⟩ := storeCfg_mram f s; rw [h]
@[simp] theorem setCfg_loop : (setCfg f s).loop = s.loop := storeCfg_loop _ _
@[simp] theorem pendCfg_loop : (pendCfg f s).loop = s.loop := storeCfg_loop _ _
@[simp] theorem pendCfg_filt : (pendCfg f s).filt = s.filt := storeCfg_filt _ _
@[simp] theorem storeCfg_ao : (storeCfg f s).ao = s.ao := by obtain ⟨m, h⟩ := storeCfg_mram f s; rw [h]
@[simp] theorem setCfg_ao : (setCfg f s).ao = s.ao := storeCfg_ao _ _
@[simp] theorem pendCfg_ao : (pendCfg f s).ao = s.ao := storeCfg_ao _ _
@[simp] theorem storeCfg_bus : (storeCfg f s).bus = s.bus := by obtain ⟨m, h⟩ := storeCfg_mram f s; rw [h]
@[simp] theorem setCfg_bus : (setCfg f s).bus = s.bus := storeCfg_bus _ _
@[simp] theorem pendCfg_bus : (pendCfg f s).bus = s.bus := storeCfg_bus _ _
@[simp] theorem storeCfg_link : (storeCfg f s).link = s.link := by obtain ⟨m, h⟩ := storeCfg_mram f s; rw [h]
@[simp] theorem setCfg_link : (setCfg f s).link = s.link := storeCfg_link _ _
@[simp] theorem pendCfg_link : (pendCfg f s).link = s.link := storeCfg_link _ _
@[simp] theorem storeCfg_hif : (storeCfg f s).hif = s.hif := by obtain ⟨m, h⟩ := storeCfg_mram f s; rw [h]
@[simp] theorem setCfg_hif : (setCfg f s).hif = s.hif := storeCfg_hif _ _
@[simp] theorem pendCfg_hif : (pendCfg f s).hif = s.hif := storeCfg_hif _ _
@[simp] theorem storeCfg_rcd : (storeCfg f s).rcd = s.rcd := by obtain ⟨m, h⟩ := storeCfg_mram f s; rw [h]
@[simp] theorem setCfg_rcd : (setCfg f s).rcd = s.rcd := storeCfg_rcd _ _
@[simp] theorem pendCfg_rcd : (pendCfg f s).rcd = s.rcd := storeCfg_rcd _ _
@[simp] theorem storeCfg_arch : (storeCfg f s).arch = s.arch := by obtain ⟨m, h⟩ := storeCfg_mram f s; rw [h]
@[simp] theorem setCfg_arch : (setCfg f s).arch = s.arch := storeCfg_arch _ _
@[simp] theorem pendCfg_arch : (pendCfg f s).arch = s.arch := storeCfg_arch _ _
@[simp] theorem storeCfg_memp : (storeCfg f s).memp = s.memp := by obtain ⟨m, h⟩ := storeCfg_mram f s; rw [h]
@[simp] theorem setCfg_memp : (setCfg f s).memp = s.memp := storeCfg_memp _ _
@[simp] theorem pendCfg_memp : (pendCfg f s).memp = s.memp := storeCfg_memp _ _
@[simp] theorem storeCfg_tests : (storeCfg f s).tests = s.tests := by obtain ⟨m, h⟩ := storeCfg_mram f s; rw [h]
@[simp] theorem setCfg_tests : (setCfg f s).tests = s.tests := storeCfg_tests _ _
@[simp] theorem pendCfg_tests : (pendCfg f s).tests = s.tests := storeCfg_tests _ _

end

/-! ## Copies to other managers (R239, R329) -/

theorem quiet_sendCopies (code : Nat) (r : Req) (ms : List Nat) (s : State) : Quiet s (sendCopies code r ms s) :=
  Quiet.foldl (fun t _ => quiet_sendLong _ _ _ _ _ t) ms s

theorem quiet_shareCfg (code : Nat) (r : Req) (ms : List Nat) (s : State) : Quiet s (shareCfg code r ms s) := by
  unfold shareCfg
  split
  · exact .refl s
  · exact quiet_sendCopies _ _ _ s

/-! ## Class 0x08 (R86 to R88, R490, R491) -/

/-- A source selected afresh leaves the 10 MHz input as it is (R75, R98). -/
theorem selectSource_keeps (s : State) : ∃ t, Quiet { s with time := t } (selectSource s) ∧ t.ref10Sel = s.time.ref10Sel ∧
    t.ref10Run = s.time.ref10Run ∧ t.ref10Lost = s.time.ref10Lost := by
  unfold selectSource
  extract_lets c s1 s2
  split
  · exact ⟨_, .refl s1, rfl, rfl, rfl⟩
  · split
    · exact ⟨_, quiet_event _ _ _ (enterHoldover s2), rfl, rfl, rfl⟩
    · exact ⟨_, .refl s2, rfl, rfl, rfl⟩

theorem bodyTimeConfig_active {r : Req} {s : State} (hpassed : passedOn r s = false) (hvariant : s.variant ≠ .WK) (hactive : s.isActive = true)
    (hb0 : macBlockBad (BitVec.ofNat 128 (ule r.payload 16 16)) = false) (hb1 : macBlockBad (BitVec.ofNat 128 (ule r.payload 32 16)) = false)
    (hsrc : ∀ c ∈ (r.payload.take 3).map BitVec.toNat, c ≤ 3 ∨ c = 0xFF) (hjump : 1 ≤ u32 r.payload 4) (hjump' : u32 r.payload 4 ≤ 1000000)
    (hwidth : 1 ≤ u16 r.payload 8) (hwidth' : u16 r.payload 8 ≤ 500) :
    ∃ u, bodyTimeConfig r s = .done .ok [] u ∧ u.cfg = { s.cfg with
        sources := (r.payload.take 3).map BitVec.toNat, jumpUs := u32 r.payload 4, use10m := bit (u8 r.payload 3) 0, ppsWidth := u16 r.payload 8
        macBlocks := [BitVec.ofNat 128 (ule r.payload 16 16), BitVec.ofNat 128 (ule r.payload 32 16)] } ∧
      u.time.ref10Sel = bit (u8 r.payload 3) 0 ∧ u.time.ref10Run = (bit (u8 r.payload 3) 0 && ref10Ok s.time.ref10Hz) ∧
      u.time.ref10Lost = (bit (u8 r.payload 3) 0 && s.time.ref10Lost && !ref10Ok s.time.ref10Hz) ∧ u.dp = s.dp ∧ u.safe = s.safe := by
  unfold bodyTimeConfig
  extract_lets p b0 b1 src jump width wk own use10 news s1 s2 s3
  have hwk : wk = False := eq_false hvariant
  have hall : src.all sourceCode = true := by
    rw [List.all_eq_true]
    intro c hc
    simpa [sourceCode] using hsrc c hc
  have hown : own = true := by simp [own, hactive]
  have hrange : (macBlockBad b0 || macBlockBad b1 || (decide wk && decide (fld b0 0 8 = 3)) || !src.all sourceCode || decide (jump = 0) ||
      decide (jump > 1000000) || decide (width = 0) || decide (width > 500)) = false := by
    simp only [Bool.or_eq_false_iff, decide_eq_false_iff_not, hall, jump, width, p, b0, b1, hb0, hb1, hwk]
    simp
    omega
  have hwk' : (decide wk && (decide (fld b0 0 8 = 1) || decide (fld b1 0 8 ≠ 0))) = false := by simp [hwk]
  rw [hpassed, hwk', hrange]
  have h2 : s2.cfg = s1.cfg ∧ s2.dp = s.dp ∧ s2.safe = s.safe ∧ s2.time.ref10Sel = use10 ∧
      s2.time.ref10Run = (use10 && ref10Ok s.time.ref10Hz) ∧ s2.time.ref10Lost = (use10 && s.time.ref10Lost && !ref10Ok s.time.ref10Hz) := by
    simp [s2, s1, portRoles]
  obtain ⟨t, hq, hsel, hrun, hlost⟩ : ∃ t, Quiet { s2 with time := t } s3 ∧ t.ref10Sel = s2.time.ref10Sel ∧
      t.ref10Run = s2.time.ref10Run ∧ t.ref10Lost = s2.time.ref10Lost := by
    unfold s3
    split
    · exact selectSource_keeps s2
    · exact ⟨_, .refl s2, rfl, rfl, rfl⟩
  have hq' : Quiet { s2 with time := t } (if news then sendCopies 0x0801 r (otherMembers s) s3 else s3) :=
    .ite (hq.trans (quiet_sendCopies _ _ _ _)) hq
  obtain ⟨hcfg, hdp, hsafe, hsel2, hrun2, hlost2⟩ := h2
  refine ⟨_, rfl, ?_, ?_, ?_, ?_, hq'.dp.trans hdp, hq'.safe.trans hsafe⟩
  · rw [hq'.cfg]
    refine hcfg.trans ((setCfg_cfg _ _).trans ?_)
    simp only [hown, if_true]
    rfl
  · rw [hq'.time]; exact hsel.trans hsel2
  · rw [hq'.time]; exact hrun.trans hrun2
  · rw [hq'.time]; exact hlost.trans hlost2

theorem bodyTimeAcceptStep_slew {r : Req} {s : State} (hmode : u8 r.payload 0 = 1) (hrefused : s.time.refused = true)
    (hpresent : s.time.srcPresent = true) (hlow : -1000000000 ≤ s.time.offset) (hhigh : s.time.offset ≤ 1000000000) :
    bodyTimeAcceptStep r s = .done .ok (leBytes 4 (wi (offsetUs s.time.offset)).toNat) (event 0x0813 1 [s.time.source, (wi s.time.offset).toNat]
      { s with time := startSlew s.time.offset { s.time with state := 1, refused := false } }) := by
  unfold bodyTimeAcceptStep
  extract_lets mode o pay
  have hmode1 : ¬ mode > 1 := by omega
  have hrange : ¬ (decide (o > 1000000000) || decide (o < -1000000000)) = true := by
    simp only [Bool.or_eq_true, decide_eq_true_eq]
    omega
  rw [if_neg hmode1, if_neg (by simp [hrefused, hpresent]), if_pos hmode, if_neg hrange]
  rfl

theorem bodyTimeAcceptStep_step {r : Req} {s : State} (hmode : u8 r.payload 0 = 0) (hrefused : s.time.refused = true)
    (hpresent : s.time.srcPresent = true) :
    bodyTimeAcceptStep r s =
      .done .ok (leBytes 4 (wi (offsetUs s.time.offset)).toNat) { s with time := { s.time with stepWanted := true } } := by
  unfold bodyTimeAcceptStep
  extract_lets mode o pay
  have hmode1 : ¬ mode > 1 := by omega
  have hmode0 : ¬ mode = 1 := by omega
  rw [if_neg hmode1, if_neg (by simp [hrefused, hpresent]), if_neg hmode0]
  rfl

theorem bodyTimeStatus_head (s : State) : ∃ pay, pay.take 4 = leBytes 1 s.time.state ++ leBytes 1 s.time.source ++ leBytes 2 s.time.gen.toNat ∧
    ∀ r, bodyTimeStatus r s = give pay s :=
  ⟨_, by simp [leBytes], fun _ => rfl⟩

/-- Settles O25: the body of each command, taken by the mailbox. -/
theorem timeCommands : Obligations.TimeCommands := by
  unfold Obligations.TimeCommands
  refine ⟨?_, ?_, ?_, fun r s => ?_⟩
  · intro r s p b0 b1 htakes hpassed hlen hvariant hactive hb0 hb1 hsrc hjump hjump' hwidth hwidth'
    obtain ⟨u, hbody, hu⟩ := bodyTimeConfig_active hpassed hvariant hactive hb0 hb1 hsrc hjump hjump' hwidth hwidth'
    exact ⟨u, mbx_answers htakes (exactly_of_length hlen) hbody, hu⟩
  · intro r s pay htakes hlen hmode hrefused hpresent hlow hhigh
    exact mbx_answers htakes (exactly_of_length hlen) (bodyTimeAcceptStep_slew hmode hrefused hpresent hlow hhigh)
  · intro r s pay htakes hlen hmode hrefused hpresent
    exact mbx_answers htakes (exactly_of_length hlen) (bodyTimeAcceptStep_step hmode hrefused hpresent)
  · obtain ⟨pay, htake, hbody⟩ := bodyTimeStatus_head s
    exact ⟨pay, htake, fun htakes hlen => mbx_answers htakes (by rw [hlen]; rfl) (hbody r)⟩

end Sys2Proof.Machine
end

section
/-! SUPPORT. Output samples of the filter chain and the commands of class 0x06 on it. -/

namespace Sys2Proof.Machine

/-! ## One element of a list -/

theorem upd_eq_set {α : Type} {l : List α} {n : Nat} (f : α → α) (d : α) (h : n < l.length) : upd l n f = l.set n (f (l.getD n d)) := by
  refine List.ext_getElem (by simp) fun m h1 h2 => ?_
  simp only [upd, List.getElem_modify, List.getElem_set, List.getD_eq_getElem _ _ h]
  split
  next hm => subst hm; rfl
  next => rfl

theorem updFilt_eq_set {ch : Nat} {s : State} (f : Filt → Filt) (h : ch < s.filt.length) :
    updFilt ch f s = { s with filt := s.filt.set ch (f (filtOf s ch)) } := by
  unfold updFilt
  rw [upd_eq_set f {} h]
  rfl

theorem filtOf_updFilt_same {ch : Nat} {s : State} (f : Filt → Filt) (h : ch < s.filt.length) :
    filtOf (updFilt ch f s) ch = f (filtOf s ch) := by
  rw [filtOf_updFilt, if_pos ⟨rfl, h⟩]

/-! ## What the chain's stages write of a channel (R104, R109, R113, R114) -/

theorem cicRun_writes (d1 n v : Nat) (c : Filt) : ∃ i k, (cicRun d1 n v c).1 = { c with cicInt := i, cicComb := k } := by
  induction n generalizing v c with
  | zero => exact ⟨_, _, rfl⟩
  | succ n ih =>
    obtain ⟨i, k, h⟩ := ih (v / 2 ^ d1) { c with
      cicInt := cicBits d1 v c.cicInt, cicComb := (comb ((cicBits d1 v c.cicInt).getD 3 0) c.cicComb).2 }
    exact ⟨i, k, h⟩

theorem dcb_writes (w : BitVec 64) (c : Filt) (x : Int) : ∃ m l, (dcb w c x).1 = { c with m := m, mLoad := l } := by
  unfold dcb
  split
  · exact ⟨_, _, rfl⟩
  · exact ⟨_, _, rfl⟩

theorem chainSample_writes (w : BitVec 64) (bank : Bool) (c : Filt) (xs : List Int) :
    ∃ h md m l, (chainSample w bank c xs).1 = { c with firHist := h, medHist := md, m := m, mLoad := l } := by
  unfold chainSample
  extract_lets hist f med d
  obtain ⟨m, l, hd⟩ := dcb_writes w { c with firHist := hist, medHist := med } (median (chW w) med)
  exact ⟨hist, med, m, l, hd⟩

theorem chainBlock_writes (w : BitVec 64) (bank : Bool) (n : Nat) (c : Filt) (xs : List Int) :
    ∃ h md m l, (chainBlock w bank n c xs).1 = { c with firHist := h, medHist := md, m := m, mLoad := l } := by
  induction n generalizing c xs with
  | zero => exact ⟨_, _, _, _, rfl⟩
  | succ n ih =>
    obtain ⟨h, md, m, l, ha⟩ := chainSample_writes w bank c (xs.take (chRF w))
    obtain ⟨h', md', m', l', hb⟩ := ih (chainSample w bank c (xs.take (chRF w))).1 (xs.drop (chRF w))
    refine ⟨h', md', m', l', hb.trans ?_⟩
    rw [ha]

/-- The registers that a block of modulator bits passes through, and no other field of the channel. -/
theorem block_writes (w : BitVec 64) (bank : Bool) (d1 n v k : Nat) (c : Filt) : ∃ i cc h md m l,
    (chainBlock w bank k (cicRun d1 n v c).1 (cicRun d1 n v c).2).1 =
      { c with cicInt := i, cicComb := cc, firHist := h, medHist := md, m := m, mLoad := l } := by
  obtain ⟨i, cc, hc⟩ := cicRun_writes d1 n v c
  obtain ⟨h, md, m, l, hb⟩ := chainBlock_writes w bank k (cicRun d1 n v c).1 (cicRun d1 n v c).2
  exact ⟨i, cc, h, md, m, l, by rw [hb, hc]⟩

/-! ## The output sample (R104, R117, R120) -/

theorem contribute_dp_safe (n : Nat) (stamp : Option Nat) (v : Option (List Int)) (s : State) :
    (contribute n stamp v s).dp = s.dp ∧ (contribute n stamp v s).safe = s.safe := by
  unfold contribute
  split
  · split <;> exact ⟨rfl, rfl⟩
  · exact ⟨rfl, rfl⟩

theorem offerFilter_dp_safe (ch : Nat) (s : State) : (offerFilter ch s).dp = s.dp ∧ (offerFilter ch s).safe = s.safe := by
  unfold offerFilter
  refine List.foldlRecOn (motive := fun (t : State) => t.dp = s.dp ∧ t.safe = s.safe) _ _ ⟨rfl, rfl⟩ fun t ⟨hdp, hsafe⟩ n _ => ?_
  obtain ⟨hd, hs⟩ := contribute_dp_safe n _ _ t
  exact ⟨hd.trans hdp, hs.trans hsafe⟩

@[simp] theorem inputBack_dp (p : LoopCfg → Bool) (s : State) : (inputBack p s).dp = s.dp := rfl
@[simp] theorem inputBack_safe (p : LoopCfg → Bool) (s : State) : (inputBack p s).safe = s.safe := rfl

/-- A boundary with nothing waiting but a word of the same DC-blocking stage brings that word into force (R107). -/
theorem boundary_of_quiet {ch : Nat} {s : State} (hending : (filtOf s ch).ending = none) (hswap : (filtOf s ch).swapPending = false)
    (hdcb : chDcb (chSet s ch) = chDcb (chWord s ch)) : boundary ch s = updFilt ch (fun c => { c with inForce := none }) s := by
  unfold boundary
  extract_lets c old new s1
  have hs1 : s1 = s := if_neg (by simp [c, hswap])
  have hno : (chDcb new && !chDcb old) = false := by simp [new, old, hdcb]
  rw [if_neg (by simp [c, hending]), hs1]
  simp only [hno, Bool.false_eq_true, if_false]

theorem exec_filterOutputSample (ch : Fin 16) (stream done spacing : Nat) {s : State} (hlen : s.filt.length = 16) (hruns : chRuns s ch = true)
    (hending : (filtOf s ch).ending = none) (hswap : (filtOf s ch).swapPending = false) (hdcb : chDcb (chSet s ch) = chDcb (chWord s ch)) :
    let w := chWord s ch
    let x := cicRun (chD1 w) (chRF w * chD3 w) stream (filtOf s ch)
    let blk := chainBlock w (filtOf s ch).active (chD3 w) x.1 x.2
    ∃ t, exec (.filterOutputSample ch stream done spacing) s = .next t ∧ (filtOf t ch).value = (sat24 (roundDiv blk.2.1 (chD3 w : Nat))).1 ∧
      (filtOf t ch).cicInt = blk.1.cicInt ∧ (filtOf t ch).firHist = blk.1.firHist ∧ (filtOf t ch).m = blk.1.m ∧ (filtOf t ch).seq = (filtOf s ch).seq + 1 ∧
      (filtOf t ch).lastSeq = (filtOf s ch).seq ∧ (filtOf t ch).stamp = filterStamp (chWord s ch) done spacing ∧
      (filtOf t ch).settle = (filtOf s ch).settle - 1 ∧ (filtOf t ch).hasSample = true ∧ t.dp = s.dp ∧ t.safe = s.safe ∧ t.cfg = s.cfg := by
  intro w x blk
  change ∃ t, execFilterOutputSample ch stream done spacing s = _ ∧ _
  unfold execFilterOutputSample
  extract_lets c bank x' cic blk' v clip satd lf flags stamp cnt range go s1 s2
  have hbank : bank = (filtOf s ch).active := by simp [bank, c, hending]
  have hblk : blk' = blk := by simp only [blk', cic, hbank]; rfl
  obtain ⟨i, cc, h, md, m, l, hwrites⟩ : ∃ i cc h md m l, blk.1 =
    { filtOf s ch with cicInt := i, cicComb := cc, firHist := h, medHist := md, m := m, mLoad := l } := block_writes _ _ _ _ _ _ _
  have hs2 : Quiet s1 s2 := .ite (quiet_event _ _ _ s1) (.refl s1)
  have hfilt2 : filtOf s2 ch = go blk.1 := by
    rw [filtOf_congr hs2.filt, show s1 = updFilt ch (fun _ => go blk'.1) s from rfl, filtOf_updFilt_same _ (by simp [hlen]), hblk]
  have hcfg2 : s2.cfg = s.cfg := hs2.cfg
  have hword : ∀ u : State, u.filt = s2.filt → u.cfg = s2.cfg →
      boundary ch u = updFilt ch (fun c => { c with inForce := none }) u := fun u hf hc => by
    have hu : filtOf u ch = go blk.1 := (filtOf_congr hf ch).trans hfilt2
    have hset : chSet u ch = chSet s ch := chSet_congr (hc.trans hcfg2) ch
    refine boundary_of_quiet (by rw [hu, hwrites]; exact hending) (by rw [hu, hwrites]; exact hswap) ?_
    have hinf : (filtOf u ch).inForce = (filtOf s ch).inForce := by rw [hu, hwrites]
    rw [chWord, hinf, hset]
    exact hdcb
  rw [hruns, hword _ (by simp) (by simp)]
  have hlen2 : ch.val < (inputBack (fun l => decide (l.inType = 0) && decide (l.inSel = ch)) (offerFilter ch s2)).filt.length := by
    simp [hs2.filt, s1, hlen]
  refine ⟨_, rfl, ?_⟩
  rw [filtOf_updFilt_same _ hlen2, filtOf_congr (t := inputBack _ _) (s := s2) (by simp), hfilt2]
  obtain ⟨hdp, hsafe⟩ := offerFilter_dp_safe ch s2
  refine ⟨?_, rfl, rfl, rfl, ?_, ?_, rfl, ?_, rfl, ?_, ?_, ?_⟩
  · simp only [go, v, hblk]
  · simp only [go, hwrites]
  · simp only [go, hwrites]
  · simp only [go, hwrites]
  · rw [updFilt_dp, inputBack_dp, hdp, hs2.dp, updFilt_dp]
  · rw [updFilt_safe, inputBack_safe, hsafe, hs2.safe, updFilt_safe]
  · rw [updFilt_cfg, inputBack_cfg, offerFilter_cfg, hcfg2]

/-! ## Other events of the chain (R126 to R128) -/

section
variable {ch : Fin 16} {s : State} (hlen : s.filt.length = 16)
include hlen

theorem exec_modulatorReset (hruns : chRuns s ch = true) : exec (.modulatorReset ch) s =
    .next (event 0x0610 2 [ch, (addAt (filtOf s ch).counts 2 1).getD 2 0] { s with
      filt := s.filt.set ch { filtOf s ch with modOvr := settleCount (chWord s ch), counts := addAt (filtOf s ch).counts 2 1 } }) := by
  show execModulatorReset ch s = _
  unfold execModulatorReset
  extract_lets s1
  have hs1 : (filtOf s1 ch).counts = addAt (filtOf s ch).counts 2 1 := congrArg Filt.counts (filtOf_updFilt_same _ (by simp [hlen]))
  rw [hruns, hs1, ← updFilt_eq_set (fun c => { c with modOvr := settleCount (chWord s ch), counts := addAt c.counts 2 1 }) (by simp [hlen])]
  rfl

theorem exec_afeFifoOverrun (lost : Nat) (hruns : chRuns s ch = true) : exec (.afeFifoOverrun ch lost) s =
    .next (event 0x0615 4 [ch, lost] { s with filt := s.filt.set ch { zeroHist (filtOf s ch) with
      seq := (filtOf s ch).seq + BitVec.ofNat 16 lost, settle := settleCount (chWord s ch) } }) := by
  show execAfeFifoOverrun ch lost s = _
  unfold execAfeFifoOverrun
  rw [hruns, updFilt_eq_set _ (by simp [hlen])]
  rfl

theorem exec_loopRangePersist (hon : (filtOf s ch).rangeOn = true) (hdone : (filtOf s ch).rangeDone = false) :
    exec (.loopRangePersist ch) s = .next (event 0x0613 3 [ch, valueWord (filtOf s ch).value, (bit (filtOf s ch).flags.toNat 8).toNat]
      { s with filt := s.filt.set ch { filtOf s ch with rangeDone := true, counts := addAt (filtOf s ch).counts 4 1 } }) := by
  show execLoopRangePersist ch s = _
  unfold execLoopRangePersist
  extract_lets c
  rw [if_neg (by simp [c, hon, hdone]), updFilt_eq_set _ (by simp [hlen])]

end

/-! ## Class 0x06 (R105, R110, R112, R115, R130) -/

section
variable {r : Req} {s : State} (hch : u8 r.payload 0 < 16)
include hch

theorem bodyFilterConfig_enable (hrange : chRange (chMask (BitVec.ofNat 64 (ule r.payload 8 8))) = false)
    (hold : chEn (chSet s (u8 r.payload 0)) = false) (hnew : chEn (chMask (BitVec.ofNat 64 (ule r.payload 8 8))) = true) :
    bodyFilterConfig r s = .done .ok [] (updFilt (u8 r.payload 0) (enableCh (chMask (BitVec.ofNat 64 (ule r.payload 8 8))))
      (setCfg (fun c => { c with filters := c.filters.set (u8 r.payload 0) (chMask (BitVec.ofNat 64 (ule r.payload 8 8))) }) s)) := by
  unfold bodyFilterConfig
  extract_lets ch w old s1 force bank s2
  rw [if_neg (Nat.not_le.mpr hch), if_neg (by simp [w, hrange]), if_neg (by simp [old, ch, hold]), if_pos (by simp [old, ch, hold]), if_pos hnew]
  rfl

theorem bodyFilterBankLoad_ok (hlow : 2 ^ 29 ≤ 2 * ((List.range 32).map fun i => i32 r.payload (4 + 4 * i)).sum)
    (hhigh : 2 * ((List.range 32).map fun i => i32 r.payload (4 + 4 * i)).sum ≤ 3 * 2 ^ 29)
    (hswap : (filtOf s (u8 r.payload 0)).swapPending = false) : bodyFilterBankLoad r s =
      .done .ok (leBytes 2 (bankCrc ((List.range 32).map fun i => i32 r.payload (4 + 4 * i))) ++
          leBytes 1 (!(filtOf s (u8 r.payload 0)).active).toNat)
        (updFilt (u8 r.payload 0) (fun c => if c.active then { c with bankA := (List.range 32).map fun i => i32 r.payload (4 + 4 * i) }
          else { c with bankB := (List.range 32).map fun i => i32 r.payload (4 + 4 * i) }) s) := by
  unfold bodyFilterBankLoad
  extract_lets ch h gain c
  have hgain : ¬ (gain < 2 ^ 29 ∨ 3 * 2 ^ 29 < gain) := not_or.mpr ⟨Int.not_lt.mpr hlow, Int.not_lt.mpr hhigh⟩
  rw [if_neg (Nat.not_le.mpr hch), if_neg hgain, if_neg (by simp [c, ch, hswap])]
  rfl

theorem bodyFilterBankSwap_enabled (hswap : (filtOf s (u8 r.payload 0)).swapPending = false) (hen : chEn (chSet s (u8 r.payload 0)) = true) :
    bodyFilterBankSwap r s = .done .ok [1] (updFilt (u8 r.payload 0) (fun c => { c with swapPending := true }) s) := by
  unfold bodyFilterBankSwap
  extract_lets ch
  rw [if_neg (Nat.not_le.mpr hch), if_neg (by simp [ch, hswap]), if_pos hen]
  rfl

theorem bodyFilterBankSwap_disabled (hswap : (filtOf s (u8 r.payload 0)).swapPending = false) (hen : chEn (chSet s (u8 r.payload 0)) = false) :
    bodyFilterBankSwap r s = .done .ok [0] (swapBank (u8 r.payload 0) (chWord s (u8 r.payload 0)) s) := by
  unfold bodyFilterBankSwap
  extract_lets ch
  rw [if_neg (Nat.not_le.mpr hch), if_neg (by simp [ch, hswap]), if_neg (by simp [ch, hen])]
  rfl

theorem bodyDcbFreeze_freeze (hop : u8 r.payload 1 = 1) (hdcb : chDcb (chSet s (u8 r.payload 0)) = true)
    (hfrozen : (filtOf s (u8 r.payload 0)).frozen = false) : bodyDcbFreeze r s =
      .done .ok [] (event 0x0616 1 [u8 r.payload 0, 1, intBits 32 ((filtOf s (u8 r.payload 0)).m / (2 ^ 16 : Nat))]
        (updFilt (u8 r.payload 0) (fun c => { c with frozen := true }) s)) := by
  unfold bodyDcbFreeze
  extract_lets ch op c
  have hop1 : op = 1 := hop
  rw [if_neg (Nat.not_le.mpr hch), if_neg (by omega), if_neg (by simp [ch, hdcb]), if_neg (by simp [c, ch, hfrozen, hop1])]
  simp only [hop1, if_true]
  rfl

theorem bodyDcbFreeze_release (hop : u8 r.payload 1 = 0) (hdcb : chDcb (chSet s (u8 r.payload 0)) = true)
    (hfrozen : (filtOf s (u8 r.payload 0)).frozen = true) : bodyDcbFreeze r s =
      .done .ok [] (event 0x0616 1 [u8 r.payload 0, 0, intBits 32 ((filtOf s (u8 r.payload 0)).m / (2 ^ 16 : Nat))]
        (updFilt (u8 r.payload 0) (fun c => { c with frozen := false, dcbSettle := dcbCount (chSet s (u8 r.payload 0)) }) s)) := by
  unfold bodyDcbFreeze
  extract_lets ch op c
  have hop0 : op = 0 := hop
  rw [if_neg (Nat.not_le.mpr hch), if_neg (by omega), if_neg (by simp [ch, hdcb]), if_neg (by simp [c, ch, hfrozen, hop0])]
  simp only [hop0, Nat.zero_ne_one, if_false]
  rfl

theorem bodyFilterStatus_one (hn : u8 r.payload 1 = 1) : bodyFilterStatus r s =
    .done .ok (leBytes 8 (filterWord s (u8 r.payload 0)) ++ words (filtOf s (u8 r.payload 0)).counts)
      (if bit (u8 r.payload 2) 0 then updFilt (u8 r.payload 0) (fun c => { c with counts := List.replicate 5 0 }) s else s) := by
  unfold bodyFilterStatus
  extract_lets first n chs
  have hn1 : n = 1 := hn
  have hchs : chs = [first] := by simp [chs, hn1]
  rw [if_neg (by simp [hn1]; omega), hchs]
  simp only [List.flatMap_cons, List.flatMap_nil, List.append_nil, List.foldl_cons, List.foldl_nil]
  rfl

end

theorem swapBank_active {ch : Nat} (w : BitVec 64) {s : State} (h : ch < s.filt.length) :
    (filtOf (swapBank ch w s) ch).active = !(filtOf s ch).active := by
  unfold swapBank
  extract_lets c
  rw [filtOf_congr (event_filt _ _ _ _), filtOf_updFilt_same _ h]

theorem chEn_eq_false {w : BitVec 64} (h : fld w 0 1 = 0) : chEn w = false := decide_eq_false (by omega)

/-- Settles O27: the sample through its registers, one equation per event of the chain, and the body of each command. -/
theorem filterChain : Obligations.FilterChain := by
  unfold Obligations.FilterChain
  refine ⟨fun ch stream done spacing s hlen hruns hending hswap hdcb => exec_filterOutputSample ch stream done spacing hlen hruns hending hswap hdcb,
    fun ch s hlen hruns => exec_modulatorReset hlen hruns, fun ch lost s hlen hruns => exec_afeFifoOverrun hlen lost hruns,
    fun ch s hlen hon hdone => exec_loopRangePersist hlen hon hdone, ?_, ?_, ?_, ?_, ?_, ?_, ?_⟩
  · intro r s ch w htakes hlen hch hrange hold hnew
    exact mbx_answers htakes (exactly_of_length hlen) (bodyFilterConfig_enable hch hrange (chEn_eq_false hold) ((chEn_iff _).mpr hnew))
  · intro r s ch h pay htakes hlen hch hlow hhigh hswap
    exact mbx_answers htakes (exactly_of_length hlen) (bodyFilterBankLoad_ok hch hlow hhigh hswap)
  · intro r s ch htakes hlen hch hswap hen
    exact mbx_answers htakes (exactly_of_length hlen) (bodyFilterBankSwap_enabled hch hswap ((chEn_iff _).mpr hen))
  · intro r s ch htakes hlen hch hswap hen
    refine ⟨_, mbx_answers htakes (exactly_of_length hlen) (bodyFilterBankSwap_disabled hch hswap (chEn_eq_false hen)), fun hfilt => ?_, ?_⟩
    · exact swapBank_active _ (by omega)
    · simp [swapBank]
  · intro r s ch htakes hlen hch hop hdcb hfrozen
    exact mbx_answers htakes (exactly_of_length hlen) (bodyDcbFreeze_freeze hch hop hdcb hfrozen)
  · intro r s ch htakes hlen hch hop hdcb hfrozen
    exact mbx_answers htakes (exactly_of_length hlen) (bodyDcbFreeze_release hch hop hdcb hfrozen)
  · intro r s ch pay htakes hlen hch hn
    exact mbx_answers htakes (exactly_of_length hlen) (bodyFilterStatus_one hch hn)

end Sys2Proof.Machine
end

section
/-! SUPPORT. CAN_TX of a buffer whose collision run goes on (R427, R431), and UART_RX_READ's newest SEQ (R439). -/

namespace Sys2Proof.Machine

/-! ## CAN_TX (R427) -/

/-- CAN_TX into a free buffer of an error-active channel: the buffer is queued with its run of collisions as it was. -/
theorem bodyCanTx_queues {r : Req} {s : State} (hfd : fld (txHeader r.payload) 51 1 = 0) (hbrs : fld (txHeader r.payload) 52 1 = 0)
    (hch : fld (txHeader r.payload) 5 3 < s.variant.cans) (hstate : (canOf s (fld (txHeader r.payload) 5 3)).state = 1)
    (hbound : (bufOf s (fld (txHeader r.payload) 5 3) (fld (txHeader r.payload) 0 5)).bound = false)
    (hstatus : (bufOf s (fld (txHeader r.payload) 5 3) (fld (txHeader r.payload) 0 5)).status ≠ 2) :
    bodyCanTx r s = .done .ok [1] (updBuf (fld (txHeader r.payload) 5 3) (fld (txHeader r.payload) 0 5)
      (fun x => queueBuf { x with header := txHeader r.payload, data := r.payload.drop 8 }) s) := by
  unfold bodyCanTx
  extract_lets h ch b st
  have hst : st = 1 := hstate
  rw [if_neg (Nat.not_le.mpr hch), if_neg (by simp [h, hfd, hbrs]), if_neg (by simp [h, hfd, ch, b, hbound, hst]), if_neg hstatus]
  rfl

/-- A manager in RUN, each CAN buffer with one collision behind it. -/
def collidedCan : State where
  variant := .MA
  rst := { life := .run }
  mem := { role := .active }
  bus := { can := List.replicate 8 { state := 1, bufs := List.replicate 32 { run := 1 } } }

/-- CAN_TX of an empty frame with identifier 0 into buffer 0 of channel 0. -/
def emptyCanTx : Req where
  path := .slot 0
  payload := List.replicate 8 0

/-- Refutes O31: CAN_TX leaves the run of collisions of the buffer it queues (R431), which the statement has end at 0. -/
theorem not_canCommands : ¬ Obligations.CanCommands := by
  unfold Obligations.CanCommands
  rintro ⟨-, -, htx, -⟩
  have htakes : Takes 0x0703 emptyCanTx [1] collidedCan := ⟨by decide, by decide, .inr (by decide), by decide⟩
  have hclaim := htx emptyCanTx collidedCan htakes (by decide) (by decide) (by decide) (by decide) (by decide) (by decide) (by decide) (by decide)
  have hmodel := mbx_answers (body := bodyCanTx) (len := lenCanTx) htakes (by decide)
    (bodyCanTx_queues (by decide) (by decide) (by decide) (by decide) (by decide) (by decide))
  have hsame := congrArg State.bus (Host.Outcome.next.inj (hmodel.symm.trans hclaim))
  rw [(quiet_finish _ _ _ _ _).bus, (quiet_finish _ _ _ _ _).bus] at hsame
  have hrun := congrArg (fun b : Bus => ((b.can.getD 0 {}).bufs.getD 0 {}).run) hsame
  exact absurd hrun (by decide)

/-! ## UART_RX_READ (R439) -/

/-- A manager in RUN, each UART's ring with one record, of SEQ 5, and 0 as the next SEQ. -/
def skippedUart : State where
  variant := .MA
  rst := { life := .run }
  mem := { role := .active }
  bus := { uart := List.replicate 8 { ring := [{ seq := 5 }] } }

/-- UART_RX_READ of UART 0 from SEQ 5. -/
def readSeqFive : Req where
  path := .slot 0
  payload := [0, 0, 5, 0]

/-- UART_RX_READ from the one record of a ring: the record's own SEQ is the newest. -/
theorem bodyUartRxRead_one {r : Req} {x : SentRec} {s : State} (hi : u8 r.payload 0 < 8) (hring : (uartOf s (u8 r.payload 0)).ring = [x])
    (hseq : u16 r.payload 2 = x.seq.toNat) :
    bodyUartRxRead r s = .done .ok (leBytes 2 x.seq.toNat ++ leBytes 6 1 ++ sentRecBytes x) s := by
  have hstart : BitVec.ofNat 16 (u16 r.payload 2) = x.seq := by rw [hseq, BitVec.ofNat_toNat, BitVec.setWidth_eq]
  have hone : ringFrom 128 SentRec.seq [x] x.seq = some [x] := by simp [ringFrom]
  have htake : [x].take (if r.dma.isSome then 128 else 2) = [x] := by split <;> rfl
  unfold bodyUartRxRead
  extract_lets i u
  have hu : u = uartOf s i := if_pos hi
  rw [if_neg (by omega), if_neg (by omega), if_pos hi, hu, hring, hstart, ringAnswer, hone]
  dsimp only
  rw [htake]
  simp [give]

/-- Refutes O32: the newest SEQ that UART_RX_READ answers is that of the newest record (R439), here 5, and not the one before the next
SEQ, here 65535. -/
theorem not_serialPorts : ¬ Obligations.SerialPorts := by
  unfold Obligations.SerialPorts
  rintro ⟨-, -, hread, -⟩
  have htakes : ∀ pay, Takes 0x070A readSeqFive pay skippedUart := fun pay =>
    ⟨by decide, by decide, .inr (by decide), nofun⟩
  have hclaim := hread readSeqFive { seq := 5 } skippedUart (htakes _) (by decide) (by decide) (by decide) (by decide)
  have hmodel := mbx_answers (body := bodyUartRxRead) (len := exactly 4) (htakes _) (by decide)
    (bodyUartRxRead_one (x := { seq := 5 }) (by decide) (by decide) (by decide))
  have hsame := congrArg (fun t : State => Memory.read t.hif.ram (slotAddr 0 + 16)) (Host.Outcome.next.inj (hmodel.symm.trans hclaim))
  exact absurd hsame (by decide +kernel)

end Sys2Proof.Machine
end

section
/-! SUPPORT. What latching a cause writes: of the safety controller, the analog outputs and the loop contexts. -/

namespace Sys2Proof.Machine

/-! ## What leaves the configuration, the safety controller, the analog outputs and the contexts alone -/

structure KeepsIo (s t : State) : Prop where
  cfg : t.cfg = s.cfg
  safe : t.safe = s.safe
  ao : t.ao = s.ao
  ctx : t.loop.ctx = s.loop.ctx

theorem KeepsIo.refl (s : State) : KeepsIo s s := ⟨rfl, rfl, rfl, rfl⟩

theorem KeepsIo.trans {s t u : State} (h : KeepsIo s t) (k : KeepsIo t u) : KeepsIo s u :=
  ⟨k.cfg.trans h.cfg, k.safe.trans h.safe, k.ao.trans h.ao, k.ctx.trans h.ctx⟩

theorem KeepsIo.of_quiet {s t : State} (h : Quiet s t) : KeepsIo s t :=
  ⟨h.cfg, h.safe, h.ao, by have hl := congrArg Loop.ctx h.loop; exact hl⟩

theorem KeepsIo.ite {c : Prop} [Decidable c] {s t u : State} (h : KeepsIo s t) (k : KeepsIo s u) : KeepsIo s (if c then t else u) := by
  split <;> assumption

theorem keepsIo_event (code sev : Nat) (ps : List Nat) (s : State) : KeepsIo s (event code sev ps s) := .of_quiet (quiet_event _ _ _ s)

theorem quiet_irqChange (s0 s : State) : Quiet s (irqChange s0 s) := by
  unfold irqChange
  extract_lets s1
  have h1 : Quiet s s1 := .ite (quiet_raiseIrq 3 s) (.refl s)
  exact .ite (h1.trans (quiet_raiseIrq 4 s1)) h1

theorem keepsIo_setRole (r : Role) (s : State) : KeepsIo s (setRole r s) := by
  have h := KeepsIo.of_quiet (quiet_irqChange s { s with mem := { s.mem with role := r } })
  exact ⟨h.cfg, h.safe, h.ao, h.ctx⟩

theorem keepsIo_abandonSwap (reason : Nat) (s : State) : KeepsIo s (abandonSwap reason s) := by
  unfold abandonSwap
  split
  · have h := keepsIo_event 0x0C27 2 [s.brd.swapTarget, reason] { s with brd := { s.brd with swapOn := false, swapAt := 0, swapTarget := 0xFF } }
    exact ⟨h.cfg, h.safe, h.ao, h.ctx⟩
  · exact .refl s

theorem keepsIo_undoCommit (s : State) : KeepsIo s (undoCommit s) := by
  unfold undoCommit
  split
  · exact .refl s
  · exact ⟨rfl, rfl, rfl, rfl⟩

theorem keepsIo_dropOpen (s : State) : KeepsIo s (dropOpen s) := by
  obtain ⟨hcfg, hsafe, hao, hctx⟩ := keepsIo_undoCommit s
  exact ⟨hcfg, hsafe, hao, hctx⟩

/-- A manager that falls silent stops its fourth reaction counter, and leaves the rest of the safety controller (R346). -/
theorem keepsIo_goSilent (cause : Nat) (s : State) : ∃ k, (k = s.safe.counters ∨ k = s.safe.counters &&& 7) ∧
    KeepsIo { s with safe := { s.safe with counters := k } } (goSilent cause s) := by
  unfold goSilent
  extract_lets x s1 s2 y z s3
  split
  case isFalse => exact ⟨_, .inl rfl, .refl s⟩
  have h1 : KeepsIo s s1 := keepsIo_setRole .silent s
  have h2 : KeepsIo s s2 := .ite (h1.trans (keepsIo_abandonSwap 0 s1)) h1
  refine ⟨_, .inr rfl, KeepsIo.trans (t := s3) ?_ ((KeepsIo.of_quiet (quiet_sendMember _ _)).trans (keepsIo_event _ _ _ _))⟩
  obtain ⟨hcfg, hsafe, hao, hctx⟩ := keepsIo_dropOpen { s2 with
    mem := { s2.mem with takeover := none }, safe := { s2.safe with counters := s2.safe.counters &&& 7 } }
  exact ⟨hcfg.trans h2.cfg, hsafe.trans (by rw [h2.safe]), hao.trans h2.ao, hctx.trans h2.ctx⟩

/-! ## One loop context changed (R277, R285, R288, R291) -/

theorem ctxOf_updCtx_same {n : Nat} (f : Ctx → Ctx) {s : State} (h : n < s.loop.ctx.length) : ctxOf (updCtx n f s) n = f (ctxOf s n) := by
  rw [ctxOf_updCtx, if_pos ⟨rfl, h⟩]

theorem ctxOf_congr {s t : State} (h : t.loop.ctx = s.loop.ctx) (n : Nat) : ctxOf t n = ctxOf s n := by simp only [ctxOf, h]

/-- Of configuration, safety controller, analog outputs and contexts only context `n` differs. -/
structure OneCtx (n : Nat) (s t : State) : Prop where
  cfg : t.cfg = s.cfg
  safe : t.safe = s.safe
  ao : t.ao = s.ao
  length : t.loop.ctx.length = s.loop.ctx.length
  other : ∀ m, m ≠ n → ctxOf t m = ctxOf s m

theorem OneCtx.of_keepsIo {n : Nat} {s t : State} (h : KeepsIo s t) : OneCtx n s t :=
  ⟨h.cfg, h.safe, h.ao, congrArg List.length h.ctx, fun m _ => ctxOf_congr h.ctx m⟩

theorem OneCtx.refl (n : Nat) (s : State) : OneCtx n s s := .of_keepsIo (.refl s)

theorem OneCtx.trans {n : Nat} {s t u : State} (h : OneCtx n s t) (k : OneCtx n t u) : OneCtx n s u :=
  ⟨k.cfg.trans h.cfg, k.safe.trans h.safe, k.ao.trans h.ao, k.length.trans h.length, fun m hm => (k.other m hm).trans (h.other m hm)⟩

theorem oneCtx_updCtx (n : Nat) (f : Ctx → Ctx) (s : State) : OneCtx n s (updCtx n f s) :=
  ⟨rfl, rfl, rfl, upd_length _ _ _, fun m hm => by rw [ctxOf_updCtx, if_neg fun h => hm h.1.symm]⟩

theorem oneCtx_putCoef (n idx : Nat) (v : Int) (sh : Nat) (s : State) : OneCtx n s (putCoef n idx v sh s) :=
  (oneCtx_updCtx n _ s).trans (.of_keepsIo (keepsIo_event _ _ _ _))

theorem oneCtx_applyWrites (n : Nat) (s : State) : OneCtx n s (applyWrites n s) :=
  List.foldlRecOn (motive := OneCtx n s) _ _ (oneCtx_updCtx n _ s) fun t ht _ _ => ht.trans (oneCtx_putCoef n _ _ _ t)

theorem oneCtx_ctxState (n st cause : Nat) (s : State) : OneCtx n s (ctxState n st cause s) := by
  unfold ctxState
  extract_lets c s1
  have h1 : OneCtx n s s1 := (oneCtx_updCtx n _ s).trans (.of_keepsIo (keepsIo_event _ _ _ _))
  split
  · exact .refl n s
  · split
    · exact h1.trans (oneCtx_applyWrites n s1)
    · exact h1

theorem oneCtx_disableCtx (n cause : Nat) (s : State) : OneCtx n s (disableCtx n cause s) := by
  unfold disableCtx
  extract_lets c pk s1
  split
  · exact oneCtx_ctxState n 1 cause s
  · split
    · split <;> exact (oneCtx_updCtx n _ s).trans (oneCtx_ctxState n _ cause s1)
    · exact .refl n s

theorem oneCtx_suppressCtx (n : Nat) (s : State) : OneCtx n s (suppressCtx n s) := by
  unfold suppressCtx
  extract_lets l s1
  have h1 : OneCtx n s s1 := (oneCtx_disableCtx n 4 s).trans (oneCtx_updCtx n _ _)
  split
  · exact h1.trans (.of_keepsIo ⟨rfl, rfl, rfl, rfl⟩)
  · exact h1

theorem ctxOf_suppressCtx {n : Nat} {s : State} (h : n < s.loop.ctx.length) :
    (ctxOf (suppressCtx n s) n).armed = false ∧ (ctxOf (suppressCtx n s) n).suppressed = true := by
  have hlen : n < (disableCtx n 4 s).loop.ctx.length := by rwa [(oneCtx_disableCtx n 4 s).length]
  have hctx : (suppressCtx n s).loop.ctx = (updCtx n (fun c => { c with armed := false, suppressed := true }) (disableCtx n 4 s)).loop.ctx := by
    unfold suppressCtx
    extract_lets l s1
    split <;> rfl
  rw [ctxOf_congr hctx, ctxOf_updCtx_same _ hlen]
  exact ⟨rfl, rfl⟩

/-- The contexts of a list suppressed: of what `KeepsIo` names only contexts change, and each of the list ends unarmed and suppressed. -/
theorem suppressAll (ns : List Nat) (s : State) :
    let t := ns.foldl (fun t n => suppressCtx n t) s
    t.cfg = s.cfg ∧ t.safe = s.safe ∧ t.ao = s.ao ∧ ∀ c < s.loop.ctx.length,
      c ∈ ns ∨ (ctxOf s c).armed = false ∧ (ctxOf s c).suppressed = true → (ctxOf t c).armed = false ∧ (ctxOf t c).suppressed = true := by
  induction ns generalizing s with
  | nil => exact ⟨rfl, rfl, rfl, fun c _ h => h.resolve_left List.not_mem_nil⟩
  | cons n ns ih =>
    obtain ⟨hcfg, hsafe, hao, hctx⟩ := ih (suppressCtx n s)
    have h1 := oneCtx_suppressCtx n s
    refine ⟨hcfg.trans h1.cfg, hsafe.trans h1.safe, hao.trans h1.ao, fun c hc hsup => hctx c (by rwa [h1.length]) ?_⟩
    by_cases hn : c = n
    · exact .inr (hn ▸ ctxOf_suppressCtx (hn ▸ hc))
    · rw [h1.other c hn]
      exact hsup.imp_left fun hmem => (List.mem_cons.mp hmem).resolve_left hn

/-! ## Entering the safe state (R134, R291, R300) -/

theorem gloveSettle_safe (s : State) : ∃ w f, (gloveSettle s).safe = { s.safe with gloveWait := w, gloveFrom := f } := by
  unfold gloveSettle
  split <;> exact ⟨_, _, rfl⟩

/-- Of the safety controller, what a latched cause never writes. -/
def Safe.still (x : Safe) : Safe :=
  { x with causes := 0, firstCause := 0, gateA := 0, gateB := 0, outs := 0, sofb := 0, glove := [], gloveWait := false, gloveFrom := 0, counters := 0 }

/-- The safety controller, the analog outputs and the CMD_PATH contexts once the first cause is latched. -/
structure SafeEntered (s t : State) : Prop where
  cfg : t.cfg = s.cfg
  causes : t.safe.causes = s.safe.causes
  firstCause : t.safe.firstCause = s.safe.firstCause
  counters : t.safe.counters = s.safe.counters
  still : t.safe.still = s.safe.still
  outs : t.safe.outs = 0
  phase : ∀ m, (gloveOf t m).phase = 0
  ao : ∀ o, (aoCfg s o).en = true → (aoOf t o).code = 0
  ctx : s.loop.ctx.length = 128 → ∀ c ∈ cmdPaths s, (ctxOf t c).armed = false ∧ (ctxOf t c).suppressed = true

/-- An analog output where the safe state drives it: an enabled one at code zero. -/
def zeroedAo (s : State) (x : Ao × Nat) : Ao := if (s.cfg.ao.getD x.2 {}).en then { x.1 with code := 0, written := 0 } else x.1

theorem zeroedAo_code (s : State) (o : Nat) (hen : (aoCfg s o).en = true) : ((s.ao.zipIdx.map (zeroedAo s)).getD o {}).code = 0 := by
  simp only [aoCfg] at hen
  rw [List.getD_eq_getElem?_getD, List.getElem?_map, List.getElem?_zipIdx]
  cases s.ao[o]? with
  | none => rfl
  | some a =>
    simp only [Option.map_some, Nat.zero_add, zeroedAo, hen, if_true, Option.getD_some]

theorem phase_of_ended (l : List Glove) (m : Nat) : ((l.map fun (g : Glove) => { g with phase := 0 }).getD m {}).phase = 0 := by
  rw [List.getD_eq_getElem?_getD, List.getElem?_map]
  cases l[m]? <;> rfl

theorem endPulses_safe (s : State) : ∃ w f, (endPulses s).safe = { s.safe with
    glove := s.safe.glove.map fun g => { g with phase := 0 }, gloveWait := w, gloveFrom := f } := gloveSettle_safe _

theorem endPulses_keeps (s : State) : (endPulses s).cfg = s.cfg ∧ (endPulses s).loop = s.loop ∧ (endPulses s).ao = s.ao := by
  unfold endPulses gloveSettle
  split <;> exact ⟨rfl, rfl, rfl⟩

theorem safeEntered_enterSafe (s : State) : SafeEntered s (enterSafe s) := by
  unfold enterSafe
  extract_lets src s1
  obtain ⟨w, f, h1⟩ : ∃ w f, s1.safe = { (setOuts 0 s).safe with
      glove := s.safe.glove.map fun g => { g with phase := 0 }, gloveWait := w, gloveFrom := f } := endPulses_safe _
  have hsame : s1.cfg = s.cfg ∧ s1.loop = s.loop ∧ s1.ao = s.ao.zipIdx.map (zeroedAo s) := endPulses_keeps _
  obtain ⟨hcfg1, hloop1, hao1⟩ := hsame
  obtain ⟨hcfg, hsafe, hao, hctx⟩ := suppressAll (cmdPaths s1) s1
  constructor
  case cfg => exact hcfg.trans hcfg1
  case causes => rw [hsafe, h1]; rfl
  case firstCause => rw [hsafe, h1]; rfl
  case counters => rw [hsafe, h1]; rfl
  case still => rw [hsafe, h1]; rfl
  case outs => rw [hsafe, h1]; exact BitVec.and_self
  case phase => intro m; rw [gloveOf, hsafe, h1]; exact phase_of_ended _ m
  case ao => intro o hen; rw [aoOf, hao, hao1]; exact zeroedAo_code s o hen
  case ctx =>
    intro hlen c hc
    have hpaths : cmdPaths s1 = cmdPaths s := by simp only [cmdPaths, hcfg1]
    refine hctx c ?_ (.inl (hpaths ▸ hc))
    rw [hloop1, hlen]
    exact List.mem_range.mp (List.mem_filter.mp hc).1

/-! ## Latching a cause (R300 to R302) -/

/-- Latched already, a cause changes nothing. -/
theorem latchCause_of_latched {n : Nat} {s : State} (h : s.safe.causes.getLsbD n = true) : latchCause n s = s := if_pos h

/-- A cause that is not latched: noted, with the safe state entered where it is the first, then an event and the silence of a manager. -/
theorem latchCause_new {n : Nat} {s : State} (h : s.safe.causes.getLsbD n = false) : ∃ s1 k,
    s1 = { s with safe := { s.safe with
      causes := s.safe.causes ||| BitVec.ofNat 16 (2 ^ n), firstCause := if s.safe.causes = 0 then n + 1 else s.safe.firstCause } } ∧
    (k = s.safe.counters ∨ k = s.safe.counters &&& 7) ∧
    ∃ s2, s2 = (if s.safe.causes = 0 then enterSafe s1 else s1) ∧ KeepsIo { s2 with safe := { s2.safe with counters := k } } (latchCause n s) := by
  unfold latchCause
  extract_lets safe s1 s2 s3 s4
  rw [if_neg (Bool.eq_false_iff.mp h)]
  have h3 : KeepsIo s2 s4 := by
    have hirq : KeepsIo s2 s3 := .of_quiet (quiet_irqChange s s2)
    exact .ite (hirq.trans (keepsIo_event _ _ _ _)) hirq
  have hc : s2.safe.counters = s.safe.counters := by
    unfold s2
    split
    · exact (safeEntered_enterSafe s1).counters
    · rfl
  by_cases hn : n ≠ 0
  · obtain ⟨k, hk, hsil⟩ := keepsIo_goSilent (if n = 15 then s.safe.silentCause else 0) s4
    rw [h3.safe, hc] at hk
    rw [if_pos hn]
    refine ⟨s1, k, rfl, hk, s2, rfl, hsil.cfg.trans h3.cfg, hsil.safe.trans ?_, hsil.ao.trans h3.ao, hsil.ctx.trans h3.ctx⟩
    show { s4.safe with counters := k } = { s2.safe with counters := k }
    rw [h3.safe]
  · rw [if_neg hn]
    refine ⟨s1, s.safe.counters, rfl, .inl rfl, s2, rfl, ?_⟩
    rw [← hc]
    exact h3

section
variable (n : Nat) (s : State)

@[simp] theorem latchCause_cfg : (latchCause n s).cfg = s.cfg := by
  cases h : s.safe.causes.getLsbD n with
  | true => rw [latchCause_of_latched h]
  | false =>
    obtain ⟨s1, k, hs1, -, s2, hs2, hkeep⟩ := latchCause_new h
    have hcfg1 : s1.cfg = s.cfg := by rw [hs1]
    refine Eq.trans (hkeep.cfg.trans ?_) hcfg1
    change s2.cfg = s1.cfg
    rw [hs2]
    split
    · exact (safeEntered_enterSafe s1).cfg
    · rfl

/-- Clocks, rails, temperature, pairs, input levels and the rest that a latched cause never writes. -/
theorem latchCause_still : (latchCause n s).safe.still = s.safe.still := by
  cases h : s.safe.causes.getLsbD n with
  | true => rw [latchCause_of_latched h]
  | false =>
    obtain ⟨s1, k, hs1, -, s2, hs2, hkeep⟩ := latchCause_new h
    have h2 : s2.safe.still = s1.safe.still := by
      rw [hs2]
      split
      · exact (safeEntered_enterSafe s1).still
      · rfl
    rw [hkeep.safe]
    exact h2.trans (by rw [hs1]; rfl)

theorem latchCause_counters : (latchCause n s).safe.counters = s.safe.counters ∨ (latchCause n s).safe.counters = s.safe.counters &&& 7 := by
  cases h : s.safe.causes.getLsbD n with
  | true => exact .inl (by rw [latchCause_of_latched h])
  | false =>
    obtain ⟨s1, k, -, hk, s2, -, hkeep⟩ := latchCause_new h
    rw [hkeep.safe]
    exact hk

/-- A pulse that is not in progress stays so. -/
theorem latchCause_phase {m : Nat} (hm : (gloveOf s m).phase = 0) : (gloveOf (latchCause n s) m).phase = 0 := by
  cases h : s.safe.causes.getLsbD n with
  | true => rwa [latchCause_of_latched h]
  | false =>
    obtain ⟨s1, k, hs1, -, s2, hs2, hkeep⟩ := latchCause_new h
    have h2 : (gloveOf s2 m).phase = 0 := by
      rw [hs2]
      split
      · exact (safeEntered_enterSafe s1).phase m
      · rw [hs1]; exact hm
    rw [gloveOf, hkeep.safe]
    exact h2

end

theorem or_two_pow_of_getLsbD {n w : Nat} {x : BitVec w} (h : x.getLsbD n = true) : x ||| BitVec.ofNat w (2 ^ n) = x := by
  refine BitVec.eq_of_getLsbD_eq fun i hi => ?_
  rw [BitVec.getLsbD_or, BitVec.getLsbD_ofNat]
  by_cases hin : n = i
  · rw [← hin, h, Bool.true_or]
  · rw [Nat.testBit_two_pow_of_ne hin, Bool.and_false, Bool.or_false]

/-- Settles O34: the first cause enters the safe state, and a later one is only noted. -/
theorem causeLatched : Obligations.CauseLatched := by
  unfold Obligations.CauseLatched
  refine ⟨fun n s hn hzero hlen => ?_, fun n s hn hcauses => ?_⟩
  · obtain ⟨s1, k, hs1, -, s2, hs2, hkeep⟩ := latchCause_new (n := n) (s := s) (by rw [hzero]; exact BitVec.getLsbD_zero)
    rw [if_pos hzero] at hs2
    have hin := safeEntered_enterSafe s1
    rw [← hs2] at hin
    have hcauses : (latchCause n s).safe.causes = BitVec.ofNat 16 (2 ^ n) := by
      rw [hkeep.safe]
      exact hin.causes.trans (by rw [hs1, hzero]; exact BitVec.zero_or)
    have hcfg1 : s1.cfg = s.cfg := by rw [hs1]
    refine ⟨hcauses, ?_, ?_, ?_, fun o _ hen => ?_, fun c hc => ?_⟩
    · rw [hkeep.safe]
      exact hin.firstCause.trans (by rw [hs1]; exact if_pos hzero)
    · have hbit : (latchCause n s).safe.causes ≠ 0 := fun h0 => by
        have hset := latchCause_latches hn s
        rw [h0] at hset
        exact Bool.false_ne_true (BitVec.getLsbD_zero.symm.trans hset)
      simpa [State.isSafe] using hbit
    · rw [hkeep.safe]; exact hin.outs
    · rw [aoOf, hkeep.ao]
      exact hin.ao o (by simpa [aoCfg, hcfg1] using hen)
    · rw [hkeep.ctx]
      exact hin.ctx (by rw [hs1]; exact hlen) c (by simpa [cmdPaths, hcfg1] using hc)
  · cases h : s.safe.causes.getLsbD n with
    | true =>
      rw [latchCause_of_latched h]
      exact ⟨(or_two_pow_of_getLsbD h).symm, rfl, rfl⟩
    | false =>
      obtain ⟨s1, k, hs1, -, s2, hs2, hkeep⟩ := latchCause_new h
      rw [if_neg hcauses] at hs2
      rw [hkeep.safe, hs2, hs1]
      exact ⟨rfl, if_neg hcauses, rfl⟩

end Sys2Proof.Machine
end

section
/-! SUPPORT. Outputs that follow a mask, the monitors and reaction counters, safety outputs and inputs. -/

namespace Sys2Proof.Machine

/-! ## Masks of outputs -/

/-- The number with the bits below `n` that `p` keeps. -/
theorem foldl_two_pow_testBit (p : Nat → Bool) (n : Nat) :
    (List.range n).foldl (fun (b : Nat) i => if p i then b + 2 ^ i else b) 0 < 2 ^ n ∧
      ∀ i < n, ((List.range n).foldl (fun (b : Nat) i => if p i then b + 2 ^ i else b) 0).testBit i = p i := by
  induction n with
  | zero => exact ⟨Nat.one_pos, fun i hi => absurd hi (Nat.not_lt_zero i)⟩
  | succ n ih =>
    obtain ⟨hlt, hbit⟩ := ih
    rw [List.range_succ, List.foldl_append, List.foldl_cons, List.foldl_nil]
    set b := (List.range n).foldl (fun (b : Nat) i => if p i then b + 2 ^ i else b) 0
    have hpow : 2 ^ (n + 1) = 2 ^ n + 2 ^ n := by omega
    refine ⟨by split <;> omega, fun i hi => ?_⟩
    have hn : b.testBit n = false := Nat.testBit_lt_two_pow hlt
    rcases Nat.lt_succ_iff_lt_or_eq.mp hi with hlow | rfl
    · rw [← hbit i hlow]
      split
      · rw [Nat.add_comm, Nat.testBit_two_pow_add_gt hlow]
      · rfl
    · cases hp : p i with
      | true => rw [if_pos rfl, Nat.add_comm, Nat.testBit_two_pow_add_eq, hn, Bool.not_false]
      | false => rw [if_neg Bool.false_ne_true, hn]

theorem outMask_getLsbD (p : Nat → Bool) {o : Nat} (ho : o < 16) : (outMask p).getLsbD o = p o := by
  rw [outMask, BitVec.getLsbD_ofNat, (foldl_two_pow_testBit p 16).2 o ho, decide_eq_true ho, Bool.true_and]

/-- The outputs brought to what is asked for, and no cause, trip or input changed (R308, R309). -/
theorem driveOutputs_safe (s : State) : (∀ o < 16, (driveOutputs s).safe.outs.getLsbD o = outWanted s o) ∧
    (driveOutputs s).safe.causes = s.safe.causes ∧ (driveOutputs s).safe.groupTrip = s.safe.groupTrip := by
  unfold driveOutputs
  extract_lets want go s1 src
  obtain ⟨w, f, hsettle⟩ := gloveSettle_safe { s1 with safe := { s1.safe with glove := s.safe.glove.zipIdx.map go } }
  rw [hsettle]
  refine ⟨fun o ho => ?_, rfl, rfl⟩
  show (BitVec.ofNat 16 want &&& BitVec.ofNat 16 want).getLsbD o = _
  rw [BitVec.and_self, BitVec.getLsbD_ofNat, decide_eq_true ho, Bool.true_and]
  exact (foldl_two_pow_testBit (outWanted s) 16).2 o ho

@[simp] theorem gloveSettle_cfg (s : State) : (gloveSettle s).cfg = s.cfg := by
  unfold gloveSettle
  split <;> rfl

@[simp] theorem driveOutputs_cfg (s : State) : (driveOutputs s).cfg = s.cfg := gloveSettle_cfg _

theorem gloveSettle_of_not_waiting {s : State} (h : s.safe.gloveWait = false) : gloveSettle s = s := by
  rw [gloveSettle, h]
  rfl

/-! ## Clock, supply, temperature and half monitors (R55, R62, Table 9.1) -/

section
variable (n : Nat) (s : State)

theorem latchCause_clockBad : (latchCause n s).safe.clockBad = s.safe.clockBad := by have h := congrArg Safe.clockBad (latchCause_still n s); exact h
theorem latchCause_railBad : (latchCause n s).safe.railBad = s.safe.railBad := by have h := congrArg Safe.railBad (latchCause_still n s); exact h
theorem latchCause_railNot4 : (latchCause n s).safe.railNot4 = s.safe.railNot4 := by have h := congrArg Safe.railNot4 (latchCause_still n s); exact h
theorem latchCause_celsius : (latchCause n s).safe.celsius = s.safe.celsius := by have h := congrArg Safe.celsius (latchCause_still n s); exact h
theorem latchCause_halvesAgree : (latchCause n s).safe.halvesAgree = s.safe.halvesAgree := by
  have h := congrArg Safe.halvesAgree (latchCause_still n s); exact h
theorem latchCause_silentCause : (latchCause n s).safe.silentCause = s.safe.silentCause := by
  have h := congrArg Safe.silentCause (latchCause_still n s); exact h
theorem latchCause_siLevels : (latchCause n s).safe.siLevels = s.safe.siLevels := by have h := congrArg Safe.siLevels (latchCause_still n s); exact h
theorem latchCause_pairs : (latchCause n s).safe.pairs = s.safe.pairs := by have h := congrArg Safe.pairs (latchCause_still n s); exact h

/-- A reaction counter that does not run is not started by a cause. -/
theorem latchCause_counter_stopped {k : Nat} (h : s.safe.counters.getLsbD k = false) : (latchCause n s).safe.counters.getLsbD k = false := by
  rcases latchCause_counters n s with hc | hc <;> rw [hc]
  · exact h
  · rw [BitVec.getLsbD_and, h, Bool.false_and]

end

theorem unclocked_eq_false {d : Fin 17} {s : State} (h : s.variant = .WK → d.val ∉ [2, 3, 9, 11, 15]) : unclocked s d = false := by
  unfold unclocked
  by_cases hv : s.variant = .WK
  · have hd : [2, 3, 9, 11, 15].contains d.val = false := by simpa using h hv
    rw [hd, Bool.and_false]
  · rw [decide_eq_false hv, Bool.false_and]

theorem exec_clockFault {d : Fin 17} {s : State} (ok : Bool) (h : unclocked s d = false) : exec (.clockFault d ok) s =
    .next (if ok then updSafe (fun x => { x with clockBad := x.clockBad &&& ~~~(BitVec.ofNat 17 (2 ^ d.val)) }) s
      else latchCause 7 (updSafe (fun x => { x with clockBad := x.clockBad ||| BitVec.ofNat 17 (2 ^ d.val) }) s)) := by
  show execClockFault d ok s = _
  unfold execClockFault
  rw [if_neg (by simp [h])]
  cases ok
  · simp only [Bool.false_eq_true, if_false]
  · simp only [if_true]

/-- VDD_AO out of range with an analog output enabled, or another rail out of range. -/
theorem exec_supplyFault_outside {d : Fin 9} {s : State} (h : d ≠ 8 ∨ s.ao.any (·.powered) = true) : exec (.supplyFault d .outside5) s =
    .next (latchCause 8 (updSafe (fun x => { x with
      railBad := x.railBad ||| BitVec.ofNat 9 (2 ^ d.val), railNot4 := x.railNot4 ||| BitVec.ofNat 9 (2 ^ d.val) }) s)) := by
  show execSupplyFault d .outside5 s = _
  unfold execSupplyFault
  extract_lets m off s1
  dsimp only
  split
  next hd =>
    have hpow : s.ao.any (·.powered) = true := h.resolve_left fun hne => hne hd
    have hbad : (s1.safe.railBad.getLsbD 8 && s1.ao.any (·.powered)) = true := by
      rw [show s1.ao = s.ao from rfl, hpow, Bool.and_true]
      show (s.safe.railBad ||| BitVec.ofNat 9 (2 ^ d.val)).getLsbD 8 = true
      rw [hd, BitVec.getLsbD_or]
      exact Bool.or_true _
    rw [aoSupply, if_pos hbad]
  next => rfl

theorem exec_supplyFault_unpowered {s : State} (h : s.ao.any (·.powered) = false) : exec (.supplyFault 8 .outside5) s =
    .next { s with safe := { s.safe with railBad := s.safe.railBad ||| 0x100, railNot4 := s.safe.railNot4 ||| 0x100 } } := by
  show Host.Outcome.next (aoSupply _) = _
  rw [aoSupply, if_neg]
  · rfl
  · show ¬ (_ && s.ao.any (·.powered)) = true
    rw [h, Bool.and_false]
    exact Bool.false_ne_true

/-! ## Reaction counters (R304) -/

section
variable {s : State}

/-- The safety controller with one reaction counter stopped. -/
def stopCounter (path : Nat) (s : State) : State :=
  updSafe (fun x => { x with counters := x.counters &&& ~~~(BitVec.ofNat 4 (2 ^ path)) }) s

theorem stopCounter_counters {path : Nat} (h : path < 4) (s : State) : (stopCounter path s).safe.counters.getLsbD path = false := by
  show (s.safe.counters &&& ~~~(BitVec.ofNat 4 (2 ^ path))).getLsbD path = false
  rw [BitVec.getLsbD_and, BitVec.getLsbD_not, BitVec.getLsbD_ofNat, Nat.testBit_two_pow_self, decide_eq_true h]
  exact Bool.and_false _

theorem exec_counter_zero (h : s.safe.counters.getLsbD 0 = true) : exec (.faultReactionCounter 0) s =
    .next (setOuts (s.safe.outs &&& ~~~(outMask s.dpeOuts.contains)) (stopCounter 0 s)) := by
  show execFaultReactionCounter 0 s = _
  unfold execFaultReactionCounter
  rw [show s.safe.counters.getLsbD (0 : Fin 4).val = true from h]
  rfl

theorem exec_counter_one (h : s.safe.counters.getLsbD 1 = true) : exec (.faultReactionCounter 1) s =
    .next (updSafe (fun x => { x with gloveBad := 0 }) (setOuts (s.safe.outs &&& ~~~(gloveForced s)) (stopCounter 1 s))) := by
  show execFaultReactionCounter 1 s = _
  unfold execFaultReactionCounter
  rw [show s.safe.counters.getLsbD (1 : Fin 4).val = true from h]
  rfl

theorem exec_counter_two (h : s.safe.counters.getLsbD 2 = true) (hepochs : 1 ≤ s.safe.compareEpochs) (hlatched : s.safe.compareLatched = false) :
    exec (.faultReactionCounter 2) s = .next (latchCause 11 (stopCounter 2 s)) := by
  show execFaultReactionCounter 2 s = _
  unfold execFaultReactionCounter
  extract_lets s1
  rw [show s.safe.counters.getLsbD (2 : Fin 4).val = true from h, hlatched, if_neg (show ¬ s.safe.compareEpochs < 1 by omega)]
  rfl

theorem exec_counter_three (h : s.safe.counters.getLsbD 3 = true) (hepochs : 2 ≤ s.safe.takeoverEpochs) :
    exec (.faultReactionCounter 3) s = .next (failSilent 2 (stopCounter 3 s)) := by
  show execFaultReactionCounter 3 s = _
  unfold execFaultReactionCounter
  extract_lets s1
  rw [show s.safe.counters.getLsbD (3 : Fin 4).val = true from h, if_neg (show ¬ s.safe.takeoverEpochs < 2 by omega)]
  rfl

end

/-- Settles O39: the equation of each reading and of each counter, with what a latched cause leaves of the safety controller. -/
theorem monitors : Obligations.Monitors := by
  unfold Obligations.Monitors
  refine ⟨fun d s h => ?_, fun d s h => ?_, fun d ok s hv hd => ?_, fun d s h => ?_, fun s h => exec_supplyFault_unpowered h,
    fun d s => ⟨rfl, rfl⟩, fun c s h => ?_, fun c s h => ?_, fun s => ?_, fun s => rfl, fun s h => ?_, fun s h => ?_,
    fun s h hepochs hlatched => ?_, fun s h hepochs => ?_, fun path s h => ?_⟩
  · refine ⟨_, exec_clockFault false (unclocked_eq_false h), latchCause_latches (by decide) _, ?_, latchCause_cfg _ _⟩
    exact latchCause_clockBad _ _
  · exact exec_clockFault true (unclocked_eq_false h)
  · exact if_pos (by simp [unclocked, hv, hd])
  · refine ⟨_, exec_supplyFault_outside h, latchCause_latches (by decide) _, ?_, ?_, latchCause_cfg _ _⟩
    · exact latchCause_railBad _ _
    · exact latchCause_railNot4 _ _
  · refine ⟨latchCause 9 (updSafe (fun x => { x with celsius := c }) s), ?_, latchCause_latches (by decide) _, latchCause_celsius _ _, latchCause_cfg _ _⟩
    show Host.Outcome.next (if c > 150 then _ else _) = _
    rw [if_pos h]
  · show Host.Outcome.next (if c > 150 then _ else _) = _
    rw [if_neg (by omega)]
    rfl
  · exact ⟨_, rfl, latchCause_latches (by decide) _, latchCause_halvesAgree _ _, latchCause_cfg _ _⟩
  · refine ⟨_, exec_counter_zero h, stopCounter_counters (by decide) s, fun o ho => ?_, rfl, rfl⟩
    show ((s.safe.outs &&& _) &&& (s.safe.outs &&& _)).getLsbD o = _
    rw [BitVec.and_self, BitVec.getLsbD_and, BitVec.getLsbD_not, outMask_getLsbD _ ho, decide_eq_true ho, Bool.true_and]
  · refine ⟨_, exec_counter_one h, BitVec.and_self, rfl, stopCounter_counters (by decide) s, rfl, rfl, rfl⟩
  · refine ⟨_, exec_counter_two h hepochs hlatched, latchCause_latches (by decide) _, ?_, latchCause_cfg _ _⟩
    exact latchCause_counter_stopped 11 _ (stopCounter_counters (by decide) s)
  · refine ⟨_, exec_counter_three h hepochs, latchCause_latches (by decide) _, latchCause_silentCause _ _, ?_, latchCause_cfg _ _⟩
    exact latchCause_counter_stopped 15 _ (stopCounter_counters (by decide) s)
  · exact if_pos (by rw [h]; rfl)

/-! ## Glove pulses and readbacks (R310 to R314) -/

theorem soGroup_congr {s t : State} (h : t.cfg = s.cfg) (n : Nat) : soGroup t n = soGroup s n := by simp only [soGroup, soWord, h]

theorem gloveOf_congr {s t : State} (h : t.safe.glove = s.safe.glove) (n : Nat) : gloveOf t n = gloveOf s n := by simp only [gloveOf, h]

theorem gloveSettle_keeps (s : State) : (gloveSettle s).safe.causes = s.safe.causes ∧ (gloveSettle s).safe.glove = s.safe.glove ∧
    (gloveSettle s).safe.groupTrip = s.safe.groupTrip ∧ (gloveSettle s).safe.outs = s.safe.outs := by
  obtain ⟨w, f, h⟩ := gloveSettle_safe s
  rw [h]
  exact ⟨rfl, rfl, rfl, rfl⟩

/-- The state in which the failure of a pulse on output `n` is judged: its pulse ended, the second counter running, event 0x0912. -/
def pulseFailed (n window : Nat) (s : State) : State :=
  event 0x0912 4 [n, soGroup s n, window] (updSafe (fun x => { x with
    counters := x.counters ||| 2, gloveBad := x.gloveBad ||| BitVec.ofNat 16 (2 ^ n) }) (updGlove n (fun g => { g with phase := 0 }) s))

theorem pulseFailed_cfg (n window : Nat) (s : State) : (pulseFailed n window s).cfg = s.cfg := event_cfg _ _ _ _
theorem pulseFailed_causes (n window : Nat) (s : State) : (pulseFailed n window s).safe.causes = s.safe.causes := by
  rw [pulseFailed, event_safe]
  rfl

theorem pulseFailed_phase (n window : Nat) (s : State) : (gloveOf (pulseFailed n window s) n).phase = 0 := by
  have hglove : (pulseFailed n window s).safe.glove = (updGlove n (fun g => { g with phase := 0 }) s).safe.glove := by
    rw [pulseFailed, event_safe]
    rfl
  rw [gloveOf_congr hglove, gloveOf_updGlove]
  split
  · rfl
  next h =>
    have hout : s.safe.glove.length ≤ n := Nat.not_lt.mp fun hlt => h ⟨rfl, hlt⟩
    rw [gloveOf, List.getD_eq_default _ _ hout]

theorem gloveFail_of_group_zero {n : Nat} {s : State} (window : Nat) (h : soGroup s n = 0) :
    gloveFail n window s = latchCause 2 (pulseFailed n window s) :=
  if_pos ((soGroup_congr (pulseFailed_cfg n window s) n).trans h)

theorem gloveFail_of_group {n : Nat} {s : State} (window : Nat) (h : soGroup s n ≠ 0) :
    gloveFail n window s = tripGroup n 0 (pulseFailed n window s) :=
  if_neg fun h0 => h ((soGroup_congr (pulseFailed_cfg n window s) n).symm.trans h0)

/-- A tripped group: its bit set, its outputs off, no cause latched (R313). -/
theorem tripGroup_facts {n : Nat} (cause : Nat) {s : State} (h : soGroup s n ≠ 0) :
    (tripGroup n cause s).safe.groupTrip.getLsbD (soGroup s n - 1) = true ∧ (tripGroup n cause s).safe.causes = s.safe.causes ∧
      ∀ o < 16, soGroup s o = soGroup s n → (tripGroup n cause s).safe.outs.getLsbD o = false := by
  unfold tripGroup
  extract_lets g
  rw [event_safe]
  set u := updSafe (fun x => { x with groupTrip := x.groupTrip ||| BitVec.ofNat 3 (2 ^ (g - 1)) }) s with hu
  obtain ⟨houts, hcauses, htrip⟩ := driveOutputs_safe u
  have hg4 : g < 4 := Nat.mod_lt _ (by decide)
  have hbit : u.safe.groupTrip.getLsbD (g - 1) = true := by
    show (s.safe.groupTrip ||| BitVec.ofNat 3 (2 ^ (g - 1))).getLsbD (g - 1) = true
    rw [BitVec.getLsbD_or, BitVec.getLsbD_ofNat, Nat.testBit_two_pow_self, decide_eq_true (show g - 1 < 3 by omega)]
    exact Bool.or_true _
  refine ⟨by rw [htrip]; exact hbit, hcauses, fun o ho hgo => ?_⟩
  rw [houts o ho]
  have hgo' : fld (u.cfg.so.getD o 0) 4 2 = g := hgo
  unfold outWanted
  dsimp only
  rw [hgo', hbit, decide_eq_true h]
  rfl

section
variable {out : Fin 16} {s : State}

theorem exec_glovePulseStart {t : Nat} (hon : s.safe.outs.getLsbD out = true) (hglove : fld (soWord s out) 6 1 = 1)
    (hinstant : pulseInstant s out = some t) (hsince : (gloveOf s out).onSince + 10000000 ≤ t) (hwait : s.safe.gloveWait = false)
    (hfrom : s.safe.gloveFrom ≤ t) (hphase : (gloveOf s out).phase = 0) (hat : (gloveOf s out).pulseAt ≠ some t) :
    exec (.glovePulseStart out) s =
      .next (updGlove out (fun g => { g with phase := 1, pulseAt := some t, pulseUs := fld s.cfg.safeGlobal 32 16 }) s) := by
  show Host.Outcome.next (beginPulse out (pulseInstant s out) s) = _
  have hmay : pulseMay s out t = true := by simp [pulseMay, hon, hglove, hsince, hwait, hfrom, hphase, hat]
  rw [hinstant, beginPulse]
  exact congrArg Host.Outcome.next (if_pos hmay)

theorem exec_gloveOffWindowEnd {low high : Bool} (hphase : (gloveOf s out).phase = 1) (hus : 150 ≤ (gloveOf s out).pulseUs) :
    exec (.gloveOffWindowEnd out ⟨low, high⟩) s = if ((low && !readsOn s out false) || (high && !readsOn s out true)) = true then
      .next (updGlove out (fun g => { g with phase := g.phase + 1 }) s) else .next (gloveSettle (gloveFail out 0 s)) := by
  refine if_neg ?_
  simp [hphase, Nat.not_lt.mpr hus]

theorem exec_glovePulseEnd (hphase : (gloveOf s out).phase = 2) (hus : 150 ≤ (gloveOf s out).pulseUs) :
    exec (.glovePulseEnd out) s = .next (updGlove out (fun g => { g with phase := g.phase + 2 }) s) := by
  refine if_neg ?_
  simp [hphase, Nat.not_lt.mpr hus]

theorem exec_gloveReturnWindowEnd {high : Bool} (hphase : (gloveOf s out).phase = 4) (hwait : s.safe.gloveWait = false)
    (hon : readsOn s out high = true) : exec (.gloveReturnWindowEnd out high) s = .next (updGlove out (fun g => { g with phase := 0 }) s) := by
  show execGloveReturnWindowEnd out high s = _
  unfold execGloveReturnWindowEnd
  rw [if_neg (not_not.mpr hphase), hon, if_pos rfl]
  exact congrArg Host.Outcome.next (gloveSettle_of_not_waiting hwait)

theorem exec_staticReadbackMismatch {high : Bool} (hphase : (gloveOf s out).phase = 0) (hon : s.safe.outs.getLsbD out = true)
    (hoff : readsOn s out high = false) : ∃ u, u.cfg = s.cfg ∧ exec (.staticReadbackMismatch out high) s = .next (outputFault out 3 1 u) := by
  show ∃ u, _ ∧ execStaticReadbackMismatch out high s = _
  unfold execStaticReadbackMismatch
  extract_lets energised cmd m s1
  have hdiff : ¬ energised = cmd := by simp [energised, cmd, hoff, hon]
  rw [if_neg (not_not.mpr hphase), if_neg hdiff]
  exact ⟨_, event_cfg _ _ _ s1, rfl⟩

end

/-! ## Safety inputs (R316 to R318) -/

theorem flrTrigger_keeps (k n : Nat) (on : Bool) (s : State) :
    (flrTrigger k n on s).cfg = s.cfg ∧ (flrTrigger k n on s).safe = s.safe ∧ (flrTrigger k n on s).mem = s.mem := by
  unfold flrTrigger
  extract_lets f rise f1 f2 loop s1 s2
  split
  · exact ⟨rfl, rfl, rfl⟩
  · have h2 : s2.cfg = s.cfg ∧ s2.safe = s.safe ∧ s2.mem = s.mem := by
      unfold s2
      split
      · exact ⟨event_cfg _ _ _ s1, event_safe _ _ _ s1, event_mem _ _ _ s1⟩
      · exact ⟨rfl, rfl, rfl⟩
    exact h2

theorem flrPairs_keeps (s : State) : (flrPairs s).cfg = s.cfg ∧ (flrPairs s).safe = s.safe ∧ (flrPairs s).mem = s.mem := by
  refine List.foldlRecOn (motive := fun (t : State) => t.cfg = s.cfg ∧ t.safe = s.safe ∧ t.mem = s.mem) _ _ ⟨rfl, rfl, rfl⟩
    fun t ⟨hcfg, hsafe, hmem⟩ n _ => ?_
  split
  · extract_lets q
    split
    all_goals
      obtain ⟨hc, hs, hm⟩ := flrTrigger_keeps 0 n _ t
      exact ⟨hc.trans hcfg, hs.trans hsafe, hm.trans hmem⟩
  · exact ⟨hcfg, hsafe, hmem⟩

theorem siAlarm_keeps (n : Nat) (s : State) : (siAlarm n s).cfg = s.cfg ∧ (siAlarm n s).safe = s.safe := by
  unfold siAlarm
  split
  · exact ⟨raiseAlarm_cfg _ _ _ _ s, raiseAlarm_safe _ _ _ _ s⟩
  · exact ⟨rfl, rfl⟩

theorem latchCause_dev (n : Nat) (s : State) : (latchCause n s).dev = s.dev := by
  simp only [State.dev, (keeps_latchCause n s (keeps_refl s)).straps]

/-- A pair in a new state: what it is then, and what follows of it. -/
structure PairSet (n st : Nat) (s t : State) : Prop where
  cfg : t.cfg = s.cfg
  levels : t.safe.siLevels = s.safe.siLevels
  state : n < s.safe.pairs.length → pairState t n = st
  stop : st = 2 ∨ st = 3 → pairState s n = 1 → fld (siWord s n) 4 2 = 1 → t.safe.causes.getLsbD 4 = true
  alarm : n < s.safe.pairs.length → st = 3 → alarmOn t 0x0914 s.dev = true

theorem pairSet_setPair (n st : Nat) (s : State) : PairSet n st s (setPair n st s) := by
  unfold setPair
  extract_lets old s1 s2 s3
  have hq2 : Quiet s1 s2 := .ite (quiet_event _ _ _ s1) (.refl s1)
  have h3 : s3.cfg = s.cfg ∧ s3.safe.still = s1.safe.still ∧ s3.dev = s.dev := by
    have hdev2 : s2.dev = s.dev := by
      have h := congrArg Rst.straps hq2.rst
      simp only [State.dev]
      exact congrArg (fun x : BitVec 12 => fld x 0 6) h
    unfold s3
    split
    · have hq : Quiet s1 (event 0x091B 3 [n, st] s2) := hq2.trans (quiet_event _ _ _ s2)
      refine ⟨(latchCause_cfg _ _).trans hq.cfg, (latchCause_still _ _).trans (by rw [hq.safe]), (latchCause_dev _ _).trans ?_⟩
      have h := congrArg Rst.straps hq.rst
      exact congrArg (fun x : BitVec 12 => fld x 0 6) h
    · exact ⟨hq2.cfg, by rw [hq2.safe], hdev2⟩
  obtain ⟨hcfg3, hstill3, hdev3⟩ := h3
  obtain ⟨hcfga, hsafea⟩ := siAlarm_keeps n s3
  obtain ⟨hcfgf, hsafef, hmemf⟩ := flrPairs_keeps (siAlarm n s3)
  have hpairs : s3.safe.pairs = s.safe.pairs.set n st := by
    have h := congrArg Safe.pairs hstill3; exact h
  constructor
  case cfg => exact hcfgf.trans (hcfga.trans hcfg3)
  case levels =>
    rw [hsafef, hsafea]
    have h := congrArg Safe.siLevels hstill3
    exact h
  case state =>
    intro hn
    rw [pairState, hsafef, hsafea, hpairs, List.getD_eq_getElem _ _ (by simpa using hn), List.getElem_set_self]
  case stop =>
    intro hst hold hfunc
    rw [hsafef, hsafea]
    have hcond : ((decide (st = 2) || decide (st = 3)) && (decide (old = 0) || decide (old = 1)) && decide (fld (siWord s n) 4 2 = 1)) = true := by
      simp [hst, hfunc, show old = 1 from hold]
    rw [show s3 = latchCause 4 (event 0x091B 3 [n, st] s2) from if_pos hcond]
    exact latchCause_latches (by decide) _
  case alarm =>
    intro hn hst
    have hany : s3.safe.pairs.any (· = 3) = true := by
      rw [hpairs, List.any_eq_true]
      exact ⟨st, List.mem_set hn st, by simp [hst]⟩
    rw [alarmOn_congr (congrArg Mem.standing hmemf), siAlarm, if_pos hany, hdev3]
    exact alarmOn_raiseAlarm _ _ _ _ _

theorem exec_siChannelChange_rise {n : Fin 8} {s : State} (hstate : pairState s n = 1)
    (hhigh : s.safe.siLevels.getLsbD (2 * n + 1) = true) : exec (.siChannelChange ⟨2 * n.val, by omega⟩ true) s =
      .next (setPair n 2 (updSafe (fun x => { x with siLevels := x.siLevels ||| BitVec.ofNat 16 (2 ^ (2 * n.val)) }) s)) := by
  show execSiChannelChange ⟨2 * n.val, by omega⟩ true s = _
  unfold execSiChannelChange
  extract_lets m s1 k a b
  have hk : k = n.val := Nat.mul_div_cancel_left n.val (by decide)
  have hs1 : s1 = updSafe (fun x => { x with siLevels := x.siLevels ||| BitVec.ofNat 16 (2 ^ (2 * n.val)) }) s := rfl
  have ha : a = true := by
    show (s.safe.siLevels ||| BitVec.ofNat 16 (2 ^ (2 * n.val))).getLsbD (2 * k) = true
    rw [hk]
    exact getLsbD_or_two_pow (by omega) _
  have hb : b = true := by
    show (s.safe.siLevels ||| BitVec.ofNat 16 (2 ^ (2 * n.val))).getLsbD (2 * k + 1) = true
    rw [hk, BitVec.getLsbD_or, hhigh, Bool.true_or]
  rw [hk, hstate, ha, hb]
  rfl

/-- Settles O38: the equation of each window and readback, a tripped group, and a pair in a new state. -/
theorem safetyPins : Obligations.SafetyPins := by
  unfold Obligations.SafetyPins
  refine ⟨fun out t s hon hglove hinstant hsince hwait hfrom hphase hat =>
      exec_glovePulseStart hon hglove hinstant hsince hwait hfrom hphase hat,
    fun out low high s hphase hus hseen => ?_, fun out low high s hphase hus hgroup hseen => ?_, fun out low high s hphase hus hgroup hseen => ?_,
    fun out s hphase hus => exec_glovePulseEnd hphase hus,
    fun out high s hphase hwait hon => exec_gloveReturnWindowEnd hphase hwait hon,
    fun out high s hphase hon hgroup hoff => ?_, fun n s hlen hstate _ hhigh => ?_, fun n s hlen hstate hdiff => ?_⟩
  · rw [exec_gloveOffWindowEnd hphase hus, if_pos hseen]
  · rw [exec_gloveOffWindowEnd hphase hus, if_neg (Bool.eq_false_iff.mp hseen)]
    obtain ⟨hcauses, hglove, -, -⟩ := gloveSettle_keeps (gloveFail out 0 s)
    refine ⟨_, rfl, ?_, ?_⟩
    · rw [hcauses, gloveFail_of_group_zero 0 hgroup]
      exact latchCause_latches (by decide) _
    · rw [gloveOf_congr hglove, gloveFail_of_group_zero 0 hgroup]
      exact latchCause_phase _ _ (pulseFailed_phase out 0 s)
  · rw [exec_gloveOffWindowEnd hphase hus, if_neg (Bool.eq_false_iff.mp hseen)]
    obtain ⟨hcauses, -, htrip, houts⟩ := gloveSettle_keeps (gloveFail out 0 s)
    have hgr : ∀ o, soGroup (pulseFailed out 0 s) o = soGroup s o := soGroup_congr (pulseFailed_cfg out 0 s)
    have hfacts := tripGroup_facts (n := out) 0 (s := pulseFailed out 0 s) (by rwa [hgr])
    rw [← gloveFail_of_group 0 hgroup, pulseFailed_causes] at hfacts
    simp only [hgr] at hfacts
    refine ⟨_, rfl, ?_⟩
    rw [hcauses, htrip, houts]
    exact hfacts
  · obtain ⟨u, hcfg, hexec⟩ := exec_staticReadbackMismatch hphase hon hoff
    refine ⟨_, hexec, ?_⟩
    rw [outputFault, if_pos ((soGroup_congr hcfg out).trans hgroup)]
    exact latchCause_latches (by decide) u
  · have hset := pairSet_setPair n 2 (updSafe (fun x => { x with siLevels := x.siLevels ||| BitVec.ofNat 16 (2 ^ (2 * n.val)) }) s)
    refine ⟨_, exec_siChannelChange_rise hstate hhigh, ?_, hset.state (by show n.val < s.safe.pairs.length; omega),
      fun hfunc => hset.stop (.inl rfl) hstate hfunc, hset.cfg⟩
    rw [hset.levels]
    exact getLsbD_or_two_pow (by omega) _
  · have hexec : exec (.siDiscrepancy n) s = .next (setPair n 3 s) := if_neg (by simp [hstate, hdiff])
    have hset := pairSet_setPair n 3 s
    exact ⟨_, hexec, hset.state (by omega), hset.alarm (by omega) rfl, fun hfunc => hset.stop (.inr rfl) hstate hfunc, hset.cfg⟩

end Sys2Proof.Machine
end

section
/-! SUPPORT. A command path lost at a grid instant of a manager with an unpublished epoch (R274, R281, R301, R346, R370). -/

namespace Sys2Proof.Machine

/-- Context 0 fed by thruster 1's command, every period due, in the command path; the other contexts undefined. -/
def pathLoop : LoopCfg where
  desc := BitVec.ofNat 384 (2 ^ 80 + 2 ^ 40 + 4 * 2 ^ 32 + 2 ^ 29)

/-- The ACTIVE manager in RUN, with the commit of an epoch that is not published yet and noted a consequence analysis that fails; it
drives thruster 1, whose command path stands PARKING at its park value on the way to LOST. -/
def losingPath : State where
  variant := .MA
  rst := { life := .run, straps := 0x140 }
  safe := { causes := 0, firstCause := 0 }
  mem := { role := .active }
  cfg := { loops := some pathLoop :: List.replicate 127 none }
  loop := { ctx := { state := 3, toLost := true } :: List.replicate 127 {}, applied := { engaged := true } :: List.replicate 23 {} }
  dp := { conseqFail := true }
  undo := some { mem := { role := .active } }

/-- Refutes O36: a grid instant at which a CMD_PATH context enters LOST latches CMD_LOSS (R281, R301); the manager falls silent (R346) and
takes back the commit of its unpublished epoch, and with it what the epoch's records had changed of the DP state. -/
theorem not_loopEvents : ¬ Obligations.LoopEvents := by
  unfold Obligations.LoopEvents
  rintro ⟨hgrid, -⟩
  obtain ⟨t, hexec, -, -, -, -, hdp⟩ := hgrid losingPath (by decide) (by decide) (by decide) (by decide)
  change execLoopGridInstant losingPath = .next t at hexec
  rw [execLoopGridInstant, if_neg (by decide)] at hexec
  rw [← Host.Outcome.next.inj hexec] at hdp
  exact absurd (congrArg Dp.conseqFail hdp) (by decide +kernel)

end Sys2Proof.Machine
end


section
/-! SUPPORT. The recorder's commands, its quota buckets and the frames that carry records (R399, R524 to R530). -/

namespace Sys2Proof.Machine

/-! ## The range of a CRC-16 -/

theorem crc16Bits_lt (n : Nat) {c : Nat} (hc : c < 65536) : crc16Bits n c < 65536 := by
  induction n generalizing c with
  | zero => exact hc
  | succ n ih =>
    refine ih ?_
    split <;> exact Nat.mod_lt _ (by decide)

theorem crc16From_lt {c : Nat} (hc : c < 65536) (bs : List Byte) : crc16From c bs < 65536 := by
  induction bs generalizing c with
  | nil => exact hc
  | cons b bs ih =>
    refine ih (crc16Bits_lt 8 (Nat.xor_lt_two_pow (n := 16) hc ?_))
    rw [Nat.shiftLeft_eq]
    have := b.isLt
    omega

theorem crc16_lt (bs : List Byte) : crc16 bs < 65536 := crc16From_lt (by decide) bs

theorem recCrc_toNat (num : Word) (e : EvRec) : (BitVec.ofNat 16 (recCrc num e)).toNat = recCrc num e :=
  Nat.mod_eq_of_lt (crc16_lt _)

/-! ## Buckets (R525) -/

theorem bucketOf_code (s : State) (code : BitVec 16) : (bucketOf s code).code = code := by
  unfold bucketOf
  cases hfind : s.rcd.buckets.find? (·.code = code) with
  | none => rfl
  | some b => simpa using List.find?_some hfind

theorem bucketOf_setBucket {b : Bucket} {code : BitVec 16} (hcode : b.code = code) (s : State) : bucketOf (setBucket b s) code = b := by
  simp [bucketOf, setBucket, hcode]

/-! ## Cursors and windows (R527) -/

theorem bodyRecordCursorSet_direct {r : Req} {s : State} (hop : u8 r.payload 0 = 0)
    (hin : 0 ≤ epochDiff (w32 r.payload 4) (oldestRec s)) : bodyRecordCursorSet r s = .done .ok
      (leBytes 12 (pack [(32, (w32 r.payload 4).toNat), (32, (s.mram.head - 1).toNat), (32, (oldestRec s).toNat)]))
      { s with rcd := { s.rcd with cursors := put s.rcd.cursors (cursorKey r.path) (w32 r.payload 4) } } := by
  unfold bodyRecordCursorSet
  extract_lets p newest old c
  have hc : c = w32 r.payload 4 := if_pos hop
  rw [if_neg (show ¬ u8 r.payload 0 > 2 by omega), hc, if_neg (Int.not_lt.mpr hin)]
  rfl

/-- A ring of one record, the cursor not placed: the window is that record, and the cursor goes behind it. -/
theorem bodyRecordWindowRead_single {r : Req} {num : Word} {e : EvRec} {s : State} (h1 : 1 ≤ u8 r.payload 0) (h7 : u8 r.payload 0 ≤ 7)
    (hadvance : bit (u8 r.payload 1) 0 = true) (hsev : u8 r.payload 2 ≤ e.sev) (hring : s.mram.ring = [(num, e)])
    (hhead : s.mram.head = num + 1) (hcursors : s.rcd.cursors = []) :
    bodyRecordWindowRead r s = .done .ok (leBytes 4 num.toNat ++ leBytes 4 1 ++ ringBytes s num e)
      { s with rcd := { s.rcd with cursors := [(cursorKey r.path, num + 1)] } } := by
  have hold : oldestRec s = num := by simp [oldestRec, hhead, hring, wd]
  have hcursor : cursorOf s r.path = num := by simp [cursorOf, hcursors, hold, look]
  have hdiff : epochDiff num num = 0 := by simp [epochDiff]
  have hnext : num + 1 - num = 1 := by bv_omega
  have hahead : epochDiff (num + 1) num > 0 := by rw [epochDiff, hnext]; decide
  have hbad : (u8 r.payload 0 = 0 || u8 r.payload 0 > (if r.dma.isSome then 128 else 7)) = false := by
    split <;> simp <;> omega
  unfold bodyRecordWindowRead
  extract_lets p n c avail held recs seq
  have havail : avail = 1 := by rw [show avail = (s.mram.head - c).toNat from rfl, hhead, show c = num from hcursor, hnext]; rfl
  have hheld : held = [((num, e), 0)] := by
    unfold held
    rw [hhead, show c = num from hcursor, if_pos hahead, havail, hring]
    rfl
  have hrecs : recs = [((num, e), 0)] := by
    obtain ⟨k, hk⟩ : ∃ k, n = k + 1 := Nat.exists_eq_succ_of_ne_zero (Nat.one_le_iff_ne_zero.mp h1)
    simp [recs, hheld, p, hsev, hk]
  have hseq : seq 0 = num := by simp [seq, hhead, wd]
  rw [if_neg (by simpa using hbad), if_neg (by rw [show c = num from hcursor, hold, hdiff]; decide), hrecs]
  dsimp only [List.getLast?_singleton, List.head?_cons]
  rw [hseq, if_pos hadvance]
  simp [give, put, hcursors]

/-! ## Histograms and quotas (R525, R529, R530) -/

theorem bodyHistoRead_keep {r : Req} {s : State} (hq : u8 r.payload 0 ≤ 63) (hclear : bit (u8 r.payload 1) 0 = false) :
    bodyHistoRead r s = .done .ok (histoBytes s (u8 r.payload 0)) s := by
  simp [bodyHistoRead, Nat.not_lt.mpr hq, hclear, give]

theorem storeCfg_histo (f : Cfg → Cfg) (s : State) : (storeCfg f s).mram.histo = s.mram.histo := by
  unfold storeCfg
  split <;> rfl

/-- The state after a HISTO_CONFIG: the payload stored, the quantity's data empty. -/
def histoConfigured (p : List Byte) (s : State) : State :=
  let s1 := setCfg (fun c => { c with histos := c.histos.set (u8 p 0) p }) s
  { s1 with mram := { s1.mram with histo := s1.mram.histo.set (u8 p 0) [] } }

theorem bodyHistoConfig_ok {r : Req} {s : State} (hq : u8 r.payload 0 ≤ 63) (hsec : u8 r.payload 2 ≤ 9) (hb1 : 1 ≤ u8 r.payload 6)
    (hb32 : u8 r.payload 6 ≤ 32) (hw : u32 r.payload 12 ≠ 0) (hwidth : bits (u8 r.payload 3) 0 2 ≠ 3) :
    bodyHistoConfig r s = .done .ok [] (histoConfigured r.payload s) := by
  unfold bodyHistoConfig
  extract_lets p q s1
  rw [if_neg (by simp [q, p, hq, hsec, hb32, hw, Nat.one_le_iff_ne_zero.mp hb1]), if_neg hwidth]
  rfl

/-- The state after a QUOTA_SET with a burst: the quota stored first in the list, the bucket cut to the burst. -/
def quotaStored (p : List Byte) (s : State) : State :=
  let code := BitVec.ofNat 16 (u16 p 0)
  let s1 := setCfg (fun c => { c with quotas := (code, u8 p 2, u32 p 4) :: c.quotas.filter (·.1 ≠ code) }) s
  setBucket { bucketOf s code with tokens := min (bucketOf s code).tokens (u8 p 2) } s1

theorem bodyQuotaSet_ok {r : Req} {s : State} (hdef : codeDefined (u16 r.payload 0) = true) (hn : u8 r.payload 2 ≠ 0)
    (hlo : 10 ≤ u32 r.payload 4) (hhi : u32 r.payload 4 ≤ 3600000) :
    bodyQuotaSet r s = .done .ok [] (quotaStored r.payload s) := by
  unfold bodyQuotaSet
  extract_lets p code b rest s1
  have hs1 : s1 = setCfg (fun c => { c with quotas := (code, u8 p 2, u32 p 4) :: rest c }) s := by
    unfold s1
    simp only [show u8 p 2 ≠ 0 from hn, if_false]
  have hquota : (quotaOf s1 code).1 = u8 p 2 := by simp [hs1, quotaOf, look]
  rw [if_neg (by simp [p, hdef]), if_neg (by simp [p, hlo, hhi]), hquota, hs1]
  rfl

theorem quotaOf_quotaStored (p : List Byte) (s : State) :
    quotaOf (quotaStored p s) (BitVec.ofNat 16 (u16 p 0)) = (u8 p 2, u32 p 4) := by
  simp [quotaStored, setBucket, quotaOf, look]

theorem bucketOf_quotaStored (p : List Byte) (s : State) : (bucketOf (quotaStored p s) (BitVec.ofNat 16 (u16 p 0))).tokens =
    min (bucketOf s (BitVec.ofNat 16 (u16 p 0))).tokens (u8 p 2) := by
  simp [quotaStored, bucketOf_setBucket, bucketOf_code]

theorem execTokenRefill_below {code : BitVec 16} {s : State} (hsup : s.supRuns = true)
    (hbelow : (bucketOf s code).tokens + 1 < (quotaOf s code).1) :
    execTokenRefill code s = .next (setBucket { bucketOf s code with tokens := (bucketOf s code).tokens + 1 } s) := by
  unfold execTokenRefill
  extract_lets b burst b1
  have hnotFull : b1.tokens ≠ burst := Nat.ne_of_lt hbelow
  rw [if_neg (by simp [hsup]; exact Nat.lt_of_succ_lt hbelow), if_neg (by simp [hnotFull])]

/-! ## Received records (R524) -/

theorem receiveRec_good {s : State} {num : Word} {e : EvRec} (himages : s.brd.images = []) (hcode : e.code ≠ 0x0A11) :
    receiveRec s (num, e, BitVec.ofNat 16 (recCrc num e)) = offer { e with supp := 0 } e.supp false s := by
  have hnewest : s.newest = none := by simp [State.newest, himages]
  unfold receiveRec
  dsimp only
  rw [recCrc_toNat, if_neg (by simp), hnewest, if_neg Bool.false_ne_true, if_neg hcode]

/-- Settles O42: the body of each command, and one received record whose CRC passes. -/
theorem recorder : Obligations.Recorder := by
  unfold Obligations.Recorder
  refine ⟨?_, ?_, ?_, ?_, ?_, fun code s hsup hbelow => execTokenRefill_below hsup hbelow, ?_, fun src ws s => rfl⟩
  · intro r s c pay htakes hlen hop hin
    exact mbx_answers htakes (exactly_of_length hlen) (bodyRecordCursorSet_direct hop hin)
  · intro r num e s pay htakes hlen h1 h7 hadvance hsev hring hhead hcursors
    exact mbx_answers htakes (exactly_of_length hlen) (bodyRecordWindowRead_single h1 h7 hadvance hsev hring hhead hcursors)
  · intro r s q htakes hlen hq hclear
    exact mbx_answers htakes (exactly_of_length hlen) (bodyHistoRead_keep hq hclear)
  · intro r s p htakes hlen hq hsec hb1 hb32 hw hwidth
    refine ⟨histoConfigured p s, mbx_answers htakes (exactly_of_length hlen) (bodyHistoConfig_ok hq hsec hb1 hb32 hw hwidth), ?_, ?_, ?_, ?_⟩
    · simp [histoConfigured]
    · simp [histoConfigured, setCfg, storeCfg_histo]
    · simp [histoConfigured]
    · simp [histoConfigured]
  · intro r s code n htakes hlen hdef hn hlo hhi
    exact ⟨quotaStored r.payload s, mbx_answers htakes (exactly_of_length hlen) (bodyQuotaSet_ok hdef hn hlo hhi),
      quotaOf_quotaStored _ s, bucketOf_quotaStored _ s, by simp [quotaStored, setBucket], by simp [quotaStored, setBucket]⟩
  · intro src num e s hsup hmanager himages hcode
    show execRecordFrame src [(num, e, BitVec.ofNat 16 (recCrc num e))] s = _
    rw [execRecordFrame, if_pos (by rw [hsup, hmanager]; rfl), List.foldl_cons, List.foldl_nil, receiveRec_good himages hcode]

end Sys2Proof.Machine
end


section
/-! SUPPORT. The solver array: what solves leave alone, and its events (R240, R251, R256, R271). -/

namespace Sys2Proof.Machine

/-! ## What a solve leaves alone -/

/-- `t` differs from `s` at most in the stalls and in what recording and free numbers write. -/
structure StallsOnly (s t : State) : Prop where
  variant : t.variant = s.variant
  cfg : t.cfg = s.cfg
  cfgNext : t.cfgNext = s.cfgNext
  safe : t.safe = s.safe
  mem : t.mem = s.mem
  dp : t.dp = s.dp
  cyc : t.cyc = s.cyc
  sol : { t.sol with stalls := s.sol.stalls } = s.sol

namespace StallsOnly

theorem refl (s : State) : StallsOnly s s := ⟨rfl, rfl, rfl, rfl, rfl, rfl, rfl, rfl⟩

theorem trans {s t u : State} (h : StallsOnly s t) (h' : StallsOnly t u) : StallsOnly s u where
  variant := h'.variant.trans h.variant
  cfg := h'.cfg.trans h.cfg
  cfgNext := h'.cfgNext.trans h.cfgNext
  safe := h'.safe.trans h.safe
  mem := h'.mem.trans h.mem
  dp := h'.dp.trans h.dp
  cyc := h'.cyc.trans h.cyc
  sol := by rw [← h.sol, ← h'.sol]

theorem of_quiet {s t : State} (h : Quiet s t) : StallsOnly s t :=
  ⟨h.variant, h.cfg, h.cfgNext, h.safe, h.mem, h.dp, h.cyc, by rw [h.sol]⟩

theorem ite {s t u : State} {c : Prop} [Decidable c] (ht : StallsOnly s t) (hu : StallsOnly s u) : StallsOnly s (if c then t else u) := by
  split
  · exact ht
  · exact hu

theorem updStall (n : Nat) (f : Stall → Stall) (s : State) : StallsOnly s (updStall n f s) := ⟨rfl, rfl, rfl, rfl, rfl, rfl, rfl, rfl⟩

theorem foldl {α : Type} {f : State → α → State} (hf : ∀ s a, StallsOnly s (f s a)) (l : List α) (s : State) :
    StallsOnly s (l.foldl f s) := by
  induction l generalizing s with
  | nil => exact refl s
  | cons a l ih => exact (hf s a).trans (ih (f s a))

theorem pairs {s t : State} (h : StallsOnly s t) : t.sol.pairs = s.sol.pairs := by have e := congrArg Sol.pairs h.sol; exact e
theorem queue {s t : State} (h : StallsOnly s t) : t.sol.queue = s.sol.queue := by have e := congrArg Sol.queue h.sol; exact e

end StallsOnly

theorem stallsOnly_solveTrace (n : Nat) (o : SolveOut) (s : State) : StallsOnly s (solveTrace n o s) := by
  unfold solveTrace
  extract_lets fl s1 e
  have he : ∀ on code sev ps t, StallsOnly t (e on code sev ps t) := fun on code sev ps t =>
    .ite (.of_quiet (quiet_event _ _ _ t)) (.refl t)
  exact (StallsOnly.updStall n _ s).trans ((he _ _ _ _ _).trans (he _ _ _ _ _))

theorem stallsOnly_endSolve (n : Nat) (s : State) : StallsOnly s (endSolve n s) := by
  unfold endSolve
  extract_lets o s1 s2
  have h2 : StallsOnly s s2 := (stallsOnly_solveTrace n o s).trans (.updStall n _ s1)
  exact .ite (h2.trans (.of_quiet (quiet_event _ _ _ s2))) h2

theorem stallsOnly_cutSolve (n : Nat) (s : State) : StallsOnly s (cutSolve n s) := by
  have hfree : StallsOnly s (stepFree s) := ⟨rfl, rfl, rfl, rfl, rfl, rfl, rfl, rfl⟩
  exact (hfree.trans (stallsOnly_solveTrace n _ _)).trans (.updStall n _ _)

theorem stallsOnly_stopSolve (s : State) (n : Nat) : StallsOnly s (stopSolve s n) := (stallsOnly_cutSolve n s).trans (.updStall n _ _)

theorem solveTrace_length (n : Nat) (o : SolveOut) (s : State) : (solveTrace n o s).sol.stalls.length = s.sol.stalls.length := by
  unfold solveTrace
  extract_lets fl s1 e
  have he : ∀ on code sev ps t, (e on code sev ps t).sol = t.sol := fun on code sev ps t => by
    unfold e
    split
    · rw [event_sol]
    · rfl
  rw [he, he]
  simp [s1, upd_length]

theorem stallOf_event (code : Nat) (sev : Nat) (ps : List Nat) (s : State) (n : Nat) : stallOf (event code sev ps s) n = stallOf s n := by
  rw [stallOf, event_sol, stallOf]

theorem stallOf_updStall_same {n : Nat} {s : State} (f : Stall → Stall) (h : n < s.sol.stalls.length) :
    stallOf (updStall n f s) n = f (stallOf s n) := by
  rw [stallOf_updStall, if_pos ⟨rfl, h⟩]

/-- A solve that has ended has a solution to use where it converged (R251). -/
theorem endSolve_candOk {n : Nat} {s : State} (h : n < s.sol.stalls.length) : (stallOf (endSolve n s) n).candOk =
    decide (((solveIn s n).solve (stallOf s n).start (budgetOf s n)).verdict = 0) := by
  unfold endSolve
  extract_lets o s1 s2
  have hs1 : n < s1.sol.stalls.length := by rw [show s1 = solveTrace n o s from rfl, solveTrace_length]; exact h
  have h2 : (stallOf s2 n).candOk = decide (o.verdict = 0) := by
    unfold s2
    rw [stallOf_updStall_same _ hs1]
    dsimp only
    split
    · rfl
    · split <;> rfl
  split
  · rw [stallOf_event, h2]
  · exact h2

theorem dispatch_nil {s : State} (hqueue : s.sol.queue = []) : ∀ k, dispatch k s = s
  | 0 => rfl
  | k + 1 => by rw [dispatch, hqueue]

/-! ## The events -/

theorem execScenarioBuildComplete_builds {n : Fin 16} {s : State} (hscen : n.val < s.variant.scens)
    (hstate : (stallOf s (firstScen s + n)).state = 7) (hdesc : (stallOf s (firstScen s + n)).desc = []) (hmain : (stallOf s 0).mainDesc ≠ []) :
    execScenarioBuildComplete n s = .next (updStall (firstScen s + n) (fun x =>
      let p := truncatedDesc (stallOf s 0).mainDesc (min (u8 (s.cfg.scens.getD n []) 1) (nStages (stallOf s 0).mainDesc))
      { x with kind := 2, desc := p, cert := (stallOf s 0).cert, sig := signature p, data := [], next := [] }) s) := by
  unfold execScenarioBuildComplete
  extract_lets k m p
  rw [if_neg (by simp [k, m, hscen, hstate, hdesc, hmain])]

/-- The outcome bits of a stall whose solve has ended, as `execSolveDone` sets them, `first` being the first scenario stall (R256). -/
def markOutcome (first n : Nat) (s : State) : State :=
  let mark := fun (k : Nat) (w : BitVec 16) => if (stallOf s n).candOk then w ||| BitVec.ofNat 16 (2 ^ k) else w
  if n = 0 then { s with sol := { s.sol with s0Flags := BitVec.ofNat 8 (s0Of (stallOf s 0)), s0Iter := (stallOf s 0).iter } }
  else if n ≥ first then { s with sol := { s.sol with scenOk := mark (n - first) s.sol.scenOk } }
  else { s with sol := { s.sol with preOk := mark n s.sol.preOk } }

theorem markOutcome_sol (first n : Nat) (s : State) : ∃ w, markOutcome first n s = { s with sol := w } ∧ w.pairs = s.sol.pairs ∧
    w.stalls = s.sol.stalls ∧ w.queue = s.sol.queue := by
  unfold markOutcome
  dsimp only
  split
  · exact ⟨_, rfl, rfl, rfl, rfl⟩
  · split <;> exact ⟨_, rfl, rfl, rfl, rfl⟩

/-- A solve ends while no other waits: its pair is free, its outcome marked. -/
theorem execSolveDone_frees {n : Fin 32} {p : Nat} {s : State}
    (hpair : ((List.range 4).find? fun p => s.sol.pairs.getD p none = some n.val) = some p) (hqueue : s.sol.queue = []) :
    execSolveDone n s = .next (markOutcome (firstScen s) n (endSolve n { s with sol := { s.sol with pairs := s.sol.pairs.set p none } })) := by
  have hmatch : execSolveDone n s =
      .next (dispatch 4 (markOutcome (firstScen s) n (endSolve n { s with sol := { s.sol with pairs := s.sol.pairs.set p none } }))) := by
    unfold execSolveDone
    extract_lets k
    rw [hpair]
    rfl
  obtain ⟨w, hw, -, -, hwqueue⟩ := markOutcome_sol (firstScen s) n (endSolve n { s with sol := { s.sol with pairs := s.sol.pairs.set p none } })
  rw [hmatch, dispatch_nil]
  rw [hw]
  exact hwqueue.trans ((stallsOnly_endSolve n _).queue.trans hqueue)

theorem execOutcomeInstant_ends {s : State} (hrun : s.sol.running = true) (hmgr : s.isMgrRole = true) : ∃ u, execOutcomeInstant s =
      .next (sendContribs (epochP u (solFirst u)) [mkContrib u 5 0xFF 2 (outcomeWord u) (epochP u (solFirst u))] u) ∧
    u.sol.pairs = [none, none, none, none] ∧ u.sol.queue = [] ∧ u.sol.running = false ∧ u.dp = s.dp ∧ u.safe = s.safe ∧ u.cfg = s.cfg := by
  unfold execOutcomeInstant
  rw [if_neg (by simp [hrun])]
  extract_lets live late0 s1 x old s2
  have h1 : StallsOnly s s1 := .foldl stallsOnly_stopSolve live s
  have hrole : s2.isMgrRole = true := by
    unfold State.isMgrRole
    rw [show s2.mem = s.mem from h1.mem]
    exact hmgr
  rw [if_pos hrole]
  exact ⟨s2, rfl, rfl, rfl, rfl, h1.dp, h1.safe, h1.cfg⟩

theorem execThrottleSample_hot {c : Int} {s : State} (hvariant : s.variant ≠ .WK) (hlevel : s.sol.throttle = 0) (hc : 146 ≤ c) :
    execThrottleSample c s = .next (event 0x0410 2 [0, 3, intBits 32 c] { s with sol := { s.sol with throttle := 3, coolMs := 0 } }) := by
  have h1 : (140 : Int) ≤ c := by omega
  have h2 : (143 : Int) ≤ c := by omega
  unfold execThrottleSample
  extract_lets l up set
  have hup : up = 3 := by simp [up, List.range, List.range.loop, throttleAt, h1, h2, hc]
  rw [if_neg hvariant, hup, if_pos (show 3 > s.sol.throttle by rw [hlevel]; decide)]
  simp only [set, l, hlevel]
  rfl

/-- Settles O44: each event's equation, and the frame of the solves that end or are stopped. -/
theorem solverEvents : Obligations.SolverEvents := by
  unfold Obligations.SolverEvents
  refine ⟨?_, ?_, fun s hrun hmgr => execOutcomeInstant_ends hrun hmgr, fun c s hvariant hlevel hc => execThrottleSample_hot hvariant hlevel hc⟩
  · intro n s hscen hstate hdesc hmain hlen hlt
    refine ⟨_, execScenarioBuildComplete_builds hscen hstate hdesc hmain, ?_, ?_, ?_, ?_, fun j hj => ?_, rfl⟩
    · rw [stallOf_updStall_same _ (hlen ▸ hlt)]
      exact hstate
    · rw [stallOf_updStall_same _ (hlen ▸ hlt)]
    · rw [stallOf_updStall_same _ (hlen ▸ hlt)]
    · rw [stallOf_updStall_same _ (hlen ▸ hlt)]
    · rw [stallOf_updStall, if_neg fun h => hj h.1.symm]
  · intro n p s hpair hqueue hlen
    have hend := stallsOnly_endSolve n { s with sol := { s.sol with pairs := s.sol.pairs.set p none } }
    obtain ⟨w, hw, hpairs, hstalls, -⟩ := markOutcome_sol (firstScen s) n (endSolve n { s with sol := { s.sol with pairs := s.sol.pairs.set p none } })
    refine ⟨_, execSolveDone_frees hpair hqueue, ?_, ?_, ?_, ?_, ?_⟩
    · rw [hw]
      exact hpairs.trans hend.pairs
    · rw [hw, stallOf, hstalls]
      exact endSolve_candOk (show n.val < s.sol.stalls.length by rw [hlen]; exact n.isLt)
    · rw [hw]
      exact hend.dp
    · rw [hw]
      exact hend.safe
    · rw [hw]
      exact hend.cfg

end Sys2Proof.Machine
end


section
/-! SUPPORT. A stall configuration that a STANDBY manager receives as the ACTIVE manager's copy (R268, R329). -/

namespace Sys2Proof.Machine

theorem isCopy_congr {s t : State} (hbrd : t.brd = s.brd) (hmem : t.mem = s.mem) (hrst : t.rst = s.rst) {code : Nat} {r : Req} :
    isCopy code r t = isCopy code r s := by
  unfold isCopy passedOn State.dev
  rw [hbrd, hmem, hrst]

/-- The STANDBY manager of device 1 in RUN, device 0 being ACTIVE. -/
def standbyOne : State where
  variant := .MA
  rst := { life := .run, straps := 0x141 }
  brd := { active := 0 }
  mem := { role := .standby }

/-- STALL_CONFIG of stall 0 with the reset word, relayed by the ACTIVE manager. -/
def copiedStallConfig : Req where
  path := .relay 0 0
  target := 0xFF
  payload := List.replicate 8 0 ++ leBytes 8 stallCfgReset.toNat

/-- The body of a STALL_CONFIG that enables a stall, at a device that takes it as a copy: the copy is noted for a takeover. -/
theorem bodyStallConfig_copy {r : Req} {s : State} (hn : u8 r.payload 0 < s.variant.stalls)
    (hrange : let w := BitVec.ofNat 64 (ule r.payload 8 8)
      let sg := fun lo (a b : Int) => a ≤ sfld w lo 8 && sfld w lo 8 ≤ b
      (!(sg 56 (-24) (-4) && sg 48 (-24) (-4) && sg 40 (-8) 8 && sg 32 (-28) (-8)) || fld w 24 8 = 0 || fld w 16 8 = 0) = false)
    (hen : fld (BitVec.ofNat 64 (ule r.payload 8 8)) 0 1 = 1) (hqueue : s.sol.queue = []) (hcopy : isCopy 0x0403 r s = true) :
    bodyStallConfig r s = .done .ok [] (noteCopy 0x0403 s
      (pendCfg (fun c => { c with stalls := c.stalls.set (u8 r.payload 0) (BitVec.ofNat 64 (ule r.payload 8 8)) }) s)) := by
  unfold bodyStallConfig
  extract_lets p n w sg s1 s2
  have hs1 : s1 = s := if_neg (by simp [w, p, hen])
  have hs2 : s2 = pendCfg (fun c => { c with stalls := c.stalls.set n w }) s := by
    unfold s2
    rw [hs1, dispatch_nil]
    rw [pendCfg_sol, hqueue]
  have hkeep : isCopy 0x0403 r (noteCopy 0x0403 s (pendCfg (fun c => { c with stalls := c.stalls.set n w }) s)) = true :=
    (isCopy_congr (s := s) (pendCfg_brd _ s) (pendCfg_mem _ s) (pendCfg_rst _ s)).trans hcopy
  have hr : (!(sg 56 (-24) (-4) && sg 48 (-24) (-4) && sg 40 (-8) 8 && sg 32 (-28) (-8)) || fld w 24 8 = 0 || fld w 16 8 = 0) = false := hrange
  rw [if_neg (Nat.not_le.mpr hn), if_neg (by rw [hr]; exact Bool.false_ne_true), if_neg (by simp [w, p, hen]), if_pos hcopy, hs1, hs2, shareCfg, if_pos hkeep]
  rfl

/-- Refutes O45: a STANDBY manager that takes a STALL_CONFIG as the ACTIVE manager's copy keeps the copy, so that it can be taken back
at a takeover (R180, R268), besides the configuration that the statement names. -/
theorem not_stallCommands : ¬ Obligations.StallCommands := by
  unfold Obligations.StallCommands
  rintro ⟨-, -, hconfig, -⟩
  have htakes : Takes 0x0403 copiedStallConfig [] standbyOne := ⟨by decide, by decide, .inl (by decide), nofun⟩
  have hclaim := hconfig copiedStallConfig standbyOne htakes (by decide) (by decide) (by decide) (by decide) (by decide) (by decide)
    (by decide) (by decide) (by decide) (by decide) rfl (by decide)
  have hmodel := mbx_answers (body := bodyStallConfig) (len := exactly 16) htakes (by decide)
    (bodyStallConfig_copy (by decide) (by decide) (by decide) rfl (by decide))
  have hsame := congrArg State.dp (Host.Outcome.next.inj (hmodel.symm.trans hclaim))
  rw [(quiet_finish _ _ _ _ _).dp, (quiet_finish _ _ _ _ _).dp, pendCfg_dp] at hsame
  exact absurd (congrArg (fun d : Dp => d.copies.length) hsame) (by decide)

end Sys2Proof.Machine
end


section
/-! SUPPORT. Fusion commands of class 0x03, dead-reckoning limits and the release of held streams (R139 to R177, R483 to R485). -/

namespace Sys2Proof.Machine

/-! ## Managers that a configuration is shared with (R139) -/

theorem standbysInRun_congr {s t : State} (hrst : t.rst = s.rst) (hbrd : t.brd = s.brd) : standbysInRun t = standbysInRun s := by
  unfold standbysInRun State.dev
  rw [hrst, hbrd]

theorem shareCfg_of_none {s : State} (h : standbysInRun s = []) (code : Nat) (r : Req) (ms : List Nat) : shareCfg code r ms s = s := by
  have hnone : ms.filter (standbysInRun s).contains = [] := by simp [h]
  unfold shareCfg
  split
  · rfl
  · rw [hnone]
    rfl

/-! ## Configuration of the fusion (R139, R142) -/

section
variable (f : Cfg → Cfg) (s : State)

theorem fusionCfg_cfg : (fusionCfg f s).cfg = f s.cfg := by simp [fusionCfg, noteFusion]
theorem fusionCfg_safe : (fusionCfg f s).safe = s.safe := by simp [fusionCfg, noteFusion]
theorem fusionCfg_dp : (fusionCfg f s).dp = s.dp := by simp [fusionCfg, noteFusion]
theorem fusionCfg_rst : (fusionCfg f s).rst = s.rst := by simp [fusionCfg, noteFusion]
theorem fusionCfg_brd : (fusionCfg f s).brd = s.brd := by simp [fusionCfg, noteFusion]

theorem fusionCfg_fus : (fusionCfg f s).fus = { s.fus with cfgPending := true, before := (noteFusion s).fus.before } := by
  simp [fusionCfg, noteFusion]

end

section
variable (p : List Byte) (s : State)

theorem defineStream_cfg : (defineStream p s).cfg = { s.cfg with streams := s.cfg.streams.set (u8 p 0) p } := by
  simp [defineStream, fusionCfg_cfg]

theorem defineStream_safe : (defineStream p s).safe = s.safe := by simp [defineStream, fusionCfg_safe]
theorem defineStream_dp : (defineStream p s).dp = s.dp := by simp [defineStream, fusionCfg_dp]
theorem defineStream_rst : (defineStream p s).rst = s.rst := by simp [defineStream, fusionCfg_rst]
theorem defineStream_brd : (defineStream p s).brd = s.brd := by simp [defineStream, fusionCfg_brd]
theorem defineStream_cfgPending : (defineStream p s).fus.cfgPending = true := by simp [defineStream, fusionCfg_fus]
theorem defineStream_est : (defineStream p s).fus.est = s.fus.est := by simp [defineStream, fusionCfg_fus]

theorem standbysInRun_defineStream : standbysInRun (defineStream p s) = standbysInRun s :=
  standbysInRun_congr (defineStream_rst p s) (defineStream_brd p s)

theorem rtOf_defineStream {n : Nat} (h : n ≠ u8 p 0) : rtOf (defineStream p s) n = rtOf s n := by
  rw [defineStream, rtOf_updRt, if_neg fun hc => h hc.1.symm, rtOf, fusionCfg_fus]
  rfl

end

/-! ## The commands' bodies (R141, R142, R147, R163, R166, R483, R485) -/

theorem sourceAbsent_own {s : State} {p : List Byte} (h : descFld p 16 8 = s.dev) : sourceAbsent s p = lacksSource s.variant.units p := by
  rw [sourceAbsent, h, unitsOf, if_pos rfl]

theorem not_sourceAbsent_of_check {r : Req} {s : State} (h : checkStreamDefine r s = none) : sourceAbsent s r.payload = false := by
  unfold checkStreamDefine at h
  dsimp only at h
  rw [← Bool.not_eq_true]
  intro habsent
  rw [habsent] at h
  revert h
  split
  · simp
  · split
    · simp
    · split <;> simp

/-- A checked definition of a stream that this device parses is accepted, be it a copy or the host's command. -/
theorem bodyStreamDefine_own {r : Req} {s : State} (hcheck : checkStreamDefine r s = none) (hjob : s.hif.srcJob = none)
    (hown : descFld r.payload 16 8 = s.dev) : ∃ u, bodyStreamDefine r s = .done .ok [] u ∧
      (u = defineStream r.payload s ∨ u = shareCfg 0x0301 r [0, 1, 2] (defineStream r.payload s)) := by
  have hhas : lacksSource s.variant.units r.payload = false := (sourceAbsent_own hown).symm.trans (not_sourceAbsent_of_check hcheck)
  unfold bodyStreamDefine
  split
  · rw [hhas, Bool.and_false, if_neg Bool.false_ne_true]
    exact ⟨_, rfl, .inl rfl⟩
  · rw [hcheck]
    dsimp only
    rw [hjob, if_neg (show ¬ (none : Option Job).isSome = true by decide)]
    exact ⟨_, rfl, .inr rfl⟩

theorem bodyStreamDefine_other {r : Req} {s : State} (hcheck : checkStreamDefine r s = none) (hjob : s.hif.srcJob = none)
    (hcopy : isCopy 0x0301 r s = false) (hother : descFld r.payload 16 8 ≠ s.dev) :
    bodyStreamDefine r s = .later (
      let t := sendLong 6 (descFld r.payload 16 8) s.epochHeld (relayBytes 0x0301 r) false s
      { t with hif := { t.hif with srcJob := some { code := 0x0301, req := r, wait := [descFld r.payload 16 8] } } }) := by
  unfold bodyStreamDefine
  rw [hcopy, if_neg Bool.false_ne_true, hcheck]
  dsimp only
  rw [hjob, if_neg (show ¬ (none : Option Job).isSome = true by decide), if_neg hother]
  rfl

theorem bodyStreamRead_defined {r : Req} {s : State} (hn : u8 r.payload 0 ≤ 47) (hdef : s.cfg.streams.getD (u8 r.payload 0) [] ≠ []) :
    bodyStreamRead r s = .done .ok (s.cfg.streams.getD (u8 r.payload 0) []) s := by
  have hd : strDefined s (u8 r.payload 0) = true := by
    rw [strDefined, Bool.not_eq_true', List.isEmpty_eq_false_iff]
    exact hdef
  unfold bodyStreamRead
  dsimp only
  rw [if_neg (by omega), hd]
  rfl

/-- One transform loaded is one place of the list set. -/
theorem map_zipIdx_one (l : List (BitVec 384)) (f : Nat) (v : Nat → BitVec 384) :
    l.zipIdx.map (fun x => if f ≤ x.2 && x.2 < f + 1 then v (x.2 - f) else x.1) = l.set f (v 0) := by
  refine List.ext_getElem (by simp) fun i h1 h2 => ?_
  simp only [List.getElem_map, List.getElem_zipIdx, Nat.zero_add, List.getElem_set]
  by_cases h : f = i
  · subst h
    simp
  · rw [if_neg h, if_neg (by simp; omega)]

theorem bodyTransformLoad_one {r : Req} {s : State} (hn : u8 r.payload 1 = 1) (hf : u8 r.payload 0 ≤ 63)
    (hrot : rotationOk (transformAt r.payload 0) = true) : bodyTransformLoad r s = .done .ok [] (shareCfg 0x0303 r [0, 1, 2]
      (fusionCfg (fun c => { c with transforms := c.transforms.set (u8 r.payload 0) (transformAt r.payload 0) }) s)) := by
  unfold bodyTransformLoad
  extract_lets p n f
  have hn1 : n = 1 := hn
  rw [hn1, if_neg (by simp [hrot, p, f]; omega)]
  simp only [map_zipIdx_one]
  rfl

theorem bodyRefPrefer_held {r : Req} {s : State} (hn : u8 r.payload 0 < s.fus.streams.length) (hheld : (rtOf s (u8 r.payload 0)).held = true)
    (hnone : standbysInRun s = []) :
    bodyRefPrefer r s = .done .ok [] (updFus (fun x => { x with prefer := some (u8 r.payload 0) }) (noteFusion s)) := by
  have hany : s.fus.streams.any (·.held) = true := by
    refine List.any_eq_true.mpr ⟨_, List.getElem_mem hn, ?_⟩
    rw [← List.getD_eq_getElem _ {} hn]
    exact hheld
  unfold bodyRefPrefer
  dsimp only
  have hrun : standbysInRun (updFus (fun x => { x with prefer := some (u8 r.payload 0) }) (noteFusion s)) = [] :=
    (standbysInRun_congr (s := s) rfl rfl).trans hnone
  rw [hany, if_neg (by decide), hheld, if_neg (by decide), shareCfg_of_none hrun]
  rfl

theorem bodyStreamStatus_own {r : Req} {s : State} (hn : u8 r.payload 0 ≤ 47) (hown : strFld s (u8 r.payload 0) 16 8 = s.dev)
    (hclear : bit (u8 r.payload 1) 0 = false) :
    bodyStreamStatus r s = .done .ok (streamStatusBytes s (u8 r.payload 0) (rtOf s (u8 r.payload 0)).rejected) s := by
  unfold bodyStreamStatus
  dsimp only
  rw [if_neg (by omega), if_pos (by simp [hown]), clearStream, clears, hclear]
  rfl

/-! ## The parsing device's confirmation (R483) -/

theorem execSourceDevConfirm_of_waits {d : Fin 64} {j : Job} {s : State} (hjob : s.hif.srcJob = some j) (hwait : j.wait = [d.val])
    (status rejected : Nat) : execSourceDevConfirm d status rejected s = .next (endSource j (Status.ofCode status) rejected s) := by
  unfold execSourceDevConfirm
  rw [hjob]
  dsimp only
  rw [hwait, if_pos (by simp)]

theorem endSource_defined {j : Job} {s : State} (hcode : j.code = 0x0301) (hnone : standbysInRun s = []) (rejected : Nat) :
    endSource j .ok rejected s =
      finish 0x0301 j.req .ok [] (defineStream j.req.payload { s with hif := { s.hif with srcJob := none } }) := by
  have hrun := (standbysInRun_defineStream j.req.payload { s with hif := { s.hif with srcJob := none } }).trans hnone
  unfold endSource
  extract_lets s0 s1
  rw [if_neg (by rw [hcode]; decide), if_pos rfl, shareCfg_of_none hrun, finishJob, hcode]

theorem endSource_status {j : Job} {s : State} (hcode : j.code = 0x0306) (hclear : bit (u8 j.req.payload 1) 0 = false) (st : Status)
    (rejected : Nat) : endSource j st rejected s =
    finish 0x0306 j.req .ok (streamStatusBytes s (u8 j.req.payload 0) rejected) { s with hif := { s.hif with srcJob := none } } := by
  unfold endSource
  dsimp only
  rw [if_pos hcode, clearStream, clears, hclear, finishJob, hcode]
  rfl

/-! ## Release of held streams (R163) -/

/-- The state of a stream released from HELD, as `freeHeld` sets it. -/
def released (x : StreamRt) : StreamRt :=
  if x.held then { x with held := false, confidence := 64, mask := 0, state := 7, agreeRun := 0 } else x

theorem released_released (x : StreamRt) : released (released x) = released x := by
  unfold released
  split <;> simp_all

theorem rtOf_freeHeld (k n : Nat) (s : State) :
    rtOf (freeHeld k s) n = if k = n ∧ k < s.fus.streams.length then released (rtOf s k) else rtOf s n :=
  rtOf_updRt _ _ _ _

theorem freeHeld_length (k : Nat) (s : State) : (freeHeld k s).fus.streams.length = s.fus.streams.length := upd_length _ _ _

theorem rtOf_foldl_freeHeld (n : Nat) (l : List Nat) (s : State) : rtOf (l.foldl (fun t n => freeHeld n t) s) n =
    if n ∈ l ∧ n < s.fus.streams.length then released (rtOf s n) else rtOf s n := by
  induction l generalizing s with
  | nil => simp
  | cons k l ih =>
    rw [List.foldl_cons, ih, freeHeld_length, rtOf_freeHeld]
    by_cases hk : k = n
    · subst hk
      by_cases hlen : k < s.fus.streams.length <;> simp [hlen, released_released]
    · simp [hk, Ne.symm hk]

theorem foldl_freeHeld_fus (l : List Nat) (s : State) : ∃ f, l.foldl (fun t n => freeHeld n t) s = { s with fus := f } := by
  induction l generalizing s with
  | nil => exact ⟨_, rfl⟩
  | cons k l ih =>
    obtain ⟨f, hf⟩ := ih (freeHeld k s)
    exact ⟨f, hf⟩

theorem settleConflict_mem (g : Nat) (s : State) : ∃ m, settleConflict g s = { s with mem := m } := by
  unfold settleConflict
  split
  · exact clearAlarm_mem _ _ s
  · exact ⟨_, rfl⟩

theorem execPreferenceRelease_frees {s : State} (hpref : s.fus.preferred.isSome = true) : ∃ f m,
    execPreferenceRelease s = .next { s with fus := f, mem := m } ∧
    ∀ n, f.streams.getD n {} = if (n < 48 ∧ (rtOf s n).held = true ∧ 30000 ≤ (rtOf s n).agreeRun) ∧ n < s.fus.streams.length then
      released (rtOf s n) else rtOf s n := by
  have hsome : s.fus.preferred.isNone = false := by cases h : s.fus.preferred <;> simp_all
  unfold execPreferenceRelease
  rw [hsome, if_neg Bool.false_ne_true]
  extract_lets s1
  obtain ⟨f, hf⟩ := foldl_freeHeld_fus ((List.range 48).filter fun n => (rtOf s n).held && decide ((rtOf s n).agreeRun ≥ 30000)) s
  obtain ⟨m1, h1⟩ := settleConflict_mem 2 s1
  obtain ⟨m2, h2⟩ := settleConflict_mem 1 (settleConflict 2 s1)
  refine ⟨f, m2, ?_, fun n => ?_⟩
  · rw [h2, h1, show s1 = { s with fus := f } from hf]
  · have hrt := rtOf_foldl_freeHeld n ((List.range 48).filter fun n => (rtOf s n).held && decide ((rtOf s n).agreeRun ≥ 30000)) s
    rw [hf] at hrt
    rw [show f.streams.getD n {} = rtOf { s with fus := f } n from rfl, hrt]
    simp [and_assoc]

theorem preferenceRelease_frees {s : State} (hpref : s.fus.preferred.isSome = true) (hlen : s.fus.streams.length = 48) :
    ∃ t, exec .preferenceRelease s = .next t ∧
    (∀ n, n < 48 → (rtOf s n).held = true → 30000 ≤ (rtOf s n).agreeRun → (rtOf t n).held = false ∧ (rtOf t n).confidence = 64) ∧
    (∀ n, n < 48 → (rtOf s n).held = false ∨ (rtOf s n).agreeRun < 30000 → rtOf t n = rtOf s n) ∧
    t.cfg = s.cfg ∧ t.safe = s.safe ∧ t.dp = s.dp := by
  obtain ⟨f, m, hexec, hrt⟩ := execPreferenceRelease_frees hpref
  refine ⟨_, hexec, fun n hn hheld hrun => ?_, fun n hn hstay => ?_, rfl, rfl, rfl⟩
  · rw [rtOf, hrt, if_pos ⟨⟨hn, hheld, hrun⟩, hlen ▸ hn⟩, released, if_pos hheld]
    exact ⟨rfl, rfl⟩
  · rw [rtOf, hrt, if_neg]
    rintro ⟨⟨-, hheld, hrun⟩, -⟩
    rcases hstay with h | h
    · rw [h] at hheld
      exact Bool.false_ne_true hheld
    · omega

/-! ## The statement -/

/-- Settles O46: the body of each command, the confirmations, and the two events. -/
theorem fusionStreams : Obligations.FusionStreams := by
  unfold Obligations.FusionStreams
  refine ⟨?_, ?_, ?_, ?_, ?_, ?_, ?_, ?_, ?_, ?_, ?_, ?_, fun s hpref hlen => preferenceRelease_frees hpref hlen⟩
  · intro r s htakes hlen hcheck hjob hown
    obtain ⟨u, hbody, hu⟩ := bodyStreamDefine_own hcheck hjob hown
    have hq : Quiet (defineStream r.payload s) u := by
      rcases hu with rfl | rfl
      · exact .refl _
      · exact quiet_shareCfg _ _ _ _
    refine ⟨u, mbx_answers htakes hlen hbody, hq.cfg.trans (defineStream_cfg _ s), ?_, ?_, fun n hn => ?_,
      hq.safe.trans (defineStream_safe _ s), hq.dp.trans (defineStream_dp _ s)⟩
    · rw [hq.fus, defineStream_cfgPending]
    · rw [hq.fus, defineStream_est]
    · rw [rtOf, hq.fus, ← rtOf, rtOf_defineStream _ s hn]
  · intro r s d t htakes hlen hcheck hjob hcopy hother
    show execStreamDefine r s = _
    unfold execStreamDefine
    rw [mbx_later htakes hlen (bodyStreamDefine_other hcheck hjob hcopy hother)]
  · intro d x j s hjob hwait hcode hnone
    show execSourceDevConfirm d 0 x s = _
    rw [execSourceDevConfirm_of_waits hjob hwait, show Status.ofCode 0 = .ok from rfl, endSource_defined hcode hnone]
  · intro d x j s hjob hwait hcode hclear
    show execSourceDevConfirm d 0 x s = _
    rw [execSourceDevConfirm_of_waits hjob hwait, endSource_status hcode hclear]
  · intro j s hjob hcode
    show execSourceDevConfirmTimeout s = _
    unfold execSourceDevConfirmTimeout
    rw [hjob]
    dsimp only
    rw [endSource, if_neg (by rw [hcode]; decide), if_neg (by decide), finishJob, hcode]
  · intro r s pay htakes hlen hn hdef
    exact mbx_answers htakes (exactly_of_length hlen) (bodyStreamRead_defined hn hdef)
  · intro r s f htakes hlen hn hf hrot
    have hq := quiet_shareCfg 0x0303 r [0, 1, 2]
      (fusionCfg (fun c => { c with transforms := c.transforms.set f (transformAt r.payload 0) }) s)
    refine ⟨_, mbx_answers htakes ?_ (bodyTransformLoad_one hn hf hrot), hq.cfg.trans (fusionCfg_cfg _ s), ?_,
      hq.safe.trans (fusionCfg_safe _ s), hq.dp.trans (fusionCfg_dp _ s)⟩
    · simp [counted, hlen, hn]
    · rw [hq.fus, fusionCfg_fus]
  · intro r s n htakes hlen hn hheld hnone
    exact mbx_answers htakes (exactly_of_length hlen) (bodyRefPrefer_held hn hheld hnone)
  · intro r s w htakes hlen hrange
    have hq := quiet_shareCfg 0x0305 r [0, 1, 2] (fusionCfg (fun c => { c with observer := w }) s)
    have hbody : bodyObserverConfig r s = .done .ok [] (shareCfg 0x0305 r [0, 1, 2] (fusionCfg (fun c => { c with observer := w }) s)) :=
      if_neg (show ¬ (!observerRangeOk w) = true by rw [hrange]; decide)
    refine ⟨_, mbx_answers htakes (exactly_of_length hlen) hbody, hq.cfg.trans (fusionCfg_cfg _ s), ?_,
      hq.safe.trans (fusionCfg_safe _ s), hq.dp.trans (fusionCfg_dp _ s)⟩
    rw [hq.fus, fusionCfg_fus]
  · intro r s n pay htakes hlen hn hown hclear
    exact mbx_answers htakes (exactly_of_length hlen) (bodyStreamStatus_own hn hown hclear)
  · intro s sec hrole hdr hlost hlim
    show execPosLost false s = _
    unfold execPosLost
    dsimp only
    rw [if_neg (by simp [hrole]), if_neg Bool.false_ne_true, if_neg (by simp [hdr, hlost]; exact hlim)]
    rfl
  · intro s sec hrole hdr hlost hlim
    show execPosLost true s = _
    unfold execPosLost
    dsimp only
    rw [if_neg (by simp [hrole]), if_pos rfl, if_neg (by simp [hdr, hlost]; exact hlim)]
    rfl

end Sys2Proof.Machine
end


section
/-! SUPPORT. Class 0x10 commands where no STANDBY manager waits for a copy (R180 to R226, R501, R503). -/

namespace Sys2Proof.Machine

/-! ## Acceptance (R180, R329) -/

section
variable {code : Nat} {r : Req} {s : State} (hcopy : isCopy code r s = false) (hjob : s.hif.copyJob = none) (hnone : standbys s = [])
include hcopy hjob hnone

/-- With no STANDBY manager to confirm, an accepted command takes effect and is answered at once. -/
theorem acceptDp_applies : acceptDp code r s = .done .ok (dpAnswer code s) (applyDp code r s) := by
  unfold acceptDp
  rw [hcopy, if_neg Bool.false_ne_true, hjob, if_neg (show ¬ (none : Option Job).isSome = true by decide), hnone]
  rfl

theorem dpCommand_applies {check : Req → State → Option Status} (hcheck : check r s = none) :
    dpCommand code check r s = .done .ok (dpAnswer code s) (applyDp code r s) := by
  rw [dpCommand, hcheck]
  exact acceptDp_applies hcopy hjob hnone

theorem dpProtected_applies {guard : Req → State → Bool} {check : Req → State → Option Status}
    (hguard : guard r s = false ∨ protection s = none) (hcheck : check r s = none) :
    dpProtected code guard check r s = .done .ok (dpAnswer code s) (applyDp code r s) := by
  unfold dpProtected
  split
  · exact dpCommand_applies hcopy hjob hnone hcheck
  · next hg =>
    have hprot : protection s = none := hguard.resolve_left fun h => hg (by rw [h]; rfl)
    rw [hprot, hcheck]
    exact acceptDp_applies hcopy hjob hnone

end

theorem dpCommand_refuses {code : Nat} {r : Req} {s : State} {check : Req → State → Option Status} {st : Status}
    (hcheck : check r s = some st) : dpCommand code check r s = .done st [] s := by
  rw [dpCommand, hcheck]
  rfl

theorem firstOf_need {c : Bool} (h : c = true) (st : Status) (l : List (Option Status)) : firstOf (need c st :: l) = firstOf l := by
  rw [h]
  rfl

/-! ## The change log of definitions (R326, R327) -/

/-- `t` differs from `s` at most in MRAM and what recording and answering write. -/
structure KeepsDp (s t : State) : Prop where
  cfg : t.cfg = s.cfg
  cfgNext : t.cfgNext = s.cfgNext
  dp : t.dp = s.dp
  safe : t.safe = s.safe

theorem KeepsDp.trans {s t u : State} (h : KeepsDp s t) (h' : KeepsDp t u) : KeepsDp s u :=
  ⟨h'.cfg.trans h.cfg, h'.cfgNext.trans h.cfgNext, h'.dp.trans h.dp, h'.safe.trans h.safe⟩

theorem KeepsDp.of_quiet {s t : State} (h : Quiet s t) : KeepsDp s t := ⟨h.cfg, h.cfgNext, h.dp, h.safe⟩

theorem keepsDp_logEntry (command field old new path : Nat) (ip : Word) (s : State) : KeepsDp s (logEntry command field old new path ip s) := by
  unfold logEntry
  split <;> exact ⟨rfl, rfl, rfl, rfl⟩

theorem keepsDp_logChanges (command path : Nat) (ip : Word) (ch : List (Nat × Nat × Nat)) (s : State) :
    KeepsDp s (logChanges command path ip ch s) := by
  unfold logChanges
  induction ch generalizing s with
  | nil => exact ⟨rfl, rfl, rfl, rfl⟩
  | cons c ch ih => exact ((keepsDp_logEntry _ _ _ _ _ _ s).trans (.of_quiet (quiet_event _ _ _ _))).trans (ih _)

theorem keepsDp_logDp {code : Nat} {r : Req} {s : State} (hcopy : isCopy code r s = false) (ch : List (Nat × Nat × Nat)) :
    KeepsDp s (logDp code r ch s) := by
  unfold logDp
  rw [hcopy, if_neg Bool.false_ne_true]
  exact keepsDp_logChanges _ _ _ ch s

theorem isCopy_pendCfg (code : Nat) (r : Req) (f : Cfg → Cfg) (s : State) : isCopy code r (pendCfg f s) = isCopy code r s :=
  isCopy_congr (pendCfg_brd f s) (pendCfg_mem f s) (pendCfg_rst f s)

theorem quiet_passTo (h : Handshake) (s : State) : Quiet s (passTo h s) := by
  unfold passTo
  exact Quiet.foldl (fun t _ => (quiet_emit _ t).trans (quiet_sendSys _ _ _ _ _)) _ s

theorem applyThrusterDefine_keeps {r : Req} {s : State} (hcopy : isCopy 0x1003 r s = false) :
    KeepsDp (pendCfg (fun c => { c with thrusters := c.thrusters.set (u8 r.payload 0 - 1) r.payload }) s) (applyThrusterDefine r s) :=
  keepsDp_logDp ((isCopy_pendCfg _ _ _ s).trans hcopy) _

theorem applyPowerDefine_keeps {r : Req} {s : State} (hcopy : isCopy 0x1004 r s = false) :
    KeepsDp (pendCfg (fun c => { c with power := r.payload }) s) (applyPowerDefine r s) := by
  unfold applyPowerDefine
  extract_lets s1
  have h1 : KeepsDp (pendCfg (fun c => { c with power := r.payload }) s) s1 := keepsDp_logDp ((isCopy_pendCfg _ _ _ s).trans hcopy) _
  split
  · exact h1.trans (.of_quiet (quiet_passTo _ s1))
  · exact h1

/-! ## Modes and set-points (R182, R183, R186, R191) -/

theorem checkDpModeSet_ok {r : Req} {s : State} (h : u8 r.payload 0 = 1 ∧ s.dp.mode ≠ 1 ∧ (s.dp.mode = 0 → (stallOf s 0).desc ≠ []) ∨
    u8 r.payload 0 = 0 ∧ s.dp.mode = 1) : checkDpModeSet r s = none := by
  have hallowed : modeAllowed s (u8 r.payload 0) (bit (u8 r.payload 1) 0) = true := by
    unfold modeAllowed
    rcases h with ⟨hm, hne, hmain⟩ | ⟨hm, hold⟩
    · rw [hm]
      dsimp only
      split
      · next h0 => simpa using hmain h0
      · next h1 => exact absurd h1 hne
      · simp
      · simp
    · rw [hm, hold]
      simp
  unfold checkDpModeSet
  dsimp only
  rw [if_neg (by omega), hallowed]
  rfl

theorem checkDpModeSet_from_off {r : Req} {s : State} (hmode : s.dp.mode = 0) (h2 : 2 ≤ u8 r.payload 0) (h6 : u8 r.payload 0 ≤ 6) :
    checkDpModeSet r s = some .state := by
  have hrefused : modeAllowed s (u8 r.payload 0) (bit (u8 r.payload 1) 0) = false := by
    unfold modeAllowed
    rw [hmode]
    have : u8 r.payload 0 ≠ 1 := by omega
    simp [this]
  unfold checkDpModeSet
  dsimp only
  rw [if_neg (by omega), hrefused]
  rfl

theorem checkSetpointSet_position {r : Req} {s : State} (h4 : 4 ≤ s.dp.mode) (h6 : s.dp.mode ≤ 6) (hn : (i32 r.payload 4).natAbs ≤ 30000 * 65536)
    (he : (i32 r.payload 8).natAbs ≤ 30000 * 65536) (h16 : u16 r.payload 16 = 0) (h18 : u16 r.payload 18 = 0) (h20 : u16 r.payload 20 = 0)
    (h22 : u16 r.payload 22 = 0) : checkSetpointSet r s = none := by
  unfold checkSetpointSet
  extract_lets p m far
  have hfar4 : far (i32 p 4) = false := decide_eq_false (Nat.not_lt.mpr hn)
  have hfar8 : far (i32 p 8) = false := decide_eq_false (Nat.not_lt.mpr he)
  rw [firstOf_need (by simp [m]; omega), firstOf_need (by simp [hfar4, hfar8]), firstOf_need (by simp [p, keepOr, h16, h18, h20, h22])]
  rfl

theorem checkSetpointSet_mode {r : Req} {s : State} (h : s.dp.mode < 3 ∨ 6 < s.dp.mode) : checkSetpointSet r s = some .state := by
  have hno : (decide (3 ≤ s.dp.mode) && decide (s.dp.mode ≤ 6)) = false := by simp; omega
  unfold checkSetpointSet
  dsimp only
  rw [hno]
  rfl

/-- Outside AUTO_HEADING, FLAGS bit 1 alone and zero ramp fields: the position is taken, the rest stays. -/
theorem applySetpointSet_position {r : Req} {s : State} (h4 : 4 ≤ s.dp.mode) (hflags : u8 r.payload 0 = 2) (h16 : u16 r.payload 16 = 0)
    (h18 : u16 r.payload 18 = 0) (h20 : u16 r.payload 20 = 0) (h22 : u16 r.payload 22 = 0) : applySetpointSet r s =
      { s with dp := { s.dp with pend := { s.dp.pend with pos := some (i32 r.payload 4, i32 r.payload 8) } } } := by
  have hmode : s.dp.mode ≠ 3 := by omega
  have hb0 : bit 2 0 = false := rfl
  have hb1 : bit 2 1 = true := rfl
  have hb2 : bit 2 2 = false := rfl
  simp [applySetpointSet, updPend, updDp, kept, hmode, hflags, h16, h18, h20, h22, hb0, hb1, hb2]

theorem checkTrackLoad_one {r : Req} {s : State} (hn : u8 r.payload 0 = 1) (hmode : s.dp.mode ≠ 5) (hlo : 50 ≤ u16 r.payload 12)
    (hhi : u16 r.payload 12 ≤ 3000) : checkTrackLoad r s = none := by
  unfold checkTrackLoad
  extract_lets p
  rw [firstOf_need (by simp [hmode]), firstOf_need (by simp [p, hn, hlo, hhi])]
  rfl

/-! ## Scenarios, weights, fallback data (R205, R217, R226) -/

theorem abandonSolve_of_idle {s : State} (hidle : s.sol.pairs = [none, none, none, none]) (n : Nat) : abandonSolve n s = s := by
  unfold abandonSolve
  rw [hidle]
  exact if_neg (by simp)

theorem applyConseqConfig_idle {r : Req} {s : State} (hidle : s.sol.pairs = [none, none, none, none]) (hqueue : s.sol.queue = []) :
    applyConseqConfig r s = pendCfg (conseqCfg r.payload) s := by
  have hfold : ∀ l : List Nat, l.foldl (fun t n => if u8 r.payload 0 ≤ n then abandonSolve (firstScen t + n) t else t) s = s := fun l => by
    induction l with
    | nil => rfl
    | cons n l ih => rw [List.foldl_cons, abandonSolve_of_idle hidle, ite_self, ih]
  unfold applyConseqConfig
  dsimp only
  rw [hfold, dispatch_nil]
  rw [pendCfg_sol, hqueue]

theorem conseqCfg_scens (p : List Byte) (c : Cfg) (n : Nat) : (conseqCfg p c).scens.getD n [] =
    if n < c.scens.length then
      (if u8 p 0 ≤ n then [] else if u8 p 1 ≤ n && n < u8 p 1 + u8 p 2 then conseqRec p (n - u8 p 1) else c.scens.getD n [])
    else [] := by
  unfold conseqCfg
  dsimp only
  split
  · next h =>
    rw [List.getD_eq_getElem _ _ (by simpa using h), List.getD_eq_getElem _ _ h]
    simp
  · next h => exact List.getD_eq_default _ _ (by simpa using h)

theorem checkConseqConfig_one {r : Req} {s : State} (hcount : u8 r.payload 2 = 1) (hn : u8 r.payload 0 ≤ s.variant.scens)
    (hlast : u8 r.payload 1 + 1 = u8 r.payload 0) (hrec : conseqRecOk (conseqRec r.payload 0) = true)
    (hno : u8 (conseqRec r.payload 0) 0 = u8 r.payload 1) : checkConseqConfig r s = none := by
  unfold checkConseqConfig
  extract_lets p xs
  have hp : u8 p 2 = 1 := hcount
  rw [firstOf_need (by simp [xs, p, hcount, hrec, hn, hlast]), firstOf_need (by simp [p, hcount, hno])]
  rfl

theorem scens_le (v : Variant) : v.scens ≤ 16 := by cases v <;> decide

theorem conseqCfg_one {p : List Byte} {c : Cfg} {v : Variant} (hcount : u8 p 2 = 1) (hn : u8 p 0 ≤ v.scens) (hlast : u8 p 1 + 1 = u8 p 0)
    (hlen : c.scens.length = 16) : (conseqCfg p c).nScen = u8 p 0 ∧ (conseqCfg p c).scens.getD (u8 p 1) [] = conseqRec p 0 ∧
      (∀ n, n < u8 p 1 → (conseqCfg p c).scens.getD n [] = c.scens.getD n []) ∧ ∀ n, u8 p 0 ≤ n → (conseqCfg p c).scens.getD n [] = [] := by
  have hmax := scens_le v
  refine ⟨rfl, ?_, fun n h => ?_, fun n h => ?_⟩
  · rw [conseqCfg_scens, if_pos (by omega), if_neg (by omega), if_pos (by simp; omega), Nat.sub_self]
  · rw [conseqCfg_scens, if_pos (by omega), if_neg (by omega), if_neg (by simp; omega)]
  · rw [conseqCfg_scens, if_pos h, ite_self]

theorem checkDpWeights_set {r : Req} {s : State} (hjoy : u16 r.payload 44 = 0) (hflags : u8 r.payload 1 = 2) (h2 : 2 ≤ u8 r.payload 0)
    (h7 : u8 r.payload 0 ≤ 7) (hw : ∀ w ∈ weightRanges, w.2.1 ≤ u32 r.payload w.1 ∧ u32 r.payload w.1 ≤ w.2.2) : checkDpWeights r s = none := by
  have hb0 : bit (u8 r.payload 1) 0 = false := by rw [hflags]; rfl
  have hall : weightRanges.all (fun w => decide (w.2.1 ≤ u32 r.payload w.1) && decide (u32 r.payload w.1 ≤ w.2.2)) = true :=
    List.all_eq_true.mpr fun w h => by simpa using hw w h
  unfold checkDpWeights
  extract_lets p c hz n
  have hhz : hz = false := hb0
  rw [firstOf_need (by simp [p, hjoy]), firstOf_need (by simp only [p, h2, h7, hall]; simp), firstOf_need (by simp [hhz]),
    firstOf_need (by simp [hhz]), firstOf_need (by simp [hhz])]
  rfl

theorem weightsCfg_set {p : List Byte} (hjoy : u16 p 44 = 0) (hflags : u8 p 1 = 2) (c : Cfg) :
    weightsCfg p c = { c with weights := c.weights.set (u8 p 0 - 2) (weightsOf p) } := by
  have hb0 : bit 2 0 = false := rfl
  have hb1 : bit 2 1 = true := rfl
  simp [weightsCfg, hjoy, hflags, hb0, hb1]

theorem checkFallbackLoad_gains {r : Req} {s : State} (hmode : s.dp.mode ≤ 1) (hflags : u8 r.payload 0 = 1) : checkFallbackLoad r s = none := by
  have hb1 : bit 1 1 = false := rfl
  unfold checkFallbackLoad
  extract_lets p m
  rw [firstOf_need (by simp [engaged]; omega), firstOf_need (by simp [p, hflags, hb1])]
  rfl

theorem fallbackCfg_gains {p : List Byte} (hflags : u8 p 0 = 1) (c : Cfg) :
    fallbackCfg p c = { c with fbGains := (List.range 9).map fun i => i32 p (8 + 4 * i) } := by
  have hb0 : bit 1 0 = true := rfl
  have hb1 : bit 1 1 = false := rfl
  simp [fallbackCfg, hflags, hb0, hb1]

/-! ## The commands -/

theorem pendCfg_next (f : Cfg → Cfg) (s : State) : (pendCfg f s).cfgNext = some (f (cfgAhead s)) := pendCfg_cfgNext f s

/-- DP_STATUS answers 24 bytes that begin with the mode, and changes nothing (R501). -/
theorem dpStatus_answer (s : State) : ∃ pay, pay.length = 24 ∧ u8 pay 0 = s.dp.mode % 256 ∧ ∀ r, bodyDpStatus r s = .done .ok pay s := by
  refine ⟨_, by simp [leBytes], ?_, fun _ => rfl⟩
  rw [leBytes, u8, List.getD_cons_zero, pack, BitVec.toNat_ofNat]
  omega

/-- Settles O47: the check of each command, its acceptance at once, and what the acceptance changes. -/
theorem dpCommands : Obligations.DpCommands := by
  unfold Obligations.DpCommands
  refine ⟨?_, ?_, ?_, ?_, ?_, ?_, ?_, ?_, ?_, ?_, ?_, ?_⟩
  · intro r s pay htakes hcopy hjob hnone hlen hmode
    exact mbx_answers htakes (exactly_of_length hlen) (dpCommand_applies hcopy hjob hnone (checkDpModeSet_ok hmode))
  · intro r s htakes hlen hmode h2 h6
    exact mbx_done htakes (exactly_of_length hlen) (dpCommand_refuses (checkDpModeSet_from_off hmode h2 h6))
  · intro r s p pay htakes hcopy hjob hnone hlen h4 h6 hflags hn he h16 h18 h20 h22
    have hbody := dpCommand_applies hcopy hjob hnone (checkSetpointSet_position h4 h6 hn he h16 h18 h20 h22)
    rw [show applyDp 0x1002 r s = applySetpointSet r s from rfl, applySetpointSet_position h4 hflags h16 h18 h20 h22] at hbody
    exact mbx_answers htakes (exactly_of_length hlen) hbody
  · intro r s htakes hlen hmode
    exact mbx_done htakes (exactly_of_length hlen) (dpCommand_refuses (checkSetpointSet_mode hmode))
  · intro r s p pay htakes hcopy hjob hnone hlen hguard hcheck
    have hk := applyThrusterDefine_keeps hcopy
    exact ⟨_, mbx_answers htakes hlen (dpProtected_applies hcopy hjob hnone hguard hcheck), hk.cfg.trans (pendCfg_cfg _ s),
      hk.cfgNext.trans (pendCfg_next _ s), hk.dp.trans (pendCfg_dp _ s), hk.safe.trans (pendCfg_safe _ s)⟩
  · intro r s pay htakes hcopy hjob hnone hlen hguard hcheck
    have hk := applyPowerDefine_keeps hcopy
    exact ⟨_, mbx_answers htakes hlen (dpProtected_applies hcopy hjob hnone hguard hcheck), hk.cfg.trans (pendCfg_cfg _ s),
      hk.cfgNext.trans (pendCfg_next _ s), hk.dp.trans (pendCfg_dp _ s), hk.safe.trans (pendCfg_safe _ s)⟩
  · intro r s p pay htakes hcopy hjob hnone hlen hcount hn hlast hrec hno hscens hidle hqueue
    have hbody := dpCommand_applies hcopy hjob hnone (checkConseqConfig_one hcount hn hlast hrec hno)
    rw [show applyDp 0x1005 r s = applyConseqConfig r s from rfl, applyConseqConfig_idle hidle hqueue] at hbody
    obtain ⟨hnScen, hset, hbefore, hafter⟩ := conseqCfg_one (c := cfgAhead s) hcount hn hlast hscens
    refine ⟨_, conseqCfg p (cfgAhead s), mbx_answers htakes ?_ hbody, pendCfg_cfg _ s, pendCfg_next _ s, hnScen, hset, hbefore, hafter,
      pendCfg_dp _ s, pendCfg_safe _ s⟩
    have hc : u8 r.payload 2 = 1 := hcount
    have hl : r.payload.length = 20 := hlen
    simp [counted, hl, hc]
  · intro r s p pay htakes hcopy hjob hnone hlen hjoy hflags h2 h7 hw
    refine ⟨_, mbx_answers htakes (exactly_of_length hlen) (dpCommand_applies hcopy hjob hnone (checkDpWeights_set hjoy hflags h2 h7 hw)),
      pendCfg_cfg _ s, ?_, pendCfg_dp _ s, pendCfg_safe _ s⟩
    rw [show applyDp 0x1006 r s = pendCfg (weightsCfg p) s from rfl, pendCfg_next, weightsCfg_set hjoy hflags]
  · intro r s p htakes hcopy hjob hnone hlen hmode hflags
    refine ⟨_, mbx_answers htakes ?_ (dpCommand_applies hcopy hjob hnone (checkFallbackLoad_gains hmode hflags)),
      pendCfg_cfg _ s, ?_, pendCfg_dp _ s, pendCfg_safe _ s⟩
    · have hl : r.payload.length = 44 := hlen
      simp [lenFallbackLoad, hl]
    · rw [show applyDp 0x1007 r s = pendCfg (fallbackCfg p) s from rfl, pendCfg_next, fallbackCfg_gains hflags]
  · intro r s
    obtain ⟨pay, hlen, hmode, hbody⟩ := dpStatus_answer s
    exact ⟨pay, hlen, hmode, fun htakes hempty => mbx_answers htakes (by rw [hempty]; rfl) (hbody r)⟩
  · intro r s p htakes hcopy hjob hnone hlen
    refine ⟨_, mbx_answers htakes (exactly_of_length hlen) (dpCommand_applies (check := fun _ _ => none) hcopy hjob hnone rfl), rfl, ?_, rfl, rfl, rfl⟩
    exact alarmOn_clearAlarm 0x1016 0xFF _
  · intro r s p htakes hcopy hjob hnone hlen hn hmode hlo hhi
    have hc : u8 r.payload 0 = 1 := hn
    have hl : r.payload.length = 16 := hlen
    have happly : applyDp 0x100A r s = { s with dp := { s.dp with pend := { s.dp.pend with track := some [waypoint p 0] } } } := by
      show applyTrackLoad r s = _
      unfold applyTrackLoad
      rw [hc]
      rfl
    have hbody := dpCommand_applies hcopy hjob hnone (checkTrackLoad_one hn hmode hlo hhi)
    rw [happly] at hbody
    exact mbx_answers htakes (by simp [counted, hl, hc]) hbody

end Sys2Proof.Machine
end


section
/-! SUPPORT. A copy that a STANDBY manager holds until the other STANDBY managers have confirmed it too (R329). -/

namespace Sys2Proof.Machine

/-- A joystick demand that the ACTIVE manager has copied here. -/
def copiedDemand : Job where
  code := 0x1009
  req := { path := .relay 0 0, payload := List.replicate 16 0 }
  wait := [2]
  copy := true

/-- The STANDBY manager of device 1, which waits for device 2's confirmation of a copy. -/
def standbyHolding : State where
  variant := .MA
  rst := { life := .run, straps := 0x141 }
  brd := { active := 0 }
  mem := { role := .standby }
  hif := { copyJob := some copiedDemand }

/-- The last confirmation of a held copy: it is accepted and noted, and answered by nobody (R329). -/
theorem execCopyConfirm_holding : execCopyConfirm 2 0 0 standbyHolding =
    .next (takeCopy 0x1009 copiedDemand.req { standbyHolding with hif := { standbyHolding.hif with copyJob := none } }) := rfl

/-- Refutes O48: at a STANDBY manager that holds a copy itself the last confirmation notes the copy for a takeover (R180, R329), and
answers nothing, where the statement has it answered as at the ACTIVE manager. -/
theorem not_dpCopies : ¬ Obligations.DpCopies := by
  unfold Obligations.DpCopies
  rintro ⟨-, hconfirm, -⟩
  have hclaim := hconfirm 2 0 copiedDemand standbyHolding rfl rfl rfl rfl
  have hsame := congrArg State.dp (Host.Outcome.next.inj (execCopyConfirm_holding.symm.trans hclaim))
  rw [(quiet_finish _ _ _ _ _).dp] at hsame
  exact absurd (congrArg (fun d : Dp => d.copies.length) hsame) (by decide)

end Sys2Proof.Machine
end


section
/-! SUPPORT. Board and membership commands, class 0x02, and the Board stream (R372 to R385, R482). -/

namespace Sys2Proof.Machine

/-- A command that the mailbox takes is refused with the status and the bytes that its body gives, of any length. -/
theorem mbx_refused {code : Nat} {len : List Byte → Option Status} {body : Req → State → Ans} {r : Req} {st : Status} {pay : List Byte}
    {s u : State} (h : Takes code r [] s) (hl : len r.payload = none) (hst : st ≠ .ok) (hb : body r s = .done st pay u) :
    mbx code len body r s = .next (finish code r st pay u) := by
  obtain ⟨hup, hcloak, hserved, -⟩ := h
  have hrole : (if isCopy code r s then none else roleRefusal code s) = none := by
    rcases hserved with h | h <;> simp [h]
  have hlife : (decide (s.rst.life = .cloakroom) && !cloakServed code) = false := by
    by_cases hc : s.rst.life = .cloakroom
    · simp [hcloak hc]
    · simp [hc]
  unfold mbx
  rw [hup, hlife, hrole, hl, hb]
  cases r.dma with
  | none => rfl
  | some d => simp [hst]

theorem leBytes_length (n v : Nat) : (leBytes n v).length = n := by
  induction n generalizing v with
  | zero => rfl
  | succ n ih => simp [leBytes, ih]

/-! ## Reading images (R372, R373) -/

theorem bodyBoardRead_newest {r : Req} {i : Image} {x : Sec} {rest : List Image} {s : State} (hdma : r.dma = none)
    (hnewest : bit (u8 r.payload 5) 0 = true) (himages : s.brd.images = i :: rest) (hgood : s.brd.damaged.contains i.epoch = false)
    (hcode : u8 r.payload 4 ≠ 0xFF) (hsec : imgSec i (u8 r.payload 4) = some x) (h1 : 1 ≤ u8 r.payload 8) (h224 : u8 r.payload 8 ≤ 224)
    (hin : u16 r.payload 6 + u8 r.payload 8 ≤ x.bytes) : bodyBoardRead r s = .done .ok
      (leBytes 16 (pack [(32, i.epoch.toNat), (16, i.presence.toNat), (16, u16 r.payload 6), (8, u8 r.payload 8)]) ++
        ((secBytes x).drop (u16 r.payload 6)).take (u8 r.payload 8)) s := by
  have hread : readable s (bit (u8 r.payload 5) 0) (w32 r.payload 0) = some i := by
    rw [readable, hnewest, himages, List.find?_cons_of_pos (by simp), Option.filter_some, hgood]
    rfl
  have hrange : (u8 r.payload 8 = 0 || u8 r.payload 8 > 224) = false := by simp; omega
  have hlen : (secBytes x).length = x.bytes := leBytes_length _ _
  unfold bodyBoardRead
  dsimp only
  rw [hread]
  dsimp only
  rw [hdma, if_neg (show ¬ (none : Option Dma).isSome = true by decide), if_neg (by rw [hrange]; decide), if_neg hcode, hsec]
  dsimp only [Option.map_some]
  rw [if_neg (by rw [hlen]; omega)]
  rfl

theorem bodyBoardRead_none {r : Req} {s : State} (himages : s.brd.images = []) : bodyBoardRead r s = .done .stale (leBytes 8 0) s := by
  unfold bodyBoardRead heldEpochs
  dsimp only
  rw [readable, himages]
  rfl

/-! ## The Board stream (R374, R375) -/

theorem bodyBoardStreamStart_slot {n : Fin 31} {r : Req} {s : State} (hpath : r.path = .slot n) (halign : ule r.payload 0 8 % 4096 = 0)
    (hslots : u32 r.payload 8 = 16) (hoff : s.brd.stream.on = false) : bodyBoardStreamStart r s = .done .ok []
      (updBrd (fun b => { b with stream := {
        on := true, base := BitVec.ofNat 64 (ule r.payload 0 8), slots := 16, consumedAddr := BitVec.ofNat 64 (ule r.payload 12 8) } }) s) := by
  unfold bodyBoardStreamStart
  rw [hpath]
  dsimp only
  rw [if_neg Bool.false_ne_true, if_neg (not_not.mpr halign), hslots, if_neg (by decide), hoff, if_neg Bool.false_ne_true]
  rfl

theorem bodyBoardStreamStop_on {r : Req} {s : State} (hon : s.brd.stream.on = true) : bodyBoardStreamStop r s =
    .done .ok (leBytes 4 s.brd.stream.written) (updBrd (fun b => { b with stream := { b.stream with on := false, queue := [] } }) s) := by
  unfold bodyBoardStreamStop
  rw [hon]
  rfl

theorem execBoardStreamSlot_writes {c : Word} {i : Image} {q : List Image} {s : State} (hqueue : s.brd.stream.queue = i :: q)
    (hon : s.brd.stream.on = true) (hfree : (wd s.brd.stream.written - c).toNat ≠ s.brd.stream.slots) :
    let st := s.brd.stream
    let a := st.base + BitVec.ofNat 64 (16384 * (st.written % st.slots))
    let seq := (st.written + 1) % 2 ^ 32
    execBoardStreamSlot c s = .next { s with
      outs := s.outs ++ [.hostRead st.consumedAddr 4] ++ [.hostWrite a (imageBytes i)] ++ [.hostWrite (a + 16352)
        (leBytes 32 (pack [(32, seq), (32, i.epoch.toNat), (32, (imageBytes i).length), (32, st.skipped)]))]
      brd := { s.brd with stream := { st with queue := q, written := seq, skipped := 0 }, counts := addAt s.brd.counts 8 1 } } := by
  intro st a seq
  have hq : st.queue = i :: q := hqueue
  have ho : st.on = true := hon
  unfold execBoardStreamSlot
  extract_lets
  rw [hq]
  dsimp only
  rw [ho, if_neg (by decide), if_neg hfree]
  rfl

theorem execBoardStreamSlot_skips {c : Word} {i : Image} {q : List Image} {s : State} (hqueue : s.brd.stream.queue = i :: q)
    (hon : s.brd.stream.on = true) (hfull : (wd s.brd.stream.written - c).toNat = s.brd.stream.slots) : ∃ first u,
    execBoardStreamSlot c s = .next (event 0x0219 1 [BitVec.toNat first, s.brd.stream.skipped + 1] u) ∧
    u.brd = { s.brd with
      stream := { s.brd.stream with queue := q, skipped := s.brd.stream.skipped + 1, firstSkip := first }
      counts := addAt s.brd.counts 9 1 } ∧ u.safe = s.safe ∧ u.dp = s.dp := by
  unfold execBoardStreamSlot
  extract_lets st
  rw [show st.queue = i :: q from hqueue]
  dsimp only
  rw [show st.on = true from hon, if_neg (by decide), if_pos hfull]
  exact ⟨_, _, rfl, rfl, rfl, rfl⟩

theorem bodyBoardStatus_manager {r : Req} {s : State} (hrole : s.mem.role ≠ .worker) : bodyBoardStatus r s = .done .ok (words s.brd.counts)
    (if bit (u8 r.payload 0) 0 then updBrd (fun b => { b with counts := List.replicate 10 0 }) s else s) := by
  unfold bodyBoardStatus
  dsimp only
  rw [if_neg hrole]
  rfl

/-! ## Members (R377, R379) -/

theorem quiet_sendAnswer (dev status : Nat) (s : State) : Quiet s (sendAnswer dev status s) := by
  unfold sendAnswer answerOnly
  exact (Quiet.ite (quiet_emit _ s) (.refl s)).trans (quiet_sendSys _ _ _ _ _)

theorem bodyJoinPermit_admits {r : Req} {s : State} (hd : u8 r.payload 0 ≤ 63) (hpending : u8 r.payload 0 ∈ s.mem.pendingJoin.map (·.1))
    (hpermit : bit (u8 r.payload 1) 0 = false) : bodyJoinPermit r s = .done .ok [] (admitMember (u8 r.payload 0) s) := by
  have hany : s.mem.pendingJoin.any (·.1 = u8 r.payload 0) = true := by
    obtain ⟨x, hx, hxd⟩ := List.mem_map.mp hpending
    exact List.any_eq_true.mpr ⟨x, hx, by simpa using hxd⟩
  unfold bodyJoinPermit
  dsimp only
  rw [if_neg (by omega), hany, if_neg (by decide), hpermit, if_neg Bool.false_ne_true]
  rfl

/-- An admitted device no longer waits for a permit, and only membership and the DEVICES table change (R378). -/
theorem admitMember_keeps (d : Nat) (s : State) : d ∈ (admitMember d s).mem.admitted ∧ d ∉ (admitMember d s).mem.pendingJoin.map (·.1) ∧
    (admitMember d s).cfg = s.cfg ∧ (admitMember d s).safe = s.safe ∧ (admitMember d s).dp = s.dp := by
  unfold admitMember
  extract_lets s1
  have h : ∃ b, (if (s1.brd.devices.getD d {}).role = 5 then updDev d (fun x => { x with role := 0 }) s1 else s1) = { s1 with brd := b } := by
    split <;> exact ⟨_, rfl⟩
  obtain ⟨b, hb⟩ := h
  rw [hb]
  have hq := quiet_sendAnswer d 0 { s1 with brd := b }
  refine ⟨?_, ?_, hq.cfg, hq.safe, hq.dp⟩
  · rw [hq.mem]
    show d ∈ if s.mem.admitted.contains d then s.mem.admitted else s.mem.admitted ++ [d]
    split
    · next h => simpa using h
    · simp
  · rw [hq.mem]
    show d ∉ (s.mem.pendingJoin.filter (·.1 ≠ d)).map (·.1)
    simp

theorem bodyLeave_declares {r : Req} {s : State} (hother : u8 r.payload 0 ≠ s.dev) (hmember : (s.brd.devices.getD (u8 r.payload 0) {}).member = true)
    (hquorum : s.quorum ≤ membersAfter (u8 r.payload 0) s) (hleaving : s.mem.leaving = []) : bodyLeave r s =
      .done .ok (leBytes 4 (nextClose s).toNat) { s with mem := { s.mem with leaving := [u8 r.payload 0] } } := by
  unfold bodyLeave
  dsimp only
  rw [if_neg hother, hmember, if_neg (by decide), if_neg (Nat.not_lt.mpr hquorum), updMem, hleaving]
  rfl

/-! ## Configuration and installation table (R482) -/

theorem bodyMemberConfig_window {r : Req} {s : State} (hlo : 100 ≤ u16 r.payload 2) (hhi : u16 r.payload 2 ≤ 5000)
    (hcycle : bit (u8 r.payload 0) 1 = false) : bodyMemberConfig r s =
      .done .ok [] (setCfg (fun g => { g with autoJoin := bit (u8 r.payload 0) 0, window := u16 r.payload 2 }) s) := by
  unfold bodyMemberConfig
  dsimp only
  rw [hcycle, if_neg (by simp [hlo, hhi])]
  rfl

/-- The state after a MEMBER_CONFIG with CYCLE. -/
def cycleConfigured (p : List Byte) (s : State) : State :=
  let s1 := setCfg (fun g => { g with autoJoin := bit (u8 p 0) 0, window := u16 p 2 }) s
  let s2 := setCfg (fun g => { g with epochLen := u8 p 4, cycleLen := u8 p 5, closeOff := u16 p 6 }) s1
  { s2 with cyc := { s2.cyc with e := u8 p 4, k := u8 p 5, c := u16 p 6 } }

theorem bodyMemberConfig_cycle {r : Req} {s : State} (hlo : 100 ≤ u16 r.payload 2) (hhi : u16 r.payload 2 ≤ 5000)
    (hcycle : bit (u8 r.payload 0) 1 = true) (he : 5 ≤ u8 r.payload 4 ∧ u8 r.payload 4 ≤ 100) (hk : 2 ≤ u8 r.payload 5 ∧ u8 r.payload 5 ≤ 25)
    (hc : 20 ≤ u16 r.payload 6 ∧ u16 r.payload 6 ≤ 5 * u8 r.payload 4) (hrun : anyRun s = false) :
    bodyMemberConfig r s = .done .ok [] (cycleConfigured r.payload s) := by
  unfold bodyMemberConfig
  dsimp only
  rw [hcycle, if_neg (by simp [hlo, hhi]), if_neg (by simp [he, hk, hc]), hrun, if_neg (by decide)]
  rfl

theorem tableOf_one {p : List Byte} (hn : u8 p 0 = 1) : tableOf p = [(u8 p 4, bits (u8 p 5) 4 4, bits (u8 p 5) 0 4)] := by
  rw [tableOf, hn]
  rfl

theorem bodyInstallTable_one {r : Req} {s : State} (hn : u8 r.payload 0 = 1) (hd : u8 r.payload 4 ≤ 63)
    (hkind : u8 r.payload 5 = 0x11 ∨ u8 r.payload 5 = 0x43) (hrun : s.inRun = false) (hnext : s.mem.tableNext = none) :
    bodyInstallTable r s = .done .ok (leBytes 4 (s.cfg.tableGen + 1).toNat) (setCfg (fun g => { g with
      table := [(u8 r.payload 4, u8 r.payload 5 / 16, u8 r.payload 5 % 16)], tableGen := s.cfg.tableGen + 1 }) s) := by
  have htable : tableOf r.payload = [(u8 r.payload 4, u8 r.payload 5 / 16, u8 r.payload 5 % 16)] := by
    rw [tableOf_one hn]
    rcases hkind with h | h <;> rw [h] <;> rfl
  have hok : ([(u8 r.payload 4, u8 r.payload 5 / 16, u8 r.payload 5 % 16)].all fun e => (e.2.1 = 1 || e.2.1 = 4) && 1 ≤ e.2.2 && e.2.2 ≤ 3) = true := by
    rcases hkind with h | h <;> simp [h]
  unfold bodyInstallTable
  dsimp only
  rw [htable, hnext, hrun, if_neg (by simpa using hd), hok, if_neg (by simp), if_neg (by simp), if_neg Bool.false_ne_true]
  rfl

/-- Settles O49: the body of each command, and one slot of the stream. -/
theorem boardCommands : Obligations.BoardCommands := by
  unfold Obligations.BoardCommands
  refine ⟨?_, ?_, ?_, ?_, ?_, ?_, ?_, ?_, ?_, ?_, ?_, ?_⟩
  · intro r i x rest s p pay htakes hdma hlen hnewest himages hgood hcode hsec h1 h224 hin
    exact mbx_answers htakes (exactly_of_length hlen) (bodyBoardRead_newest hdma hnewest himages hgood hcode hsec h1 h224 hin)
  · intro r s htakes hlen himages
    exact mbx_refused htakes (exactly_of_length hlen) (by decide) (bodyBoardRead_none himages)
  · intro n r s p htakes hpath hlen halign hslots hoff
    exact mbx_answers htakes (exactly_of_length hlen) (bodyBoardStreamStart_slot hpath halign hslots hoff)
  · intro r s pay htakes hempty hon
    exact mbx_answers htakes (by rw [hempty]; rfl) (bodyBoardStreamStop_on hon)
  · intro c i q s st a seq hqueue hon hfree
    refine ⟨_, execBoardStreamSlot_writes hqueue hon hfree, ?_, rfl, rfl, rfl, rfl⟩
    simp [st, a, seq]
  · intro c i q s st hqueue hon hfull
    obtain ⟨first, u, hexec, hbrd, hsafe, hdp⟩ := execBoardStreamSlot_skips hqueue hon hfull
    refine ⟨_, hexec, ?_, ?_, ?_, ?_, ?_, ?_⟩
    · rw [event_brd, hbrd]
    · rw [event_brd, hbrd]
    · rw [event_brd, hbrd]
    · rw [event_brd, hbrd]
    · rw [event_safe, hsafe]
    · rw [event_dp, hdp]
  · intro r s pay htakes hlen hrole
    exact mbx_answers htakes (exactly_of_length hlen) (bodyBoardStatus_manager hrole)
  · intro r s d htakes hlen hd hpending hpermit
    exact ⟨_, mbx_answers htakes (exactly_of_length hlen) (bodyJoinPermit_admits hd hpending hpermit), admitMember_keeps d s⟩
  · intro r s d pay htakes hlen hother hmember hquorum hleaving
    exact mbx_answers htakes (exactly_of_length hlen) (bodyLeave_declares hother hmember hquorum hleaving)
  · intro r s p htakes hlen hlo hhi hcycle
    exact mbx_answers htakes (exactly_of_length hlen) (bodyMemberConfig_window hlo hhi hcycle)
  · intro r s p htakes hlen hlo hhi hcycle he5 he100 hk2 hk25 hc20 hc hrun
    refine ⟨cycleConfigured p s, mbx_answers htakes (exactly_of_length hlen)
      (bodyMemberConfig_cycle hlo hhi hcycle ⟨he5, he100⟩ ⟨hk2, hk25⟩ ⟨hc20, hc⟩ hrun), ?_, ?_, ?_, ?_⟩
    · simp [cycleConfigured]
    · simp [cycleConfigured]
    · simp [cycleConfigured]
    · simp [cycleConfigured]
  · intro r s p pay htakes hlen hn hd hkind hrun hnext
    have hl : r.payload.length = 6 := hlen
    have hc : u8 r.payload 0 = 1 := hn
    exact ⟨_, mbx_answers htakes (by simp [counted, hl, hc]) (bodyInstallTable_one hn hd hkind hrun hnext), setCfg_cfg _ s, setCfg_safe _ s,
      setCfg_dp _ s⟩

end Sys2Proof.Machine
end


section
/-! SUPPORT. Leaves, missed publications and the installation of an image at a worker (R363, R368, R369, R379, R380). -/

namespace Sys2Proof.Machine

/-! ## A leave (R379, R380) -/

theorem quiet_dropRelays (d : Nat) (s : State) : Quiet s (dropRelays d s) := by
  unfold dropRelays
  exact Quiet.foldl (fun t x => ((quiet_hif t { t.hif with relays := t.hif.relays.filter (· ≠ x) }).trans (quiet_trace _ _ _ _)).trans
    (quiet_respond _ _ _ _ _)) _ s

/-- Forgetting a leaver writes the frames' count and what recording and answering write. -/
theorem forget_keeps (d : Nat) (s : State) : ∃ c l, Quiet { s with brd := { s.brd with counts := c }, link := l } (forget d s).1 :=
  ⟨_, _, quiet_dropRelays d (dropFrames d s).1⟩

/-- What a committed leave leaves behind: the DEVICES record, the records that are still to be committed, everything else of the plant. -/
structure Left (l : Word) (d : Nat) (s t : State) : Prop where
  devices : ∃ n, t.brd.devices = upd s.brd.devices d fun x => { x with role := 0, drops := n, left := some l }
  held : ∀ h ∈ t.brd.held, h.rec_.src = d → epochDiff h.rec_.epoch l < 0
  thr : t.brd.thr = s.brd.thr
  cfg : t.cfg = s.cfg
  safe : t.safe = s.safe
  dp : t.dp = s.dp

theorem left_leaveCommit {l : Word} {how d : Nat} {s : State} (hmember : (s.brd.devices.getD d {}).member = true) :
    Left l d s (leaveCommit l how d s) := by
  obtain ⟨c, k, hq⟩ := forget_keeps d s
  unfold leaveCommit
  rw [hmember, if_neg (by decide)]
  extract_lets r gone s1 s2 s3
  have hbrd : r.1.brd = { s.brd with counts := c } := hq.brd
  have hcfg : r.1.cfg = s.cfg := hq.cfg
  have hsafe : r.1.safe = s.safe := hq.safe
  have hdp : r.1.dp = s.dp := hq.dp
  clear_value r
  refine ⟨⟨min 65535 r.2, ?_⟩, fun h hh hsrc => ?_, ?_, ?_, ?_, ?_⟩
  · rw [event_brd]
    show upd r.1.brd.devices d _ = _
    rw [hbrd]
  · rw [event_brd] at hh
    change h ∈ r.1.brd.held.filter (fun h => !gone.contains h) at hh
    obtain ⟨hheld, hstays⟩ := List.mem_filter.mp hh
    have hnot : h ∉ gone := by simpa using hstays
    by_contra hlate
    exact hnot (List.mem_filter.mpr ⟨hheld, by simp [hsrc, Int.not_lt.mp hlate]⟩)
  · rw [event_brd]
    show r.1.brd.thr = _
    rw [hbrd]
  · simp only [event_cfg, memberChange, updBrd_cfg, s3, updMem_cfg, s2, updDev_cfg, s1, brdCount, hcfg]
  · simp only [event_safe, memberChange, updBrd_safe, s3, updMem_safe, s2, updDev_safe, s1, brdCount, hsafe]
  · simp only [event_dp, memberChange, updBrd_dp, s3, updMem_dp, s2, updDev_dp, s1, brdCount, hdp]

/-! ## Thrusters of a leaver (R380) -/

/-- `t` differs from `s` at most in the THRUSTERS records, of which there are as many, and in what recording writes. -/
structure ThrOnly (s t : State) : Prop where
  brd : t.brd = { s.brd with thr := t.brd.thr }
  length : t.brd.thr.length = s.brd.thr.length
  cfg : t.cfg = s.cfg
  safe : t.safe = s.safe
  dp : t.dp = s.dp

theorem thrOnly_setThr (e : Word) (n : Nat) (r : ThrRec) (s : State) : ThrOnly s (setThr e n r s) ∧ (setThr e n r s).brd.thr = s.brd.thr.set n r := by
  unfold setThr
  extract_lets old src s1
  split
  · exact ⟨⟨rfl, List.length_set, rfl, rfl, rfl⟩, rfl⟩
  · refine ⟨⟨?_, ?_, ?_, ?_, ?_⟩, ?_⟩
    · rw [event_brd]
    · rw [event_brd]
      exact List.length_set
    · rw [event_cfg]
    · rw [event_safe]
    · rw [event_dp]
    · rw [event_brd]

theorem absentThr_idem (r : ThrRec) : absentThr (absentThr r) = absentThr r := rfl

theorem thr_setThr (e : Word) (k n : Nat) (r : ThrRec) (s : State) : (setThr e k r s).brd.thr.getD n {} =
    if k = n ∧ k < s.brd.thr.length then r else s.brd.thr.getD n {} := by
  rw [(thrOnly_setThr e k r s).2, List.getD_eq_getElem?_getD, List.getD_eq_getElem?_getD, List.getElem?_set]
  split
  · next h =>
    subst h
    split
    · next hk => rw [if_pos ⟨rfl, hk⟩]; rfl
    · next hk => rw [if_neg fun h => hk h.2, List.getElem?_eq_none (Nat.le_of_not_lt hk)]
  · next h => rw [if_neg fun hc => h hc.1]

/-- Thrusters declared absent one after the other. -/
theorem foldl_absent (e : Word) (l : List Nat) (s : State) :
    ThrOnly s (l.foldl (fun t n => setThr e n (absentThr (t.brd.thr.getD n {})) t) s) ∧
    ∀ n, (l.foldl (fun t n => setThr e n (absentThr (t.brd.thr.getD n {})) t) s).brd.thr.getD n {} =
      if n ∈ l ∧ n < s.brd.thr.length then absentThr (s.brd.thr.getD n {}) else s.brd.thr.getD n {} := by
  induction l generalizing s with
  | nil => exact ⟨⟨rfl, rfl, rfl, rfl, rfl⟩, fun n => by simp⟩
  | cons k l ih =>
    have hfirst := (thrOnly_setThr e k (absentThr (s.brd.thr.getD k {})) s).1
    obtain ⟨hrest, hall⟩ := ih (setThr e k (absentThr (s.brd.thr.getD k {})) s)
    refine ⟨⟨?_, hrest.length.trans hfirst.length, hrest.cfg.trans hfirst.cfg, hrest.safe.trans hfirst.safe, hrest.dp.trans hfirst.dp⟩,
      fun n => ?_⟩
    · rw [List.foldl_cons, hrest.brd, hfirst.brd]
    · rw [List.foldl_cons, hall, hfirst.length, thr_setThr]
      by_cases hk : k = n
      · subst hk
        by_cases hlen : k < s.brd.thr.length <;> simp [hlen, absentThr_idem]
      · simp [hk, Ne.symm hk]

theorem execMissedEpochs_leaves {d : Fin 64} {i : Image} {s : State} (hopen : s.brd.open_ = some i) (hactive : s.isActive = true)
    (hmember : (s.brd.devices.getD d {}).member = true) (hmissed : 3 ≤ (s.brd.devices.getD d {}).missed) (hother : d.val ≠ s.dev) :
    execMissedEpochs d s = .next (((List.range 24).filter fun n => let r := s.brd.thr.getD n {}; r.number ≠ 0 && r.dev = d.val).foldl
      (fun t n => setThr i.epoch n (absentThr (t.brd.thr.getD n {})) t) (leaveCommit i.epoch 1 d s)) := by
  unfold execMissedEpochs
  extract_lets x
  rw [hopen]
  dsimp only
  have hx : x.member = true := hmember
  have hlate : ¬ x.missed < 3 := Nat.not_lt.mpr hmissed
  rw [if_neg (by simp [hactive, hother, hx, hlate])]

theorem missedEpochs_leaves {d : Fin 64} {i : Image} {s : State} (hopen : s.brd.open_ = some i) (hactive : s.isActive = true)
    (hmember : (s.brd.devices.getD d {}).member = true) (hmissed : 3 ≤ (s.brd.devices.getD d {}).missed) (hother : d.val ≠ s.dev)
    (hdevices : s.brd.devices.length = 64) (hthr : s.brd.thr.length = 24) :
    ∃ t, exec (.missedEpochs d) s = .next t ∧ (t.brd.devices.getD d {}).role = 0 ∧ (t.brd.devices.getD d {}).left = some i.epoch ∧
      (∀ n, n < 24 → (s.brd.thr.getD n {}).number ≠ 0 → (s.brd.thr.getD n {}).dev = d.val →
        (t.brd.thr.getD n {}).avail = 2 ∧ (t.brd.thr.getD n {}).reason = 1) ∧
      (∀ h ∈ t.brd.held, h.rec_.src = d.val → epochDiff h.rec_.epoch i.epoch < 0) ∧ t.cfg = s.cfg ∧ t.safe = s.safe ∧ t.dp = s.dp := by
  have hleft : Left i.epoch d s (leaveCommit i.epoch 1 d s) := left_leaveCommit hmember
  obtain ⟨hkeep, habsent⟩ := foldl_absent i.epoch
    ((List.range 24).filter fun n => let r := s.brd.thr.getD n {}; r.number ≠ 0 && r.dev = d.val) (leaveCommit i.epoch 1 d s)
  obtain ⟨drops, hdev⟩ := hleft.devices
  refine ⟨_, execMissedEpochs_leaves hopen hactive hmember hmissed hother, ?_, ?_, fun n hn hnumber hmine => ?_, fun h hh hsrc => ?_,
    hkeep.cfg.trans hleft.cfg, hkeep.safe.trans hleft.safe, hkeep.dp.trans hleft.dp⟩
  · rw [hkeep.brd, hdev, upd_getD, if_pos ⟨rfl, by rw [hdevices]; exact d.isLt⟩]
  · rw [hkeep.brd, hdev, upd_getD, if_pos ⟨rfl, by rw [hdevices]; exact d.isLt⟩]
  · rw [habsent, hleft.thr, if_pos ⟨List.mem_filter.mpr ⟨List.mem_range.mpr hn, by dsimp only; rw [decide_eq_true hnumber, decide_eq_true hmine]; rfl⟩, by rw [hthr]; exact hn⟩]
    exact ⟨rfl, rfl⟩
  · rw [hkeep.brd] at hh
    exact hleft.held h hh hsrc

/-! ## Publications that never completed (R369) -/

theorem execPubIncomplete_standby {e : Word} {n : Nat} {s : State} (hrun : s.inRun = true) (hrole : s.mem.role = .standby)
    (himages : s.brd.images = []) (hlate : 2 ≤ epochDiff s.cyc.epoch e) : execPubIncomplete e n s =
      .next (event 0x0216 2 [e.toNat, n] { s with mem := { s.mem with leaveSelf := true } }) := by
  unfold execPubIncomplete
  dsimp only
  rw [if_neg (by simp [hrun, himages, State.isActive, hrole]; omega), if_neg (by rw [hrole]; decide), if_pos hrole]
  rfl

theorem execPubIncomplete_worker {e : Word} {n : Nat} {s : State} (hrun : s.inRun = true) (hrole : s.mem.role = .worker)
    (himages : s.brd.images = []) (hlate : 2 ≤ epochDiff s.cyc.epoch e) : execPubIncomplete e n s =
      .next { s with brd := { s.brd with counts := addAt s.brd.counts 5 1 } } := by
  unfold execPubIncomplete
  dsimp only
  rw [if_neg (by simp [hrun, himages, State.isActive, hrole]; omega), if_pos hrole]
  rfl

/-! ## An image installed at a worker (R368) -/

/-- `t` has what an installation at a worker looks at and concludes of as `s` has it. -/
structure KeepsInstall (s t : State) : Prop where
  variant : t.variant = s.variant
  life : t.rst.life = s.rst.life
  straps : t.rst.straps = s.rst.straps
  role : t.mem.role = s.mem.role
  images : t.brd.images = s.brd.images
  active : t.brd.active = s.brd.active
  closed : t.cyc.closed = s.cyc.closed
  causes : t.safe.causes = s.safe.causes
  dp : t.dp = s.dp

namespace KeepsInstall

theorem refl (s : State) : KeepsInstall s s := ⟨rfl, rfl, rfl, rfl, rfl, rfl, rfl, rfl, rfl⟩

theorem trans {s t u : State} (h : KeepsInstall s t) (h' : KeepsInstall t u) : KeepsInstall s u where
  variant := h'.variant.trans h.variant
  life := h'.life.trans h.life
  straps := h'.straps.trans h.straps
  role := h'.role.trans h.role
  images := h'.images.trans h.images
  active := h'.active.trans h.active
  closed := h'.closed.trans h.closed
  causes := h'.causes.trans h.causes
  dp := h'.dp.trans h.dp

theorem of_quiet {s t : State} (h : Quiet s t) : KeepsInstall s t where
  variant := h.variant
  life := by have e := congrArg Rst.life h.rst; exact e
  straps := by have e := congrArg Rst.straps h.rst; exact e
  role := by rw [h.mem]
  images := by rw [h.brd]
  active := by rw [h.brd]
  closed := by rw [h.cyc]
  causes := by rw [h.safe]
  dp := h.dp

theorem ite {s t u : State} {c : Prop} [Decidable c] (ht : KeepsInstall s t) (hu : KeepsInstall s u) : KeepsInstall s (if c then t else u) := by
  split
  · exact ht
  · exact hu

theorem foldl {α : Type} {f : State → α → State} (hf : ∀ s a, KeepsInstall s (f s a)) (l : List α) (s : State) :
    KeepsInstall s (l.foldl f s) := by
  induction l generalizing s with
  | nil => exact refl s
  | cons a l ih => exact (hf s a).trans (ih (f s a))

end KeepsInstall

theorem keepsInstall_updMem {f : Mem → Mem} (h : ∀ m, (f m).role = m.role) (s : State) : KeepsInstall s (updMem f s) :=
  ⟨rfl, rfl, rfl, h s.mem, rfl, rfl, rfl, rfl, rfl⟩

theorem keepsInstall_inputBack (p : LoopCfg → Bool) (s : State) : KeepsInstall s (inputBack p s) :=
  ⟨rfl, rfl, rfl, rfl, rfl, rfl, rfl, rfl, rfl⟩

theorem keepsInstall_updateGates (s : State) : KeepsInstall s (updateGates s) := ⟨rfl, rfl, rfl, rfl, rfl, rfl, rfl, rfl, rfl⟩

theorem keepsInstall_adoptLeaves (i : Image) (old : List DevRec) (s : State) : KeepsInstall s (adoptLeaves i old s) := by
  unfold adoptLeaves
  refine .foldl (fun t d => ?_) _ s
  obtain ⟨c, l, hq⟩ := forget_keeps d t
  have hset : KeepsInstall t { t with brd := { t.brd with counts := c }, link := l } := ⟨rfl, rfl, rfl, rfl, rfl, rfl, rfl, rfl, rfl⟩
  exact (hset.trans (.of_quiet hq)).trans ⟨rfl, rfl, rfl, rfl, rfl, rfl, rfl, rfl, rfl⟩

theorem keepsInstall_adoptTime (i : Image) (s : State) : KeepsInstall s (adoptTime i s) := by
  unfold adoptTime
  extract_lets f q flags at_ pending missed cyc time s1
  have h1 : KeepsInstall s s1 := ⟨rfl, rfl, rfl, rfl, rfl, rfl, rfl, rfl, rfl⟩
  exact .ite (h1.trans ⟨rfl, rfl, rfl, rfl, rfl, rfl, rfl, rfl, rfl⟩) h1

theorem keepsInstall_adoptPlant (i : Image) (s : State) : KeepsInstall s (adoptPlant i s) :=
  .ite ⟨rfl, rfl, rfl, rfl, rfl, rfl, rfl, rfl, rfl⟩ ⟨rfl, rfl, rfl, rfl, rfl, rfl, rfl, rfl, rfl⟩

theorem keepsInstall_flrTrigger (k n : Nat) (on : Bool) (s : State) : KeepsInstall s (flrTrigger k n on s) := by
  unfold flrTrigger
  extract_lets f rise f1 f2 old s1 s2
  have h1 : KeepsInstall s s1 := ⟨rfl, rfl, rfl, rfl, rfl, rfl, rfl, rfl, rfl⟩
  have h2 : KeepsInstall s s2 := .ite (h1.trans (.of_quiet (quiet_event _ _ _ s1))) h1
  exact .ite (.refl s) (h2.trans ⟨rfl, rfl, rfl, rfl, rfl, rfl, rfl, rfl, rfl⟩)

theorem keepsInstall_flrBoard (s : State) : KeepsInstall s (flrBoard s) := by
  unfold flrBoard
  refine .foldl (fun t n => ?_) _ s
  split
  · exact keepsInstall_flrTrigger _ _ _ t
  · exact .refl t

theorem keepsInstall_settleSilent (old : Option Image) (i : Image) (s : State) : KeepsInstall s (settleSilent old i s) := by
  unfold settleSilent
  refine .foldl (fun t m => ?_) _ s
  exact .ite ⟨rfl, rfl, rfl, rfl, rfl, rfl, rfl, rfl, rfl⟩ (.refl t)

theorem keepsInstall_driveOutputs (s : State) : KeepsInstall s (driveOutputs s) := by
  unfold driveOutputs gloveSettle
  exact .ite ⟨rfl, rfl, rfl, rfl, rfl, rfl, rfl, rfl, rfl⟩ ⟨rfl, rfl, rfl, rfl, rfl, rfl, rfl, rfl, rfl⟩

theorem histoSample_worker {i : Image} {s : State} (h : s.isManager = false) : histoSample i s = s := by
  unfold histoSample
  rw [h]
  rfl

theorem captureImage_worker {before : List Alarm} {i : Image} {s : State} (h : s.isManager = false) : captureImage before i s = s :=
  if_pos (by simp [h])

theorem isManager_congr {s t : State} (h : KeepsInstall s t) : t.isManager = s.isManager := by
  unfold State.isManager State.strap State.dev
  rw [h.variant, h.straps]

/-- A worker with no image takes one: the image joins the list, whatever else changes is not its roles, mode or causes. -/
theorem keepsInstall_imageTaken_worker {i : Image} {s : State} (hmanager : s.isManager = false) (hrole : s.mem.role = .worker)
    (himages : s.brd.images = []) : ∃ b, b.images = [i] ∧ b.active = s.brd.active ∧ KeepsInstall { s with brd := b } (imageTaken i s) := by
  unfold imageTaken
  extract_lets old gen alarms keep s1 s2 s3 told s4 s5
  have hs1 : ∃ b, s1 = { s with brd := b } ∧ b.active = s.brd.active ∧ b.images = [i] := by
    refine ⟨_, rfl, rfl, ?_⟩
    simp [keep, hmanager, himages]
  obtain ⟨b, h1, hactive, hb⟩ := hs1
  have h2 : KeepsInstall { s with brd := b } s2 := by
    rw [← h1]
    exact (KeepsInstall.ite (.of_quiet (quiet_raiseIrq 6 s1)) (.refl s1)).trans (keepsInstall_settleSilent _ _ _)
  have hm2 : s2.isManager = false := (isManager_congr h2).trans hmanager
  have h3 : s3 = s2 := by
    unfold s3
    rw [histoSample_worker hm2, captureImage_worker hm2]
  have h4 : KeepsInstall s3 s4 := keepsInstall_updMem (f := fun m => { m with compares := m.compares.filter (!told ·) }) (fun _ => rfl) s3
  have h5 : KeepsInstall s4 s5 :=
    ((keepsInstall_inputBack _ s4).trans (keepsInstall_flrBoard _)).trans (keepsInstall_updateGates _)
  have hall : KeepsInstall { s with brd := b } s5 := (h2.trans (h3 ▸ h4)).trans h5
  have hno : s5.isMgrRole = false := by
    unfold State.isMgrRole
    rw [show s5.mem.role = .worker from hall.role.trans hrole]
    rfl
  refine ⟨b, hb, hactive, ?_⟩
  rw [hno, if_neg Bool.false_ne_true]
  exact hall

theorem installWorker_keeps {i : Image} {s : State} (hmanager : s.isManager = false) (hrole : s.mem.role = .worker)
    (himages : s.brd.images = []) : (driveOutputs (installWorker i s)).brd.images = [i] ∧
      (driveOutputs (installWorker i s)).cyc.closed = s.cyc.closed ∧ (driveOutputs (installWorker i s)).dp.mode = imgFld i 3 256 8 ∧
      (driveOutputs (installWorker i s)).brd.active = s.brd.active ∧ (driveOutputs (installWorker i s)).mem.role = .worker ∧
      (driveOutputs (installWorker i s)).safe.causes = s.safe.causes := by
  have hp := keepsInstall_adoptPlant i s
  have hpm := (isManager_congr hp).trans hmanager
  unfold installWorker
  generalize adoptPlant i s = x at hp hpm
  obtain ⟨b, hb, hactive, htaken⟩ := keepsInstall_imageTaken_worker (i := i) (s := updDp (fun d => { d with mode := imgFld i 3 256 8 }) x)
    hpm (hp.role.trans hrole) (hp.images.trans himages)
  have hd := htaken.trans (keepsInstall_driveOutputs _)
  rw [hd.images, hd.closed, hd.dp, hd.active, hd.role, hd.causes]
  exact ⟨hb, hp.closed, rfl, hactive.trans hp.active, hp.role.trans hrole, hp.causes⟩

theorem ownListed_worker {i : Image} {s : State} (hrun : s.inRun = true) (hrole : (imgDev i s.dev).role = 4) : ownListed i s = s := by
  have hlife : s.rst.life = .run := by simpa [State.inRun] using hrun
  unfold ownListed
  extract_lets r joined alone
  have hjoined : joined = false := by simp [joined, hlife]
  have hr : r = 4 := hrole
  rw [hjoined, if_neg Bool.false_ne_true, hrun, if_neg (by decide), if_neg (by simp [hr]), if_neg (by simp [hr]), if_neg (by simp [hr])]

theorem install_worker {i : Image} {s : State} (hrun : s.inRun = true) (hrole : s.mem.role = .worker) (hmanager : s.isManager = false)
    (himages : s.brd.images = []) (hlisted : (imgDev i s.dev).role = 4) : (install i s).brd.images = [i] ∧
      (install i s).cyc.closed = some i.epoch ∧ (install i s).dp.mode = imgFld i 3 256 8 ∧ (install i s).brd.active = imgFld i 7 80 8 ∧
      (install i s).mem.role = .worker ∧ (install i s).safe.causes = s.safe.causes := by
  have hadopt := (keepsInstall_adoptLeaves i s.brd.devices (adoptDevices i s))
  have hlife : ∀ {t : State}, t.rst.life = s.rst.life → t.inRun = true := fun h => by
    rw [← hrun, State.inRun, State.inRun, h]
  have hown : ownListed i (adoptLeaves i s.brd.devices (adoptDevices i s)) = adoptLeaves i s.brd.devices (adoptDevices i s) := by
    refine ownListed_worker (hlife hadopt.life) ?_
    rw [State.dev, hadopt.straps]
    exact hlisted
  unfold install
  extract_lets first was old s1 loop s2 cyc s3 s4
  have h1 : KeepsInstall (adoptDevices i s) s1 := by
    unfold s1 old
    rw [hown]
    exact hadopt.trans (keepsInstall_adoptTime i _)
  have hs4 : KeepsInstall { s1 with cyc := { s1.cyc with closed := some i.epoch } } s4 := by
    have h2 : KeepsInstall s1 s2 := .ite ⟨rfl, rfl, rfl, rfl, rfl, rfl, rfl, rfl, rfl⟩ (.refl s1)
    exact ⟨h2.variant, h2.life, h2.straps, h2.role, h2.images, h2.active, rfl, h2.causes, h2.dp⟩
  have hm4 : s4.isManager = false := (isManager_congr hs4).trans ((isManager_congr h1).trans hmanager)
  rw [if_neg (by rw [hlife h1.life]; decide), if_neg (by rw [hm4]; decide)]
  have hclosed : s4.cyc.closed = some i.epoch := hs4.closed
  obtain ⟨himg, hcl, hmode, hact, hro, hcauses⟩ := installWorker_keeps (i := i) hm4 ((hs4.role.trans h1.role).trans hrole)
    ((hs4.images.trans h1.images).trans himages)
  exact ⟨himg, hcl.trans hclosed, hmode, hact.trans (hs4.active.trans h1.active), hro, hcauses.trans (hs4.causes.trans h1.causes)⟩

theorem boardImageInstall_worker {i : Image} {s : State} (hrun : s.inRun = true) (hrole : s.mem.role = .worker)
    (hpub : i.publisher ≠ s.dev) (himages : s.brd.images = []) : execBoardImageInstall i s = .next (install i s) := by
  have hnewest : s.newest = none := by rw [State.newest, himages]; rfl
  have hinactive : s.isActive = false := by simp [State.isActive, hrole]
  unfold execBoardImageInstall
  rw [hnewest]
  dsimp only
  rw [if_neg (by simp [hrun, hpub]), hinactive, Bool.false_and, if_neg Bool.false_ne_true, if_neg (by decide), if_pos (by decide)]

/-- Settles O50: contributions are held, a member leaves, an image that never completed is noted, a worker installs an image. -/
theorem boardEvents : Obligations.BoardEvents := by
  unfold Obligations.BoardEvents
  refine ⟨?_, ?_, fun e n s hrun hrole himages hlate => execPubIncomplete_standby hrun hrole himages hlate,
    fun e n s hrun hrole himages hlate => execPubIncomplete_worker hrun hrole himages hlate, ?_⟩
  · intro d q cs s hmanager hrun hother
    exact if_pos (by simp [hmanager, hrun, hother])
  · intro d i s hopen hactive hmember hmissed hother hdevices hthr
    exact missedEpochs_leaves hopen hactive hmember hmissed hother hdevices hthr
  · intro i s hrun hrole hmanager hpub himages hlisted
    exact ⟨_, boardImageInstall_worker hrun hrole hpub himages, install_worker hrun hrole hmanager himages hlisted⟩

end Sys2Proof.Machine
end


section
/-! SUPPORT. A thruster's record of an earlier command epoch, selected again (R341, R349). -/

namespace Sys2Proof.Machine

/-- A worker in epoch 5 that holds the ACTIVE manager's record for thruster 1 of command epoch 0. -/
def workerInEpochFive : State where
  variant := .WK
  rst := { life := .run, straps := 0x105 }
  mem := { role := .worker }
  cyc := { epoch := 5 }
  brd := { images := [{ epoch := 4, secs := [{ code := 7, bytes := 1040, val := 2 ^ 136 }] }] }
  loop := { cmds := [some (0, [{ thr := 1 }]), none, none] }

/-- Refutes O52: the age of an applied command is that of its epoch (R341), 5 epochs where a record of epoch 0 is applied in epoch 5,
as at a re-selection (R349). -/
theorem not_commandsAndRoles : ¬ Obligations.CommandsAndRoles := by
  unfold Obligations.CommandsAndRoles
  rintro ⟨-, -, -, hselect, -⟩
  obtain ⟨-, -, -, hage⟩ := hselect false 0 0 { thr := 1 } workerInEpochFive (by decide) (by decide) (by decide +kernel)
  exact absurd hage (by decide +kernel)

end Sys2Proof.Machine
end


section
/-! SUPPORT. A JOIN request of a device whose leave is still declared (R379). -/

namespace Sys2Proof.Machine

/-- The ACTIVE manager in RUN, under AUTO_JOIN, with device 5 in its table, and a leave of device 5 that the next close commits. -/
def activeWithLeaver : State where
  variant := .MA
  rst := { life := .run, straps := 0x140 }
  cfg := { table := [(5, 4, 3)], autoJoin := true }
  mem := { role := .active, leaving := [5] }
  link := { ports := List.replicate 4 { state := 3 } }

/-- Refutes O53: a JOIN request of a device that is declared leaving waits for the next close (R379), under AUTO_JOIN too, and does not
take the device in. -/
theorem not_membershipFrames : ¬ Obligations.MembershipFrames := by
  unfold Obligations.MembershipFrames
  rintro ⟨-, -, hjoin, -⟩
  obtain ⟨t, hexec, hadmitted, -⟩ := hjoin false false { device := 5 } activeWithLeaver (by decide) (by decide) (by decide) (by decide)
    (by decide) (by decide) (by decide) (by decide) (by decide) (by decide)
  change execJoinFrame false false { device := 5 } activeWithLeaver = .next t at hexec
  rw [execJoinFrame, if_neg (by decide)] at hexec
  rw [← Host.Outcome.next.inj hexec] at hadmitted
  exact absurd hadmitted (by decide +kernel)

end Sys2Proof.Machine
end

section
/-! SUPPORT. The parity code is linear: a word that decodes clean adds nothing to the failing rows and columns of an error laid over
it, so the decoder sees the error alone. -/

namespace Sys2Proof.Machine

/-- Parity is additive under exclusive or. -/
theorem parityAt_xor (w v : Nat) (ix : Nat → Nat) : parityAt (w ^^^ v) ix = (parityAt w ix != parityAt v ix) := by
  have h : ∀ (l : List Nat) (a b : Bool), l.foldl (fun p k => p != (w ^^^ v).testBit (ix k)) (a != b) =
      (l.foldl (fun p k => p != w.testBit (ix k)) a != l.foldl (fun p k => p != v.testBit (ix k)) b) := by
    intro l
    induction l with
    | nil => exact fun _ _ => rfl
    | cons k l ih =>
      intro a b
      simp only [List.foldl_cons]
      rw [← ih]
      congr 1
      rw [Nat.testBit_xor]
      cases a <;> cases b <;> cases w.testBit (ix k) <;> cases v.testBit (ix k) <;> rfl
  exact h _ false false

/-- One check, parity against its stored bit, is additive too. -/
theorem check_xor (w v k : Nat) (ix : Nat → Nat) : (parityAt (w ^^^ v) ix != (w ^^^ v).testBit k) =
    ((parityAt w ix != w.testBit k) != (parityAt v ix != v.testBit k)) := by
  rw [parityAt_xor, Nat.testBit_xor]
  cases parityAt w ix <;> cases parityAt v ix <;> cases w.testBit k <;> cases v.testBit k <;> rfl

/-- Checks that all pass on a word fail on its exclusive or with an error exactly where they fail on the error. -/
theorem failing_xor {w : Nat} (v : Nat) {ix : Nat → Nat → Nat} {at_ : Nat → Nat}
    (h : (List.range 8).filter (fun i => parityAt w (ix i) != w.testBit (at_ i)) = []) :
    (List.range 8).filter (fun i => parityAt (w ^^^ v) (ix i) != (w ^^^ v).testBit (at_ i)) =
      (List.range 8).filter (fun i => parityAt v (ix i) != v.testBit (at_ i)) := by
  refine List.filter_congr fun i hi => ?_
  have hw : (parityAt w (ix i) != w.testBit (at_ i)) = false := by
    simpa using List.filter_eq_nil_iff.mp h i hi
  rw [check_xor, hw, Bool.false_bne]

theorem bad_of_clean {w : Nat} (h : parityDecode w = .clean) : badRows w = [] ∧ badCols w = [] := by
  unfold parityDecode at h
  split at h
  · exact ⟨‹_›, ‹_›⟩
  all_goals cases h

/-- Over a clean word the decoder sees the error alone. -/
theorem parityDecode_xor {w : Nat} (v : Nat) (h : parityDecode w = .clean) : parityDecode (w ^^^ v) = parityDecode v := by
  obtain ⟨hr, hc⟩ := bad_of_clean h
  have hr' : badRows (w ^^^ v) = badRows v := failing_xor v hr
  have hc' : badCols (w ^^^ v) = badCols v := failing_xor v hc
  unfold parityDecode
  rw [hr', hc']

/-- The decoder's answer to each of the 80 single-bit errors. -/
theorem parityDecode_single : ∀ p < 80, parityDecode (2 ^ p) = .fixed p := by decide +kernel

/-- Settles O56: by linearity only the error counts, and there are 80 of one bit. -/
theorem singleErrorsCorrected : Obligations.SingleErrorsCorrected := by
  intro w p _ hp hw
  rw [parityDecode_xor _ hw]
  exact parityDecode_single p hp

end Sys2Proof.Machine
end

section
/-! SUPPORT. Where the fallback law and MEM_STATUS with CLEAR do otherwise than the batched rules and memory protection say. -/

namespace Sys2Proof.Machine

/-- The ACTIVE manager in AUTO DP after twenty shifted cycles, one second into a ramp of its set-point. -/
def staleInRamp : State where
  variant := .MA
  rst := { life := .run, straps := 0x140 }
  mem := { role := .active }
  dp := { mode := 2, shiftRun := 20, rampAge := 1 }

/-- Refutes O55: DEGRADED starts the set-point's ramp anew from where it stands (R188, R225), so RAMP's age does not stay. -/
theorem not_batchedRules : ¬ Obligations.BatchedRules := by
  unfold Obligations.BatchedRules
  rintro ⟨-, -, -, -, -, -, -, -, -, hstale, -⟩
  obtain ⟨t, hexec, hdp, -⟩ := hstale staleInRamp (by decide) (by decide) (by decide) (by decide)
  change execSolverStale staleInRamp = .next t at hexec
  rw [execSolverStale, if_neg (by decide)] at hexec
  rw [← Host.Outcome.next.inj hexec] at hdp
  exact absurd (congrArg Dp.rampAge hdp) (by decide +kernel)

/-- A device whose SUP SRAM had a correction at byte 8. -/
def correctedAtEight : State where
  variant := .MA
  rst := { life := .run, straps := 0x140 }
  memp := { regions := [{}, {}, { corrected := 1, lastAddr := 8 }, {}, {}, {}, {}, {}, {}] }

/-- MEM_STATUS of SUP SRAM with CLEAR. -/
def statusWithClear : Req where
  path := .slot 0
  payload := [2, 1]

/-- The counters that CLEAR zeroes (R513). -/
def clearCounters (g : Region) : Region :=
  { g with corrected := 0, uncorrectable := 0, passes := 0, lastPassMs := 0, rmw := 0, merge := 0 }

/-- MEM_STATUS with CLEAR zeroes the region's counters and its hard sites, and nothing else. -/
theorem bodyMemStatus_clears {r : Req} {s : State} (hn : u8 r.payload 0 ≤ 8) (hhere : regionHere s (u8 r.payload 0) = true)
    (hclear : clears r.payload 1 = true) : ∃ pay, bodyMemStatus r s = .done .ok pay
      { updRegion (u8 r.payload 0) clearCounters s with
        mram := { s.mram with hardSites := s.mram.hardSites.set (u8 r.payload 0) [] } } := by
  unfold bodyMemStatus
  dsimp only
  rw [if_neg (Nat.not_lt.mpr hn), if_neg (by simp [hhere])]
  exact ⟨_, congrArg (give _) (if_pos hclear)⟩

/-- Refutes O57: CLEAR zeroes the counters, and the address of the latest correction, which is none (R513), stays. -/
theorem not_memoryProtection : ¬ Obligations.MemoryProtection := by
  unfold Obligations.MemoryProtection
  rintro ⟨-, -, -, -, -, -, -, -, -, -, hstatus, -⟩
  have htakes : ∀ pay, Takes 0x0D01 statusWithClear pay correctedAtEight := fun pay => ⟨by decide, by decide, .inr (by decide), nofun⟩
  have hclaim := hstatus statusWithClear correctedAtEight (htakes _) (by decide) (by decide) (by decide)
  obtain ⟨pay, hbody⟩ := bodyMemStatus_clears (r := statusWithClear) (s := correctedAtEight) (by decide) (by decide) (by decide)
  have hmodel := mbx_answers (len := exactly 2) (htakes pay) (by decide) hbody
  have hsame := congrArg State.memp (Host.Outcome.next.inj (hmodel.symm.trans hclaim))
  rw [(quiet_finish _ _ _ _ _).memp, (quiet_finish _ _ _ _ _).memp] at hsame
  have haddr := congrArg (fun m : Memp => (m.regions.getD 2 {}).lastAddr) hsame
  exact absurd haddr (by decide)

end Sys2Proof.Machine
end

section
/-! SUPPORT. What a latched cause leaves of the reset controller, and what a reset leaves of the device. -/

namespace Sys2Proof.Machine

/-! ## What leaves the reset controller alone but for the held events (R301, R561) -/

/-- The reset controller stands as it was but for events held until SUP runs. -/
structure KeepsRst (s t : State) : Prop where
  rst : t.rst = { s.rst with held := t.rst.held }

namespace KeepsRst

theorem of_eq {s t : State} (h : t.rst = s.rst) : KeepsRst s t := ⟨by rw [h]⟩

theorem of_quiet {s t : State} (h : Quiet s t) : KeepsRst s t := ⟨by rw [← h.rst]⟩

theorem refl (s : State) : KeepsRst s s := ⟨rfl⟩

theorem trans {s t u : State} (h : KeepsRst s t) (k : KeepsRst t u) : KeepsRst s u := ⟨by rw [k.rst, h.rst]⟩

theorem ite {c : Prop} [Decidable c] {s t u : State} (h : KeepsRst s t) (k : KeepsRst s u) : KeepsRst s (if c then t else u) := by
  split <;> assumption

theorem foldl {α : Type} {f : State → α → State} (hf : ∀ s x, KeepsRst s (f s x)) (l : List α) (s : State) : KeepsRst s (l.foldl f s) :=
  List.foldlRecOn (motive := KeepsRst s) l f (.refl s) fun t ht x _ => ht.trans (hf t x)

theorem life {s t : State} (h : KeepsRst s t) : t.rst.life = s.rst.life := by rw [h.rst]
theorem asserted {s t : State} (h : KeepsRst s t) : t.rst.asserted = s.rst.asserted := by rw [h.rst]

end KeepsRst

theorem KeepsRst.event {s t : State} (h : KeepsRst s t) (code sev : Nat) (ps : List Nat) : KeepsRst s (event code sev ps t) :=
  h.trans (.of_quiet (quiet_event code sev ps t))

theorem KeepsRst.irqChange {s t : State} (h : KeepsRst s t) (s0 : State) : KeepsRst s (irqChange s0 t) := h.trans (.of_quiet (quiet_irqChange s0 t))

theorem keepsRst_putCoef (n idx : Nat) (v : Int) (sh : Nat) (s : State) : KeepsRst s (putCoef n idx v sh s) :=
  KeepsRst.event (s := s) (t := updCtx n _ s) (.of_eq rfl) _ _ _

theorem keepsRst_applyWrites (n : Nat) (s : State) : KeepsRst s (applyWrites n s) :=
  List.foldlRecOn (motive := KeepsRst s) _ _ (.of_eq (t := updCtx n _ s) rfl) fun t ht _ _ => ht.trans (keepsRst_putCoef n _ _ _ t)

theorem keepsRst_ctxState (n st cause : Nat) (s : State) : KeepsRst s (ctxState n st cause s) := by
  unfold ctxState
  extract_lets c s1
  have h1 : KeepsRst s s1 := KeepsRst.event (s := s) (t := updCtx n _ s) (.of_eq rfl) _ _ _
  exact .ite (.refl s) (.ite (h1.trans (keepsRst_applyWrites n s1)) h1)

theorem keepsRst_suppressCtx (n : Nat) (s : State) : KeepsRst s (suppressCtx n s) := by
  have hdis : KeepsRst s (disableCtx n 4 s) := by
    unfold disableCtx
    extract_lets c pk s1
    have h1 : KeepsRst s s1 := .of_eq rfl
    exact .ite (keepsRst_ctxState _ _ _ s)
      (.ite (.ite (h1.trans (keepsRst_ctxState n 1 4 s1)) (h1.trans (keepsRst_ctxState n 3 4 s1))) (.refl s))
  unfold suppressCtx
  extract_lets l s1
  exact .ite (hdis.trans (.of_eq rfl)) (hdis.trans (.of_eq rfl))

theorem endPulses_rst (s : State) : (endPulses s).rst = s.rst := by
  unfold endPulses gloveSettle
  split <;> rfl

theorem keepsRst_enterSafe (s : State) : KeepsRst s (enterSafe s) := by
  unfold enterSafe
  extract_lets src s1
  have h1 : KeepsRst s s1 := .of_eq (endPulses_rst _)
  exact h1.trans (.foldl (fun t n => keepsRst_suppressCtx n t) _ s1)

theorem keepsRst_goSilent (cause : Nat) (s : State) : KeepsRst s (goSilent cause s) := by
  unfold goSilent
  extract_lets s1 s2 mem safe s3
  have h1 : KeepsRst s s1 := KeepsRst.irqChange (s := s) (t := { s with mem := { s.mem with role := .silent } }) (.of_eq rfl) s
  have hswap : KeepsRst s1 (abandonSwap 0 s1) := by
    unfold abandonSwap
    exact .ite (KeepsRst.event (s := s1) (t := { s1 with brd := { s1.brd with swapOn := false, swapAt := 0, swapTarget := 0xFF } }) (.of_eq rfl) _ _ _)
      (.refl s1)
  have h2 : KeepsRst s s2 := .ite (h1.trans hswap) h1
  have h3 : KeepsRst s2 s3 := by
    refine .of_eq ?_
    show (undoCommit _).rst = s2.rst
    unfold undoCommit
    split <;> rfl
  exact .ite (((h2.trans h3).trans (.of_quiet (quiet_sendMember 4 s3))).event _ _ _) (.refl s)

theorem keepsRst_latchCause (n : Nat) (s : State) : KeepsRst s (latchCause n s) := by
  unfold latchCause
  extract_lets x s1 s2 s3 s4
  have h1 : KeepsRst s s1 := .of_eq rfl
  have h2 : KeepsRst s s2 := .ite (h1.trans (keepsRst_enterSafe s1)) h1
  have h3 : KeepsRst s s3 := h2.irqChange s
  have h4 : KeepsRst s s4 := .ite (h3.event _ _ _) h3
  exact .ite (.refl s) (.ite (h4.trans (keepsRst_goSilent _ s4)) h4)

/-! ## The reset (R544, R549) -/

/-- The causes after a reset: a FULL one clears every other, the rest keep those latched. -/
theorem resetSafe_causes (code : Nat) (s : State) : (resetSafe code s).causes = (if code ≤ 1 then 1 else s.safe.causes ||| 1) := by
  show (if decide (code ≤ 1) = true then 0 else s.safe.causes) ||| 1 = _
  by_cases hc : code ≤ 1
  · rw [if_pos hc, if_pos (decide_eq_true hc)]; rfl
  · rw [if_neg hc, if_neg (by simpa using hc)]

/-! ## A lockstep mismatch (R301, R335) -/

/-- A mismatch of pair `n` outside the injection, noted. -/
def mismatchNoted (n : Nat) (x : Safe) : Safe :=
  { x with
    mittenMask := x.mittenMask ||| BitVec.ofNat 8 (2 ^ n), mittenOpen := x.mittenOpen ||| BitVec.ofNat 8 (2 ^ n)
    counters := x.counters ||| 1, injected := false }

theorem latchMitten_eq (n : Nat) (s : State) : latchMitten n false s = latchCause 1 { s with safe := mismatchNoted n s.safe } := rfl

/-- What a mismatch outside the injection leaves as the first cause. -/
theorem latchMitten_first {n : Nat} {s t : State} (h : s.safe.causes = 0) (ht : t = latchMitten n false s) :
    t.safe.causes = 2 ∧ t.safe.mittenMask = s.safe.mittenMask ||| BitVec.ofNat 8 (2 ^ n) ∧ t.safe.injected = false ∧ t.safe.outs = 0 ∧
      KeepsRst s t ∧ t.cfg = s.cfg := by
  obtain ⟨u, hu⟩ : ∃ u, u = { s with safe := mismatchNoted n s.safe } := ⟨_, rfl⟩
  rw [latchMitten_eq, ← hu] at ht
  have hsafe : u.safe = mismatchNoted n s.safe := by rw [hu]
  have hstill : t.safe.still = (mismatchNoted n s.safe).still := by rw [ht, latchCause_still, hsafe]
  have hzero : u.safe.causes = 0 := by rw [hsafe]; exact h
  obtain ⟨s1, k, hs1, -, s2, hs2, hkeep⟩ := latchCause_new (n := 1) (s := u) (by rw [hzero]; rfl)
  rw [if_pos hzero] at hs2
  rw [← ht] at hkeep
  have hentered := safeEntered_enterSafe s1
  refine ⟨?_, congrArg Safe.mittenMask hstill, congrArg Safe.injected hstill, ?_, ?_, ?_⟩
  · rw [hkeep.safe]
    show s2.safe.causes = 2
    rw [hs2, hentered.causes, hs1]
    show u.safe.causes ||| _ = 2
    rw [hzero]; rfl
  · rw [hkeep.safe]
    show s2.safe.outs = 0
    rw [hs2, hentered.outs]
  · have hrst : KeepsRst s u := .of_eq (by rw [hu])
    rw [ht]
    exact hrst.trans (keepsRst_latchCause 1 u)
  · rw [ht, latchCause_cfg, hu]

/-- A mismatch of a pair other than SUP's and LNK's is latched and resets nothing. -/
theorem exec_mittenMismatch_two {s : State} (hrun : s.rst.life = .run) : exec (.mittenMismatch 2) s = .next (latchMitten 2 false s) := by
  have hlive : pairLive s 2 = true := by unfold pairLive; rw [hrun]; rfl
  have htest : injecting s = false := by unfold injecting; rw [hrun]; rfl
  show execMittenMismatch 2 s = _
  unfold execMittenMismatch
  dsimp only
  rw [htest, show ((2 : Fin 8).val) = 2 from rfl, hlive]
  rfl

/-- A SUP mismatch outside the injection resets the device (R335). -/
theorem exec_mittenMismatch_zero {s : State} (hrun : s.rst.life = .run) :
    exec (.mittenMismatch 0) s = .next (resetDevice 5 (latchMitten 0 false s)) := by
  have hlive : pairLive s 0 = true := by unfold pairLive; rw [hrun]; rfl
  have htest : injecting s = false := by unfold injecting; rw [hrun]; rfl
  show execMittenMismatch 0 s = _
  unfold execMittenMismatch
  dsimp only
  rw [htest, show ((0 : Fin 8).val) = 0 from rfl, hlive]
  rfl

/-- Settles O58: every source is a reset with its code, and a mitten mismatch latches MITTEN first. -/
theorem resetSources : Obligations.ResetSources := by
  unfold Obligations.ResetSources
  refine ⟨fun s hlife hdelayed x hx => ?_, fun s hzero hlife => ?_, fun s => ?_, fun s hzero hrun => ?_, fun s hzero hrun hmask => ?_⟩
  · have hexec : exec x.1 s = .next (resetDevice x.2 s) := by
      simp only [List.mem_cons, List.not_mem_nil, or_false] at hx
      rcases hx with rfl | rfl | rfl | rfl | rfl
      · rfl
      · rfl
      · rfl
      · show execSupWatchdog s = _
        rw [execSupWatchdog, if_pos (by simpa [or_assoc] using hlife)]
      · show execDeviceResetDelay s = _
        rw [execDeviceResetDelay, hdelayed]
        rfl
    refine ⟨_, hexec, ?_⟩
    simp only [resetDevice_safe, resetDevice_rst, resetDevice_mram, resetDevice_hif, resetDevice_cfg, resetDevice_dp, resetDevice_variant,
      resetDevice_pending, resetSafe_causes, and_true, true_and]
    exact ⟨rfl, rfl, rfl⟩
  · have hstarting : starting s = true := by simp [starting, hzero, hlife]
    refine ⟨_, if_pos hstarting, ?_⟩
    simp only [resetDevice_safe, resetDevice_rst, resetDevice_mram, resetDevice_cfg, resetSafe_causes, resetRst, hzero]
    exact ⟨trivial, rfl, rfl, rfl, trivial, trivial⟩
  · refine ⟨_, rfl, ?_⟩
    simp only [resetDevice_safe, resetDevice_rst, resetDevice_mram, resetDevice_cfg, resetSafe_causes]
    exact ⟨rfl, trivial, rfl, rfl, trivial, trivial⟩
  · obtain ⟨hcauses, hmask, -, -, hrst, -⟩ := latchMitten_first (n := 0) hzero rfl
    refine ⟨_, exec_mittenMismatch_zero hrun, ?_⟩
    generalize latchMitten 0 false s = u at hcauses hmask hrst
    simp only [resetDevice_safe, resetDevice_rst, resetDevice_cfg, resetSafe_causes, hcauses]
    refine ⟨rfl, rfl, ?_, ?_, rfl, trivial⟩
    · show (if u.safe.causes.getLsbD 1 = true then u.safe.mittenMask else 0).getLsbD 0 = true
      rw [hcauses, if_pos (by decide), hmask, BitVec.getLsbD_or]
      exact Bool.or_true _
    · show u.rst.asserted ||| _ = _
      rw [hrst.asserted]
  · obtain ⟨hcauses, hmask', hinjected, houts, hrst, hcfg⟩ := latchMitten_first (n := 2) hzero rfl
    refine ⟨_, exec_mittenMismatch_two hrun, hcauses, ?_, hinjected, houts, hrst.life.trans hrun, hcfg⟩
    rw [hmask', hmask]; rfl

end Sys2Proof.Machine
end

section
/-! SUPPORT. The release order: what the boot ROM's start, the loading of the shadows and their application leave standing. -/

namespace Sys2Proof.Machine

/-! ## Once SUP runs, recording leaves the reset controller alone (R561) -/

theorem storeRec_rst (r : EvRec) (own : Bool) (s : State) : (storeRec r own s).rst = s.rst := by
  obtain ⟨h, l, hs⟩ := storeRec_eq r own s; rw [hs]; rfl

theorem offer_rst (r : EvRec) (k : Nat) (own : Bool) (s : State) : (offer r k own s).rst = s.rst := by
  unfold offer
  extract_lets b0 b b1 s1
  have hs1 : s1.rst = s.rst := by
    unfold s1
    split
    · exact storeRec_rst _ _ s
    · rfl
  split
  · rw [storeRec_rst]; exact hs1
  · rfl

theorem fireTraces_rst (n code : Nat) (s : State) : (fireTraces n code s).rst = s.rst := by
  induction n generalizing code s with
  | zero => rfl
  | succ n ih =>
    unfold fireTraces
    extract_lets us loop s1 note
    split
    · rfl
    · rw [ih]
      exact List.foldlRecOn (motive := fun (t : State) => t.rst = s.rst) us note rfl fun t ht u _ => (offer_rst _ _ _ t).trans ht

theorem event_rst {s : State} (h : s.rst.life ≠ .reset) (code sev : Nat) (ps : List Nat) : (event code sev ps s).rst = s.rst := by
  rw [event, if_pos (by simp [State.supRuns, h]), fireTraces_rst, offer_rst]

/-! ## Life states (R556) -/

theorem irqChange_rst (s0 s : State) : (irqChange s0 s).rst = s.rst := by
  have hraise : ∀ b t, (raiseIrq b t).rst = t.rst := by
    intro b t
    unfold raiseIrq
    dsimp only
    split <;> rfl
  unfold irqChange
  dsimp only
  split <;> split <;> simp only [hraise]

theorem driveOutputs_keeps (s : State) : (driveOutputs s).rst = s.rst ∧ (driveOutputs s).fw = s.fw ∧ (driveOutputs s).tests = s.tests := by
  unfold driveOutputs gloveSettle
  dsimp only
  split <;> exact ⟨rfl, rfl, rfl⟩

/-- A life state entered: what else stays. -/
theorem setLife_keeps {l : Life} {s t : State} (ht : t = setLife l s) :
    t.rst = { s.rst with life := l } ∧ t.fw = s.fw ∧ t.tests = s.tests ∧ t.cfg = s.cfg ∧ t.safe.causes = s.safe.causes := by
  obtain ⟨u, hu⟩ : ∃ u, u = { s with
      rst := { s.rst with life := l }, fus := if l = Life.run then { s.fus with lateUsed := 0, lateDrop := 0 } else s.fus } := ⟨_, rfl⟩
  have ht' : t = driveOutputs (irqChange s u) := by rw [hu]; exact ht
  obtain ⟨hrst, hfw, htests⟩ := driveOutputs_keeps (irqChange s u)
  have hq := quiet_irqChange s u
  rw [ht']
  refine ⟨?_, ?_, ?_, ?_, ?_⟩
  · rw [hrst, irqChange_rst, hu]
  · rw [hfw, hq.fw, hu]
  · rw [htests, hq.tests, hu]
  · rw [driveOutputs_cfg, hq.cfg, hu]
  · rw [(driveOutputs_safe _).2.1, hq.safe, hu]

/-! ## The boot ROM's start (R550, R552, R558, R561) -/

/-- The device goes on starting: causes and configuration stand, the life state, the step and what is held too. -/
structure Starting (s t : State) : Prop where
  causes : t.safe.causes = s.safe.causes
  cfg : t.cfg = s.cfg
  life : t.rst.life = s.rst.life
  step : t.rst.step = s.rst.step
  held : t.rst.held = s.rst.held

namespace Starting

theorem refl (s : State) : Starting s s := ⟨rfl, rfl, rfl, rfl, rfl⟩

theorem trans {s t u : State} (h : Starting s t) (k : Starting t u) : Starting s u :=
  ⟨k.causes.trans h.causes, k.cfg.trans h.cfg, k.life.trans h.life, k.step.trans h.step, k.held.trans h.held⟩

theorem event {s t : State} (h : Starting s t) (hlife : s.rst.life ≠ .reset) (code sev : Nat) (ps : List Nat) : Starting s (event code sev ps t) := by
  have hrst : (Machine.event code sev ps t).rst = t.rst := event_rst (by rwa [h.life]) code sev ps
  exact h.trans ⟨by rw [event_safe], event_cfg _ _ _ t, by rw [hrst], by rw [hrst], by rw [hrst]⟩

theorem ite {c : Prop} [Decidable c] {s t u : State} (h : Starting s t) (k : Starting s u) : Starting s (if c then t else u) := by
  split <;> assumption

end Starting

theorem starting_checkRing {s : State} (h : s.rst.life ≠ .reset) : Starting s (checkRing s) := by
  unfold checkRing
  exact .ite (.refl s) (Starting.event (s := s)
    (t := { s with mram := { s.mram with head := 0, ringOk := true, ringMade := true, archNext := 0 } }) ⟨rfl, rfl, rfl, rfl, rfl⟩ h _ _ _)

/-- The held events recorded: none is held any longer. -/
theorem starting_flushHeld {s : State} (h : s.rst.life ≠ .reset) : Starting { s with rst := { s.rst with held := [] } } (flushHeld s) :=
  List.foldlRecOn (motive := Starting { s with rst := { s.rst with held := [] } }) _ _ (.refl _) fun _ ht e _ => ht.event h e.1 e.2.1 e.2.2

theorem starting_notices {s : State} (h : s.rst.life ≠ .reset) : Starting s (notices s) := by
  unfold notices
  extract_lets d s1 s2
  have h1 : Starting s s1 := ⟨rfl, rfl, rfl, rfl, rfl⟩
  have h2 : Starting s s2 := .ite (h1.event h _ _ _) h1
  exact .ite (.refl s) (.ite (h2.event h _ _ _) (.ite (h2.event h _ _ _) h2))

/-- The shadows hold a bank, whichever is taken (R552). -/
theorem starting_loadShadows {s : State} (h : s.rst.life ≠ .reset) : Starting s (loadShadows s) ∧ (loadShadows s).rst.shadow.isSome = true := by
  unfold loadShadows
  extract_lets b0 b1 take older
  have htake : ∀ b, Starting s (take b s) ∧ (take b s).rst.shadow.isSome = true := fun b => ⟨⟨rfl, rfl, rfl, rfl, rfl⟩, rfl⟩
  have hevent : ∀ {u : State} (code sev : Nat) (ps : List Nat), Starting s u ∧ u.rst.shadow.isSome = true →
      Starting s (event code sev ps u) ∧ (event code sev ps u).rst.shadow.isSome = true := by
    rintro u code sev ps ⟨hu, hs⟩
    exact ⟨hu.event h _ _ _, by rwa [event_rst (by rwa [hu.life])]⟩
  have holder : ∀ b bad, Starting s (older b bad) ∧ (older b bad).rst.shadow.isSome = true := by
    intro b bad
    unfold older
    split
    · exact hevent _ _ _ (htake b)
    · exact htake b
  split
  · exact htake _
  · split
    · exact holder _ _
    · split
      · exact holder _ _
      · exact hevent (u := report _ _ _ _ (take {} s)) _ _ _ ⟨⟨rfl, rfl, rfl, rfl, rfl⟩, rfl⟩

/-- LOADING with its shadows, before the checks that lead to Cloakroom mode. -/
def loadingState (s : State) : State :=
  loadShadows (notices (flushHeld (checkRing (setLife .loading (updRst (fun r => { r with step := 3 }) s)))))

theorem loadingState_facts (s : State) : let t := loadingState s
    t.rst.life = .loading ∧ t.rst.step = 3 ∧ t.rst.held = [] ∧ t.rst.shadow.isSome = true ∧ t.safe.causes = s.safe.causes ∧ t.cfg = s.cfg := by
  unfold loadingState
  obtain ⟨s1, hs1⟩ : ∃ s1, s1 = setLife .loading (updRst (fun r => { r with step := 3 }) s) := ⟨_, rfl⟩
  rw [← hs1]
  obtain ⟨hrst1, -, -, hcfg1, hcauses1⟩ := setLife_keeps hs1
  have hlife1 : s1.rst.life = .loading := by rw [hrst1]
  have h2 := starting_checkRing (s := s1) (by rw [hlife1]; nofun)
  have hlife2 := h2.life.trans hlife1
  have h3 := starting_flushHeld (s := checkRing s1) (by rw [hlife2]; nofun)
  have hlife3 : (flushHeld (checkRing s1)).rst.life = .loading := h3.life.trans hlife2
  have h4 := starting_notices (s := flushHeld (checkRing s1)) (by rw [hlife3]; nofun)
  have hlife4 := h4.life.trans hlife3
  obtain ⟨h5, hshadow⟩ := starting_loadShadows (s := notices (flushHeld (checkRing s1))) (by rw [hlife4]; nofun)
  refine ⟨h5.life.trans hlife4, ?_, h5.held.trans (h4.held.trans h3.held), hshadow, ?_, ?_⟩
  · exact h5.step.trans (h4.step.trans (h3.step.trans (h2.step.trans (by rw [hrst1]; rfl))))
  · exact h5.causes.trans (h4.causes.trans (h3.causes.trans (h2.causes.trans hcauses1)))
  · exact h5.cfg.trans (h4.cfg.trans (h3.cfg.trans (h2.cfg.trans hcfg1)))

theorem enterLoading_of_trim {s : State} (h : s.rst.trimOk = true) :
    enterLoading s = if s.mram.failCount ≥ 3 then enterCloakroom 0 (loadingState s) else loadingState s := by
  unfold enterLoading
  dsimp only
  rw [if_neg (by rw [h]; decide)]
  rfl

theorem enterCloakroom_facts {reason : Nat} {s t : State} (ht : t = enterCloakroom reason s) :
    t.rst.life = .cloakroom ∧ t.rst.reason = reason ∧ t.fw.source = 3 ∧ t.safe.causes = s.safe.causes ∧ t.cfg = s.cfg := by
  obtain ⟨s1, hs1⟩ : ∃ s1, s1 = setLife .cloakroom
    (updFw (fun f => { f with version := 0xC000, source := 3 }) (updRst (fun r => { r with reason := reason }) s)) := ⟨_, rfl⟩
  have ht' : t = event 0x0F11 4 [reason, s.mram.failCount, s.mram.boot.toNat] s1 := by rw [hs1]; exact ht
  obtain ⟨hrst, hfw, -, hcfg, hcauses⟩ := setLife_keeps hs1
  have hlife : s1.rst.life ≠ .reset := by rw [hrst]; nofun
  rw [ht', event_rst hlife, event_fw, event_safe, event_cfg, hrst, hfw]
  exact ⟨rfl, rfl, rfl, hcauses, hcfg⟩

/-! ## The shadows applied (R553, R591) -/

/-- Of the configuration at most the loop definitions differ. -/
def LoopsOnly (s t : State) : Prop := t.cfg = { s.cfg with loops := t.cfg.loops }

namespace LoopsOnly

theorem of_eq {s t : State} (h : t.cfg = s.cfg) : LoopsOnly s t := by rw [LoopsOnly, h]

theorem refl (s : State) : LoopsOnly s s := rfl

theorem trans {s t u : State} (h : LoopsOnly s t) (k : LoopsOnly t u) : LoopsOnly s u := by
  have hs : t.cfg = { s.cfg with loops := t.cfg.loops } := h
  have ht : u.cfg = { t.cfg with loops := u.cfg.loops } := k
  rw [LoopsOnly, ht, hs]

end LoopsOnly

theorem loopsOnly_startCtx (n : Nat) (s : State) : LoopsOnly s (startCtx n s) := by
  have hgated : ∀ t : State, LoopsOnly t (writeGated n t) := by
    intro t
    unfold writeGated acceptCoef
    extract_lets keep s1
    have hcfg : s1.cfg = _ := setCfg_cfg _ t
    have h1 : LoopsOnly t s1 := by rw [LoopsOnly, hcfg]
    split
    · exact h1
    · exact h1.trans (.of_eq (event_cfg _ _ _ _))
  unfold startCtx
  split
  · exact .refl s
  · extract_lets s1 pk s2
    split
    · exact LoopsOnly.trans (.of_eq (s := s) (t := s2) rfl) (hgated s2)
    · exact .of_eq rfl

theorem foldl_updRt_cfg (f : State → Nat → StreamRt → StreamRt) (l : List Nat) (s : State) :
    (l.foldl (fun t n => updRt n (f t n) t) s).cfg = s.cfg :=
  List.foldlRecOn (motive := fun (t : State) => t.cfg = s.cfg) _ _ rfl fun _ ht _ _ => ht

theorem takeFusionCfg_cfg (close : Nat) (s : State) : (takeFusionCfg close s).cfg = s.cfg := by
  unfold takeFusionCfg
  dsimp only
  split
  · rw [foldl_updRt_cfg, updFus_cfg]
  · rw [apply_ite State.cfg, event_cfg, updFus_cfg, updRt_cfg, ite_self, foldl_updRt_cfg, updFus_cfg]

theorem portRoles_cfg (s : State) : (portRoles s).cfg = s.cfg := rfl
theorem updateGates_cfg (s : State) : (updateGates s).cfg = s.cfg := rfl
theorem markBound_cfg (s : State) : (markBound s).cfg = s.cfg := rfl

theorem takePairs_cfg (s : State) : (takePairs s).cfg = s.cfg := by
  refine List.foldlRecOn (motive := fun (t : State) => t.cfg = s.cfg) _ _ rfl fun t ht n _ => Eq.trans ?_ ht
  unfold takePair
  extract_lets a b
  split
  · exact (pairSet_setPair _ _ t).cfg
  · split
    · exact (flrPairs_keeps t).1
    · exact (pairSet_setPair _ _ t).cfg

/-- The configuration is the shadows', but for the gated coefficients that the contexts' start writes. -/
theorem applyShadows_cfg (s : State) :
    (applyShadows s).cfg = { (s.rst.shadow.getD {}).body with loops := (applyShadows s).cfg.loops } := by
  unfold applyShadows
  extract_lets c time cyc s1 bus s2
  have hs2 : s2.cfg = c := rfl
  clear_value s2 c
  have hstart : LoopsOnly s2 ((List.range 128).foldl (fun t n => startCtx n t) (takeFusionCfg s2.time.ns s2)) :=
    List.foldlRecOn (motive := LoopsOnly s2) _ _ (.of_eq (takeFusionCfg_cfg _ s2)) fun t ht n _ => ht.trans (loopsOnly_startCtx n t)
  generalize (List.range 128).foldl (fun t n => startCtx n t) (takeFusionCfg s2.time.ns s2) = u at hstart
  have hcfg : (portRoles (updateGates (takePairs (markBound u)))).cfg = u.cfg := by
    rw [portRoles_cfg, updateGates_cfg, takePairs_cfg, markBound_cfg]
  rw [hcfg, ← hs2]
  exact hstart

theorem joinGroups_cfg (s : State) : (joinGroups s).cfg = s.cfg := by
  refine List.foldlRecOn (motive := fun (t : State) => t.cfg = s.cfg) _ _ rfl fun t ht n _ => Eq.trans ?_ ht
  unfold joinGroup
  split <;> rfl

theorem aoSupply_cfg (s : State) : (aoSupply s).cfg = s.cfg := by
  unfold aoSupply
  split
  · exact latchCause_cfg 8 s
  · rfl

theorem enterSelftest_facts {s t : State} (ht : t = enterSelftest s) :
    t.rst.life = .selftest ∧ t.rst.step = 6 ∧ t.cfg = { (s.rst.shadow.getD {}).body with loops := t.cfg.loops } ∧
      t.tests.startup = startupTests s := by
  obtain ⟨u, hu⟩ : ∃ u, u = aoSupply (joinGroups (applyShadows s)) := ⟨_, rfl⟩
  have ht' : t = setLife .selftest (updTests (fun t => { t with startup := startupTests s }) (updRst (fun r => { r with step := 6 }) u)) := by
    rw [hu]; exact ht
  obtain ⟨hrst, -, htests, hcfg, -⟩ := setLife_keeps ht'
  have hcfg' : t.cfg = (applyShadows s).cfg := by
    refine hcfg.trans ?_
    show u.cfg = _
    rw [hu, aoSupply_cfg, joinGroups_cfg]
  refine ⟨by rw [hrst], by rw [hrst]; rfl, ?_, by rw [htests]; rfl⟩
  rw [hcfg']
  exact applyShadows_cfg s

/-! ## The events of the release order -/

/-- RESET_RELEASE ends step 1 (R545). -/
theorem exec_resetRelease {x : BitVec 12} {s : State} (hlife : s.rst.life = .reset) (hass : s.rst.asserted ≠ 0) (hok : s.safe.refOk = true) :
    ∃ m held, exec (.resetRelease x true) s = .next { s with
      mram := { s.mram with boot := s.mram.boot + 1, failCount := nextFail s.mram, failOk := true }
      rst := { s.rst with
        asserted := 0, cause := lowestCode s.rst.asserted
        straps := if s.rst.asserted.getLsbD 0 || s.rst.asserted.getLsbD 1 then x else s.rst.straps
        trimOk := true, step := 1, mgrIgnored := m, held := held } } := by
  refine ⟨_, _, (if_neg ?_).trans rfl⟩
  simpa [hlife, hok] using hass

/-- RELEASE_GAP_EXPIRY after the PLLs' lock: SUP is released (R547). -/
theorem exec_releaseGapExpiry_locked {s : State} (hlife : s.rst.life = .reset) (hass : s.rst.asserted = 0) (hok : s.safe.refOk = true)
    (hstep : s.rst.step = 2) (hlock : s.rst.pllLocked = true) : exec .releaseGapExpiry s = .next (enterLoading s) := by
  show execReleaseGapExpiry s = _
  rw [execReleaseGapExpiry, if_pos hlife, if_neg (by simp [hass, hok]), if_neg (by rw [hstep]; decide), if_pos hlock]

/-- Settles O59: each event of the release order in the state in which its step stands. -/
theorem releaseOrder : Obligations.ReleaseOrder := by
  unfold Obligations.ReleaseOrder
  refine ⟨fun x s hlife hbit hok => ?_, fun x s hlife hass hok => ?_, fun s hlife hstep => ?_, fun s hlife hass hok hstep => ?_,
    fun s hlife hass hok hstep hlock htrim hfail => ?_, fun s hlife hass hok hstep hlock htrim hfail => ?_, fun s hlife hstep hrail => ?_,
    fun s hlife hstep => ?_, fun s hlife hstep hstrap hpref => ?_, fun f s => ?_, fun s hrun hcount => ?_⟩
  · have hass : s.rst.asserted ≠ 0 := fun h => by rw [h] at hbit; exact absurd hbit (by decide)
    obtain ⟨m, held, hexec⟩ := exec_resetRelease (x := x) hlife hass hok
    refine ⟨_, hexec, rfl, ?_, ?_, rfl, rfl, rfl⟩
    · show lowestCode s.rst.asserted = 0
      rw [lowestCode, show List.range 8 = [0, 1, 2, 3, 4, 5, 6, 7] from rfl, List.find?_cons_of_pos hbit]
      rfl
    · exact if_pos (by rw [hbit]; rfl)
  · obtain ⟨m, held, hexec⟩ := exec_resetRelease (x := x) hlife (by rw [hass]; decide) hok
    refine ⟨_, hexec, rfl, ?_, ?_, rfl, rfl, rfl⟩
    · show lowestCode s.rst.asserted = 2
      rw [hass]; decide
    · exact if_neg (by rw [hass]; decide)
  · exact if_pos (by simp [hlife, hstep])
  · show execReleaseGapExpiry s = _
    rw [execReleaseGapExpiry, if_pos hlife, if_neg (by simp [hass, hok]), if_pos hstep]
    rfl
  · refine ⟨_, exec_releaseGapExpiry_locked hlife hass hok hstep hlock, ?_⟩
    rw [enterLoading_of_trim htrim, if_neg (Nat.not_le.mpr hfail)]
    exact loadingState_facts s
  · refine ⟨_, exec_releaseGapExpiry_locked hlife hass hok hstep hlock, ?_⟩
    rw [enterLoading_of_trim htrim, if_pos hfail]
    obtain ⟨-, -, -, -, hcauses, hcfg⟩ := loadingState_facts s
    obtain ⟨hlife', hreason, hsource, hcauses', hcfg'⟩ := enterCloakroom_facts (reason := 0) (s := loadingState s) rfl
    exact ⟨hlife', hreason, hsource, hcauses'.trans hcauses, hcfg'.trans hcfg⟩
  · have hexec : execReleaseGapExpiry s = .next (enterSelftest s) := by
      rw [execReleaseGapExpiry, if_neg (by rw [hlife]; nofun), if_pos (by simpa [hlife, hstep] using hrail)]
    have hkeeps := keeps_execReleaseGapExpiry s (keeps_refl s)
    rw [hexec] at hkeeps
    have hkeeps : Keeps s (enterSelftest s) := hkeeps
    obtain ⟨hlife', hstep', hcfg, htests⟩ := enterSelftest_facts (s := s) rfl
    exact ⟨_, hexec, hlife', hstep', hcfg, htests, fun n hn => hkeeps.safe.1 n hn⟩
  · exact if_pos (by simp [hlife, hstep])
  · have hpcie : pcieBoot s = false := by simp [pcieBoot, hstrap]
    show execBootRomDone s = _
    unfold execBootRomDone
    dsimp only
    rw [if_neg (by simp [hlife, hstep, hpcie]), hpref]
    simp [imageGood, imageOf, hstrap]
  · intro d u hlife hstep hvar hstrap hmagic hcrc hnew hlen hmax halign hfetched
    have hpcie : pcieBoot s = true := by simp [pcieBoot, hvar, hstrap]
    show execPcieBootPoll (some f) s = _
    unfold execPcieBootPoll
    dsimp only
    rw [if_neg, if_neg, if_neg, if_neg]
    · cases hsig : Config.sigValid f <;> rfl
    · exact not_not.mpr hfetched
    · exact not_not.mpr halign
    · simpa using ⟨hlen, hmax⟩
    · simpa [hlife, hstep, hpcie] using ⟨⟨hmagic, hcrc⟩, hnew⟩
  · exact if_neg (by simp [hrun, hcount])

end Sys2Proof.Machine
end

section
/-! SUPPORT. The fusion of an epoch leaves the configuration, the causes, the images held and the closed epoch's image alone. -/

namespace Sys2Proof.Machine

/-- The configuration, the latched causes, the images held and the closed epoch's image stand. -/
structure KeepsBoard (s t : State) : Prop where
  cfg : t.cfg = s.cfg
  causes : t.safe.causes = s.safe.causes
  images : t.brd.images = s.brd.images
  open_ : t.brd.open_ = s.brd.open_

namespace KeepsBoard

theorem refl (s : State) : KeepsBoard s s := ⟨rfl, rfl, rfl, rfl⟩

theorem trans {s t u : State} (h : KeepsBoard s t) (k : KeepsBoard t u) : KeepsBoard s u :=
  ⟨k.cfg.trans h.cfg, k.causes.trans h.causes, k.images.trans h.images, k.open_.trans h.open_⟩

theorem of_quiet {s t : State} (h : Quiet s t) : KeepsBoard s t := ⟨h.cfg, by rw [h.safe], by rw [h.brd], by rw [h.brd]⟩

theorem ite {c : Prop} [Decidable c] {s t u : State} (h : KeepsBoard s t) (k : KeepsBoard s u) : KeepsBoard s (if c then t else u) := by
  split <;> assumption

theorem foldl {α : Type} {f : State → α → State} (hf : ∀ s x, KeepsBoard s (f s x)) {l : List α} {s t : State} (h : KeepsBoard s t) :
    KeepsBoard s (l.foldl f t) :=
  List.foldlRecOn (motive := KeepsBoard s) l f h fun u hu x _ => hu.trans (hf u x)

section
variable {s t : State} (h : KeepsBoard s t)
include h

theorem event (code sev : Nat) (ps : List Nat) : KeepsBoard s (event code sev ps t) := h.trans (.of_quiet (quiet_event _ _ _ t))
theorem updFus (f : Fus → Fus) : KeepsBoard s (updFus f t) := ⟨h.cfg, h.causes, h.images, h.open_⟩
theorem updRt (n : Nat) (f : StreamRt → StreamRt) : KeepsBoard s (updRt n f t) := h.updFus _
theorem updDp (f : Dp → Dp) : KeepsBoard s (updDp f t) := ⟨h.cfg, h.causes, h.images, h.open_⟩
theorem updMem (f : Mem → Mem) : KeepsBoard s (updMem f t) := ⟨h.cfg, h.causes, h.images, h.open_⟩
theorem updStall (n : Nat) (f : Stall → Stall) : KeepsBoard s (updStall n f t) := ⟨h.cfg, h.causes, h.images, h.open_⟩
theorem stepFree : KeepsBoard s (stepFree t) := ⟨h.cfg, h.causes, h.images, h.open_⟩
theorem report (code sev subj detail : Nat) : KeepsBoard s (report code sev subj detail t) := ⟨h.cfg, h.causes, h.images, h.open_⟩
theorem clearAlarm (code subj : Nat) : KeepsBoard s (clearAlarm code subj t) := ⟨h.cfg, h.causes, h.images, h.open_⟩
theorem raiseAlarm (code subj sev detail : Nat) : KeepsBoard s (raiseAlarm code subj sev detail t) := by
  obtain ⟨m, hm⟩ := raiseAlarm_mem code subj sev detail t
  rw [hm]
  exact ⟨h.cfg, h.causes, h.images, h.open_⟩

end

end KeepsBoard

/-! ## The fusion of an epoch (R149 to R174, Table 5.7) -/

section
variable {z s : State} (h : KeepsBoard z s)
include h

theorem keepsBoard_takeSample (e : Word) (c : Contrib) : KeepsBoard z (takeSample e s c) := .ite (h.updFus _) (h.updRt _ _)

theorem keepsBoard_takeLate (e : Word) (c : Contrib) : KeepsBoard z (takeLate e s c) := by
  have hdrop : ∀ ps, KeepsBoard z (event 0x0319 1 ps (stepFree (updFus (fun f => { f with lateDrop := satInc f.lateDrop }) s))) :=
    fun ps => (h.updFus _).stepFree.event _ _ ps
  unfold takeLate
  dsimp only
  split
  · exact .ite ((h.updRt _ _).updFus _) (hdrop _)
  · exact hdrop _

theorem keepsBoard_attitudeRefs (e : Word) : KeepsBoard z (attitudeRefs e s) := by
  unfold attitudeRefs
  exact h.updFus _

theorem keepsBoard_alignStreams (e : Word) : KeepsBoard z (alignStreams e s) := by
  unfold alignStreams
  exact h.updFus _

theorem keepsBoard_captureAnchors (e : Word) : KeepsBoard z (captureAnchors e s) := by
  unfold captureAnchors
  exact .ite h (.foldl (fun t n => ((KeepsBoard.refl t).updRt n _).event _ _ _) h)

theorem keepsBoard_dropPreference : KeepsBoard z (dropPreference s) := by
  unfold dropPreference
  split
  · exact .ite h (h.updFus _)
  · exact h

theorem keepsBoard_confEvents (n : Nat) : KeepsBoard z (confEvents s n) := by
  unfold confEvents
  dsimp only
  exact .ite h (.ite (.ite (h.updRt _ _) ((h.updRt _ _).event _ _ _)) (.ite ((h.updRt _ _).event _ _ _) h))

theorem keepsBoard_maskEvents (old x : StreamRt) (e : Word) (n : Nat) : KeepsBoard z (maskEvents old x e n s) := by
  unfold maskEvents
  extract_lets on v s1
  have h1 : KeepsBoard z s1 := .ite (h.event _ _ _) h
  exact .ite (h1.event _ _ _) h1

theorem keepsBoard_testStream (e : Word) (n : Nat) : KeepsBoard z (testStream e s n) := by
  unfold testStream
  dsimp only
  exact .ite (h.updRt _ _) (.ite (h.updRt _ _) (keepsBoard_maskEvents ((h.updRt _ _).updRt _ _) _ _ _ _))

theorem keepsBoard_agreeSteps (e : Word) (g : Nat) : KeepsBoard z (agreeSteps e g s) := by
  unfold agreeSteps
  split
  · exact h
  · exact .ite h (.foldl (fun t n => (KeepsBoard.refl t).updRt n _) h)

theorem keepsBoard_conflict (e : Word) (g : Nat) (c : List Nat) : KeepsBoard z (conflict e g c s) := by
  unfold conflict
  exact ((KeepsBoard.foldl (fun t n => (KeepsBoard.refl t).updRt n _) h).raiseAlarm _ _ _ _).event _ _ _

theorem keepsBoard_freeHeld (n : Nat) : KeepsBoard z (freeHeld n s) := h.updRt _ _

theorem keepsBoard_markOutlier (e : Word) (c used : List Nat) (n : Nat) : KeepsBoard z (markOutlier e c used s n) :=
  ((h.updRt _ _).report _ _ _ _).event _ _ _

theorem keepsBoard_compareGroup (e : Word) (g : Nat) : KeepsBoard z (compareGroup e g s).1 := by
  unfold compareGroup
  dsimp only
  split
  · split
    · exact keepsBoard_conflict h _ _ _
    · exact .foldl (fun t n => keepsBoard_markOutlier (.refl t) _ _ _ n) (.foldl (fun t n => keepsBoard_freeHeld (.refl t) n) h)
  · split
    · exact keepsBoard_conflict h _ _ _
    · exact h

theorem keepsBoard_markUsed (used : List Nat) : KeepsBoard z (markUsed used s) := by
  unfold markUsed
  exact .foldl (fun t n => (KeepsBoard.refl t).updRt n _) h

theorem keepsBoard_settleConflict (g : Nat) : KeepsBoard z (settleConflict g s) := .ite (h.clearAlarm _ _) h

theorem keepsBoard_refFew (k : Nat) : KeepsBoard z (refFew k s) := by
  unfold refFew
  extract_lets m s1
  have h1 : KeepsBoard z s1 := (h.updFus _).raiseAlarm _ _ _ _
  exact .ite ((h.updFus _).clearAlarm _ _) (.ite h1 (h1.event _ _ _))

theorem keepsBoard_posStep (e : Word) (used : List Nat) : KeepsBoard z (posStep e used s) := by
  unfold posStep
  dsimp only
  have hvalid : ∀ f g, KeepsBoard z (clearAlarm 0x0317 0xFF (updFus f (updFus g s))) := fun _ _ => ((h.updFus _).updFus _).clearAlarm _ _
  exact .ite (.ite (h.updFus _) ((h.updFus _).event _ _ _)) (.ite ((hvalid _ _).event _ _ _) (hvalid _ _))

theorem keepsBoard_hdgStep (e : Word) (used : List Nat) : KeepsBoard z (hdgStep e used s) := by
  unfold hdgStep
  dsimp only
  have hvalid : ∀ f g, KeepsBoard z (clearAlarm 0x031B 0xFF (updFus f (updFus g s))) := fun _ _ => ((h.updFus _).updFus _).clearAlarm _ _
  exact .ite (h.updFus _) (.ite ((hvalid _ _).event _ _ _) (hvalid _ _))

theorem keepsBoard_fixOrigin (e : Word) (used : List Nat) : KeepsBoard z (fixOrigin e used s) := by
  unfold fixOrigin
  dsimp only
  exact .ite h ⟨h.cfg, h.causes, h.images, h.open_⟩

theorem keepsBoard_observe (e : Word) (hs ps : List Nat) (resetH resetP : Bool) : KeepsBoard z (observe e hs ps resetH resetP s) := by
  unfold observe
  exact h.updFus _

theorem keepsBoard_fuseEpoch (e : Word) (recs : List Contrib) : KeepsBoard z (fuseEpoch e recs s) := by
  unfold fuseEpoch
  extract_lets xs s0 s1 s2 tau prior bias s3 att s4 hd resetH s5 p fixed_ resetP s6 sel s7 s8 s9
  have h0 : KeepsBoard z s0 := h.updFus _
  have h1 : KeepsBoard z s1 := .foldl (fun t c => keepsBoard_takeSample (.refl t) e c) h0
  have h2 : KeepsBoard z s2 := .foldl (fun t c => keepsBoard_takeLate (.refl t) e c) h1
  have h3 : KeepsBoard z s3 := 
    keepsBoard_captureAnchors (keepsBoard_alignStreams (keepsBoard_attitudeRefs (h2.updFus _) e) e) e
  have h4 : KeepsBoard z s4 := keepsBoard_dropPreference (.foldl (fun t n => keepsBoard_testStream (.refl t) e n) h3)
  have hh : KeepsBoard z hd.1 := keepsBoard_compareGroup (keepsBoard_agreeSteps h4 e 2) e 2
  have h5 : KeepsBoard z s5 := keepsBoard_settleConflict (keepsBoard_hdgStep (keepsBoard_markUsed hh _) e _) 2
  have hp : KeepsBoard z p.1 := keepsBoard_compareGroup (keepsBoard_agreeSteps h5 e 1) e 1
  have hfixed : KeepsBoard z fixed_ := keepsBoard_fixOrigin (keepsBoard_markUsed hp _) e _
  have h6 : KeepsBoard z s6 := keepsBoard_settleConflict (keepsBoard_refFew (keepsBoard_posStep hfixed e _) _) 1
  have h7 : KeepsBoard z s7 := keepsBoard_dropPreference (keepsBoard_markUsed (.foldl (fun t n => keepsBoard_confEvents (.refl t) n) h6) _)
  have h8 : KeepsBoard z s8 := keepsBoard_observe (.ite (h7.updFus _) h7) e _ _ _ _
  have h9 : KeepsBoard z s9 := h8.updFus _
  exact h9.updFus _

theorem keepsBoard_fuse (e : Word) (recs : List Contrib) : KeepsBoard z (fuse e recs s) := by
  have hempty : ∀ n, KeepsBoard z (fuseEmpty n s) := by
    intro n
    induction n generalizing s with
    | zero => exact h
    | succ n ih => exact ih (keepsBoard_fuseEpoch h _ _)
  exact keepsBoard_fuseEpoch (.ite h (hempty _)) e recs

end

end Sys2Proof.Machine
end

section
/-! SUPPORT. What the publication of an image leaves alone: ramp, frames, captures, interrupts and the managers' DP work. -/

namespace Sys2Proof.Machine

theorem KeepsBoard.sol {s t : State} (h : KeepsBoard s t) (x : Sol) : KeepsBoard s { t with sol := x } := ⟨h.cfg, h.causes, h.images, h.open_⟩

/-! ## The ramp and what leaves with an image (R187, R188, R351, R367) -/

section
variable {z s : State} (h : KeepsBoard z s)
include h

theorem keepsBoard_startRamp : KeepsBoard z (startRamp s) := by
  unfold startRamp
  extract_lets due e hold s1
  have h1 : KeepsBoard z s1 := h.updDp _
  exact .ite h1 (h1.event _ _ _)

theorem keepsBoard_rampStep (hasState : Bool) : KeepsBoard z (rampStep hasState s) := by
  have htrack : KeepsBoard z (trackStep s) := by unfold trackStep; exact h.updDp _
  have hto : KeepsBoard z (rampToward s) := by unfold rampToward; exact h.updDp _
  unfold rampStep
  dsimp only
  exact .ite h (.ite (.ite (h.updDp _) h) (.ite (.ite (keepsBoard_startRamp h) h) (.ite htrack hto)))

theorem keepsBoard_setFlags : KeepsBoard z (setFlags s) := h.updDp _

theorem keepsBoard_brdCount (n k : Nat) : KeepsBoard z (brdCount n k s) := ⟨h.cfg, h.causes, h.images, h.open_⟩

theorem keepsBoard_sendJoinCopies : KeepsBoard z (sendJoinCopies s) := by
  unfold sendJoinCopies
  refine .foldl (fun t d => ?_) h
  have hcopy : ∀ (u : State) (code : Nat) (r : Req), KeepsBoard u (sendCopies code r [d] u) := fun u code r => .of_quiet (quiet_sendCopies _ _ _ u)
  exact .foldl (fun u n => hcopy u _ _) (.foldl (fun u x => hcopy u _ _) (.refl t))

/-! ## What an image does on every device (R214, R346, R372, R540) -/

theorem keepsBoard_settleSilent (old : Option Image) (i : Image) : KeepsBoard z (settleSilent old i s) := by
  unfold settleSilent
  exact .foldl (fun t m => .ite (((KeepsBoard.refl t).updMem _).clearAlarm _ _) (.refl t)) h

theorem keepsBoard_histoSample (i : Image) : KeepsBoard z (histoSample i s) := by
  unfold histoSample
  exact .ite h ⟨h.cfg, h.causes, h.images, h.open_⟩

theorem keepsBoard_captureImages (place : Nat) (is : List Image) (c : Capture) : KeepsBoard z (captureImages place is c s) := by
  have hflush : ∀ (n : Nat) (c : Capture) {t : State}, KeepsBoard z t → KeepsBoard z (flushCapture n place c t).2 := by
    intro n
    induction n with
    | zero => exact fun _ _ ht => ht
    | succ n ih =>
      intro c t ht
      unfold flushCapture
      split
      · exact ht
      · exact ih _ ⟨ht.cfg, ht.causes, ht.images, ht.open_⟩
  unfold captureImages
  extract_lets c1 r
  have hr : KeepsBoard z r.2 := hflush _ _ h
  exact ⟨hr.cfg, hr.causes, hr.images, hr.open_⟩

theorem keepsBoard_captureTrigger (e : Word) (a : Alarm) : KeepsBoard z (captureTrigger e a s) := by
  unfold captureTrigger
  dsimp only
  split
  · exact ⟨h.cfg, h.causes, h.images, h.open_⟩
  · refine (keepsBoard_captureImages ?_ _ _ _).event _ _ _
    exact ⟨h.cfg, h.causes, h.images, h.open_⟩

theorem keepsBoard_captureImage (before : List Alarm) (i : Image) : KeepsBoard z (captureImage before i s) := by
  unfold captureImage
  split
  · exact h
  extract_lets hits s1
  have h1 : KeepsBoard z s1 := .foldl (fun t a => keepsBoard_captureTrigger (.refl t) _ a) h
  split
  · exact .ite (keepsBoard_captureImages h1 _ _ _) h1
  · exact h1

theorem keepsBoard_updateGates : KeepsBoard z (updateGates s) := ⟨h.cfg, h.causes, h.images, h.open_⟩

theorem keepsBoard_inputBack (p : LoopCfg → Bool) : KeepsBoard z (inputBack p s) := ⟨h.cfg, h.causes, h.images, h.open_⟩

theorem keepsBoard_flrTrigger (k n : Nat) (on : Bool) : KeepsBoard z (flrTrigger k n on s) := by
  unfold flrTrigger
  extract_lets f rise f1 f2 old s1 s2
  have h1 : KeepsBoard z s1 := ⟨h.cfg, h.causes, h.images, h.open_⟩
  have h2 : KeepsBoard z s2 := .ite (h1.event _ _ _) h1
  exact .ite h (keepsBoard_updateGates h2)

theorem keepsBoard_flrBoard : KeepsBoard z (flrBoard s) := by
  unfold flrBoard
  refine .foldl (fun t n => ?_) h
  split
  · exact keepsBoard_flrTrigger (.refl t) _ _ _
  · exact .refl t

/-! ## The managers' DP work (R52, R225, R240, R248, R256, R262 to R267) -/

theorem keepsBoard_solveTrace (n : Nat) (o : SolveOut) : KeepsBoard z (solveTrace n o s) := by
  unfold solveTrace
  extract_lets fl s1 e
  have h1 : KeepsBoard z s1 := h.updStall _ _
  have he : ∀ on code sev ps {t : State}, KeepsBoard z t → KeepsBoard z (e on code sev ps t) := fun _ _ _ _ _ ht => .ite (ht.event _ _ _) ht
  exact he _ _ _ _ (he _ _ _ _ h1)

theorem keepsBoard_stopSolve (n : Nat) : KeepsBoard z (stopSolve s n) := by
  unfold stopSolve cutSolve
  exact ((keepsBoard_solveTrace h.stepFree _ _).updStall _ _).updStall _ _

theorem keepsBoard_startSolve (n : Nat) : KeepsBoard z (startSolve n s) := by
  unfold startSolve
  dsimp only
  exact .ite ((h.updStall _ _).event _ _ _) (h.updStall _ _)

theorem keepsBoard_batchDone (n : Nat) (a : BatchAcc) (first : Bool) : KeepsBoard z (batchDone n a first s) := by
  unfold batchDone
  exact .foldl (fun t e => (KeepsBoard.refl t).event _ _ _) (h.updStall _ _)

theorem keepsBoard_feedStall (g : Stages) (v : Variation) (n : Nat) : KeepsBoard z (feedStall g v n s) := by
  unfold feedStall builderBatch
  dsimp only
  exact .ite h (.ite ((h.updStall _ _).event _ _ _) (keepsBoard_batchDone (h.updStall _ _) _ _ _))

theorem keepsBoard_feedStalls (i : Image) : KeepsBoard z (feedStalls i s) := by
  unfold feedStalls
  dsimp only
  exact .foldl (fun t n => keepsBoard_feedStall (.refl t) _ _ n)
    (.foldl (fun t n => keepsBoard_feedStall (.refl t) _ _ _) (keepsBoard_feedStall h _ _ _))

theorem keepsBoard_switchTo (source kind : Nat) (desc : List Byte) (sig : Word) (loss : Nat) : KeepsBoard z (switchTo source kind desc sig loss s) := by
  unfold switchTo
  extract_lets old s1 sol s2
  have h1 : KeepsBoard z s1 := h.updStall _ _
  have h2 : KeepsBoard z s2 := (h1.sol _).updDp _
  exact (h2.clearAlarm _ _).event _ _ _

end

theorem keepsBoard_dispatch (n : Nat) {z s : State} (h : KeepsBoard z s) : KeepsBoard z (dispatch n s) := by
  induction n generalizing s with
  | zero => exact h
  | succ n ih =>
    unfold dispatch
    split
    · exact ih (keepsBoard_startSolve (h.sol _) _)
    · exact h

section
variable {z s : State} (h : KeepsBoard z s)
include h

theorem keepsBoard_switchStructure : KeepsBoard z (switchStructure s) := by
  unfold switchStructure
  extract_lets mask changed sol u x building
  have hu : KeepsBoard z u := (h.sol _).updDp _
  split
  · exact hu.updDp _
  split
  · exact keepsBoard_switchTo hu _ _ _ _ _
  split
  · exact keepsBoard_switchTo hu _ _ _ _ _
  split
  · exact keepsBoard_switchTo hu _ _ _ _ _
  · exact .ite hu ((hu.updDp _).event _ _ _)

theorem keepsBoard_buildCycle (i : Image) : KeepsBoard z (buildCycle i s) := by
  unfold buildCycle
  extract_lets u cold sol s1 s2 sol2
  have hu : KeepsBoard z u := keepsBoard_switchStructure (.foldl (fun t n => keepsBoard_stopSolve (.refl t) n) h)
  have h1 : KeepsBoard z s1 := (hu.sol _).updDp _
  have h2 : KeepsBoard z s2 := keepsBoard_feedStalls h1 i
  exact keepsBoard_dispatch 4 (h2.sol _)

theorem keepsBoard_fallbackLaw (i : Image) : KeepsBoard z (fallbackLaw i s) := by
  unfold fallbackLaw
  dsimp only
  exact .ite ((h.updDp _).event _ _ _) (h.updDp _)

theorem keepsBoard_settleBuilds : KeepsBoard z (settleBuilds s) := by
  unfold settleBuilds
  exact .foldl (fun t n => .ite ((KeepsBoard.refl t).updStall _ _) (.refl t)) h

theorem keepsBoard_dpWork (i : Image) : KeepsBoard z (dpWork i s) := by
  unfold dpWork
  extract_lets hasState u s1
  have hreload : KeepsBoard z (reloadStalls s) := ⟨h.cfg, h.causes, h.images, h.open_⟩
  have hstart : KeepsBoard z (if i.epoch = s.cyc.dpFirst then settleBuilds (reloadStalls s) else s) := .ite (keepsBoard_settleBuilds hreload) h
  have hu : KeepsBoard z u := .ite (hstart.updDp _) hstart
  have habandon : KeepsBoard z (abandonCycle u) := (hu.sol _).updDp _
  have h1 : KeepsBoard z s1 := .ite hu (.ite (keepsBoard_buildCycle hu i) (.ite habandon hu))
  exact .ite (keepsBoard_fallbackLaw h1 i) h1

end

end Sys2Proof.Machine
end

section
/-! SUPPORT. The clock of the cycle: what a tick leaves alone, the records a close commits, the image a publication leaves newest. -/

namespace Sys2Proof.Machine

/-! ## The tick (R47, R72) -/

/-- What stands through the work that a tick starts after its clocks have been set. -/
structure KeepsClock (s t : State) : Prop where
  ns : t.time.ns = s.time.ns
  tickNs : t.time.tickNs = s.time.tickNs
  cyc : t.cyc = s.cyc
  lockout : t.mram.lockoutMs = s.mram.lockoutMs
  unlock : t.safe.unlockMs = s.safe.unlockMs
  causes : t.safe.causes = s.safe.causes
  outs : t.safe.outs = s.safe.outs
  cfg : t.cfg = s.cfg
  dp : t.dp = s.dp

namespace KeepsClock

theorem refl (s : State) : KeepsClock s s := ⟨rfl, rfl, rfl, rfl, rfl, rfl, rfl, rfl, rfl⟩

theorem trans {s t u : State} (h : KeepsClock s t) (k : KeepsClock t u) : KeepsClock s u :=
  ⟨k.ns.trans h.ns, k.tickNs.trans h.tickNs, k.cyc.trans h.cyc, k.lockout.trans h.lockout, k.unlock.trans h.unlock, k.causes.trans h.causes,
    k.outs.trans h.outs, k.cfg.trans h.cfg, k.dp.trans h.dp⟩

theorem of_quiet {s t : State} (h : Quiet s t) : KeepsClock s t :=
  ⟨by rw [h.time], by rw [h.time], h.cyc, by rw [← h.mram], by rw [h.safe], by rw [h.safe], by rw [h.safe], h.cfg, h.dp⟩

theorem ite {c : Prop} [Decidable c] {s t u : State} (h : KeepsClock s t) (k : KeepsClock s u) : KeepsClock s (if c then t else u) := by
  split <;> assumption

theorem event {s t : State} (h : KeepsClock s t) (code sev : Nat) (ps : List Nat) : KeepsClock s (event code sev ps t) :=
  h.trans (.of_quiet (quiet_event _ _ _ t))

theorem updMac {s t : State} (h : KeepsClock s t) (mac : Nat) (f : MacTime → MacTime) : KeepsClock s (updMac mac f t) :=
  h.trans ⟨rfl, rfl, rfl, rfl, rfl, rfl, rfl, rfl, rfl⟩

theorem sendPtp {s t : State} (h : KeepsClock s t) (mac : Fin 2) (kind : Nat) : KeepsClock s (sendPtp mac kind t) :=
  h.trans (.of_quiet (quiet_emit _ t))

theorem arch {s t : State} (h : KeepsClock s t) (a : Arch) : KeepsClock s { t with arch := a } :=
  h.trans ⟨rfl, rfl, rfl, rfl, rfl, rfl, rfl, rfl, rfl⟩

end KeepsClock

theorem keepsClock_ptpTickMac (mac : Fin 2) (s : State) : KeepsClock s (ptpTickMac s mac) := by
  unfold ptpTickMac
  split
  · exact .refl s
  extract_lets t due ann s1 s2 s3 s4
  have h1 : KeepsClock s s1 := (KeepsClock.refl s).updMac _ _
  have h2 : KeepsClock s s2 := .ite (h1.sendPtp _ _) h1
  have h3 : KeepsClock s s3 := .ite (h2.sendPtp _ _) h2
  have h4 : KeepsClock s s4 := .ite (h3.sendPtp _ _) h3
  exact .ite (h4.updMac _ _) h4

theorem keepsClock_setArch (st : Nat) (s : State) : KeepsClock s (setArch st s) := by
  have hset : KeepsClock s (stepFree { s with arch := { s.arch with state := st } }) := ⟨rfl, rfl, rfl, rfl, rfl, rfl, rfl, rfl, rfl⟩
  exact .ite (.refl s) (hset.event _ _ _)

theorem keepsClock_reclaim (s : State) : KeepsClock s (reclaim s) := by
  unfold reclaim
  split
  · exact .refl s
  extract_lets data pick
  clear_value pick
  cases pick with
  | some b => exact ⟨rfl, rfl, rfl, rfl, rfl, rfl, rfl, rfl, rfl⟩
  | none => exact .ite (keepsClock_setArch 3 s) (.refl s)

theorem keepsClock_stageRecords (n : Nat) (s : State) : KeepsClock s (stageRecords n s) := by
  induction n generalizing s with
  | zero => exact .refl s
  | succ n ih =>
    unfold stageRecords
    split
    · exact .refl s
    extract_lets old mram arch s1 k rs e arch2
    have h1 : KeepsClock s s1 := by
      have hskip : KeepsClock s { s with mram := { s.mram with archNext := old }, arch := { s.arch with recNext := old } } :=
        ⟨rfl, rfl, rfl, rfl, rfl, rfl, rfl, rfl, rfl⟩
      exact .ite (hskip.event _ _ _) (.refl s)
    have hstage : ∀ place type item first last bs (t : State), KeepsClock t (stage place type item first last bs t) :=
      fun _ _ _ _ _ _ t => .ite ((KeepsClock.refl t).arch _) (.refl t)
    exact .ite h1 (((h1.arch _).trans (hstage _ _ _ _ _ _ _)).trans (ih _))

theorem keepsClock_startPage (s : State) : KeepsClock s (startPage s) := by
  unfold startPage
  dsimp only
  split
  · exact .refl s
  split
  · exact keepsClock_reclaim s
  · exact ((KeepsClock.refl s).arch _).trans (.of_quiet (quiet_emit _ _))

theorem keepsClock_archivePump (s : State) : KeepsClock s (archivePump s) :=
  .ite (.refl s) (((keepsClock_stageRecords 8 s).trans (keepsClock_reclaim _)).trans (keepsClock_startPage _))

theorem keepsClock_ageRequests (s : State) : KeepsClock s (ageRequests s) := by
  unfold ageRequests
  extract_lets l gone
  exact List.foldlRecOn (motive := KeepsClock s) _ _ ⟨rfl, rfl, rfl, rfl, rfl, rfl, rfl, rfl, rfl⟩ fun t ht d _ =>
    ht.trans ⟨rfl, rfl, rfl, rfl, rfl, rfl, rfl, rfl, rfl⟩

theorem keepsClock_quietStep (s : State) : KeepsClock s (quietStep s) := ⟨rfl, rfl, rfl, rfl, rfl, rfl, rfl, rfl, rfl⟩

/-- The counts that a tick sets before its work. -/
def tickCounts (s : State) : State := { s with
  time := tickTime s.time
  cyc := { s.cyc with ticks := s.cyc.ticks + 1 }
  safe := { s.safe with unlockMs := countDown s.safe.unlockMs }
  mram := { s.mram with lockoutMs := countDown s.mram.lockoutMs, wrong := s.mram.wrong.map (· + 1) }
  dp := { s.dp with joyTimer := if s.dp.mode = 2 || s.mem.joining then s.dp.joyTimer + 1 else s.dp.joyTimer } }

/-- The work of a tick. -/
def tickWork (s : State) : State :=
  let s1 := ageRequests s
  let s2 := if !s1.cyc.holds && s1.cyc.ticks % max 1 s1.cyc.e = 0 then quietStep s1 else s1
  archivePump (if linkRuns s2 then ptpTick s2 else s2)

theorem exec_tick {s : State} (h : s.rst.life ≠ .reset) : exec .tick s = .next (tickWork (tickCounts s)) := if_neg h

theorem keepsClock_tickWork (s : State) : KeepsClock s (tickWork s) := by
  unfold tickWork
  extract_lets s1 s2
  have h1 : KeepsClock s s1 := keepsClock_ageRequests s
  have h2 : KeepsClock s s2 := .ite (h1.trans (keepsClock_quietStep s1)) h1
  have hptp : KeepsClock s2 (ptpTick s2) := (keepsClock_ptpTickMac 0 s2).trans (keepsClock_ptpTickMac 1 _)
  exact (KeepsClock.ite (h2.trans hptp) h2).trans (keepsClock_archivePump _)

theorem slewed_ns (t : Time) : (slewed t).ns = t.ns := by
  unfold slewed endSlew
  split
  · split <;> rfl
  · rfl

/-- What a tick writes beside the clock. -/
theorem ns_withTick (u : Time) (n m : Nat) (q : List Nat) (f : List Int) :
    ({ u with tickNs := n, syncQuiet := q, holdoverMs := m, freqHist := f } : Time).ns = u.ns := rfl

theorem tickTime_ns (t : Time) : (tickTime t).ns = (runTo (tickBoundary t) t).ns := by
  unfold tickTime
  exact (ns_withTick _ _ _ _ _).trans (slewed_ns _)

/-! ## The records of a commit (R363 to R365) -/

theorem mem_placeHeld {a x : Held} {l : List Held} (h : x ∈ placeHeld a l) : x = a ∨ x ∈ l := by
  induction l with
  | nil => exact .inl (List.mem_singleton.mp h)
  | cons b l ih =>
    unfold placeHeld at h
    split at h
    · exact List.mem_cons.mp h
    · rcases List.mem_cons.mp h with rfl | h
      · exact .inr List.mem_cons_self
      · exact (ih h).imp_right (List.mem_cons_of_mem _)

theorem mem_sortHeld {x : Held} {l : List Held} (h : x ∈ sortHeld l) : x ∈ l := by
  refine List.foldlRecOn (motive := fun acc => x ∈ acc → x ∈ l) l (fun acc a => placeHeld a acc) (fun h => absurd h List.not_mem_nil) (fun acc hacc a ha hx => ?_) h
  rcases mem_placeHeld hx with rfl | hx
  · exact ha
  · exact hacc hx

/-- A record of a commit is of its epoch and on time, or of an earlier one and late. -/
theorem commitSet_late {e : Word} {s : State} {c : Contrib} (h : c ∈ commitSet e s) : epochDiff c.epoch e ≤ 0 ∧ c.late = decide (c.epoch ≠ e) := by
  unfold commitSet at h
  dsimp only at h
  rcases List.mem_append.mp h with h | h
  all_goals
    obtain ⟨x, hx, rfl⟩ := List.mem_map.mp h
    obtain ⟨hdue, hepoch⟩ := List.mem_filter.mp (mem_sortHeld hx)
    have hold := (List.mem_filter.mp hdue).2
    rw [Bool.and_eq_true] at hold
    exact ⟨of_decide_eq_true hold.1, by simpa using hepoch⟩

theorem fitRecs_sublist (room : Nat) (l : List Contrib) : (fitRecs room l).Sublist l := by
  induction l generalizing room with
  | nil => exact .slnil
  | cons c l ih =>
    unfold fitRecs
    split
    · exact (ih _).cons_cons c
    · exact List.nil_sublist _

theorem fitRecs_length_le (room : Nat) (l : List Contrib) : ((fitRecs room l).map contribLen).sum ≤ room := by
  induction l generalizing room with
  | nil => exact Nat.zero_le _
  | cons c l ih =>
    unfold fitRecs
    split
    · rw [List.map_cons, List.sum_cons]
      have hrest := ih (room - contribLen c)
      omega
    · exact Nat.zero_le _

theorem takeCommit_sublist (e : Word) (s : State) : (takeCommit e s).2.1.Sublist (fitRecs 11264 (commitSet e s)) := by
  unfold takeCommit
  dsimp only
  split <;> exact List.filter_sublist

/-- What a commit takes: at most the bytes of a COMMIT section, of the epoch on time and of earlier ones late. -/
theorem takeCommit_facts (e : Word) (s : State) : ((takeCommit e s).2.1.map contribLen).sum ≤ 11264 ∧
    ∀ c ∈ (takeCommit e s).2.1, epochDiff c.epoch e ≤ 0 ∧ c.late = decide (c.epoch ≠ e) := by
  have hsub := takeCommit_sublist e s
  exact ⟨((hsub.map contribLen).sum_le_sum (fun _ _ => Nat.zero_le _)).trans (fitRecs_length_le _ _),
    fun c hc => commitSet_late ((fitRecs_sublist _ _).subset (hsub.subset hc))⟩

/-- A close leaves the epoch closed and its image open, with what the fusion is to take. -/
theorem closeEpoch_facts (s : State) : ∃ u cs full, (closeEpoch s).cyc.closed = some s.cyc.epoch ∧
    (closeEpoch s).brd.open_ = some (openImage s.cyc.epoch cs full u) ∧ (closeEpoch s).fus.todo = some cs ∧
    (cs.map contribLen).sum ≤ 11264 ∧ ∀ c ∈ cs, epochDiff c.epoch s.cyc.epoch ≤ 0 ∧ c.late = decide (c.epoch ≠ s.cyc.epoch) := by
  unfold closeEpoch
  extract_lets e s1 s2 r src s3 s4 s5 cyc brd
  clear_value s2
  have hsum : (r.2.1.map contribLen).sum ≤ 11264 := (takeCommit_facts e s2).1
  have hlate : ∀ c ∈ r.2.1, epochDiff c.epoch e ≤ 0 ∧ c.late = decide (c.epoch ≠ e) := (takeCommit_facts e s2).2
  have htodo : s5.fus.todo = some r.2.1 := rfl
  clear_value s5 r
  exact ⟨s5, r.2.1, r.2.2, rfl, rfl, htodo, hsum, hlate⟩

/-! ## The publication (R359, R367) -/

/-- A published image is the newest, and no epoch is open any more. -/
structure Published (i : Image) (s t : State) : Prop where
  open_ : t.brd.open_ = none
  newest : t.brd.images.head? = some i
  causes : t.safe.causes = s.safe.causes
  cfg : t.cfg = s.cfg

theorem Published.trans {i : Image} {s t u : State} (h : Published i s t) (k : KeepsBoard t u) : Published i s u :=
  ⟨k.open_.trans h.open_, (congrArg List.head? k.images).trans h.newest, k.causes.trans h.causes, k.cfg.trans h.cfg⟩

/-- An image taken is the newest held. -/
theorem imageTaken_published {i : Image} {s : State} (hopen : s.brd.open_ = none) : Published i s (imageTaken i s) := by
  unfold imageTaken
  extract_lets old gen alarms keep s1 s2 s3 told s3' s4
  have h1 : Published i s s1 := by
    refine ⟨hopen, ?_, rfl, rfl⟩
    show ((i :: s.brd.images).take keep).head? = some i
    unfold keep
    split <;> rfl
  have h2 : KeepsBoard s1 s2 := keepsBoard_settleSilent (.ite (.of_quiet (quiet_raiseIrq 6 s1)) (.refl s1)) _ _
  have h3 : KeepsBoard s1 s3 := keepsBoard_captureImage (keepsBoard_histoSample h2 i) _ _
  have h3' : KeepsBoard s1 s3' := h3.updMem _
  have h4 : KeepsBoard s1 s4 := keepsBoard_updateGates (keepsBoard_flrBoard (keepsBoard_inputBack h3' _))
  clear_value s4 s1
  exact h1.trans (.ite (keepsBoard_dpWork h4 i) h4)

/-- The frames of an image leave; no epoch is open any more. -/
theorem sendImage_facts (i : Image) (s : State) : (sendImage i s).brd.open_ = none ∧ (sendImage i s).safe.causes = s.safe.causes ∧
    (sendImage i s).cfg = s.cfg := by
  unfold sendImage
  extract_lets s1 s2 safe
  have h1 : KeepsBoard s s1 := keepsBoard_sendJoinCopies
    ((keepsBoard_brdCount (keepsBoard_brdCount (keepsBoard_brdCount (.refl s) _ _) _ _) _ _).trans (.of_quiet (quiet_sendLong _ _ _ _ _ _)))
  clear_value s1
  exact ⟨rfl, h1.causes, h1.cfg⟩

theorem sendImage_imageTaken_published {i : Image} {s t : State} (h : KeepsBoard s t) : Published i s (imageTaken i (sendImage i t)) := by
  obtain ⟨hopen, hcauses, hcfg⟩ := sendImage_facts i t
  obtain ⟨hopen', hnewest, hcauses', hcfg'⟩ := imageTaken_published (i := i) hopen
  exact ⟨hopen', hnewest, hcauses'.trans (hcauses.trans h.causes), hcfg'.trans (hcfg.trans h.cfg)⟩

/-- A publication leaves the image composed of the open one the newest. -/
theorem publish_published {late : Bool} {o : Image} {s : State} (h : s.brd.open_ = some o) :
    ∃ u, Published (composeImage late u o) s (publish late s) := by
  unfold publish
  split
  next hnone => exact absurd (h.symm.trans hnone) (Option.some_ne_none o)
  rename_i o' ho
  obtain rfl : o = o' := Option.some.inj (h.symm.trans ho)
  extract_lets todo s0 s1 s2 i s3
  have h0 : KeepsBoard s s0 := (KeepsBoard.refl s).updFus _
  have h1 : KeepsBoard s s1 := .ite (h0.event _ _ _) (keepsBoard_fuse h0 _ _)
  have h2 : KeepsBoard s s2 := keepsBoard_setFlags (.ite (keepsBoard_rampStep h1 _) h1)
  clear_value s2
  refine ⟨s2, (?_ : Published i s _)⟩
  clear_value i
  have h3 : Published i s s3 := sendImage_imageTaken_published h2
  split
  · exact h3.trans (keepsBoard_fuse (.refl s3) _ _)
  · exact h3

/-- A section of a code stands in an image whose sections hold one. -/
theorem imgSec_isSome {i : Image} {x : Sec} (h : x ∈ i.secs) : (imgSec i x.code).isSome = true := by
  rw [imgSec, List.find?_isSome]
  exact ⟨x, h, decide_eq_true rfl⟩

/-- In time the image has its fusion's sections. -/
theorem composeImage_fusion (s : State) (o : Image) : (imgSec (composeImage false s o) 1).isSome = true ∧
    (imgSec (composeImage false s o) 2).isSome = true := by
  have h : ∀ x ∈ [({ code := 1, bytes := 404, val := streamsSec s } : Sec), { code := 2, bytes := 88, val := stateSec s }],
      x ∈ (composeImage false s o).secs := by
    intro x hx
    unfold composeImage
    simp only [List.mem_append]
    exact .inl (.inl (.inl (.inl (.inr hx))))
  exact ⟨imgSec_isSome (h _ List.mem_cons_self), imgSec_isSome (h _ (List.mem_cons_of_mem _ List.mem_cons_self))⟩

/-- The sections of a late image beside those that the close fixed have codes from 3 on. -/
theorem composeImage_secs_late {s : State} {o : Image} {x : Sec} (h : x ∈ (composeImage true s o).secs) : x ∈ o.secs ∨ 3 ≤ x.code := by
  unfold composeImage at h
  extract_lets fusion plan conseq secs mask flags at h
  have hplan : ∀ y ∈ plan, 3 ≤ y.code := by
    unfold plan
    split <;> simp
  have hconseq : ∀ y ∈ conseq, 3 ≤ y.code := by
    unfold conseq
    split <;> simp
  replace h : x ∈ secs := h
  simp only [secs, List.mem_append] at h
  rcases h with ((((h | h) | h) | h) | h) | h
  · exact .inl h
  · exact absurd h List.not_mem_nil
  · obtain rfl := List.mem_singleton.mp h
    exact .inr (le_refl 3)
  · exact .inr (hplan x h)
  · simp only [List.mem_cons, List.not_mem_nil, or_false] at h
    rcases h with rfl | rfl | rfl | rfl
    · exact .inr (show 3 ≤ 5 by decide)
    · exact .inr (show 3 ≤ 6 by decide)
    · exact .inr (show 3 ≤ 7 by decide)
    · exact .inr (show 3 ≤ 8 by decide)
  · exact .inr (hconseq x h)

/-- A late image lacks the fusion's sections, and says that it is late. -/
theorem composeImage_late {s : State} {o : Image} (h : ∀ x ∈ o.secs, x.code = 0 ∨ x.code = 10) :
    imgSec (composeImage true s o) 1 = none ∧ imgSec (composeImage true s o) 2 = none ∧ (composeImage true s o).flags.getLsbD 3 = true := by
  have hcode : ∀ x ∈ (composeImage true s o).secs, x.code ≠ 1 ∧ x.code ≠ 2 := by
    intro x hx
    rcases composeImage_secs_late hx with hx | hx
    · have hopen := h x hx
      omega
    · omega
  refine ⟨List.find?_eq_none.mpr fun x hx => ?_, List.find?_eq_none.mpr fun x hx => ?_, ?_⟩
  · simpa using (hcode x hx).1
  · simpa using (hcode x hx).2
  · show (o.flags ||| BitVec.ofNat 8 (pack [(3, 0), (1, 1), (1, s.brd.memberChange.toNat)])).getLsbD 3 = true
    rw [BitVec.getLsbD_or]
    refine (Bool.or_eq_true _ _).mpr (.inr ?_)
    generalize s.brd.memberChange = changed
    revert changed
    decide

/-! ## Epoch instants (R48, R50) -/

/-- Without a swap set no publication comes before the epoch number steps. -/
theorem exec_epochInstant {s : State} (hrun : s.cyc.holds = true ∨ s.isActive = true) (hswap : s.brd.swapOn = false) :
    exec .epochInstant s = .next (epochWork (nextEpoch s)) := by
  have hdue : swapDue (nextEpoch s) = false := by
    have hbrd : (nextEpoch s).brd = s.brd := rfl
    unfold swapDue
    rw [hbrd, hswap, Bool.and_false, Bool.false_and]
  show execEpochInstant s = _
  unfold execEpochInstant
  rw [if_neg (by rcases hrun with h | h <;> simp [h])]
  dsimp only
  rw [hdue]
  rfl

/-- The epoch after the first has the next number (R48). -/
theorem nextEpoch_cyc {s : State} (h : s.cyc.holds = true) : (nextEpoch s).cyc.epoch = s.cyc.epoch + 1 ∧
    (nextEpoch s).cyc.dpCycle = (if (s.cyc.k : Int) ≤ epochDiff (s.cyc.epoch + 1) s.cyc.dpFirst then s.cyc.dpCycle + 1 else s.cyc.dpCycle) ∧
    (nextEpoch s).cyc.dpFirst = if (s.cyc.k : Int) ≤ epochDiff (s.cyc.epoch + 1) s.cyc.dpFirst then s.cyc.epoch + 1 else s.cyc.dpFirst := by
  unfold nextEpoch
  simp only [h, Bool.not_true, Bool.false_eq_true, if_false, ge_iff_le, decide_eq_true_eq, and_self]

/-- The first epoch of a cycle is epoch 0 of DP cycle 0 (R50). -/
theorem nextEpoch_first {s : State} (h : s.cyc.holds = false) : (nextEpoch s).cyc.holds = true ∧ (nextEpoch s).cyc.epoch = 0 ∧
    (nextEpoch s).cyc.dpCycle = 0 ∧ (nextEpoch s).cyc.dpFirst = 0 := by
  unfold nextEpoch
  simp only [h, Bool.not_false, if_true, and_self]

/-- Settles O54: what each step of the cycle's clock leaves alone, with the records of the close and the sections of the publication. -/
theorem epochClock : Obligations.EpochClock := by
  unfold Obligations.EpochClock
  refine ⟨fun s hlife => ?_, fun s hholds hswap => ?_, fun s hholds hactive hswap => ?_, fun s hactive hholds hclosed hsoon => ?_,
    fun o s hactive hopen => ?_, fun o s hactive hopen hsecs => ?_⟩
  · have hkeep := keepsClock_tickWork (tickCounts s)
    exact ⟨_, exec_tick hlife, hkeep.ns.trans (tickTime_ns s.time), hkeep.tickNs, (congrArg Cyc.ticks hkeep.cyc).trans rfl, (congrArg Cyc.epoch hkeep.cyc).trans rfl, hkeep.lockout,
      hkeep.unlock, hkeep.causes, hkeep.outs, hkeep.cfg, (congrArg Dp.mode hkeep.dp).trans rfl⟩
  · obtain ⟨hepoch, hcycle, hfirst⟩ := nextEpoch_cyc hholds
    refine ⟨exec_epochInstant (.inl hholds) hswap, hepoch, rfl, rfl, fun hin => ?_, fun hturn => ?_⟩
    · exact ⟨hcycle.trans (if_neg (not_le.mpr hin)), hfirst.trans (if_neg (not_le.mpr hin))⟩
    · exact ⟨hcycle.trans (if_pos hturn), hfirst.trans (if_pos hturn)⟩
  · exact ⟨exec_epochInstant (.inr hactive) hswap, nextEpoch_first hholds⟩
  · obtain ⟨u, cs, full, hdone, hopen, htodo, hsum, hlate⟩ := closeEpoch_facts s
    refine ⟨_, _, if_neg ?_, rfl, hdone, hopen, rfl, htodo, hsum, hlate⟩
    simp [hactive, hholds, hclosed, hsoon]
  · obtain ⟨u, hpub⟩ := publish_published (late := false) hopen
    obtain ⟨h1, h2⟩ := composeImage_fusion u o
    exact ⟨_, _, if_pos hactive, hpub.open_, hpub.newest, rfl, rfl, h1, h2, hpub.causes, hpub.cfg⟩
  · obtain ⟨u, hpub⟩ := publish_published (late := true) hopen
    obtain ⟨h1, h2, hflag⟩ := composeImage_late (s := u) hsecs
    exact ⟨_, _, if_pos hactive, hpub.open_, hpub.newest, rfl, rfl, h1, h2, hflag, hpub.causes, hpub.cfg⟩

end Sys2Proof.Machine
end
